-- ==== Sys2Proof/Word.lean ====
section
/-! DEFINITION. The word types of the Sarhel 480: 64-bit registers (R64) and bytes (R3). -/

namespace Sys2Proof

/-- A 64-bit register value (R64). -/
abbrev Word := BitVec 64

/-- A byte of memory (R3). -/
abbrev Byte := BitVec 8

end Sys2Proof
end

