-- ==== Sys2Proof/Syntax.lean ====
section
/-! DEFINITION. The abstract syntax of ZWF (R19 to R36): register names, and one constructor of `Instr` for
each row of spec/opcode_table.json. The rows with an encoding carry the fields of their word (R20). The rows with
no word are steps of the hardware, of steward firmware or of the host: what the host and firmware name is carried by
the constructor, and a step of the hardware acts on the subject that `State.subj` names. -/

namespace Sys2Proof

/-- A direction of a neighbour port (Table FM-3), in the order n, e, s, w of R246. -/
inductive Dir where
  | n | e | s | w
deriving DecidableEq, Repr

/-- A register name of Table FM-3. -/
inductive Reg where
  /-- window register g0 to g95 -/
  | g (i : Fin 96)
  /-- core-shared register s0 to s15 -/
  | s (i : Fin 16)
  /-- stream register st0 to st7 -/
  | st (i : Fin 8)
  /-- neighbour port -/
  | nb (d : Dir)
  /-- role queue q0 to q3 -/
  | q (i : Fin 4)
deriving DecidableEq, Repr

/-- What steward firmware does through the steward access path (R314, R246, R320, R324). Slots are named by
their thread key, cores by their core number. -/
inductive StewardOp where
  /-- halts a slot at an instruction boundary -/
  | halt (tk : Nat)
  /-- resumes a slot that is halted (slot 0 included, R320) -/
  | resume (tk : Nat)
  /-- frees a halted slot -/
  | free (tk : Nat)
  /-- writes a firmware CSR or a core CSR of a core -/
  | writeCsr (core : Nat) (csr : BitVec 9) (v : Word)
  /-- sets EVT bit 9 of a core (R324) -/
  | setEvt (core : Nat)
  /-- pushes an entry with the given tag, plain, end of stream or stop token (R238), into role queue i of a core, as its writer would
  (R246) -/
  | pushRole (core : Nat) (i : Nat) (v : Word) (tag : Fin 3)
  /-- pushes an entry with the given tag into an inbound neighbour queue, as the upstream slot would (R246) -/
  | pushNeighbour (nk : Nat) (v : Word) (tag : Fin 3)
  /-- zeroes s0 to s15 of a channel core (R277) -/
  | zeroShared (core : Nat)
  /-- sets the count of corrected errors at which a slice is retired (R126) -/
  | setThreshold (n : Nat)
  /-- resets a core, and tells every core of it (R288) -/
  | coreReset (core : Nat)
deriving DecidableEq, Repr

/-- One constructor for each row of spec/opcode_table.json. -/
inductive Instr where
  /-- ADD (R69) -/
  | add (sm : Bool) (rd : Reg) (ra : Reg) (rb : Reg)
  /-- SUB (R69) -/
  | sub (sm : Bool) (rd : Reg) (ra : Reg) (rb : Reg)
  /-- AND (R69) -/
  | and (sm : Bool) (rd : Reg) (ra : Reg) (rb : Reg)
  /-- OR (R69) -/
  | or (sm : Bool) (rd : Reg) (ra : Reg) (rb : Reg)
  /-- XOR (R69) -/
  | xor (sm : Bool) (rd : Reg) (ra : Reg) (rb : Reg)
  /-- ANDN (R69) -/
  | andn (sm : Bool) (rd : Reg) (ra : Reg) (rb : Reg)
  /-- MIN (R69) -/
  | min (sm : Bool) (rd : Reg) (ra : Reg) (rb : Reg)
  /-- MAX (R69) -/
  | max (sm : Bool) (rd : Reg) (ra : Reg) (rb : Reg)
  /-- MINU (R69) -/
  | minu (sm : Bool) (rd : Reg) (ra : Reg) (rb : Reg)
  /-- MAXU (R69) -/
  | maxu (sm : Bool) (rd : Reg) (ra : Reg) (rb : Reg)
  /-- MUL (R70) -/
  | mul (sm : Bool) (rd : Reg) (ra : Reg) (rb : Reg)
  /-- MULH (R70) -/
  | mulh (sm : Bool) (rd : Reg) (ra : Reg) (rb : Reg)
  /-- MULHU (R70) -/
  | mulhu (sm : Bool) (rd : Reg) (ra : Reg) (rb : Reg)
  /-- DIV (R70) -/
  | div (sm : Bool) (rd : Reg) (ra : Reg) (rb : Reg)
  /-- DIVU (R70) -/
  | divu (sm : Bool) (rd : Reg) (ra : Reg) (rb : Reg)
  /-- REM (R70) -/
  | rem (sm : Bool) (rd : Reg) (ra : Reg) (rb : Reg)
  /-- REMU (R70) -/
  | remu (sm : Bool) (rd : Reg) (ra : Reg) (rb : Reg)
  /-- SLL (R71) -/
  | sll (sm : Bool) (rd : Reg) (ra : Reg) (rb : Reg)
  /-- SRL (R71) -/
  | srl (sm : Bool) (rd : Reg) (ra : Reg) (rb : Reg)
  /-- SRA (R71) -/
  | sra (sm : Bool) (rd : Reg) (ra : Reg) (rb : Reg)
  /-- ROL (R71) -/
  | rol (sm : Bool) (rd : Reg) (ra : Reg) (rb : Reg)
  /-- ROR (R71) -/
  | ror (sm : Bool) (rd : Reg) (ra : Reg) (rb : Reg)
  /-- CLZ (R71) -/
  | clz (sm : Bool) (rd : Reg) (ra : Reg)
  /-- CTZ (R71) -/
  | ctz (sm : Bool) (rd : Reg) (ra : Reg)
  /-- POPC (R71) -/
  | popc (sm : Bool) (rd : Reg) (ra : Reg)
  /-- BSET (R71) -/
  | bset (sm : Bool) (rd : Reg) (ra : Reg) (rb : Reg)
  /-- BCLR (R71) -/
  | bclr (sm : Bool) (rd : Reg) (ra : Reg) (rb : Reg)
  /-- BTGL (R71) -/
  | btgl (sm : Bool) (rd : Reg) (ra : Reg) (rb : Reg)
  /-- BFX (R72) -/
  | bfx (sm : Bool) (rd : Reg) (ra : Reg) (rb : Reg)
  /-- BFXU (R72) -/
  | bfxu (sm : Bool) (rd : Reg) (ra : Reg) (rb : Reg)
  /-- BFI (R72) -/
  | bfi (sm : Bool) (rd : Reg) (ra : Reg) (rb : Reg)
  /-- CMPEQ (R73) -/
  | cmpeq (sm : Bool) (rd : Reg) (ra : Reg) (rb : Reg)
  /-- CMPNE (R73) -/
  | cmpne (sm : Bool) (rd : Reg) (ra : Reg) (rb : Reg)
  /-- CMPLT (R73) -/
  | cmplt (sm : Bool) (rd : Reg) (ra : Reg) (rb : Reg)
  /-- CMPLTU (R73) -/
  | cmpltu (sm : Bool) (rd : Reg) (ra : Reg) (rb : Reg)
  /-- CMPLE (R73) -/
  | cmple (sm : Bool) (rd : Reg) (ra : Reg) (rb : Reg)
  /-- CMPLEU (R73) -/
  | cmpleu (sm : Bool) (rd : Reg) (ra : Reg) (rb : Reg)
  /-- ADDI (R74) -/
  | addi (sm : Bool) (rd : Reg) (ra : Reg) (i : BitVec 11)
  /-- ANDI (R74) -/
  | andi (sm : Bool) (rd : Reg) (ra : Reg) (i : BitVec 11)
  /-- ORI (R74) -/
  | ori (sm : Bool) (rd : Reg) (ra : Reg) (i : BitVec 11)
  /-- XORI (R74) -/
  | xori (sm : Bool) (rd : Reg) (ra : Reg) (i : BitVec 11)
  /-- SLLI (R75) -/
  | slli (sm : Bool) (rd : Reg) (ra : Reg) (n : BitVec 6)
  /-- SRLI (R75) -/
  | srli (sm : Bool) (rd : Reg) (ra : Reg) (n : BitVec 6)
  /-- SRAI (R75) -/
  | srai (sm : Bool) (rd : Reg) (ra : Reg) (n : BitVec 6)
  /-- ROLI (R75) -/
  | roli (sm : Bool) (rd : Reg) (ra : Reg) (n : BitVec 6)
  /-- RORI (R75) -/
  | rori (sm : Bool) (rd : Reg) (ra : Reg) (n : BitVec 6)
  /-- BSETI (R75) -/
  | bseti (sm : Bool) (rd : Reg) (ra : Reg) (n : BitVec 6)
  /-- BCLRI (R75) -/
  | bclri (sm : Bool) (rd : Reg) (ra : Reg) (n : BitVec 6)
  /-- BTGLI (R75) -/
  | btgli (sm : Bool) (rd : Reg) (ra : Reg) (n : BitVec 6)
  /-- CMPEQI (R76) -/
  | cmpeqi (sm : Bool) (rd : Reg) (ra : Reg) (v : BitVec 8)
  /-- CMPNEI (R76) -/
  | cmpnei (sm : Bool) (rd : Reg) (ra : Reg) (v : BitVec 8)
  /-- CMPLTI (R76) -/
  | cmplti (sm : Bool) (rd : Reg) (ra : Reg) (v : BitVec 8)
  /-- CMPLTUI (R76) -/
  | cmpltui (sm : Bool) (rd : Reg) (ra : Reg) (v : BitVec 8)
  /-- CMPLEI (R76) -/
  | cmplei (sm : Bool) (rd : Reg) (ra : Reg) (v : BitVec 8)
  /-- CMPLEUI (R76) -/
  | cmpleui (sm : Bool) (rd : Reg) (ra : Reg) (v : BitVec 8)
  /-- LI (R77) -/
  | li (sm : Bool) (rd : Reg) (i : BitVec 18)
  /-- LIS (R77) -/
  | lis (sm : Bool) (rd : Reg) (i : BitVec 18)
  /-- MOV (R78) -/
  | mov (sm : Bool) (rd : Reg) (rb : Reg)
  /-- SEL (R78) -/
  | sel (sm : Bool) (rd : Reg) (ra : Reg) (rb : Reg)
  /-- GADR (R78) -/
  | gadr (sm : Bool) (rd : Reg) (ra : Reg) (rb : Reg)
  /-- J (R82) -/
  | j (sm : Bool) (i : BitVec 25)
  /-- JL (R82) -/
  | jl (sm : Bool) (i : BitVec 25)
  /-- JR (R82) -/
  | jr (sm : Bool) (ra : Reg)
  /-- JLR (R82) -/
  | jlr (sm : Bool) (rd : Reg) (ra : Reg)
  /-- BBS (R83) -/
  | bbs (sm : Bool) (ra : Reg) (b : BitVec 6) (i : BitVec 12)
  /-- BBC (R83) -/
  | bbc (sm : Bool) (ra : Reg) (b : BitVec 6) (i : BitVec 12)
  /-- BZ (R84) -/
  | bz (sm : Bool) (ra : Reg) (i : BitVec 12)
  /-- BNZ (R84) -/
  | bnz (sm : Bool) (ra : Reg) (i : BitVec 12)
  /-- BLOOP (R84) -/
  | bloop (sm : Bool) (ra : Reg) (i : BitVec 12)
  /-- PRE (R27) -/
  | pre (sm : Bool) (g : Reg) (b : BitVec 6) (e : BitVec 1) (n : BitVec 1) (f : BitVec 4) (x : BitVec 4) (o : BitVec 2)
  /-- NOP (R92) -/
  | nop (sm : Bool)
  /-- YIELD (R92) -/
  | yield (sm : Bool)
  /-- LDB (R97) -/
  | ldb (sm : Bool) (rd : Reg) (ra : Reg) (r : BitVec 2) (t : BitVec 7)
  /-- LDH (R97) -/
  | ldh (sm : Bool) (rd : Reg) (ra : Reg) (r : BitVec 2) (t : BitVec 7)
  /-- LDW (R97) -/
  | ldw (sm : Bool) (rd : Reg) (ra : Reg) (r : BitVec 2) (t : BitVec 7)
  /-- LDD (R97) -/
  | ldd (sm : Bool) (rd : Reg) (ra : Reg) (r : BitVec 2) (t : BitVec 7)
  /-- LDBU (R97) -/
  | ldbu (sm : Bool) (rd : Reg) (ra : Reg) (r : BitVec 2) (t : BitVec 7)
  /-- LDHU (R97) -/
  | ldhu (sm : Bool) (rd : Reg) (ra : Reg) (r : BitVec 2) (t : BitVec 7)
  /-- LDWU (R97) -/
  | ldwu (sm : Bool) (rd : Reg) (ra : Reg) (r : BitVec 2) (t : BitVec 7)
  /-- STB (R98) -/
  | stb (sm : Bool) (rd : Reg) (ra : Reg) (r : BitVec 2) (t : BitVec 7)
  /-- STH (R98) -/
  | sth (sm : Bool) (rd : Reg) (ra : Reg) (r : BitVec 2) (t : BitVec 7)
  /-- STW (R98) -/
  | stw (sm : Bool) (rd : Reg) (ra : Reg) (r : BitVec 2) (t : BitVec 7)
  /-- STD (R98) -/
  | std (sm : Bool) (rd : Reg) (ra : Reg) (r : BitVec 2) (t : BitVec 7)
  /-- LDV (R99) -/
  | ldv (sm : Bool) (rd : Reg) (ra : Reg) (r : BitVec 2) (t : BitVec 7)
  /-- STV (R99) -/
  | stv (sm : Bool) (rd : Reg) (ra : Reg) (r : BitVec 2) (t : BitVec 7)
  /-- GLD (R105) -/
  | gld (sm : Bool) (rd : Reg) (ra : Reg) (r : BitVec 2) (z : BitVec 2) (n : BitVec 1) (q : BitVec 1) (o : BitVec 5)
  /-- GST (R111) -/
  | gst (sm : Bool) (rd : Reg) (ra : Reg) (r : BitVec 2) (z : BitVec 2) (q : BitVec 1) (o : BitVec 5)
  /-- GLDV (R106) -/
  | gldv (sm : Bool) (rd : Reg) (ra : Reg) (r : BitVec 2) (n : BitVec 1) (q : BitVec 1) (o : BitVec 5)
  /-- GSTV (R112) -/
  | gstv (sm : Bool) (rd : Reg) (ra : Reg) (r : BitVec 2) (q : BitVec 1) (o : BitVec 5)
  /-- SBIND (R107) -/
  | sbind (sm : Bool) (rd : Reg) (ra : Reg)
  /-- SCNT (R108) -/
  | scnt (sm : Bool) (rd : Reg) (ra : Reg)
  /-- GINV (R114) -/
  | ginv (sm : Bool) (ra : Reg)
  /-- GPRF (R114) -/
  | gprf (sm : Bool) (ra : Reg) (r : BitVec 2)
  /-- LCLEAN (R114) -/
  | lclean (sm : Bool) (ra : Reg)
  /-- LFLUSH (R114) -/
  | lflush (sm : Bool) (ra : Reg)
  /-- AMOADD (R140) -/
  | amoadd (sm : Bool) (rd : Reg) (ra : Reg) (rb : Reg)
  /-- AMOAND (R140) -/
  | amoand (sm : Bool) (rd : Reg) (ra : Reg) (rb : Reg)
  /-- AMOOR (R140) -/
  | amoor (sm : Bool) (rd : Reg) (ra : Reg) (rb : Reg)
  /-- AMOXOR (R140) -/
  | amoxor (sm : Bool) (rd : Reg) (ra : Reg) (rb : Reg)
  /-- AMOMIN (R140) -/
  | amomin (sm : Bool) (rd : Reg) (ra : Reg) (rb : Reg)
  /-- AMOMAX (R140) -/
  | amomax (sm : Bool) (rd : Reg) (ra : Reg) (rb : Reg)
  /-- AMOMINU (R140) -/
  | amominu (sm : Bool) (rd : Reg) (ra : Reg) (rb : Reg)
  /-- AMOMAXU (R140) -/
  | amomaxu (sm : Bool) (rd : Reg) (ra : Reg) (rb : Reg)
  /-- AMOSWP (R140) -/
  | amoswp (sm : Bool) (rd : Reg) (ra : Reg) (rb : Reg)
  /-- ACAS (R140) -/
  | acas (sm : Bool) (rd : Reg) (ra : Reg) (rb : Reg)
  /-- REDADD (R143) -/
  | redadd (sm : Bool) (ra : Reg) (rb : Reg)
  /-- REDAND (R143) -/
  | redand (sm : Bool) (ra : Reg) (rb : Reg)
  /-- REDOR (R143) -/
  | redor (sm : Bool) (ra : Reg) (rb : Reg)
  /-- REDXOR (R143) -/
  | redxor (sm : Bool) (ra : Reg) (rb : Reg)
  /-- REDMIN (R143) -/
  | redmin (sm : Bool) (ra : Reg) (rb : Reg)
  /-- REDMAX (R143) -/
  | redmax (sm : Bool) (ra : Reg) (rb : Reg)
  /-- REDMINU (R143) -/
  | redminu (sm : Bool) (ra : Reg) (rb : Reg)
  /-- REDMAXU (R143) -/
  | redmaxu (sm : Bool) (ra : Reg) (rb : Reg)
  /-- LDFE (R145) -/
  | ldfe (sm : Bool) (rd : Reg) (ra : Reg) (t : BitVec 4)
  /-- LDFF (R145) -/
  | ldff (sm : Bool) (rd : Reg) (ra : Reg) (t : BitVec 4)
  /-- STFE (R145) -/
  | stfe (sm : Bool) (rd : Reg) (ra : Reg) (t : BitVec 4)
  /-- STFF (R145) -/
  | stff (sm : Bool) (rd : Reg) (ra : Reg) (t : BitVec 4)
  /-- FEQ (R145) -/
  | feq (sm : Bool) (rd : Reg) (ra : Reg)
  /-- FESET (R145) -/
  | feset (sm : Bool) (ra : Reg) (v : BitVec 1)
  /-- BARI (R150) -/
  | bari (sm : Bool) (rd : Reg) (ra : Reg)
  /-- BARA (R150) -/
  | bara (sm : Bool) (rd : Reg) (ra : Reg)
  /-- BARW (R150) -/
  | barw (sm : Bool) (rd : Reg) (ra : Reg) (t : BitVec 4)
  /-- WAITW (R150) -/
  | waitw (sm : Bool) (rd : Reg) (ra : Reg) (t : BitVec 4) (m : BitVec 3)
  /-- FENCE (R153) -/
  | fence (sm : Bool) (t : BitVec 4) (c : BitVec 3)
  /-- FADD (R166) -/
  | fadd (sm : Bool) (rd : Reg) (ra : Reg) (rb : Reg)
  /-- FSUB (R166) -/
  | fsub (sm : Bool) (rd : Reg) (ra : Reg) (rb : Reg)
  /-- FMUL (R166) -/
  | fmul (sm : Bool) (rd : Reg) (ra : Reg) (rb : Reg)
  /-- FMIN (R167) -/
  | fmin (sm : Bool) (rd : Reg) (ra : Reg) (rb : Reg)
  /-- FMAX (R167) -/
  | fmax (sm : Bool) (rd : Reg) (ra : Reg) (rb : Reg)
  /-- FABS (R169) -/
  | fabs (sm : Bool) (rd : Reg) (ra : Reg)
  /-- FNEG (R169) -/
  | fneg (sm : Bool) (rd : Reg) (ra : Reg)
  /-- FCMPEQ (R168) -/
  | fcmpeq (sm : Bool) (rd : Reg) (ra : Reg) (rb : Reg)
  /-- FCMPLT (R168) -/
  | fcmplt (sm : Bool) (rd : Reg) (ra : Reg) (rb : Reg)
  /-- FCMPLE (R168) -/
  | fcmple (sm : Bool) (rd : Reg) (ra : Reg) (rb : Reg)
  /-- FCLS (R169) -/
  | fcls (sm : Bool) (rd : Reg) (ra : Reg)
  /-- FFMA (R166) -/
  | ffma (sm : Bool) (rd : Reg) (ra : Reg) (rb : Reg)
  /-- FCVT (R170) -/
  | fcvt (sm : Bool) (rd : Reg) (ra : Reg)
  /-- VADD (R176) -/
  | vadd (sm : Bool) (rd : Reg) (ra : Reg) (rb : Reg)
  /-- VSUB (R176) -/
  | vsub (sm : Bool) (rd : Reg) (ra : Reg) (rb : Reg)
  /-- VMUL (R176) -/
  | vmul (sm : Bool) (rd : Reg) (ra : Reg) (rb : Reg)
  /-- VFMA (R177) -/
  | vfma (sm : Bool) (rd : Reg) (ra : Reg) (rb : Reg)
  /-- VMIN (R176) -/
  | vmin (sm : Bool) (rd : Reg) (ra : Reg) (rb : Reg)
  /-- VMAX (R176) -/
  | vmax (sm : Bool) (rd : Reg) (ra : Reg) (rb : Reg)
  /-- VABS (R176) -/
  | vabs (sm : Bool) (rd : Reg) (ra : Reg)
  /-- VNEG (R176) -/
  | vneg (sm : Bool) (rd : Reg) (ra : Reg)
  /-- VRCP (R177) -/
  | vrcp (sm : Bool) (rd : Reg) (ra : Reg)
  /-- VRSQ (R177) -/
  | vrsq (sm : Bool) (rd : Reg) (ra : Reg)
  /-- VEXP2 (R177) -/
  | vexp2 (sm : Bool) (rd : Reg) (ra : Reg)
  /-- VAND (R178) -/
  | vand (sm : Bool) (rd : Reg) (ra : Reg) (rb : Reg)
  /-- VOR (R178) -/
  | vor (sm : Bool) (rd : Reg) (ra : Reg) (rb : Reg)
  /-- VXOR (R178) -/
  | vxor (sm : Bool) (rd : Reg) (ra : Reg) (rb : Reg)
  /-- VSHL (R178) -/
  | vshl (sm : Bool) (rd : Reg) (ra : Reg) (rb : Reg)
  /-- VSHR (R178) -/
  | vshr (sm : Bool) (rd : Reg) (ra : Reg) (rb : Reg)
  /-- VSAR (R178) -/
  | vsar (sm : Bool) (rd : Reg) (ra : Reg) (rb : Reg)
  /-- VCMPEQ (R179) -/
  | vcmpeq (sm : Bool) (rd : Reg) (ra : Reg) (rb : Reg)
  /-- VCMPLT (R179) -/
  | vcmplt (sm : Bool) (rd : Reg) (ra : Reg) (rb : Reg)
  /-- VCMPLE (R179) -/
  | vcmple (sm : Bool) (rd : Reg) (ra : Reg) (rb : Reg)
  /-- VSEL (R179) -/
  | vsel (sm : Bool) (rd : Reg) (ra : Reg) (rb : Reg)
  /-- VCVT (R180) -/
  | vcvt (sm : Bool) (rd : Reg) (ra : Reg)
  /-- VRED (R181) -/
  | vred (sm : Bool) (rd : Reg) (ra : Reg) (o : BitVec 7)
  /-- VDOT (R181) -/
  | vdot (sm : Bool) (rd : Reg) (ra : Reg) (rb : Reg)
  /-- VQNT (R180) -/
  | vqnt (sm : Bool) (rd : Reg) (ra : Reg) (rb : Reg)
  /-- VSHUF (R182) -/
  | vshuf (sm : Bool) (rd : Reg) (ra : Reg) (rb : Reg)
  /-- VBCAST (R182) -/
  | vbcast (sm : Bool) (rd : Reg) (ra : Reg)
  /-- VEXT (R182) -/
  | vext (sm : Bool) (rd : Reg) (ra : Reg) (rb : Reg)
  /-- VINS (R182) -/
  | vins (sm : Bool) (rd : Reg) (ra : Reg) (rb : Reg)
  /-- VMOV (R182) -/
  | vmov (sm : Bool) (rd : Reg) (ra : Reg)
  /-- MPUSH (R204) -/
  | mpush (sm : Bool) (rd : Reg) (ra : Reg) (e : BitVec 7)
  /-- MPOP (R206) -/
  | mpop (sm : Bool) (rd : Reg) (e : BitVec 7)
  /-- MFENCE (R205) -/
  | mfence (sm : Bool) (e : BitVec 7)
  /-- MRING (R207) -/
  | mring (sm : Bool) (ra : Reg) (e : BitVec 4)
  /-- MRADV (R208) -/
  | mradv (sm : Bool) (rd : Reg) (ra : Reg)
  /-- MRSTAT (R209) -/
  | mrstat (sm : Bool) (rd : Reg) (ra : Reg)
  /-- PUT (R230) -/
  | put (sm : Bool) (rd : Reg) (p : BitVec 7) (t : BitVec 4)
  /-- TAKE (R230) -/
  | take (sm : Bool) (rd : Reg) (p : BitVec 7) (t : BitVec 4)
  /-- PBIND (R231) -/
  | pbind (sm : Bool) (rd : Reg) (p : BitVec 7)
  /-- PFREE (R232) -/
  | pfree (sm : Bool) (p : BitVec 7)
  /-- HLOAD (R233) -/
  | hload (sm : Bool) (rd : Reg) (ra : Reg) (rb : Reg)
  /-- HSTOP (R234) -/
  | hstop (sm : Bool) (rd : Reg) (ra : Reg)
  /-- HSTAT (R235) -/
  | hstat (sm : Bool) (rd : Reg) (ra : Reg)
  /-- QCFG (R249) -/
  | qcfg (sm : Bool) (rd : Reg) (ra : Reg) (x : BitVec 3)
  /-- QSTAT (R250) -/
  | qstat (sm : Bool) (rd : Reg) (x : BitVec 3)
  /-- TAGA (R251) -/
  | taga (sm : Bool) (rd : Reg) (t : BitVec 4) (x : BitVec 3)
  /-- TAGF (R251) -/
  | tagf (sm : Bool) (rd : Reg) (x : BitVec 3)
  /-- SEND (R254) -/
  | send (sm : Bool) (rd : Reg) (ra : Reg)
  /-- SENDI (R254) -/
  | sendi (sm : Bool) (rd : Reg) (ra : Reg) (v : BitVec 7)
  /-- WAITM (R257) -/
  | waitm (sm : Bool) (rd : Reg) (ra : Reg) (t : BitVec 4)
  /-- RECV (R258) -/
  | recv (sm : Bool) (rd : Reg) (ra : Reg) (t : BitVec 4)
  /-- MPCFG (R259) -/
  | mpcfg (sm : Bool) (rd : Reg) (ra : Reg)
  /-- JPSET (R264) -/
  | jpset (sm : Bool) (ra : Reg) (e : BitVec 7)
  /-- JPCLR (R265) -/
  | jpclr (sm : Bool) (e : BitVec 7)
  /-- JPSTAT (R266) -/
  | jpstat (sm : Bool) (rd : Reg) (e : BitVec 7)
  /-- SPAWN (R280) -/
  | spawn (sm : Bool) (rd : Reg) (ra : Reg) (t : BitVec 4)
  /-- QUIT (R282) -/
  | quit (sm : Bool)
  /-- EXIT (R283) -/
  | exit (sm : Bool) (ra : Reg)
  /-- MIGRATE (R285) -/
  | migrate (sm : Bool) (ra : Reg)
  /-- LAUNCH (R289) -/
  | launch (sm : Bool) (rd : Reg) (ra : Reg)
  /-- GARR (R290) -/
  | garr (sm : Bool) (rd : Reg) (ra : Reg)
  /-- GWAIT (R290) -/
  | gwait (sm : Bool) (rd : Reg) (ra : Reg) (t : BitVec 4)
  /-- SLOTS (R291) -/
  | slots (sm : Bool) (rd : Reg) (x : BitVec 3)
  /-- CPY (R305) -/
  | cpy (sm : Bool) (rd : Reg) (ra : Reg)
  /-- CPYS (R305) -/
  | cpys (sm : Bool) (rd : Reg) (ra : Reg) (t : BitVec 4)
  /-- CPYX (R306) -/
  | cpyx (sm : Bool) (rd : Reg) (ra : Reg) (t : BitVec 4)
  /-- BMV (R310) -/
  | bmv (sm : Bool) (rd : Reg) (ra : Reg) (t : BitVec 4)
  /-- BFENCE (R311) -/
  | bfence (sm : Bool) (t : BitVec 4)
  /-- BSTAT (R312) -/
  | bstat (sm : Bool) (rd : Reg) (x : BitVec 3)
  /-- CSRR (R316) -/
  | csrr (sm : Bool) (rd : Reg) (n : BitVec 9)
  /-- CSRW (R316) -/
  | csrw (sm : Bool) (rd : Reg) (ra : Reg) (n : BitVec 9)
  /-- CSRS (R316) -/
  | csrs (sm : Bool) (rd : Reg) (ra : Reg) (n : BitVec 9)
  /-- CSRC (R316) -/
  | csrc (sm : Bool) (rd : Reg) (ra : Reg) (n : BitVec 9)
  /-- TRAP (R322) -/
  | trap (sm : Bool) (c : BitVec 7)
  /-- ERET (R323) -/
  | eret (sm : Bool) (ra : Reg)
  /-- BRK (R322) -/
  | brk (sm : Bool)
  /-- WFE (R324) -/
  | wfe (sm : Bool) (rd : Reg) (ra : Reg) (e : BitVec 7)
  /-- TLBI (R325) -/
  | tlbi (sm : Bool) (ra : Reg) (e : BitVec 7)
  /-- CTXSV (R327) -/
  | ctxsv (sm : Bool) (rd : Reg) (ra : Reg) (rb : Reg)
  /-- CTXLD (R328) -/
  | ctxld (sm : Bool) (rd : Reg) (ra : Reg) (rb : Reg)
  /-- SLICE_RETIRE (R126), a step with no word -/
  | sliceRetire (slice : Nat)
  /-- POWER_GATE (R267), a step with no word -/
  | powerGate (core : Nat)
  /-- EVTDOOR (R332), a step with no word -/
  | evtdoor (v : Word)
  /-- RCFG_ENABLE (R332), a step with no word -/
  | rcfgEnable (ring : Nat) (v : Word)
  /-- TAIL (R332), a step with no word -/
  | tail (ring : Nat) (v : Word)
  /-- BAR0_REGISTER_WRITE (R332), a step with no word -/
  | bar0RegisterWrite (off : Nat) (v : Word)
  /-- IDENTIFY (R334), a step with no word -/
  | identify (ring : Nat)
  /-- LOAD (R333), a step with no word -/
  | load (ring : Nat)
  /-- PATCH (R333), a step with no word -/
  | patch (ring : Nat)
  /-- HOST_LAUNCH (R333), a step with no word -/
  | hostLaunch (ring : Nat)
  /-- PREEMPT_PIPELINE (R329), a step with no word -/
  | preemptPipeline (ring : Nat)
  /-- PREEMPT_GENERAL (R330), a step with no word -/
  | preemptGeneral (ring : Nat)
  /-- RESUME_PIPELINE (R340), a step with no word -/
  | resumePipeline (ring : Nat)
  /-- RESUME_GENERAL (R330), a step with no word -/
  | resumeGeneral (ring : Nat)
  /-- ABORT (R333), a step with no word -/
  | abort (ring : Nat)
  /-- MAP (R333), a step with no word -/
  | map (ring : Nat)
  /-- LIFECYCLE (R336), a step with no word -/
  | lifecycle (ring : Nat)
  /-- FWSTAGE (R333), a step with no word -/
  | fwstage (ring : Nat)
  /-- LOGREAD (R333), a step with no word -/
  | logread (ring : Nat)
  /-- UNKNOWN_HOST_COMMAND (R332), a step with no word -/
  | unknownHostCommand (ring : Nat)
  /-- LINK_DOWN (R337), a step with no word -/
  | linkDown (link : Nat)
  /-- WORD_NOT_AN_INSTRUCTION (R41), a step with no word -/
  | wordNotAnInstruction (reason : Nat) (word : BitVec 32)
  /-- STEWARD_ACCESS (R314), a step with no word -/
  | stewardAccess (op : StewardOp)
  /-- CORRECTED_ERROR (R126), a step with no word -/
  | correctedError (slice : Nat)
  /-- DIVIDER_WRITE (R63), a step with no word; its subject: thread key, destination, value -/
  | dividerWrite
  /-- BINDING_REQUEST_ISSUE (R107), a step with no word; its subject: stream key -/
  | bindingRequestIssue
  /-- STREAM_ELEMENT_LAND (R104), a step with no word; its subject: packet -/
  | streamElementLand
  /-- STORE_BUFFER_LEAVE (R110), a step with no word; its subject: core -/
  | storeBufferLeave
  /-- OWNER_STORE (R116), a step with no word; its subject: request -/
  | ownerStore
  /-- STORE_ACKNOWLEDGE (R110), a step with no word; its subject: packet -/
  | storeAcknowledge
  /-- SLICE_ACCEPT (R125), a step with no word; its subject: request -/
  | sliceAccept
  /-- SLICE_LOOKUP (R125), a step with no word; its subject: slice -/
  | sliceLookup
  /-- DRAM_FILL (R121), a step with no word; its subject: request -/
  | dramFill
  /-- MAP_INSTALL (R127), a step with no word; its subject: packet -/
  | mapInstall
  /-- PAGE_WALK_DONE (R318), a step with no word; its subject: node, walk -/
  | pageWalkDone
  /-- I_CACHE_FILL (R81), a step with no word; its subject: thread key -/
  | iCacheFill
  /-- SLOT_ZEROING_DONE (R65), a step with no word; its subject: thread key -/
  | slotZeroingDone
  /-- ATOMIC_AT_OWNER (R137), a step with no word; its subject: request -/
  | atomicAtOwner
  /-- AMO_REPLY (R140), a step with no word; its subject: packet -/
  | amoReply
  /-- FE_REQUEST_AT_OWNER (R146), a step with no word; its subject: request -/
  | feRequestAtOwner
  /-- FE_RESEND (R146), a step with no word; its subject: thread key, wait -/
  | feResend
  /-- FE_ANSWER (R145), a step with no word; its subject: packet -/
  | feAnswer
  /-- BARRIER_ARRIVAL (R149), a step with no word; its subject: request -/
  | barrierArrival
  /-- OWNER_WAIT_TIMEOUT (R148), a step with no word; its subject: thread key, wait -/
  | ownerWaitTimeout
  /-- WITHDRAWAL_SETTLE (R148), a step with no word; its subject: packet -/
  | withdrawalSettle
  /-- FENCE_COMPLETE (R153), a step with no word; its subject: thread key -/
  | fenceComplete
  /-- FENCE_TIMEOUT (R153), a step with no word; its subject: thread key, wait -/
  | fenceTimeout
  /-- FENCE_HOST_READ_DONE (R153), a step with no word; its subject: thread key -/
  | fenceHostReadDone
  /-- NORMALISER_WRITE (R165), a step with no word; its subject: thread key, destination, value -/
  | normaliserWrite
  /-- VECTOR_GRANT (R173), a step with no word; its subject: node -/
  | vectorGrant
  /-- VECTOR_RETURN (R172), a step with no word; its subject: node, job -/
  | vectorReturn
  /-- MATRIX_GRANT (R186), a step with no word; its subject: node -/
  | matrixGrant
  /-- MATRIX_OP_START (R187), a step with no word; its subject: node -/
  | matrixOpStart
  /-- MATRIX_OP_COMPLETE (R188), a step with no word; its subject: node, operation -/
  | matrixOpComplete
  /-- MPOP_RECORD_LAND (R206), a step with no word; its subject: thread key -/
  | mpopRecordLand
  /-- MATRIX_QUEUE_TIMEOUT (R204), a step with no word; its subject: thread key, wait -/
  | matrixQueueTimeout
  /-- MPOP_TIMEOUT (R206), a step with no word; its subject: thread key, pending pop -/
  | mpopTimeout
  /-- OFFER_SEND (R228), a step with no word; its subject: thread key -/
  | offerSend
  /-- HITCH_FLIT_ARRIVAL (R222), a step with no word; its subject: packet -/
  | hitchFlitArrival
  /-- CONNECTOR_DECISION (R224), a step with no word; its subject: node, connector -/
  | connectorDecision
  /-- PORT_COMPLETION (R225), a step with no word; its subject: packet -/
  | portCompletion
  /-- PORT_OP_TIMEOUT (R227), a step with no word; its subject: thread key, wait -/
  | portOpTimeout
  /-- WITHDRAWN (R227), a step with no word; its subject: packet -/
  | withdrawn
  /-- BINDING_ANSWER (R231), a step with no word; its subject: packet -/
  | bindingAnswer
  /-- STOP (R246), a step with no word; its subject: thread key -/
  | stop
  /-- NEIGHBOUR_VALUE_ARRIVAL (R242), a step with no word; its subject: queue key, value, tag -/
  | neighbourValueArrival
  /-- NEIGHBOUR_RETURN (R242), a step with no word; its subject: port key -/
  | neighbourReturn
  /-- AUDIT_SEND (R243), a step with no word; its subject: queue key -/
  | auditSend
  /-- AUDIT_RECEIPT (R243), a step with no word; its subject: port key, count -/
  | auditReceipt
  /-- COUNTER_RESYNC (R243), a step with no word; its subject: port key -/
  | counterResync
  /-- RESYNC_ANSWER (R243), a step with no word; its subject: port key -/
  | resyncAnswer
  /-- MESSAGE_DEPART (R254), a step with no word; its subject: core -/
  | messageDepart
  /-- MESSAGE_ARRIVAL (R255), a step with no word; its subject: packet -/
  | messageArrival
  /-- SPILL_REFILL (R255), a step with no word; its subject: core, port -/
  | spillRefill
  /-- QUEUE_WAIT_TIMEOUT (R258), a step with no word; its subject: thread key, wait -/
  | queueWaitTimeout
  /-- JOIN_DECISION (R261), a step with no word; its subject: core -/
  | joinDecision
  /-- UNGATE (R268), a step with no word; its subject: core -/
  | ungate
  /-- THREAD_END (R282), a step with no word; its subject: thread key -/
  | threadEnd
  /-- SPAWN_PLACEMENT (R281), a step with no word; its subject: core -/
  | spawnPlacement
  /-- SPAWN_TIMEOUT (R280), a step with no word; its subject: thread key, wait -/
  | spawnTimeout
  /-- DEPARTURE (R286), a step with no word; its subject: thread key -/
  | departure
  /-- MIGRATION_ARRIVAL (R287), a step with no word; its subject: packet -/
  | migrationArrival
  /-- MIGRATION_ACK (R286), a step with no word; its subject: packet -/
  | migrationAck
  /-- MIGRATION_RELEASE (R286), a step with no word; its subject: packet -/
  | migrationRelease
  /-- LOST (R288), a step with no word; its subject: core, shadow entry -/
  | lost
  /-- PADDOCK_MOVE (R287), a step with no word; its subject: core -/
  | paddockMove
  /-- ADMISSION (R295), a step with no word; its subject: core -/
  | admission
  /-- LAUNCH_TAKE (R276), a step with no word -/
  | launchTake
  /-- TASK_PLACEMENT (R274), a step with no word -/
  | taskPlacement
  /-- SUCCESSOR (R284), a step with no word; its subject: task -/
  | successor
  /-- LAUNCH_END (R276), a step with no word; its subject: launch -/
  | launchEnd
  /-- COPY_GRANT (R296), a step with no word; its subject: engine -/
  | copyGrant
  /-- DOMAIN_ANSWER (R301), a step with no word; its subject: core -/
  | domainAnswer
  /-- REDUCE_UPDATE (R300), a step with no word; its subject: engine, command -/
  | reduceUpdate
  /-- COPY_COMPLETE (R302), a step with no word; its subject: engine, command -/
  | copyComplete
  /-- ENGINE_PUSH_TIMEOUT (R305), a step with no word; its subject: thread key, wait -/
  | enginePushTimeout
  /-- BANK_COMMAND_START (R307), a step with no word; its subject: core -/
  | bankCommandStart
  /-- BANK_COMPLETE (R309), a step with no word; its subject: core -/
  | bankComplete
  /-- BFENCE_TIMEOUT (R311), a step with no word; its subject: thread key, wait -/
  | bfenceTimeout
  /-- WFE_WAKE (R324), a step with no word; its subject: thread key -/
  | wfeWake
  /-- WFE_TIMEOUT (R324), a step with no word; its subject: thread key, wait -/
  | wfeTimeout
  /-- RESET (R335), a step with no word -/
  | reset
  /-- BARRIER_WORD_REQUEST (R150), a step with no word; its subject: request -/
  | barrierWordRequest
  /-- BARRIER_ANSWER (R150), a step with no word; its subject: packet -/
  | barrierAnswer
  /-- HITCH_ANSWER (R233), a step with no word; its subject: packet -/
  | hitchAnswer
  /-- CONNECTOR_UNBINDING (R234), a step with no word; its subject: packet -/
  | connectorUnbinding
  /-- MIGRATION_DISCARD (R288), a step with no word; its subject: packet -/
  | migrationDiscard
  /-- PREEMPT_TIMEOUT (R329), a step with no word; its subject: ring -/
  | preemptTimeout
deriving DecidableEq, Repr

end Sys2Proof
end

