-- ==== Sys2Proof/WellFormed.lean ====
section
/-! DEFINITION. What a word's fields may hold (R20 to R26, R35, R36): the role of every register field of every
instruction, the limits of the other fields, and the checks of Table FM-12 with reasons 3, 5 and 6 that depend on
the fields alone. `Instr.wellFormed` says that no check of Table FM-12 that needs no thread refuses the word. -/

namespace Sys2Proof

/-- The number of a direction in n, e, s, w. -/
def Dir.num : Dir → Nat
  | .n => 0 | .e => 1 | .s => 2 | .w => 3

/-- The direction with a number, by its two low bits. -/
def Dir.ofNum (k : Nat) : Dir :=
  match k % 4 with
  | 0 => .n | 1 => .e | 2 => .s | _ => .w

/-- The value of a 7-bit register field that names a register (Table FM-3). -/
def Reg.toNat : Reg → Nat
  | .g i => i.val
  | .s i => 96 + i.val
  | .st i => 112 + i.val
  | .nb d => 120 + d.num
  | .q i => 124 + i.val

/-- The register a field value names (Table FM-3); every value below 128 names one. -/
def Reg.ofNat (n : Nat) : Reg :=
  if h : n < 96 then .g ⟨n, h⟩
  else if h : n < 112 then .s ⟨n - 96, by omega⟩
  else if h : n < 120 then .st ⟨n - 112, by omega⟩
  else if n < 124 then .nb (Dir.ofNum (n - 120))
  else .q ⟨(n - 124) % 4, by omega⟩

/-- How an instruction uses a register field (R22, R25, R26, R35). -/
inductive Role where
  /-- a source field -/
  | src
  /-- the first field, read as data: a source field (R22) -/
  | data
  /-- a destination field that may push to a queue name -/
  | dst
  /-- a field that is read and written (R22, R68) -/
  | upd
  /-- a destination that must be a window or core-shared register -/
  | dstGS
  /-- as `dstGS`, and read before it is written -/
  | updGS
  /-- the count of BLOOP (R84) -/
  | loop
  /-- the guard of PRE (R27) -/
  | guard
  /-- a register pair that is read: g0 to g94 -/
  | pairS
  /-- a register pair that is written: g0 to g94 -/
  | pairW
  /-- the stream that receives elements -/
  | stream
  /-- the stream whose count SCNT reads -/
  | streamRead
  /-- a register group that is read (R26) -/
  | group
  /-- a register group that is written (R26) -/
  | groupW
  /-- four registers that hold an engine command (R40) -/
  | quad
  /-- a scalar that a vector instruction reads (R175) -/
  | scal
  /-- a scalar that a vector instruction writes (R175) -/
  | scalW
deriving DecidableEq, Repr

/-- The CSR numbers that Table SY-1 lists. -/
def csrListed (n : BitVec 9) : Bool :=
  [0x000, 0x008, 0x010, 0x020, 0x030, 0x031, 0x032, 0x033, 0x034, 0x035, 0x036, 0x037, 0x038,
   0x040, 0x048, 0x049, 0x050, 0x051].contains n.toNat

/-- A row of the opcode table that is a word, not an event of the machine. -/
def Instr.isWord : Instr → Bool
  | .add _ _ _ _ => true
  | .sub _ _ _ _ => true
  | .and _ _ _ _ => true
  | .or _ _ _ _ => true
  | .xor _ _ _ _ => true
  | .andn _ _ _ _ => true
  | .min _ _ _ _ => true
  | .max _ _ _ _ => true
  | .minu _ _ _ _ => true
  | .maxu _ _ _ _ => true
  | .mul _ _ _ _ => true
  | .mulh _ _ _ _ => true
  | .mulhu _ _ _ _ => true
  | .div _ _ _ _ => true
  | .divu _ _ _ _ => true
  | .rem _ _ _ _ => true
  | .remu _ _ _ _ => true
  | .sll _ _ _ _ => true
  | .srl _ _ _ _ => true
  | .sra _ _ _ _ => true
  | .rol _ _ _ _ => true
  | .ror _ _ _ _ => true
  | .clz _ _ _ => true
  | .ctz _ _ _ => true
  | .popc _ _ _ => true
  | .bset _ _ _ _ => true
  | .bclr _ _ _ _ => true
  | .btgl _ _ _ _ => true
  | .bfx _ _ _ _ => true
  | .bfxu _ _ _ _ => true
  | .bfi _ _ _ _ => true
  | .cmpeq _ _ _ _ => true
  | .cmpne _ _ _ _ => true
  | .cmplt _ _ _ _ => true
  | .cmpltu _ _ _ _ => true
  | .cmple _ _ _ _ => true
  | .cmpleu _ _ _ _ => true
  | .addi _ _ _ _ => true
  | .andi _ _ _ _ => true
  | .ori _ _ _ _ => true
  | .xori _ _ _ _ => true
  | .slli _ _ _ _ => true
  | .srli _ _ _ _ => true
  | .srai _ _ _ _ => true
  | .roli _ _ _ _ => true
  | .rori _ _ _ _ => true
  | .bseti _ _ _ _ => true
  | .bclri _ _ _ _ => true
  | .btgli _ _ _ _ => true
  | .cmpeqi _ _ _ _ => true
  | .cmpnei _ _ _ _ => true
  | .cmplti _ _ _ _ => true
  | .cmpltui _ _ _ _ => true
  | .cmplei _ _ _ _ => true
  | .cmpleui _ _ _ _ => true
  | .li _ _ _ => true
  | .lis _ _ _ => true
  | .mov _ _ _ => true
  | .sel _ _ _ _ => true
  | .gadr _ _ _ _ => true
  | .j _ _ => true
  | .jl _ _ => true
  | .jr _ _ => true
  | .jlr _ _ _ => true
  | .bbs _ _ _ _ => true
  | .bbc _ _ _ _ => true
  | .bz _ _ _ => true
  | .bnz _ _ _ => true
  | .bloop _ _ _ => true
  | .pre _ _ _ _ _ _ _ _ => true
  | .nop _ => true
  | .yield _ => true
  | .ldb _ _ _ _ _ => true
  | .ldh _ _ _ _ _ => true
  | .ldw _ _ _ _ _ => true
  | .ldd _ _ _ _ _ => true
  | .ldbu _ _ _ _ _ => true
  | .ldhu _ _ _ _ _ => true
  | .ldwu _ _ _ _ _ => true
  | .stb _ _ _ _ _ => true
  | .sth _ _ _ _ _ => true
  | .stw _ _ _ _ _ => true
  | .std _ _ _ _ _ => true
  | .ldv _ _ _ _ _ => true
  | .stv _ _ _ _ _ => true
  | .gld _ _ _ _ _ _ _ _ => true
  | .gst _ _ _ _ _ _ _ => true
  | .gldv _ _ _ _ _ _ _ => true
  | .gstv _ _ _ _ _ _ => true
  | .sbind _ _ _ => true
  | .scnt _ _ _ => true
  | .ginv _ _ => true
  | .gprf _ _ _ => true
  | .lclean _ _ => true
  | .lflush _ _ => true
  | .amoadd _ _ _ _ => true
  | .amoand _ _ _ _ => true
  | .amoor _ _ _ _ => true
  | .amoxor _ _ _ _ => true
  | .amomin _ _ _ _ => true
  | .amomax _ _ _ _ => true
  | .amominu _ _ _ _ => true
  | .amomaxu _ _ _ _ => true
  | .amoswp _ _ _ _ => true
  | .acas _ _ _ _ => true
  | .redadd _ _ _ => true
  | .redand _ _ _ => true
  | .redor _ _ _ => true
  | .redxor _ _ _ => true
  | .redmin _ _ _ => true
  | .redmax _ _ _ => true
  | .redminu _ _ _ => true
  | .redmaxu _ _ _ => true
  | .ldfe _ _ _ _ => true
  | .ldff _ _ _ _ => true
  | .stfe _ _ _ _ => true
  | .stff _ _ _ _ => true
  | .feq _ _ _ => true
  | .feset _ _ _ => true
  | .bari _ _ _ => true
  | .bara _ _ _ => true
  | .barw _ _ _ _ => true
  | .waitw _ _ _ _ _ => true
  | .fence _ _ _ => true
  | .fadd _ _ _ _ => true
  | .fsub _ _ _ _ => true
  | .fmul _ _ _ _ => true
  | .fmin _ _ _ _ => true
  | .fmax _ _ _ _ => true
  | .fabs _ _ _ => true
  | .fneg _ _ _ => true
  | .fcmpeq _ _ _ _ => true
  | .fcmplt _ _ _ _ => true
  | .fcmple _ _ _ _ => true
  | .fcls _ _ _ => true
  | .ffma _ _ _ _ => true
  | .fcvt _ _ _ => true
  | .vadd _ _ _ _ => true
  | .vsub _ _ _ _ => true
  | .vmul _ _ _ _ => true
  | .vfma _ _ _ _ => true
  | .vmin _ _ _ _ => true
  | .vmax _ _ _ _ => true
  | .vabs _ _ _ => true
  | .vneg _ _ _ => true
  | .vrcp _ _ _ => true
  | .vrsq _ _ _ => true
  | .vexp2 _ _ _ => true
  | .vand _ _ _ _ => true
  | .vor _ _ _ _ => true
  | .vxor _ _ _ _ => true
  | .vshl _ _ _ _ => true
  | .vshr _ _ _ _ => true
  | .vsar _ _ _ _ => true
  | .vcmpeq _ _ _ _ => true
  | .vcmplt _ _ _ _ => true
  | .vcmple _ _ _ _ => true
  | .vsel _ _ _ _ => true
  | .vcvt _ _ _ => true
  | .vred _ _ _ _ => true
  | .vdot _ _ _ _ => true
  | .vqnt _ _ _ _ => true
  | .vshuf _ _ _ _ => true
  | .vbcast _ _ _ => true
  | .vext _ _ _ _ => true
  | .vins _ _ _ _ => true
  | .vmov _ _ _ => true
  | .mpush _ _ _ _ => true
  | .mpop _ _ _ => true
  | .mfence _ _ => true
  | .mring _ _ _ => true
  | .mradv _ _ _ => true
  | .mrstat _ _ _ => true
  | .put _ _ _ _ => true
  | .take _ _ _ _ => true
  | .pbind _ _ _ => true
  | .pfree _ _ => true
  | .hload _ _ _ _ => true
  | .hstop _ _ _ => true
  | .hstat _ _ _ => true
  | .qcfg _ _ _ _ => true
  | .qstat _ _ _ => true
  | .taga _ _ _ _ => true
  | .tagf _ _ _ => true
  | .send _ _ _ => true
  | .sendi _ _ _ _ => true
  | .waitm _ _ _ _ => true
  | .recv _ _ _ _ => true
  | .mpcfg _ _ _ => true
  | .jpset _ _ _ => true
  | .jpclr _ _ => true
  | .jpstat _ _ _ => true
  | .spawn _ _ _ _ => true
  | .quit _ => true
  | .exit _ _ => true
  | .migrate _ _ => true
  | .launch _ _ _ => true
  | .garr _ _ _ => true
  | .gwait _ _ _ _ => true
  | .slots _ _ _ => true
  | .cpy _ _ _ => true
  | .cpys _ _ _ _ => true
  | .cpyx _ _ _ _ => true
  | .bmv _ _ _ _ => true
  | .bfence _ _ => true
  | .bstat _ _ _ => true
  | .csrr _ _ _ => true
  | .csrw _ _ _ _ => true
  | .csrs _ _ _ _ => true
  | .csrc _ _ _ _ => true
  | .trap _ _ => true
  | .eret _ _ => true
  | .brk _ => true
  | .wfe _ _ _ _ => true
  | .tlbi _ _ _ => true
  | .ctxsv _ _ _ _ => true
  | .ctxld _ _ _ _ => true
  | .sliceRetire _ => false
  | .powerGate _ => false
  | .evtdoor _ => false
  | .rcfgEnable _ _ => false
  | .tail _ _ => false
  | .bar0RegisterWrite _ _ => false
  | .identify _ => false
  | .load _ => false
  | .patch _ => false
  | .hostLaunch _ => false
  | .preemptPipeline _ => false
  | .preemptGeneral _ => false
  | .resumePipeline _ => false
  | .resumeGeneral _ => false
  | .abort _ => false
  | .map _ => false
  | .lifecycle _ => false
  | .fwstage _ => false
  | .logread _ => false
  | .unknownHostCommand _ => false
  | .linkDown _ => false
  | .wordNotAnInstruction _ _ => false
  | .stewardAccess _ => false
  | .correctedError _ => false
  | .dividerWrite => false
  | .bindingRequestIssue => false
  | .streamElementLand => false
  | .storeBufferLeave => false
  | .ownerStore => false
  | .storeAcknowledge => false
  | .sliceAccept => false
  | .sliceLookup => false
  | .dramFill => false
  | .mapInstall => false
  | .pageWalkDone => false
  | .iCacheFill => false
  | .slotZeroingDone => false
  | .atomicAtOwner => false
  | .amoReply => false
  | .feRequestAtOwner => false
  | .feResend => false
  | .feAnswer => false
  | .barrierArrival => false
  | .ownerWaitTimeout => false
  | .withdrawalSettle => false
  | .fenceComplete => false
  | .fenceTimeout => false
  | .fenceHostReadDone => false
  | .normaliserWrite => false
  | .vectorGrant => false
  | .vectorReturn => false
  | .matrixGrant => false
  | .matrixOpStart => false
  | .matrixOpComplete => false
  | .mpopRecordLand => false
  | .matrixQueueTimeout => false
  | .mpopTimeout => false
  | .offerSend => false
  | .hitchFlitArrival => false
  | .connectorDecision => false
  | .portCompletion => false
  | .portOpTimeout => false
  | .withdrawn => false
  | .bindingAnswer => false
  | .stop => false
  | .neighbourValueArrival => false
  | .neighbourReturn => false
  | .auditSend => false
  | .auditReceipt => false
  | .counterResync => false
  | .resyncAnswer => false
  | .messageDepart => false
  | .messageArrival => false
  | .spillRefill => false
  | .queueWaitTimeout => false
  | .joinDecision => false
  | .ungate => false
  | .threadEnd => false
  | .spawnPlacement => false
  | .spawnTimeout => false
  | .departure => false
  | .migrationArrival => false
  | .migrationAck => false
  | .migrationRelease => false
  | .lost => false
  | .paddockMove => false
  | .admission => false
  | .launchTake => false
  | .taskPlacement => false
  | .successor => false
  | .launchEnd => false
  | .copyGrant => false
  | .domainAnswer => false
  | .reduceUpdate => false
  | .copyComplete => false
  | .enginePushTimeout => false
  | .bankCommandStart => false
  | .bankComplete => false
  | .bfenceTimeout => false
  | .wfeWake => false
  | .wfeTimeout => false
  | .reset => false
  | .barrierWordRequest => false
  | .barrierAnswer => false
  | .hitchAnswer => false
  | .connectorUnbinding => false
  | .migrationDiscard => false
  | .preemptTimeout => false

/-- The register fields of a word, in the order rd, ra, rb, each with its role. A step with no word has none. -/
def Instr.fields : Instr → List (Role × Reg)
  | .add _ rd ra rb => [(.dst, rd), (.src, ra), (.src, rb)]
  | .sub _ rd ra rb => [(.dst, rd), (.src, ra), (.src, rb)]
  | .and _ rd ra rb => [(.dst, rd), (.src, ra), (.src, rb)]
  | .or _ rd ra rb => [(.dst, rd), (.src, ra), (.src, rb)]
  | .xor _ rd ra rb => [(.dst, rd), (.src, ra), (.src, rb)]
  | .andn _ rd ra rb => [(.dst, rd), (.src, ra), (.src, rb)]
  | .min _ rd ra rb => [(.dst, rd), (.src, ra), (.src, rb)]
  | .max _ rd ra rb => [(.dst, rd), (.src, ra), (.src, rb)]
  | .minu _ rd ra rb => [(.dst, rd), (.src, ra), (.src, rb)]
  | .maxu _ rd ra rb => [(.dst, rd), (.src, ra), (.src, rb)]
  | .mul _ rd ra rb => [(.dst, rd), (.src, ra), (.src, rb)]
  | .mulh _ rd ra rb => [(.dst, rd), (.src, ra), (.src, rb)]
  | .mulhu _ rd ra rb => [(.dst, rd), (.src, ra), (.src, rb)]
  | .div _ rd ra rb => [(.dst, rd), (.src, ra), (.src, rb)]
  | .divu _ rd ra rb => [(.dst, rd), (.src, ra), (.src, rb)]
  | .rem _ rd ra rb => [(.dst, rd), (.src, ra), (.src, rb)]
  | .remu _ rd ra rb => [(.dst, rd), (.src, ra), (.src, rb)]
  | .sll _ rd ra rb => [(.dst, rd), (.src, ra), (.src, rb)]
  | .srl _ rd ra rb => [(.dst, rd), (.src, ra), (.src, rb)]
  | .sra _ rd ra rb => [(.dst, rd), (.src, ra), (.src, rb)]
  | .rol _ rd ra rb => [(.dst, rd), (.src, ra), (.src, rb)]
  | .ror _ rd ra rb => [(.dst, rd), (.src, ra), (.src, rb)]
  | .clz _ rd ra => [(.dst, rd), (.src, ra)]
  | .ctz _ rd ra => [(.dst, rd), (.src, ra)]
  | .popc _ rd ra => [(.dst, rd), (.src, ra)]
  | .bset _ rd ra rb => [(.dst, rd), (.src, ra), (.src, rb)]
  | .bclr _ rd ra rb => [(.dst, rd), (.src, ra), (.src, rb)]
  | .btgl _ rd ra rb => [(.dst, rd), (.src, ra), (.src, rb)]
  | .bfx _ rd ra rb => [(.dst, rd), (.src, ra), (.src, rb)]
  | .bfxu _ rd ra rb => [(.dst, rd), (.src, ra), (.src, rb)]
  | .bfi _ rd ra rb => [(.upd, rd), (.src, ra), (.src, rb)]
  | .cmpeq _ rd ra rb => [(.dst, rd), (.src, ra), (.src, rb)]
  | .cmpne _ rd ra rb => [(.dst, rd), (.src, ra), (.src, rb)]
  | .cmplt _ rd ra rb => [(.dst, rd), (.src, ra), (.src, rb)]
  | .cmpltu _ rd ra rb => [(.dst, rd), (.src, ra), (.src, rb)]
  | .cmple _ rd ra rb => [(.dst, rd), (.src, ra), (.src, rb)]
  | .cmpleu _ rd ra rb => [(.dst, rd), (.src, ra), (.src, rb)]
  | .addi _ rd ra _ => [(.dst, rd), (.src, ra)]
  | .andi _ rd ra _ => [(.dst, rd), (.src, ra)]
  | .ori _ rd ra _ => [(.dst, rd), (.src, ra)]
  | .xori _ rd ra _ => [(.dst, rd), (.src, ra)]
  | .slli _ rd ra _ => [(.dst, rd), (.src, ra)]
  | .srli _ rd ra _ => [(.dst, rd), (.src, ra)]
  | .srai _ rd ra _ => [(.dst, rd), (.src, ra)]
  | .roli _ rd ra _ => [(.dst, rd), (.src, ra)]
  | .rori _ rd ra _ => [(.dst, rd), (.src, ra)]
  | .bseti _ rd ra _ => [(.dst, rd), (.src, ra)]
  | .bclri _ rd ra _ => [(.dst, rd), (.src, ra)]
  | .btgli _ rd ra _ => [(.dst, rd), (.src, ra)]
  | .cmpeqi _ rd ra _ => [(.dst, rd), (.src, ra)]
  | .cmpnei _ rd ra _ => [(.dst, rd), (.src, ra)]
  | .cmplti _ rd ra _ => [(.dst, rd), (.src, ra)]
  | .cmpltui _ rd ra _ => [(.dst, rd), (.src, ra)]
  | .cmplei _ rd ra _ => [(.dst, rd), (.src, ra)]
  | .cmpleui _ rd ra _ => [(.dst, rd), (.src, ra)]
  | .li _ rd _ => [(.dst, rd)]
  | .lis _ rd _ => [(.upd, rd)]
  | .mov _ rd rb => [(.dst, rd), (.src, rb)]
  | .sel _ rd ra rb => [(.upd, rd), (.src, ra), (.src, rb)]
  | .gadr _ rd ra rb => [(.dst, rd), (.src, ra), (.src, rb)]
  | .j _ _ => []
  | .jl _ _ => []
  | .jr _ ra => [(.src, ra)]
  | .jlr _ rd ra => [(.dst, rd), (.src, ra)]
  | .bbs _ ra _ _ => [(.src, ra)]
  | .bbc _ ra _ _ => [(.src, ra)]
  | .bz _ ra _ => [(.src, ra)]
  | .bnz _ ra _ => [(.src, ra)]
  | .bloop _ ra _ => [(.loop, ra)]
  | .pre _ g _ _ _ _ _ _ => [(.guard, g)]
  | .nop _ => []
  | .yield _ => []
  | .ldb _ rd ra _ _ => [(.dst, rd), (.src, ra)]
  | .ldh _ rd ra _ _ => [(.dst, rd), (.src, ra)]
  | .ldw _ rd ra _ _ => [(.dst, rd), (.src, ra)]
  | .ldd _ rd ra _ _ => [(.dst, rd), (.src, ra)]
  | .ldbu _ rd ra _ _ => [(.dst, rd), (.src, ra)]
  | .ldhu _ rd ra _ _ => [(.dst, rd), (.src, ra)]
  | .ldwu _ rd ra _ _ => [(.dst, rd), (.src, ra)]
  | .stb _ rd ra _ _ => [(.data, rd), (.src, ra)]
  | .sth _ rd ra _ _ => [(.data, rd), (.src, ra)]
  | .stw _ rd ra _ _ => [(.data, rd), (.src, ra)]
  | .std _ rd ra _ _ => [(.data, rd), (.src, ra)]
  | .ldv _ rd ra _ _ => [(.groupW, rd), (.src, ra)]
  | .stv _ rd ra _ _ => [(.group, rd), (.src, ra)]
  | .gld _ rd ra _ _ _ _ _ => [(.stream, rd), (.src, ra)]
  | .gst _ rd ra _ _ _ _ => [(.data, rd), (.src, ra)]
  | .gldv _ rd ra _ _ _ _ => [(.stream, rd), (.src, ra)]
  | .gstv _ rd ra _ _ _ => [(.group, rd), (.src, ra)]
  | .sbind _ rd ra => [(.stream, rd), (.pairS, ra)]
  | .scnt _ rd ra => [(.dst, rd), (.streamRead, ra)]
  | .ginv _ ra => [(.src, ra)]
  | .gprf _ ra _ => [(.src, ra)]
  | .lclean _ ra => [(.src, ra)]
  | .lflush _ ra => [(.src, ra)]
  | .amoadd _ rd ra rb => [(.dstGS, rd), (.src, ra), (.src, rb)]
  | .amoand _ rd ra rb => [(.dstGS, rd), (.src, ra), (.src, rb)]
  | .amoor _ rd ra rb => [(.dstGS, rd), (.src, ra), (.src, rb)]
  | .amoxor _ rd ra rb => [(.dstGS, rd), (.src, ra), (.src, rb)]
  | .amomin _ rd ra rb => [(.dstGS, rd), (.src, ra), (.src, rb)]
  | .amomax _ rd ra rb => [(.dstGS, rd), (.src, ra), (.src, rb)]
  | .amominu _ rd ra rb => [(.dstGS, rd), (.src, ra), (.src, rb)]
  | .amomaxu _ rd ra rb => [(.dstGS, rd), (.src, ra), (.src, rb)]
  | .amoswp _ rd ra rb => [(.dstGS, rd), (.src, ra), (.src, rb)]
  | .acas _ rd ra rb => [(.updGS, rd), (.src, ra), (.src, rb)]
  | .redadd _ ra rb => [(.src, ra), (.src, rb)]
  | .redand _ ra rb => [(.src, ra), (.src, rb)]
  | .redor _ ra rb => [(.src, ra), (.src, rb)]
  | .redxor _ ra rb => [(.src, ra), (.src, rb)]
  | .redmin _ ra rb => [(.src, ra), (.src, rb)]
  | .redmax _ ra rb => [(.src, ra), (.src, rb)]
  | .redminu _ ra rb => [(.src, ra), (.src, rb)]
  | .redmaxu _ ra rb => [(.src, ra), (.src, rb)]
  | .ldfe _ rd ra _ => [(.dstGS, rd), (.src, ra)]
  | .ldff _ rd ra _ => [(.dstGS, rd), (.src, ra)]
  | .stfe _ rd ra _ => [(.data, rd), (.src, ra)]
  | .stff _ rd ra _ => [(.data, rd), (.src, ra)]
  | .feq _ rd ra => [(.dstGS, rd), (.src, ra)]
  | .feset _ ra _ => [(.src, ra)]
  | .bari _ rd ra => [(.data, rd), (.src, ra)]
  | .bara _ rd ra => [(.dstGS, rd), (.src, ra)]
  | .barw _ rd ra _ => [(.dstGS, rd), (.src, ra)]
  | .waitw _ rd ra _ _ => [(.updGS, rd), (.src, ra)]
  | .fence _ _ _ => []
  | .fadd _ rd ra rb => [(.dst, rd), (.src, ra), (.src, rb)]
  | .fsub _ rd ra rb => [(.dst, rd), (.src, ra), (.src, rb)]
  | .fmul _ rd ra rb => [(.dst, rd), (.src, ra), (.src, rb)]
  | .fmin _ rd ra rb => [(.dst, rd), (.src, ra), (.src, rb)]
  | .fmax _ rd ra rb => [(.dst, rd), (.src, ra), (.src, rb)]
  | .fabs _ rd ra => [(.dst, rd), (.src, ra)]
  | .fneg _ rd ra => [(.dst, rd), (.src, ra)]
  | .fcmpeq _ rd ra rb => [(.dst, rd), (.src, ra), (.src, rb)]
  | .fcmplt _ rd ra rb => [(.dst, rd), (.src, ra), (.src, rb)]
  | .fcmple _ rd ra rb => [(.dst, rd), (.src, ra), (.src, rb)]
  | .fcls _ rd ra => [(.dst, rd), (.src, ra)]
  | .ffma _ rd ra rb => [(.upd, rd), (.src, ra), (.src, rb)]
  | .fcvt _ rd ra => [(.dst, rd), (.src, ra)]
  | .vadd _ rd ra rb => [(.groupW, rd), (.group, ra), (.group, rb)]
  | .vsub _ rd ra rb => [(.groupW, rd), (.group, ra), (.group, rb)]
  | .vmul _ rd ra rb => [(.groupW, rd), (.group, ra), (.group, rb)]
  | .vfma _ rd ra rb => [(.groupW, rd), (.group, ra), (.group, rb)]
  | .vmin _ rd ra rb => [(.groupW, rd), (.group, ra), (.group, rb)]
  | .vmax _ rd ra rb => [(.groupW, rd), (.group, ra), (.group, rb)]
  | .vabs _ rd ra => [(.groupW, rd), (.group, ra)]
  | .vneg _ rd ra => [(.groupW, rd), (.group, ra)]
  | .vrcp _ rd ra => [(.groupW, rd), (.group, ra)]
  | .vrsq _ rd ra => [(.groupW, rd), (.group, ra)]
  | .vexp2 _ rd ra => [(.groupW, rd), (.group, ra)]
  | .vand _ rd ra rb => [(.groupW, rd), (.group, ra), (.group, rb)]
  | .vor _ rd ra rb => [(.groupW, rd), (.group, ra), (.group, rb)]
  | .vxor _ rd ra rb => [(.groupW, rd), (.group, ra), (.group, rb)]
  | .vshl _ rd ra rb => [(.groupW, rd), (.group, ra), (.group, rb)]
  | .vshr _ rd ra rb => [(.groupW, rd), (.group, ra), (.group, rb)]
  | .vsar _ rd ra rb => [(.groupW, rd), (.group, ra), (.group, rb)]
  | .vcmpeq _ rd ra rb => [(.groupW, rd), (.group, ra), (.group, rb)]
  | .vcmplt _ rd ra rb => [(.groupW, rd), (.group, ra), (.group, rb)]
  | .vcmple _ rd ra rb => [(.groupW, rd), (.group, ra), (.group, rb)]
  | .vsel _ rd ra rb => [(.groupW, rd), (.group, ra), (.group, rb)]
  | .vcvt _ rd ra => [(.groupW, rd), (.group, ra)]
  | .vred _ rd ra _ => [(.scalW, rd), (.group, ra)]
  | .vdot _ rd ra rb => [(.groupW, rd), (.group, ra), (.group, rb)]
  | .vqnt _ rd ra rb => [(.groupW, rd), (.group, ra), (.scal, rb)]
  | .vshuf _ rd ra rb => [(.groupW, rd), (.group, ra), (.group, rb)]
  | .vbcast _ rd ra => [(.groupW, rd), (.scal, ra)]
  | .vext _ rd ra rb => [(.scalW, rd), (.group, ra), (.scal, rb)]
  | .vins _ rd ra rb => [(.groupW, rd), (.scal, ra), (.scal, rb)]
  | .vmov _ rd ra => [(.groupW, rd), (.group, ra)]
  | .mpush _ rd ra _ => [(.dstGS, rd), (.quad, ra)]
  | .mpop _ rd _ => [(.pairW, rd)]
  | .mfence _ _ => []
  | .mring _ ra _ => [(.pairS, ra)]
  | .mradv _ rd ra => [(.dstGS, rd), (.src, ra)]
  | .mrstat _ rd ra => [(.dstGS, rd), (.src, ra)]
  | .put _ rd _ _ => [(.data, rd)]
  | .take _ rd _ _ => [(.dstGS, rd)]
  | .pbind _ rd _ => [(.data, rd)]
  | .pfree _ _ => []
  | .hload _ rd ra rb => [(.dstGS, rd), (.src, ra), (.src, rb)]
  | .hstop _ rd ra => [(.dstGS, rd), (.src, ra)]
  | .hstat _ rd ra => [(.dstGS, rd), (.src, ra)]
  | .qcfg _ rd ra _ => [(.dstGS, rd), (.src, ra)]
  | .qstat _ rd _ => [(.dstGS, rd)]
  | .taga _ rd _ _ => [(.dstGS, rd)]
  | .tagf _ rd _ => [(.data, rd)]
  | .send _ rd ra => [(.pairS, rd), (.src, ra)]
  | .sendi _ rd ra _ => [(.data, rd), (.src, ra)]
  | .waitm _ rd ra _ => [(.dstGS, rd), (.src, ra)]
  | .recv _ rd ra _ => [(.pairW, rd), (.src, ra)]
  | .mpcfg _ rd ra => [(.dstGS, rd), (.src, ra)]
  | .jpset _ ra _ => [(.pairS, ra)]
  | .jpclr _ _ => []
  | .jpstat _ rd _ => [(.dst, rd)]
  | .spawn _ rd ra _ => [(.dstGS, rd), (.src, ra)]
  | .quit _ => []
  | .exit _ ra => [(.src, ra)]
  | .migrate _ ra => [(.src, ra)]
  | .launch _ rd ra => [(.dstGS, rd), (.src, ra)]
  | .garr _ rd ra => [(.dstGS, rd), (.src, ra)]
  | .gwait _ rd ra _ => [(.updGS, rd), (.src, ra)]
  | .slots _ rd _ => [(.dstGS, rd)]
  | .cpy _ rd ra => [(.dstGS, rd), (.quad, ra)]
  | .cpys _ rd ra _ => [(.dstGS, rd), (.quad, ra)]
  | .cpyx _ rd ra _ => [(.dstGS, rd), (.quad, ra)]
  | .bmv _ rd ra _ => [(.dstGS, rd), (.quad, ra)]
  | .bfence _ _ => []
  | .bstat _ rd _ => [(.dstGS, rd)]
  | .csrr _ rd _ => [(.dstGS, rd)]
  | .csrw _ rd ra _ => [(.dstGS, rd), (.src, ra)]
  | .csrs _ rd ra _ => [(.dstGS, rd), (.src, ra)]
  | .csrc _ rd ra _ => [(.dstGS, rd), (.src, ra)]
  | .trap _ _ => []
  | .eret _ ra => [(.src, ra)]
  | .brk _ => []
  | .wfe _ rd ra _ => [(.dstGS, rd), (.src, ra)]
  | .tlbi _ ra _ => [(.src, ra)]
  | .ctxsv _ rd ra rb => [(.dstGS, rd), (.src, ra), (.src, rb)]
  | .ctxld _ rd ra rb => [(.dstGS, rd), (.src, ra), (.src, rb)]
  | .sliceRetire _ => []
  | .powerGate _ => []
  | .evtdoor _ => []
  | .rcfgEnable _ _ => []
  | .tail _ _ => []
  | .bar0RegisterWrite _ _ => []
  | .identify _ => []
  | .load _ => []
  | .patch _ => []
  | .hostLaunch _ => []
  | .preemptPipeline _ => []
  | .preemptGeneral _ => []
  | .resumePipeline _ => []
  | .resumeGeneral _ => []
  | .abort _ => []
  | .map _ => []
  | .lifecycle _ => []
  | .fwstage _ => []
  | .logread _ => []
  | .unknownHostCommand _ => []
  | .linkDown _ => []
  | .wordNotAnInstruction _ _ => []
  | .stewardAccess _ => []
  | .correctedError _ => []
  | .dividerWrite => []
  | .bindingRequestIssue => []
  | .streamElementLand => []
  | .storeBufferLeave => []
  | .ownerStore => []
  | .storeAcknowledge => []
  | .sliceAccept => []
  | .sliceLookup => []
  | .dramFill => []
  | .mapInstall => []
  | .pageWalkDone => []
  | .iCacheFill => []
  | .slotZeroingDone => []
  | .atomicAtOwner => []
  | .amoReply => []
  | .feRequestAtOwner => []
  | .feResend => []
  | .feAnswer => []
  | .barrierArrival => []
  | .ownerWaitTimeout => []
  | .withdrawalSettle => []
  | .fenceComplete => []
  | .fenceTimeout => []
  | .fenceHostReadDone => []
  | .normaliserWrite => []
  | .vectorGrant => []
  | .vectorReturn => []
  | .matrixGrant => []
  | .matrixOpStart => []
  | .matrixOpComplete => []
  | .mpopRecordLand => []
  | .matrixQueueTimeout => []
  | .mpopTimeout => []
  | .offerSend => []
  | .hitchFlitArrival => []
  | .connectorDecision => []
  | .portCompletion => []
  | .portOpTimeout => []
  | .withdrawn => []
  | .bindingAnswer => []
  | .stop => []
  | .neighbourValueArrival => []
  | .neighbourReturn => []
  | .auditSend => []
  | .auditReceipt => []
  | .counterResync => []
  | .resyncAnswer => []
  | .messageDepart => []
  | .messageArrival => []
  | .spillRefill => []
  | .queueWaitTimeout => []
  | .joinDecision => []
  | .ungate => []
  | .threadEnd => []
  | .spawnPlacement => []
  | .spawnTimeout => []
  | .departure => []
  | .migrationArrival => []
  | .migrationAck => []
  | .migrationRelease => []
  | .lost => []
  | .paddockMove => []
  | .admission => []
  | .launchTake => []
  | .taskPlacement => []
  | .successor => []
  | .launchEnd => []
  | .copyGrant => []
  | .domainAnswer => []
  | .reduceUpdate => []
  | .copyComplete => []
  | .enginePushTimeout => []
  | .bankCommandStart => []
  | .bankComplete => []
  | .bfenceTimeout => []
  | .wfeWake => []
  | .wfeTimeout => []
  | .reset => []
  | .barrierWordRequest => []
  | .barrierAnswer => []
  | .hitchAnswer => []
  | .connectorUnbinding => []
  | .migrationDiscard => []
  | .preemptTimeout => []

/-- The limits of the fields that name no register (reason 3). -/
def Instr.valuesOk : Instr → Bool
  | .add _ _ _ _ => true
  | .sub _ _ _ _ => true
  | .and _ _ _ _ => true
  | .or _ _ _ _ => true
  | .xor _ _ _ _ => true
  | .andn _ _ _ _ => true
  | .min _ _ _ _ => true
  | .max _ _ _ _ => true
  | .minu _ _ _ _ => true
  | .maxu _ _ _ _ => true
  | .mul _ _ _ _ => true
  | .mulh _ _ _ _ => true
  | .mulhu _ _ _ _ => true
  | .div _ _ _ _ => true
  | .divu _ _ _ _ => true
  | .rem _ _ _ _ => true
  | .remu _ _ _ _ => true
  | .sll _ _ _ _ => true
  | .srl _ _ _ _ => true
  | .sra _ _ _ _ => true
  | .rol _ _ _ _ => true
  | .ror _ _ _ _ => true
  | .clz _ _ _ => true
  | .ctz _ _ _ => true
  | .popc _ _ _ => true
  | .bset _ _ _ _ => true
  | .bclr _ _ _ _ => true
  | .btgl _ _ _ _ => true
  | .bfx _ _ _ _ => true
  | .bfxu _ _ _ _ => true
  | .bfi _ _ _ _ => true
  | .cmpeq _ _ _ _ => true
  | .cmpne _ _ _ _ => true
  | .cmplt _ _ _ _ => true
  | .cmpltu _ _ _ _ => true
  | .cmple _ _ _ _ => true
  | .cmpleu _ _ _ _ => true
  | .addi _ _ _ _ => true
  | .andi _ _ _ _ => true
  | .ori _ _ _ _ => true
  | .xori _ _ _ _ => true
  | .slli _ _ _ _ => true
  | .srli _ _ _ _ => true
  | .srai _ _ _ _ => true
  | .roli _ _ _ _ => true
  | .rori _ _ _ _ => true
  | .bseti _ _ _ _ => true
  | .bclri _ _ _ _ => true
  | .btgli _ _ _ _ => true
  | .cmpeqi _ _ _ _ => true
  | .cmpnei _ _ _ _ => true
  | .cmplti _ _ _ _ => true
  | .cmpltui _ _ _ _ => true
  | .cmplei _ _ _ _ => true
  | .cmpleui _ _ _ _ => true
  | .li _ _ _ => true
  | .lis _ _ _ => true
  | .mov _ _ _ => true
  | .sel _ _ _ _ => true
  | .gadr _ _ _ _ => true
  | .j _ _ => true
  | .jl _ _ => true
  | .jr _ _ => true
  | .jlr _ _ _ => true
  | .bbs _ _ _ _ => true
  | .bbc _ _ _ _ => true
  | .bz _ _ _ => true
  | .bnz _ _ _ => true
  | .bloop _ _ _ => true
  | .pre _ _ _ _ _ f _ _ => decide (f.toNat < 10)
  | .nop _ => true
  | .yield _ => true
  | .ldb _ _ _ _ _ => true
  | .ldh _ _ _ _ _ => true
  | .ldw _ _ _ _ _ => true
  | .ldd _ _ _ _ _ => true
  | .ldbu _ _ _ _ _ => true
  | .ldhu _ _ _ _ _ => true
  | .ldwu _ _ _ _ _ => true
  | .stb _ _ _ _ _ => true
  | .sth _ _ _ _ _ => true
  | .stw _ _ _ _ _ => true
  | .std _ _ _ _ _ => true
  | .ldv _ _ _ _ _ => true
  | .stv _ _ _ _ _ => true
  | .gld _ _ _ _ _ _ _ _ => true
  | .gst _ _ _ _ _ _ _ => true
  | .gldv _ _ _ _ _ _ _ => true
  | .gstv _ _ _ _ _ _ => true
  | .sbind _ _ _ => true
  | .scnt _ _ _ => true
  | .ginv _ _ => true
  | .gprf _ _ _ => true
  | .lclean _ _ => true
  | .lflush _ _ => true
  | .amoadd _ _ _ _ => true
  | .amoand _ _ _ _ => true
  | .amoor _ _ _ _ => true
  | .amoxor _ _ _ _ => true
  | .amomin _ _ _ _ => true
  | .amomax _ _ _ _ => true
  | .amominu _ _ _ _ => true
  | .amomaxu _ _ _ _ => true
  | .amoswp _ _ _ _ => true
  | .acas _ _ _ _ => true
  | .redadd _ _ _ => true
  | .redand _ _ _ => true
  | .redor _ _ _ => true
  | .redxor _ _ _ => true
  | .redmin _ _ _ => true
  | .redmax _ _ _ => true
  | .redminu _ _ _ => true
  | .redmaxu _ _ _ => true
  | .ldfe _ _ _ _ => true
  | .ldff _ _ _ _ => true
  | .stfe _ _ _ _ => true
  | .stff _ _ _ _ => true
  | .feq _ _ _ => true
  | .feset _ _ _ => true
  | .bari _ _ _ => true
  | .bara _ _ _ => true
  | .barw _ _ _ _ => true
  | .waitw _ _ _ _ m => decide (m.toNat < 4)
  | .fence _ _ c => decide (c.toNat < 6)
  | .fadd _ _ _ _ => true
  | .fsub _ _ _ _ => true
  | .fmul _ _ _ _ => true
  | .fmin _ _ _ _ => true
  | .fmax _ _ _ _ => true
  | .fabs _ _ _ => true
  | .fneg _ _ _ => true
  | .fcmpeq _ _ _ _ => true
  | .fcmplt _ _ _ _ => true
  | .fcmple _ _ _ _ => true
  | .fcls _ _ _ => true
  | .ffma _ _ _ _ => true
  | .fcvt _ _ _ => true
  | .vadd _ _ _ _ => true
  | .vsub _ _ _ _ => true
  | .vmul _ _ _ _ => true
  | .vfma _ _ _ _ => true
  | .vmin _ _ _ _ => true
  | .vmax _ _ _ _ => true
  | .vabs _ _ _ => true
  | .vneg _ _ _ => true
  | .vrcp _ _ _ => true
  | .vrsq _ _ _ => true
  | .vexp2 _ _ _ => true
  | .vand _ _ _ _ => true
  | .vor _ _ _ _ => true
  | .vxor _ _ _ _ => true
  | .vshl _ _ _ _ => true
  | .vshr _ _ _ _ => true
  | .vsar _ _ _ _ => true
  | .vcmpeq _ _ _ _ => true
  | .vcmplt _ _ _ _ => true
  | .vcmple _ _ _ _ => true
  | .vsel _ _ _ _ => true
  | .vcvt _ _ _ => true
  | .vred _ _ _ o => decide (o.toNat ≤ 2)
  | .vdot _ _ _ _ => true
  | .vqnt _ _ _ _ => true
  | .vshuf _ _ _ _ => true
  | .vbcast _ _ _ => true
  | .vext _ _ _ _ => true
  | .vins _ _ _ _ => true
  | .vmov _ _ _ => true
  | .mpush _ _ _ e => decide (e.toNat ≤ 15)
  | .mpop _ _ e => decide (e.toNat ≤ 15)
  | .mfence _ e => decide (e.toNat ≤ 15)
  | .mring _ _ _ => true
  | .mradv _ _ _ => true
  | .mrstat _ _ _ => true
  | .put _ _ p _ => decide (p.toNat < 16)
  | .take _ _ p _ => decide (p.toNat < 16)
  | .pbind _ _ p => decide (p.toNat < 16)
  | .pfree _ p => decide (p.toNat < 16)
  | .hload _ _ _ _ => true
  | .hstop _ _ _ => true
  | .hstat _ _ _ => true
  | .qcfg _ _ _ x => decide (x.toNat ≤ 5)
  | .qstat _ _ _ => true
  | .taga _ _ _ x => decide (x.toNat ≤ 3)
  | .tagf _ _ x => decide (x.toNat ≤ 3)
  | .send _ _ _ => true
  | .sendi _ _ _ _ => true
  | .waitm _ _ _ _ => true
  | .recv _ _ _ _ => true
  | .mpcfg _ _ _ => true
  | .jpset _ _ e => decide (e.toNat ≤ 15)
  | .jpclr _ e => decide (e.toNat ≤ 15)
  | .jpstat _ _ e => decide (e.toNat ≤ 15)
  | .spawn _ _ _ _ => true
  | .quit _ => true
  | .exit _ _ => true
  | .migrate _ _ => true
  | .launch _ _ _ => true
  | .garr _ _ _ => true
  | .gwait _ _ _ _ => true
  | .slots _ _ x => decide (x.toNat ≤ 2)
  | .cpy _ _ _ => true
  | .cpys _ _ _ _ => true
  | .cpyx _ _ _ _ => true
  | .bmv _ _ _ _ => true
  | .bfence _ _ => true
  | .bstat _ _ x => decide (x.toNat ≤ 1)
  | .csrr _ _ n => csrListed n
  | .csrw _ _ _ n => csrListed n
  | .csrs _ _ _ n => csrListed n
  | .csrc _ _ _ n => csrListed n
  | .trap _ _ => true
  | .eret _ _ => true
  | .brk _ => true
  | .wfe _ _ _ e => decide (e.toNat ≤ 15)
  | .tlbi _ _ e => decide (e.toNat ≤ 1)
  | .ctxsv _ _ _ _ => true
  | .ctxld _ _ _ _ => true
  | .sliceRetire _ => true
  | .powerGate _ => true
  | .evtdoor _ => true
  | .rcfgEnable _ _ => true
  | .tail _ _ => true
  | .bar0RegisterWrite _ _ => true
  | .identify _ => true
  | .load _ => true
  | .patch _ => true
  | .hostLaunch _ => true
  | .preemptPipeline _ => true
  | .preemptGeneral _ => true
  | .resumePipeline _ => true
  | .resumeGeneral _ => true
  | .abort _ => true
  | .map _ => true
  | .lifecycle _ => true
  | .fwstage _ => true
  | .logread _ => true
  | .unknownHostCommand _ => true
  | .linkDown _ => true
  | .wordNotAnInstruction _ _ => true
  | .stewardAccess _ => true
  | .correctedError _ => true
  | .dividerWrite => true
  | .bindingRequestIssue => true
  | .streamElementLand => true
  | .storeBufferLeave => true
  | .ownerStore => true
  | .storeAcknowledge => true
  | .sliceAccept => true
  | .sliceLookup => true
  | .dramFill => true
  | .mapInstall => true
  | .pageWalkDone => true
  | .iCacheFill => true
  | .slotZeroingDone => true
  | .atomicAtOwner => true
  | .amoReply => true
  | .feRequestAtOwner => true
  | .feResend => true
  | .feAnswer => true
  | .barrierArrival => true
  | .ownerWaitTimeout => true
  | .withdrawalSettle => true
  | .fenceComplete => true
  | .fenceTimeout => true
  | .fenceHostReadDone => true
  | .normaliserWrite => true
  | .vectorGrant => true
  | .vectorReturn => true
  | .matrixGrant => true
  | .matrixOpStart => true
  | .matrixOpComplete => true
  | .mpopRecordLand => true
  | .matrixQueueTimeout => true
  | .mpopTimeout => true
  | .offerSend => true
  | .hitchFlitArrival => true
  | .connectorDecision => true
  | .portCompletion => true
  | .portOpTimeout => true
  | .withdrawn => true
  | .bindingAnswer => true
  | .stop => true
  | .neighbourValueArrival => true
  | .neighbourReturn => true
  | .auditSend => true
  | .auditReceipt => true
  | .counterResync => true
  | .resyncAnswer => true
  | .messageDepart => true
  | .messageArrival => true
  | .spillRefill => true
  | .queueWaitTimeout => true
  | .joinDecision => true
  | .ungate => true
  | .threadEnd => true
  | .spawnPlacement => true
  | .spawnTimeout => true
  | .departure => true
  | .migrationArrival => true
  | .migrationAck => true
  | .migrationRelease => true
  | .lost => true
  | .paddockMove => true
  | .admission => true
  | .launchTake => true
  | .taskPlacement => true
  | .successor => true
  | .launchEnd => true
  | .copyGrant => true
  | .domainAnswer => true
  | .reduceUpdate => true
  | .copyComplete => true
  | .enginePushTimeout => true
  | .bankCommandStart => true
  | .bankComplete => true
  | .bfenceTimeout => true
  | .wfeWake => true
  | .wfeTimeout => true
  | .reset => true
  | .barrierWordRequest => true
  | .barrierAnswer => true
  | .hitchAnswer => true
  | .connectorUnbinding => true
  | .migrationDiscard => true
  | .preemptTimeout => true

/-- A register field that its role's stated limits admit (reason 3). -/
def Role.limitOk : Role → Reg → Bool
  | .dstGS, .nb _ | .dstGS, .q _ | .updGS, .nb _ | .updGS, .q _ => false
  | .pairS, .g i | .pairW, .g i => decide (i.val ≤ 94)
  | .pairS, _ | .pairW, _ => false
  | _, _ => true

/-- A register field that R25 permits (reason 5). -/
def Role.regOk : Role → Reg → Bool
  | .dst, .st _ | .upd, .st _ | .dstGS, .st _ | .updGS, .st _ => false
  | .loop, .g _ | .loop, .s _ | .guard, .g _ | .guard, .s _ | .scal, .g _ | .scal, .s _
  | .scalW, .g _ | .scalW, .s _ => true
  | .loop, _ | .guard, _ | .scal, _ | .scalW, _ => false
  | .stream, .st _ | .streamRead, .st _ => true
  | .stream, _ | .streamRead, _ => false
  | .group, .st _ | .group, .nb _ | .group, .q _ | .groupW, .st _ | .groupW, .nb _ | .groupW, .q _ => false
  | _, _ => true

/-- A group base or four-register base that is aligned and in range (reason 6, R26, R35). -/
def Role.baseOk : Role → Reg → Bool
  | .group, .g i | .groupW, .g i => decide (i.val % 8 = 0)
  | .group, _ | .groupW, _ => false
  | .quad, .g i => decide (i.val % 4 = 0)
  | .quad, _ => false
  | _, _ => true

/-- With G = 0 the guard fields of a PRE are reserved (R27). -/
def Instr.guardZero : Instr → Bool
  | .pre _ g b e n _ _ _ => e == 1 || (g == Reg.ofNat 0 && b == 0 && n == 0)
  | _ => true

/-- The first check of Table FM-12 with reason 3, 5 or 6 that the fields fail, in the table's order. The check of
reason 4 stands between those of 3 and 5: `reservedOk` says whether it passes. -/
def Instr.fieldReason (i : Instr) (reservedOk : Bool) : Option Nat :=
  if !(i.valuesOk && i.fields.all fun f => f.1.limitOk f.2) then some 3
  else if !(reservedOk && i.guardZero) then some 4
  else if !(i.fields.all fun f => f.1.regOk f.2) then some 5
  else if !(i.fields.all fun f => f.1.baseOk f.2) then some 6
  else none

/-- An instruction that some word encodes and that no check of Table FM-12 on the word alone refuses. -/
def Instr.wellFormed (i : Instr) : Bool :=
  i.isWord && i.fieldReason true == none

end Sys2Proof
end

