-- ==== Sys2Proof/Decode.lean ====
section
/-! DEFINITION. The words of ZWF (R19 to R36, R41): a decoder that is total on every 32-bit word and gives the
first reason of Table FM-12 for a word that is not an instruction, and an encoder written from the same tables. -/

namespace Sys2Proof

/-- The 7-bit field that names a register. -/
def Reg.bits (r : Reg) : BitVec 7 := BitVec.ofNat 7 r.toNat

/-- The register a 7-bit field names (Table FM-3). -/
def Reg.ofBits (b : BitVec 7) : Reg := Reg.ofNat b.toNat

/-! ### The eight forms of Table FM-2 and the PRE word of Table FM-4 -/

/-- R form. -/
def packR (sm : Bool) (op : BitVec 6) (rd ra rb : BitVec 7) (func : BitVec 4) : BitVec 32 :=
  BitVec.ofBool sm ++ (op ++ (rd ++ (ra ++ (rb ++ func))))
/-- I form. -/
def packI (sm : Bool) (op : BitVec 6) (rd ra : BitVec 7) (imm : BitVec 11) : BitVec 32 :=
  BitVec.ofBool sm ++ (op ++ (rd ++ (ra ++ imm)))
/-- L form. -/
def packL (sm : Bool) (op : BitVec 6) (rd : BitVec 7) (imm : BitVec 18) : BitVec 32 :=
  BitVec.ofBool sm ++ (op ++ (rd ++ imm))
/-- B form. -/
def packB (sm : Bool) (op : BitVec 6) (ra : BitVec 7) (bit : BitVec 6) (disp : BitVec 12) : BitVec 32 :=
  BitVec.ofBool sm ++ (op ++ (ra ++ (bit ++ disp)))
/-- J form. -/
def packJ (sm : Bool) (op : BitVec 6) (disp : BitVec 25) : BitVec 32 :=
  BitVec.ofBool sm ++ (op ++ disp)
/-- M form. -/
def packM (sm : Bool) (op : BitVec 6) (rd ra : BitVec 7) (ret size : BitVec 2) (tail : BitVec 7) : BitVec 32 :=
  BitVec.ofBool sm ++ (op ++ (rd ++ (ra ++ (ret ++ (size ++ tail)))))
/-- W form. -/
def packW (sm : Bool) (op : BitVec 6) (rd ra : BitVec 7) (tmo : BitVec 4) (aux : BitVec 3) (func : BitVec 4) :
    BitVec 32 :=
  BitVec.ofBool sm ++ (op ++ (rd ++ (ra ++ (tmo ++ (aux ++ func)))))
/-- C form. -/
def packC (sm : Bool) (op : BitVec 6) (rd ra : BitVec 7) (cop : BitVec 2) (csr : BitVec 9) : BitVec 32 :=
  BitVec.ofBool sm ++ (op ++ (rd ++ (ra ++ (cop ++ csr))))
/-- The PRE word. -/
def packP (sm : Bool) (op : BitVec 6) (greg : BitVec 7) (gbit : BitVec 6) (g sense : BitVec 1)
    (fmt aux : BitVec 4) (ord : BitVec 2) : BitVec 32 :=
  BitVec.ofBool sm ++ (op ++ (greg ++ (gbit ++ (g ++ (sense ++ (fmt ++ (aux ++ ord)))))))

/-- The word of an instruction, from the opcode map (Tables FM-7 to FM-11). A step with no word gives the all-zero
word, which is not an instruction. -/
def encode : Instr → BitVec 32
  | .add sm rd ra rb => packR sm 0x01#6 rd.bits ra.bits rb.bits 0#4
  | .sub sm rd ra rb => packR sm 0x01#6 rd.bits ra.bits rb.bits 1#4
  | .and sm rd ra rb => packR sm 0x01#6 rd.bits ra.bits rb.bits 2#4
  | .or sm rd ra rb => packR sm 0x01#6 rd.bits ra.bits rb.bits 3#4
  | .xor sm rd ra rb => packR sm 0x01#6 rd.bits ra.bits rb.bits 4#4
  | .andn sm rd ra rb => packR sm 0x01#6 rd.bits ra.bits rb.bits 5#4
  | .min sm rd ra rb => packR sm 0x01#6 rd.bits ra.bits rb.bits 6#4
  | .max sm rd ra rb => packR sm 0x01#6 rd.bits ra.bits rb.bits 7#4
  | .minu sm rd ra rb => packR sm 0x01#6 rd.bits ra.bits rb.bits 8#4
  | .maxu sm rd ra rb => packR sm 0x01#6 rd.bits ra.bits rb.bits 9#4
  | .mul sm rd ra rb => packR sm 0x02#6 rd.bits ra.bits rb.bits 0#4
  | .mulh sm rd ra rb => packR sm 0x02#6 rd.bits ra.bits rb.bits 1#4
  | .mulhu sm rd ra rb => packR sm 0x02#6 rd.bits ra.bits rb.bits 2#4
  | .div sm rd ra rb => packR sm 0x02#6 rd.bits ra.bits rb.bits 3#4
  | .divu sm rd ra rb => packR sm 0x02#6 rd.bits ra.bits rb.bits 4#4
  | .rem sm rd ra rb => packR sm 0x02#6 rd.bits ra.bits rb.bits 5#4
  | .remu sm rd ra rb => packR sm 0x02#6 rd.bits ra.bits rb.bits 6#4
  | .sll sm rd ra rb => packR sm 0x03#6 rd.bits ra.bits rb.bits 0#4
  | .srl sm rd ra rb => packR sm 0x03#6 rd.bits ra.bits rb.bits 1#4
  | .sra sm rd ra rb => packR sm 0x03#6 rd.bits ra.bits rb.bits 2#4
  | .rol sm rd ra rb => packR sm 0x03#6 rd.bits ra.bits rb.bits 3#4
  | .ror sm rd ra rb => packR sm 0x03#6 rd.bits ra.bits rb.bits 4#4
  | .clz sm rd ra => packR sm 0x03#6 rd.bits ra.bits 0#7 5#4
  | .ctz sm rd ra => packR sm 0x03#6 rd.bits ra.bits 0#7 6#4
  | .popc sm rd ra => packR sm 0x03#6 rd.bits ra.bits 0#7 7#4
  | .bset sm rd ra rb => packR sm 0x03#6 rd.bits ra.bits rb.bits 8#4
  | .bclr sm rd ra rb => packR sm 0x03#6 rd.bits ra.bits rb.bits 9#4
  | .btgl sm rd ra rb => packR sm 0x03#6 rd.bits ra.bits rb.bits 10#4
  | .bfx sm rd ra rb => packR sm 0x03#6 rd.bits ra.bits rb.bits 11#4
  | .bfxu sm rd ra rb => packR sm 0x03#6 rd.bits ra.bits rb.bits 12#4
  | .bfi sm rd ra rb => packR sm 0x03#6 rd.bits ra.bits rb.bits 13#4
  | .cmpeq sm rd ra rb => packR sm 0x04#6 rd.bits ra.bits rb.bits 0#4
  | .cmpne sm rd ra rb => packR sm 0x04#6 rd.bits ra.bits rb.bits 1#4
  | .cmplt sm rd ra rb => packR sm 0x04#6 rd.bits ra.bits rb.bits 2#4
  | .cmpltu sm rd ra rb => packR sm 0x04#6 rd.bits ra.bits rb.bits 3#4
  | .cmple sm rd ra rb => packR sm 0x04#6 rd.bits ra.bits rb.bits 4#4
  | .cmpleu sm rd ra rb => packR sm 0x04#6 rd.bits ra.bits rb.bits 5#4
  | .addi sm rd ra i => packI sm 0x05#6 rd.bits ra.bits i
  | .andi sm rd ra i => packI sm 0x06#6 rd.bits ra.bits i
  | .ori sm rd ra i => packI sm 0x07#6 rd.bits ra.bits i
  | .xori sm rd ra i => packI sm 0x08#6 rd.bits ra.bits i
  | .slli sm rd ra n => packI sm 0x09#6 rd.bits ra.bits (0#5 ++ n)
  | .srli sm rd ra n => packI sm 0x09#6 rd.bits ra.bits (2#5 ++ n)
  | .srai sm rd ra n => packI sm 0x09#6 rd.bits ra.bits (4#5 ++ n)
  | .roli sm rd ra n => packI sm 0x09#6 rd.bits ra.bits (6#5 ++ n)
  | .rori sm rd ra n => packI sm 0x09#6 rd.bits ra.bits (8#5 ++ n)
  | .bseti sm rd ra n => packI sm 0x09#6 rd.bits ra.bits (10#5 ++ n)
  | .bclri sm rd ra n => packI sm 0x09#6 rd.bits ra.bits (12#5 ++ n)
  | .btgli sm rd ra n => packI sm 0x09#6 rd.bits ra.bits (14#5 ++ n)
  | .cmpeqi sm rd ra v => packI sm 0x0A#6 rd.bits ra.bits (0#3 ++ v)
  | .cmpnei sm rd ra v => packI sm 0x0A#6 rd.bits ra.bits (1#3 ++ v)
  | .cmplti sm rd ra v => packI sm 0x0A#6 rd.bits ra.bits (2#3 ++ v)
  | .cmpltui sm rd ra v => packI sm 0x0A#6 rd.bits ra.bits (3#3 ++ v)
  | .cmplei sm rd ra v => packI sm 0x0A#6 rd.bits ra.bits (4#3 ++ v)
  | .cmpleui sm rd ra v => packI sm 0x0A#6 rd.bits ra.bits (5#3 ++ v)
  | .li sm rd i => packL sm 0x0B#6 rd.bits i
  | .lis sm rd i => packL sm 0x0C#6 rd.bits i
  | .mov sm rd rb => packR sm 0x0D#6 rd.bits 0#7 rb.bits 0#4
  | .sel sm rd ra rb => packR sm 0x0D#6 rd.bits ra.bits rb.bits 1#4
  | .gadr sm rd ra rb => packR sm 0x0D#6 rd.bits ra.bits rb.bits 2#4
  | .j sm i => packJ sm 0x10#6 i
  | .jl sm i => packJ sm 0x11#6 i
  | .jr sm ra => packR sm 0x12#6 0#7 ra.bits 0#7 0#4
  | .jlr sm rd ra => packR sm 0x12#6 rd.bits ra.bits 0#7 1#4
  | .bbs sm ra b i => packB sm 0x13#6 ra.bits b i
  | .bbc sm ra b i => packB sm 0x14#6 ra.bits b i
  | .bz sm ra i => packB sm 0x15#6 ra.bits 0#6 i
  | .bnz sm ra i => packB sm 0x15#6 ra.bits 1#6 i
  | .bloop sm ra i => packB sm 0x15#6 ra.bits 2#6 i
  | .pre sm g b e n f x o => packP sm 0x16#6 g.bits b e n f x o
  | .nop sm => packR sm 0x17#6 0#7 0#7 0#7 0#4
  | .yield sm => packR sm 0x17#6 0#7 0#7 0#7 1#4
  | .ldb sm rd ra r t => packM sm 0x18#6 rd.bits ra.bits r 0#2 t
  | .ldh sm rd ra r t => packM sm 0x18#6 rd.bits ra.bits r 1#2 t
  | .ldw sm rd ra r t => packM sm 0x18#6 rd.bits ra.bits r 2#2 t
  | .ldd sm rd ra r t => packM sm 0x18#6 rd.bits ra.bits r 3#2 t
  | .ldbu sm rd ra r t => packM sm 0x19#6 rd.bits ra.bits r 0#2 t
  | .ldhu sm rd ra r t => packM sm 0x19#6 rd.bits ra.bits r 1#2 t
  | .ldwu sm rd ra r t => packM sm 0x19#6 rd.bits ra.bits r 2#2 t
  | .stb sm rd ra r t => packM sm 0x1A#6 rd.bits ra.bits r 0#2 t
  | .sth sm rd ra r t => packM sm 0x1A#6 rd.bits ra.bits r 1#2 t
  | .stw sm rd ra r t => packM sm 0x1A#6 rd.bits ra.bits r 2#2 t
  | .std sm rd ra r t => packM sm 0x1A#6 rd.bits ra.bits r 3#2 t
  | .ldv sm rd ra r t => packM sm 0x1B#6 rd.bits ra.bits r 3#2 t
  | .stv sm rd ra r t => packM sm 0x1C#6 rd.bits ra.bits r 3#2 t
  | .gld sm rd ra r z n q o => packM sm 0x20#6 rd.bits ra.bits r z ((n ++ q) ++ o)
  | .gst sm rd ra r z q o => packM sm 0x21#6 rd.bits ra.bits r z ((0#1 ++ q) ++ o)
  | .gldv sm rd ra r n q o => packM sm 0x22#6 rd.bits ra.bits r 0#2 ((n ++ q) ++ o)
  | .gstv sm rd ra r q o => packM sm 0x22#6 rd.bits ra.bits r 1#2 ((0#1 ++ q) ++ o)
  | .sbind sm rd ra => packR sm 0x23#6 rd.bits ra.bits 0#7 0#4
  | .scnt sm rd ra => packR sm 0x23#6 rd.bits ra.bits 0#7 1#4
  | .ginv sm ra => packR sm 0x23#6 0#7 ra.bits 0#7 2#4
  | .gprf sm ra r => packR sm 0x23#6 0#7 ra.bits (r ++ 0#5) 3#4
  | .lclean sm ra => packR sm 0x23#6 0#7 ra.bits 0#7 4#4
  | .lflush sm ra => packR sm 0x23#6 0#7 ra.bits 0#7 5#4
  | .amoadd sm rd ra rb => packR sm 0x24#6 rd.bits ra.bits rb.bits 0#4
  | .amoand sm rd ra rb => packR sm 0x24#6 rd.bits ra.bits rb.bits 1#4
  | .amoor sm rd ra rb => packR sm 0x24#6 rd.bits ra.bits rb.bits 2#4
  | .amoxor sm rd ra rb => packR sm 0x24#6 rd.bits ra.bits rb.bits 3#4
  | .amomin sm rd ra rb => packR sm 0x24#6 rd.bits ra.bits rb.bits 4#4
  | .amomax sm rd ra rb => packR sm 0x24#6 rd.bits ra.bits rb.bits 5#4
  | .amominu sm rd ra rb => packR sm 0x24#6 rd.bits ra.bits rb.bits 6#4
  | .amomaxu sm rd ra rb => packR sm 0x24#6 rd.bits ra.bits rb.bits 7#4
  | .amoswp sm rd ra rb => packR sm 0x24#6 rd.bits ra.bits rb.bits 8#4
  | .acas sm rd ra rb => packR sm 0x24#6 rd.bits ra.bits rb.bits 9#4
  | .redadd sm ra rb => packR sm 0x25#6 0#7 ra.bits rb.bits 0#4
  | .redand sm ra rb => packR sm 0x25#6 0#7 ra.bits rb.bits 1#4
  | .redor sm ra rb => packR sm 0x25#6 0#7 ra.bits rb.bits 2#4
  | .redxor sm ra rb => packR sm 0x25#6 0#7 ra.bits rb.bits 3#4
  | .redmin sm ra rb => packR sm 0x25#6 0#7 ra.bits rb.bits 4#4
  | .redmax sm ra rb => packR sm 0x25#6 0#7 ra.bits rb.bits 5#4
  | .redminu sm ra rb => packR sm 0x25#6 0#7 ra.bits rb.bits 6#4
  | .redmaxu sm ra rb => packR sm 0x25#6 0#7 ra.bits rb.bits 7#4
  | .ldfe sm rd ra t => packW sm 0x26#6 rd.bits ra.bits t 0#3 0#4
  | .ldff sm rd ra t => packW sm 0x26#6 rd.bits ra.bits t 0#3 1#4
  | .stfe sm rd ra t => packW sm 0x26#6 rd.bits ra.bits t 0#3 2#4
  | .stff sm rd ra t => packW sm 0x26#6 rd.bits ra.bits t 0#3 3#4
  | .feq sm rd ra => packW sm 0x26#6 rd.bits ra.bits 0#4 0#3 4#4
  | .feset sm ra v => packW sm 0x26#6 0#7 ra.bits 0#4 (0#2 ++ v) 5#4
  | .bari sm rd ra => packW sm 0x27#6 rd.bits ra.bits 0#4 0#3 0#4
  | .bara sm rd ra => packW sm 0x27#6 rd.bits ra.bits 0#4 0#3 1#4
  | .barw sm rd ra t => packW sm 0x27#6 rd.bits ra.bits t 0#3 2#4
  | .waitw sm rd ra t m => packW sm 0x27#6 rd.bits ra.bits t m 3#4
  | .fence sm t c => packW sm 0x27#6 0#7 0#7 t c 4#4
  | .fadd sm rd ra rb => packR sm 0x28#6 rd.bits ra.bits rb.bits 0#4
  | .fsub sm rd ra rb => packR sm 0x28#6 rd.bits ra.bits rb.bits 1#4
  | .fmul sm rd ra rb => packR sm 0x28#6 rd.bits ra.bits rb.bits 2#4
  | .fmin sm rd ra rb => packR sm 0x28#6 rd.bits ra.bits rb.bits 3#4
  | .fmax sm rd ra rb => packR sm 0x28#6 rd.bits ra.bits rb.bits 4#4
  | .fabs sm rd ra => packR sm 0x28#6 rd.bits ra.bits 0#7 5#4
  | .fneg sm rd ra => packR sm 0x28#6 rd.bits ra.bits 0#7 6#4
  | .fcmpeq sm rd ra rb => packR sm 0x28#6 rd.bits ra.bits rb.bits 7#4
  | .fcmplt sm rd ra rb => packR sm 0x28#6 rd.bits ra.bits rb.bits 8#4
  | .fcmple sm rd ra rb => packR sm 0x28#6 rd.bits ra.bits rb.bits 9#4
  | .fcls sm rd ra => packR sm 0x28#6 rd.bits ra.bits 0#7 10#4
  | .ffma sm rd ra rb => packR sm 0x28#6 rd.bits ra.bits rb.bits 11#4
  | .fcvt sm rd ra => packR sm 0x28#6 rd.bits ra.bits 0#7 12#4
  | .vadd sm rd ra rb => packR sm 0x2C#6 rd.bits ra.bits rb.bits 0#4
  | .vsub sm rd ra rb => packR sm 0x2C#6 rd.bits ra.bits rb.bits 1#4
  | .vmul sm rd ra rb => packR sm 0x2C#6 rd.bits ra.bits rb.bits 2#4
  | .vfma sm rd ra rb => packR sm 0x2C#6 rd.bits ra.bits rb.bits 3#4
  | .vmin sm rd ra rb => packR sm 0x2C#6 rd.bits ra.bits rb.bits 4#4
  | .vmax sm rd ra rb => packR sm 0x2C#6 rd.bits ra.bits rb.bits 5#4
  | .vabs sm rd ra => packR sm 0x2C#6 rd.bits ra.bits 0#7 6#4
  | .vneg sm rd ra => packR sm 0x2C#6 rd.bits ra.bits 0#7 7#4
  | .vrcp sm rd ra => packR sm 0x2C#6 rd.bits ra.bits 0#7 8#4
  | .vrsq sm rd ra => packR sm 0x2C#6 rd.bits ra.bits 0#7 9#4
  | .vexp2 sm rd ra => packR sm 0x2C#6 rd.bits ra.bits 0#7 10#4
  | .vand sm rd ra rb => packR sm 0x2D#6 rd.bits ra.bits rb.bits 0#4
  | .vor sm rd ra rb => packR sm 0x2D#6 rd.bits ra.bits rb.bits 1#4
  | .vxor sm rd ra rb => packR sm 0x2D#6 rd.bits ra.bits rb.bits 2#4
  | .vshl sm rd ra rb => packR sm 0x2D#6 rd.bits ra.bits rb.bits 3#4
  | .vshr sm rd ra rb => packR sm 0x2D#6 rd.bits ra.bits rb.bits 4#4
  | .vsar sm rd ra rb => packR sm 0x2D#6 rd.bits ra.bits rb.bits 5#4
  | .vcmpeq sm rd ra rb => packR sm 0x2E#6 rd.bits ra.bits rb.bits 0#4
  | .vcmplt sm rd ra rb => packR sm 0x2E#6 rd.bits ra.bits rb.bits 1#4
  | .vcmple sm rd ra rb => packR sm 0x2E#6 rd.bits ra.bits rb.bits 2#4
  | .vsel sm rd ra rb => packR sm 0x2E#6 rd.bits ra.bits rb.bits 3#4
  | .vcvt sm rd ra => packR sm 0x2F#6 rd.bits ra.bits 0#7 0#4
  | .vred sm rd ra o => packR sm 0x2F#6 rd.bits ra.bits o 1#4
  | .vdot sm rd ra rb => packR sm 0x2F#6 rd.bits ra.bits rb.bits 2#4
  | .vqnt sm rd ra rb => packR sm 0x2F#6 rd.bits ra.bits rb.bits 3#4
  | .vshuf sm rd ra rb => packR sm 0x30#6 rd.bits ra.bits rb.bits 0#4
  | .vbcast sm rd ra => packR sm 0x30#6 rd.bits ra.bits 0#7 1#4
  | .vext sm rd ra rb => packR sm 0x30#6 rd.bits ra.bits rb.bits 2#4
  | .vins sm rd ra rb => packR sm 0x30#6 rd.bits ra.bits rb.bits 3#4
  | .vmov sm rd ra => packR sm 0x30#6 rd.bits ra.bits 0#7 4#4
  | .mpush sm rd ra e => packR sm 0x32#6 rd.bits ra.bits e 0#4
  | .mpop sm rd e => packR sm 0x32#6 rd.bits 0#7 e 1#4
  | .mfence sm e => packR sm 0x32#6 0#7 0#7 e 2#4
  | .mring sm ra e => packR sm 0x32#6 0#7 ra.bits (0#3 ++ e) 3#4
  | .mradv sm rd ra => packR sm 0x32#6 rd.bits ra.bits 0#7 4#4
  | .mrstat sm rd ra => packR sm 0x32#6 rd.bits ra.bits 0#7 5#4
  | .put sm rd p t => packW sm 0x34#6 rd.bits p t 0#3 0#4
  | .take sm rd p t => packW sm 0x34#6 rd.bits p t 0#3 1#4
  | .pbind sm rd p => packW sm 0x34#6 rd.bits p 0#4 0#3 2#4
  | .pfree sm p => packW sm 0x34#6 0#7 p 0#4 0#3 3#4
  | .hload sm rd ra rb => packR sm 0x35#6 rd.bits ra.bits rb.bits 0#4
  | .hstop sm rd ra => packR sm 0x35#6 rd.bits ra.bits 0#7 1#4
  | .hstat sm rd ra => packR sm 0x35#6 rd.bits ra.bits 0#7 2#4
  | .qcfg sm rd ra x => packW sm 0x36#6 rd.bits ra.bits 0#4 x 0#4
  | .qstat sm rd x => packW sm 0x36#6 rd.bits 0#7 0#4 x 1#4
  | .taga sm rd t x => packW sm 0x36#6 rd.bits 0#7 t x 2#4
  | .tagf sm rd x => packW sm 0x36#6 rd.bits 0#7 0#4 x 3#4
  | .send sm rd ra => packW sm 0x36#6 rd.bits ra.bits 0#4 0#3 4#4
  | .sendi sm rd ra v => packR sm 0x36#6 rd.bits ra.bits v 5#4
  | .waitm sm rd ra t => packW sm 0x36#6 rd.bits ra.bits t 0#3 6#4
  | .recv sm rd ra t => packW sm 0x36#6 rd.bits ra.bits t 0#3 7#4
  | .mpcfg sm rd ra => packW sm 0x36#6 rd.bits ra.bits 0#4 0#3 8#4
  | .jpset sm ra e => packR sm 0x37#6 0#7 ra.bits e 0#4
  | .jpclr sm e => packR sm 0x37#6 0#7 0#7 e 1#4
  | .jpstat sm rd e => packR sm 0x37#6 rd.bits 0#7 e 2#4
  | .spawn sm rd ra t => packW sm 0x38#6 rd.bits ra.bits t 0#3 0#4
  | .quit sm => packW sm 0x38#6 0#7 0#7 0#4 0#3 1#4
  | .exit sm ra => packW sm 0x38#6 0#7 ra.bits 0#4 0#3 2#4
  | .migrate sm ra => packW sm 0x38#6 0#7 ra.bits 0#4 0#3 3#4
  | .launch sm rd ra => packW sm 0x38#6 rd.bits ra.bits 0#4 0#3 4#4
  | .garr sm rd ra => packW sm 0x38#6 rd.bits ra.bits 0#4 0#3 5#4
  | .gwait sm rd ra t => packW sm 0x38#6 rd.bits ra.bits t 0#3 6#4
  | .slots sm rd x => packW sm 0x38#6 rd.bits 0#7 0#4 x 7#4
  | .cpy sm rd ra => packW sm 0x3A#6 rd.bits ra.bits 0#4 0#3 0#4
  | .cpys sm rd ra t => packW sm 0x3A#6 rd.bits ra.bits t 0#3 1#4
  | .cpyx sm rd ra t => packW sm 0x3A#6 rd.bits ra.bits t 0#3 2#4
  | .bmv sm rd ra t => packW sm 0x3A#6 rd.bits ra.bits t 0#3 3#4
  | .bfence sm t => packW sm 0x3A#6 0#7 0#7 t 0#3 4#4
  | .bstat sm rd x => packW sm 0x3A#6 rd.bits 0#7 0#4 x 5#4
  | .csrr sm rd n => packC sm 0x3B#6 rd.bits 0#7 0#2 n
  | .csrw sm rd ra n => packC sm 0x3B#6 rd.bits ra.bits 1#2 n
  | .csrs sm rd ra n => packC sm 0x3B#6 rd.bits ra.bits 2#2 n
  | .csrc sm rd ra n => packC sm 0x3B#6 rd.bits ra.bits 3#2 n
  | .trap sm c => packR sm 0x3C#6 0#7 0#7 c 0#4
  | .eret sm ra => packR sm 0x3C#6 0#7 ra.bits 0#7 1#4
  | .brk sm => packR sm 0x3C#6 0#7 0#7 0#7 2#4
  | .wfe sm rd ra e => packR sm 0x3C#6 rd.bits ra.bits e 3#4
  | .tlbi sm ra e => packR sm 0x3C#6 0#7 ra.bits e 4#4
  | .ctxsv sm rd ra rb => packR sm 0x3C#6 rd.bits ra.bits rb.bits 5#4
  | .ctxld sm rd ra rb => packR sm 0x3C#6 rd.bits ra.bits rb.bits 6#4
  | .sliceRetire _ => 0#32
  | .powerGate _ => 0#32
  | .evtdoor _ => 0#32
  | .rcfgEnable _ _ => 0#32
  | .tail _ _ => 0#32
  | .bar0RegisterWrite _ _ => 0#32
  | .identify _ => 0#32
  | .load _ => 0#32
  | .patch _ => 0#32
  | .hostLaunch _ => 0#32
  | .preemptPipeline _ => 0#32
  | .preemptGeneral _ => 0#32
  | .resumePipeline _ => 0#32
  | .resumeGeneral _ => 0#32
  | .abort _ => 0#32
  | .map _ => 0#32
  | .lifecycle _ => 0#32
  | .fwstage _ => 0#32
  | .logread _ => 0#32
  | .unknownHostCommand _ => 0#32
  | .linkDown _ => 0#32
  | .wordNotAnInstruction _ _ => 0#32
  | .stewardAccess _ => 0#32
  | .correctedError _ => 0#32
  | .dividerWrite => 0#32
  | .bindingRequestIssue => 0#32
  | .streamElementLand => 0#32
  | .storeBufferLeave => 0#32
  | .ownerStore => 0#32
  | .storeAcknowledge => 0#32
  | .sliceAccept => 0#32
  | .sliceLookup => 0#32
  | .dramFill => 0#32
  | .mapInstall => 0#32
  | .pageWalkDone => 0#32
  | .iCacheFill => 0#32
  | .slotZeroingDone => 0#32
  | .atomicAtOwner => 0#32
  | .amoReply => 0#32
  | .feRequestAtOwner => 0#32
  | .feResend => 0#32
  | .feAnswer => 0#32
  | .barrierArrival => 0#32
  | .ownerWaitTimeout => 0#32
  | .withdrawalSettle => 0#32
  | .fenceComplete => 0#32
  | .fenceTimeout => 0#32
  | .fenceHostReadDone => 0#32
  | .normaliserWrite => 0#32
  | .vectorGrant => 0#32
  | .vectorReturn => 0#32
  | .matrixGrant => 0#32
  | .matrixOpStart => 0#32
  | .matrixOpComplete => 0#32
  | .mpopRecordLand => 0#32
  | .matrixQueueTimeout => 0#32
  | .mpopTimeout => 0#32
  | .offerSend => 0#32
  | .hitchFlitArrival => 0#32
  | .connectorDecision => 0#32
  | .portCompletion => 0#32
  | .portOpTimeout => 0#32
  | .withdrawn => 0#32
  | .bindingAnswer => 0#32
  | .stop => 0#32
  | .neighbourValueArrival => 0#32
  | .neighbourReturn => 0#32
  | .auditSend => 0#32
  | .auditReceipt => 0#32
  | .counterResync => 0#32
  | .resyncAnswer => 0#32
  | .messageDepart => 0#32
  | .messageArrival => 0#32
  | .spillRefill => 0#32
  | .queueWaitTimeout => 0#32
  | .joinDecision => 0#32
  | .ungate => 0#32
  | .threadEnd => 0#32
  | .spawnPlacement => 0#32
  | .spawnTimeout => 0#32
  | .departure => 0#32
  | .migrationArrival => 0#32
  | .migrationAck => 0#32
  | .migrationRelease => 0#32
  | .lost => 0#32
  | .paddockMove => 0#32
  | .admission => 0#32
  | .launchTake => 0#32
  | .taskPlacement => 0#32
  | .successor => 0#32
  | .launchEnd => 0#32
  | .copyGrant => 0#32
  | .domainAnswer => 0#32
  | .reduceUpdate => 0#32
  | .copyComplete => 0#32
  | .enginePushTimeout => 0#32
  | .bankCommandStart => 0#32
  | .bankComplete => 0#32
  | .bfenceTimeout => 0#32
  | .wfeWake => 0#32
  | .wfeTimeout => 0#32
  | .reset => 0#32
  | .barrierWordRequest => 0#32
  | .barrierAnswer => 0#32
  | .hitchAnswer => 0#32
  | .connectorUnbinding => 0#32
  | .migrationDiscard => 0#32
  | .preemptTimeout => 0#32

/-! ### Reading the fields of a word -/

/-- Bit 31, the switch marker. -/
def wordS (w : BitVec 32) : Bool := w.getLsbD 31
/-- The major opcode. -/
def wordOp (w : BitVec 32) : Nat := (w.extractLsb' 25 6).toNat
/-- The register field [24:18]. -/
def wordD (w : BitVec 32) : Reg := Reg.ofBits (w.extractLsb' 18 7)
/-- The register field [17:11]. -/
def wordA (w : BitVec 32) : Reg := Reg.ofBits (w.extractLsb' 11 7)
/-- The register field [10:4]. -/
def wordB (w : BitVec 32) : Reg := Reg.ofBits (w.extractLsb' 4 7)
/-- The function [3:0]. -/
def wordFunc (w : BitVec 32) : Nat := (w.extractLsb' 0 4).toNat
/-- The size field [8:7] of an M form. -/
def wordSize (w : BitVec 32) : Nat := (w.extractLsb' 7 2).toNat

/-- The words of opcode 0x01, before the checks of their fields. -/
def decode01 (w : BitVec 32) : Except Nat Instr :=
  match wordFunc w with
  | 0 => .ok (.add (wordS w) (wordD w) (wordA w) (wordB w))
  | 1 => .ok (.sub (wordS w) (wordD w) (wordA w) (wordB w))
  | 2 => .ok (.and (wordS w) (wordD w) (wordA w) (wordB w))
  | 3 => .ok (.or (wordS w) (wordD w) (wordA w) (wordB w))
  | 4 => .ok (.xor (wordS w) (wordD w) (wordA w) (wordB w))
  | 5 => .ok (.andn (wordS w) (wordD w) (wordA w) (wordB w))
  | 6 => .ok (.min (wordS w) (wordD w) (wordA w) (wordB w))
  | 7 => .ok (.max (wordS w) (wordD w) (wordA w) (wordB w))
  | 8 => .ok (.minu (wordS w) (wordD w) (wordA w) (wordB w))
  | 9 => .ok (.maxu (wordS w) (wordD w) (wordA w) (wordB w))
  | _ => .error 3

/-- The words of opcode 0x02, before the checks of their fields. -/
def decode02 (w : BitVec 32) : Except Nat Instr :=
  match wordFunc w with
  | 0 => .ok (.mul (wordS w) (wordD w) (wordA w) (wordB w))
  | 1 => .ok (.mulh (wordS w) (wordD w) (wordA w) (wordB w))
  | 2 => .ok (.mulhu (wordS w) (wordD w) (wordA w) (wordB w))
  | 3 => .ok (.div (wordS w) (wordD w) (wordA w) (wordB w))
  | 4 => .ok (.divu (wordS w) (wordD w) (wordA w) (wordB w))
  | 5 => .ok (.rem (wordS w) (wordD w) (wordA w) (wordB w))
  | 6 => .ok (.remu (wordS w) (wordD w) (wordA w) (wordB w))
  | _ => .error 3

/-- The words of opcode 0x03, before the checks of their fields. -/
def decode03 (w : BitVec 32) : Except Nat Instr :=
  match wordFunc w with
  | 0 => .ok (.sll (wordS w) (wordD w) (wordA w) (wordB w))
  | 1 => .ok (.srl (wordS w) (wordD w) (wordA w) (wordB w))
  | 2 => .ok (.sra (wordS w) (wordD w) (wordA w) (wordB w))
  | 3 => .ok (.rol (wordS w) (wordD w) (wordA w) (wordB w))
  | 4 => .ok (.ror (wordS w) (wordD w) (wordA w) (wordB w))
  | 5 => .ok (.clz (wordS w) (wordD w) (wordA w))
  | 6 => .ok (.ctz (wordS w) (wordD w) (wordA w))
  | 7 => .ok (.popc (wordS w) (wordD w) (wordA w))
  | 8 => .ok (.bset (wordS w) (wordD w) (wordA w) (wordB w))
  | 9 => .ok (.bclr (wordS w) (wordD w) (wordA w) (wordB w))
  | 10 => .ok (.btgl (wordS w) (wordD w) (wordA w) (wordB w))
  | 11 => .ok (.bfx (wordS w) (wordD w) (wordA w) (wordB w))
  | 12 => .ok (.bfxu (wordS w) (wordD w) (wordA w) (wordB w))
  | 13 => .ok (.bfi (wordS w) (wordD w) (wordA w) (wordB w))
  | _ => .error 3

/-- The words of opcode 0x04, before the checks of their fields. -/
def decode04 (w : BitVec 32) : Except Nat Instr :=
  match wordFunc w with
  | 0 => .ok (.cmpeq (wordS w) (wordD w) (wordA w) (wordB w))
  | 1 => .ok (.cmpne (wordS w) (wordD w) (wordA w) (wordB w))
  | 2 => .ok (.cmplt (wordS w) (wordD w) (wordA w) (wordB w))
  | 3 => .ok (.cmpltu (wordS w) (wordD w) (wordA w) (wordB w))
  | 4 => .ok (.cmple (wordS w) (wordD w) (wordA w) (wordB w))
  | 5 => .ok (.cmpleu (wordS w) (wordD w) (wordA w) (wordB w))
  | _ => .error 3

/-- The words of opcode 0x05, before the checks of their fields. -/
def decode05 (w : BitVec 32) : Except Nat Instr :=
  .ok (.addi (wordS w) (wordD w) (wordA w) (w.extractLsb' 0 11))

/-- The words of opcode 0x06, before the checks of their fields. -/
def decode06 (w : BitVec 32) : Except Nat Instr :=
  .ok (.andi (wordS w) (wordD w) (wordA w) (w.extractLsb' 0 11))

/-- The words of opcode 0x07, before the checks of their fields. -/
def decode07 (w : BitVec 32) : Except Nat Instr :=
  .ok (.ori (wordS w) (wordD w) (wordA w) (w.extractLsb' 0 11))

/-- The words of opcode 0x08, before the checks of their fields. -/
def decode08 (w : BitVec 32) : Except Nat Instr :=
  .ok (.xori (wordS w) (wordD w) (wordA w) (w.extractLsb' 0 11))

/-- The words of opcode 0x09, before the checks of their fields. -/
def decode09 (w : BitVec 32) : Except Nat Instr :=
  match (w.extractLsb' 7 4).toNat with
  | 0 => .ok (.slli (wordS w) (wordD w) (wordA w) (w.extractLsb' 0 6))
  | 1 => .ok (.srli (wordS w) (wordD w) (wordA w) (w.extractLsb' 0 6))
  | 2 => .ok (.srai (wordS w) (wordD w) (wordA w) (w.extractLsb' 0 6))
  | 3 => .ok (.roli (wordS w) (wordD w) (wordA w) (w.extractLsb' 0 6))
  | 4 => .ok (.rori (wordS w) (wordD w) (wordA w) (w.extractLsb' 0 6))
  | 5 => .ok (.bseti (wordS w) (wordD w) (wordA w) (w.extractLsb' 0 6))
  | 6 => .ok (.bclri (wordS w) (wordD w) (wordA w) (w.extractLsb' 0 6))
  | 7 => .ok (.btgli (wordS w) (wordD w) (wordA w) (w.extractLsb' 0 6))
  | _ => .error 3

/-- The words of opcode 0x0A, before the checks of their fields. -/
def decode0A (w : BitVec 32) : Except Nat Instr :=
  match (w.extractLsb' 8 3).toNat with
  | 0 => .ok (.cmpeqi (wordS w) (wordD w) (wordA w) (w.extractLsb' 0 8))
  | 1 => .ok (.cmpnei (wordS w) (wordD w) (wordA w) (w.extractLsb' 0 8))
  | 2 => .ok (.cmplti (wordS w) (wordD w) (wordA w) (w.extractLsb' 0 8))
  | 3 => .ok (.cmpltui (wordS w) (wordD w) (wordA w) (w.extractLsb' 0 8))
  | 4 => .ok (.cmplei (wordS w) (wordD w) (wordA w) (w.extractLsb' 0 8))
  | 5 => .ok (.cmpleui (wordS w) (wordD w) (wordA w) (w.extractLsb' 0 8))
  | _ => .error 3

/-- The words of opcode 0x0B, before the checks of their fields. -/
def decode0B (w : BitVec 32) : Except Nat Instr :=
  .ok (.li (wordS w) (wordD w) (w.extractLsb' 0 18))

/-- The words of opcode 0x0C, before the checks of their fields. -/
def decode0C (w : BitVec 32) : Except Nat Instr :=
  .ok (.lis (wordS w) (wordD w) (w.extractLsb' 0 18))

/-- The words of opcode 0x0D, before the checks of their fields. -/
def decode0D (w : BitVec 32) : Except Nat Instr :=
  match wordFunc w with
  | 0 => .ok (.mov (wordS w) (wordD w) (wordB w))
  | 1 => .ok (.sel (wordS w) (wordD w) (wordA w) (wordB w))
  | 2 => .ok (.gadr (wordS w) (wordD w) (wordA w) (wordB w))
  | _ => .error 3

/-- The words of opcode 0x10, before the checks of their fields. -/
def decode10 (w : BitVec 32) : Except Nat Instr :=
  .ok (.j (wordS w) (w.extractLsb' 0 25))

/-- The words of opcode 0x11, before the checks of their fields. -/
def decode11 (w : BitVec 32) : Except Nat Instr :=
  .ok (.jl (wordS w) (w.extractLsb' 0 25))

/-- The words of opcode 0x12, before the checks of their fields. -/
def decode12 (w : BitVec 32) : Except Nat Instr :=
  match wordFunc w with
  | 0 => .ok (.jr (wordS w) (wordA w))
  | 1 => .ok (.jlr (wordS w) (wordD w) (wordA w))
  | _ => .error 3

/-- The words of opcode 0x13, before the checks of their fields. -/
def decode13 (w : BitVec 32) : Except Nat Instr :=
  .ok (.bbs (wordS w) (wordD w) (w.extractLsb' 12 6) (w.extractLsb' 0 12))

/-- The words of opcode 0x14, before the checks of their fields. -/
def decode14 (w : BitVec 32) : Except Nat Instr :=
  .ok (.bbc (wordS w) (wordD w) (w.extractLsb' 12 6) (w.extractLsb' 0 12))

/-- The words of opcode 0x15, before the checks of their fields. -/
def decode15 (w : BitVec 32) : Except Nat Instr :=
  match (w.extractLsb' 12 6).toNat with
  | 0 => .ok (.bz (wordS w) (wordD w) (w.extractLsb' 0 12))
  | 1 => .ok (.bnz (wordS w) (wordD w) (w.extractLsb' 0 12))
  | 2 => .ok (.bloop (wordS w) (wordD w) (w.extractLsb' 0 12))
  | _ => .error 3

/-- The words of opcode 0x16, before the checks of their fields. -/
def decode16 (w : BitVec 32) : Except Nat Instr :=
  .ok (.pre (wordS w) (wordD w) (w.extractLsb' 12 6) (w.extractLsb' 11 1) (w.extractLsb' 10 1) (w.extractLsb' 6 4) (w.extractLsb' 2 4) (w.extractLsb' 0 2))

/-- The words of opcode 0x17, before the checks of their fields. -/
def decode17 (w : BitVec 32) : Except Nat Instr :=
  match wordFunc w with
  | 0 => .ok (.nop (wordS w))
  | 1 => .ok (.yield (wordS w))
  | _ => .error 3

/-- The words of opcode 0x18, before the checks of their fields. -/
def decode18 (w : BitVec 32) : Except Nat Instr :=
  match wordSize w with
  | 0 => .ok (.ldb (wordS w) (wordD w) (wordA w) (w.extractLsb' 9 2) (w.extractLsb' 0 7))
  | 1 => .ok (.ldh (wordS w) (wordD w) (wordA w) (w.extractLsb' 9 2) (w.extractLsb' 0 7))
  | 2 => .ok (.ldw (wordS w) (wordD w) (wordA w) (w.extractLsb' 9 2) (w.extractLsb' 0 7))
  | 3 => .ok (.ldd (wordS w) (wordD w) (wordA w) (w.extractLsb' 9 2) (w.extractLsb' 0 7))
  | _ => .error 3

/-- The words of opcode 0x19, before the checks of their fields. -/
def decode19 (w : BitVec 32) : Except Nat Instr :=
  match wordSize w with
  | 0 => .ok (.ldbu (wordS w) (wordD w) (wordA w) (w.extractLsb' 9 2) (w.extractLsb' 0 7))
  | 1 => .ok (.ldhu (wordS w) (wordD w) (wordA w) (w.extractLsb' 9 2) (w.extractLsb' 0 7))
  | 2 => .ok (.ldwu (wordS w) (wordD w) (wordA w) (w.extractLsb' 9 2) (w.extractLsb' 0 7))
  | _ => .error 3

/-- The words of opcode 0x1A, before the checks of their fields. -/
def decode1A (w : BitVec 32) : Except Nat Instr :=
  match wordSize w with
  | 0 => .ok (.stb (wordS w) (wordD w) (wordA w) (w.extractLsb' 9 2) (w.extractLsb' 0 7))
  | 1 => .ok (.sth (wordS w) (wordD w) (wordA w) (w.extractLsb' 9 2) (w.extractLsb' 0 7))
  | 2 => .ok (.stw (wordS w) (wordD w) (wordA w) (w.extractLsb' 9 2) (w.extractLsb' 0 7))
  | 3 => .ok (.std (wordS w) (wordD w) (wordA w) (w.extractLsb' 9 2) (w.extractLsb' 0 7))
  | _ => .error 3

/-- The words of opcode 0x1B, before the checks of their fields. -/
def decode1B (w : BitVec 32) : Except Nat Instr :=
  match wordSize w with
  | 3 => .ok (.ldv (wordS w) (wordD w) (wordA w) (w.extractLsb' 9 2) (w.extractLsb' 0 7))
  | _ => .error 3

/-- The words of opcode 0x1C, before the checks of their fields. -/
def decode1C (w : BitVec 32) : Except Nat Instr :=
  match wordSize w with
  | 3 => .ok (.stv (wordS w) (wordD w) (wordA w) (w.extractLsb' 9 2) (w.extractLsb' 0 7))
  | _ => .error 3

/-- The words of opcode 0x20, before the checks of their fields. -/
def decode20 (w : BitVec 32) : Except Nat Instr :=
  .ok (.gld (wordS w) (wordD w) (wordA w) (w.extractLsb' 9 2) (w.extractLsb' 7 2) (w.extractLsb' 6 1) (w.extractLsb' 5 1) (w.extractLsb' 0 5))

/-- The words of opcode 0x21, before the checks of their fields. -/
def decode21 (w : BitVec 32) : Except Nat Instr :=
  .ok (.gst (wordS w) (wordD w) (wordA w) (w.extractLsb' 9 2) (w.extractLsb' 7 2) (w.extractLsb' 5 1) (w.extractLsb' 0 5))

/-- The words of opcode 0x22, before the checks of their fields. -/
def decode22 (w : BitVec 32) : Except Nat Instr :=
  match wordSize w with
  | 0 => .ok (.gldv (wordS w) (wordD w) (wordA w) (w.extractLsb' 9 2) (w.extractLsb' 6 1) (w.extractLsb' 5 1) (w.extractLsb' 0 5))
  | 1 => .ok (.gstv (wordS w) (wordD w) (wordA w) (w.extractLsb' 9 2) (w.extractLsb' 5 1) (w.extractLsb' 0 5))
  | _ => .error 3

/-- The words of opcode 0x23, before the checks of their fields. -/
def decode23 (w : BitVec 32) : Except Nat Instr :=
  match wordFunc w with
  | 0 => .ok (.sbind (wordS w) (wordD w) (wordA w))
  | 1 => .ok (.scnt (wordS w) (wordD w) (wordA w))
  | 2 => .ok (.ginv (wordS w) (wordA w))
  | 3 => .ok (.gprf (wordS w) (wordA w) (w.extractLsb' 9 2))
  | 4 => .ok (.lclean (wordS w) (wordA w))
  | 5 => .ok (.lflush (wordS w) (wordA w))
  | _ => .error 3

/-- The words of opcode 0x24, before the checks of their fields. -/
def decode24 (w : BitVec 32) : Except Nat Instr :=
  match wordFunc w with
  | 0 => .ok (.amoadd (wordS w) (wordD w) (wordA w) (wordB w))
  | 1 => .ok (.amoand (wordS w) (wordD w) (wordA w) (wordB w))
  | 2 => .ok (.amoor (wordS w) (wordD w) (wordA w) (wordB w))
  | 3 => .ok (.amoxor (wordS w) (wordD w) (wordA w) (wordB w))
  | 4 => .ok (.amomin (wordS w) (wordD w) (wordA w) (wordB w))
  | 5 => .ok (.amomax (wordS w) (wordD w) (wordA w) (wordB w))
  | 6 => .ok (.amominu (wordS w) (wordD w) (wordA w) (wordB w))
  | 7 => .ok (.amomaxu (wordS w) (wordD w) (wordA w) (wordB w))
  | 8 => .ok (.amoswp (wordS w) (wordD w) (wordA w) (wordB w))
  | 9 => .ok (.acas (wordS w) (wordD w) (wordA w) (wordB w))
  | _ => .error 3

/-- The words of opcode 0x25, before the checks of their fields. -/
def decode25 (w : BitVec 32) : Except Nat Instr :=
  match wordFunc w with
  | 0 => .ok (.redadd (wordS w) (wordA w) (wordB w))
  | 1 => .ok (.redand (wordS w) (wordA w) (wordB w))
  | 2 => .ok (.redor (wordS w) (wordA w) (wordB w))
  | 3 => .ok (.redxor (wordS w) (wordA w) (wordB w))
  | 4 => .ok (.redmin (wordS w) (wordA w) (wordB w))
  | 5 => .ok (.redmax (wordS w) (wordA w) (wordB w))
  | 6 => .ok (.redminu (wordS w) (wordA w) (wordB w))
  | 7 => .ok (.redmaxu (wordS w) (wordA w) (wordB w))
  | _ => .error 3

/-- The words of opcode 0x26, before the checks of their fields. -/
def decode26 (w : BitVec 32) : Except Nat Instr :=
  match wordFunc w with
  | 0 => .ok (.ldfe (wordS w) (wordD w) (wordA w) (w.extractLsb' 7 4))
  | 1 => .ok (.ldff (wordS w) (wordD w) (wordA w) (w.extractLsb' 7 4))
  | 2 => .ok (.stfe (wordS w) (wordD w) (wordA w) (w.extractLsb' 7 4))
  | 3 => .ok (.stff (wordS w) (wordD w) (wordA w) (w.extractLsb' 7 4))
  | 4 => .ok (.feq (wordS w) (wordD w) (wordA w))
  | 5 => .ok (.feset (wordS w) (wordA w) (w.extractLsb' 4 1))
  | _ => .error 3

/-- The words of opcode 0x27, before the checks of their fields. -/
def decode27 (w : BitVec 32) : Except Nat Instr :=
  match wordFunc w with
  | 0 => .ok (.bari (wordS w) (wordD w) (wordA w))
  | 1 => .ok (.bara (wordS w) (wordD w) (wordA w))
  | 2 => .ok (.barw (wordS w) (wordD w) (wordA w) (w.extractLsb' 7 4))
  | 3 => .ok (.waitw (wordS w) (wordD w) (wordA w) (w.extractLsb' 7 4) (w.extractLsb' 4 3))
  | 4 => .ok (.fence (wordS w) (w.extractLsb' 7 4) (w.extractLsb' 4 3))
  | _ => .error 3

/-- The words of opcode 0x28, before the checks of their fields. -/
def decode28 (w : BitVec 32) : Except Nat Instr :=
  match wordFunc w with
  | 0 => .ok (.fadd (wordS w) (wordD w) (wordA w) (wordB w))
  | 1 => .ok (.fsub (wordS w) (wordD w) (wordA w) (wordB w))
  | 2 => .ok (.fmul (wordS w) (wordD w) (wordA w) (wordB w))
  | 3 => .ok (.fmin (wordS w) (wordD w) (wordA w) (wordB w))
  | 4 => .ok (.fmax (wordS w) (wordD w) (wordA w) (wordB w))
  | 5 => .ok (.fabs (wordS w) (wordD w) (wordA w))
  | 6 => .ok (.fneg (wordS w) (wordD w) (wordA w))
  | 7 => .ok (.fcmpeq (wordS w) (wordD w) (wordA w) (wordB w))
  | 8 => .ok (.fcmplt (wordS w) (wordD w) (wordA w) (wordB w))
  | 9 => .ok (.fcmple (wordS w) (wordD w) (wordA w) (wordB w))
  | 10 => .ok (.fcls (wordS w) (wordD w) (wordA w))
  | 11 => .ok (.ffma (wordS w) (wordD w) (wordA w) (wordB w))
  | 12 => .ok (.fcvt (wordS w) (wordD w) (wordA w))
  | _ => .error 3

/-- The words of opcode 0x2C, before the checks of their fields. -/
def decode2C (w : BitVec 32) : Except Nat Instr :=
  match wordFunc w with
  | 0 => .ok (.vadd (wordS w) (wordD w) (wordA w) (wordB w))
  | 1 => .ok (.vsub (wordS w) (wordD w) (wordA w) (wordB w))
  | 2 => .ok (.vmul (wordS w) (wordD w) (wordA w) (wordB w))
  | 3 => .ok (.vfma (wordS w) (wordD w) (wordA w) (wordB w))
  | 4 => .ok (.vmin (wordS w) (wordD w) (wordA w) (wordB w))
  | 5 => .ok (.vmax (wordS w) (wordD w) (wordA w) (wordB w))
  | 6 => .ok (.vabs (wordS w) (wordD w) (wordA w))
  | 7 => .ok (.vneg (wordS w) (wordD w) (wordA w))
  | 8 => .ok (.vrcp (wordS w) (wordD w) (wordA w))
  | 9 => .ok (.vrsq (wordS w) (wordD w) (wordA w))
  | 10 => .ok (.vexp2 (wordS w) (wordD w) (wordA w))
  | _ => .error 3

/-- The words of opcode 0x2D, before the checks of their fields. -/
def decode2D (w : BitVec 32) : Except Nat Instr :=
  match wordFunc w with
  | 0 => .ok (.vand (wordS w) (wordD w) (wordA w) (wordB w))
  | 1 => .ok (.vor (wordS w) (wordD w) (wordA w) (wordB w))
  | 2 => .ok (.vxor (wordS w) (wordD w) (wordA w) (wordB w))
  | 3 => .ok (.vshl (wordS w) (wordD w) (wordA w) (wordB w))
  | 4 => .ok (.vshr (wordS w) (wordD w) (wordA w) (wordB w))
  | 5 => .ok (.vsar (wordS w) (wordD w) (wordA w) (wordB w))
  | _ => .error 3

/-- The words of opcode 0x2E, before the checks of their fields. -/
def decode2E (w : BitVec 32) : Except Nat Instr :=
  match wordFunc w with
  | 0 => .ok (.vcmpeq (wordS w) (wordD w) (wordA w) (wordB w))
  | 1 => .ok (.vcmplt (wordS w) (wordD w) (wordA w) (wordB w))
  | 2 => .ok (.vcmple (wordS w) (wordD w) (wordA w) (wordB w))
  | 3 => .ok (.vsel (wordS w) (wordD w) (wordA w) (wordB w))
  | _ => .error 3

/-- The words of opcode 0x2F, before the checks of their fields. -/
def decode2F (w : BitVec 32) : Except Nat Instr :=
  match wordFunc w with
  | 0 => .ok (.vcvt (wordS w) (wordD w) (wordA w))
  | 1 => .ok (.vred (wordS w) (wordD w) (wordA w) (w.extractLsb' 4 7))
  | 2 => .ok (.vdot (wordS w) (wordD w) (wordA w) (wordB w))
  | 3 => .ok (.vqnt (wordS w) (wordD w) (wordA w) (wordB w))
  | _ => .error 3

/-- The words of opcode 0x30, before the checks of their fields. -/
def decode30 (w : BitVec 32) : Except Nat Instr :=
  match wordFunc w with
  | 0 => .ok (.vshuf (wordS w) (wordD w) (wordA w) (wordB w))
  | 1 => .ok (.vbcast (wordS w) (wordD w) (wordA w))
  | 2 => .ok (.vext (wordS w) (wordD w) (wordA w) (wordB w))
  | 3 => .ok (.vins (wordS w) (wordD w) (wordA w) (wordB w))
  | 4 => .ok (.vmov (wordS w) (wordD w) (wordA w))
  | _ => .error 3

/-- The words of opcode 0x32, before the checks of their fields. -/
def decode32 (w : BitVec 32) : Except Nat Instr :=
  match wordFunc w with
  | 0 => .ok (.mpush (wordS w) (wordD w) (wordA w) (w.extractLsb' 4 7))
  | 1 => .ok (.mpop (wordS w) (wordD w) (w.extractLsb' 4 7))
  | 2 => .ok (.mfence (wordS w) (w.extractLsb' 4 7))
  | 3 => .ok (.mring (wordS w) (wordA w) (w.extractLsb' 4 4))
  | 4 => .ok (.mradv (wordS w) (wordD w) (wordA w))
  | 5 => .ok (.mrstat (wordS w) (wordD w) (wordA w))
  | _ => .error 3

/-- The words of opcode 0x34, before the checks of their fields. -/
def decode34 (w : BitVec 32) : Except Nat Instr :=
  match wordFunc w with
  | 0 => .ok (.put (wordS w) (wordD w) (w.extractLsb' 11 7) (w.extractLsb' 7 4))
  | 1 => .ok (.take (wordS w) (wordD w) (w.extractLsb' 11 7) (w.extractLsb' 7 4))
  | 2 => .ok (.pbind (wordS w) (wordD w) (w.extractLsb' 11 7))
  | 3 => .ok (.pfree (wordS w) (w.extractLsb' 11 7))
  | _ => .error 3

/-- The words of opcode 0x35, before the checks of their fields. -/
def decode35 (w : BitVec 32) : Except Nat Instr :=
  match wordFunc w with
  | 0 => .ok (.hload (wordS w) (wordD w) (wordA w) (wordB w))
  | 1 => .ok (.hstop (wordS w) (wordD w) (wordA w))
  | 2 => .ok (.hstat (wordS w) (wordD w) (wordA w))
  | _ => .error 3

/-- The words of opcode 0x36, before the checks of their fields. -/
def decode36 (w : BitVec 32) : Except Nat Instr :=
  match wordFunc w with
  | 0 => .ok (.qcfg (wordS w) (wordD w) (wordA w) (w.extractLsb' 4 3))
  | 1 => .ok (.qstat (wordS w) (wordD w) (w.extractLsb' 4 3))
  | 2 => .ok (.taga (wordS w) (wordD w) (w.extractLsb' 7 4) (w.extractLsb' 4 3))
  | 3 => .ok (.tagf (wordS w) (wordD w) (w.extractLsb' 4 3))
  | 4 => .ok (.send (wordS w) (wordD w) (wordA w))
  | 5 => .ok (.sendi (wordS w) (wordD w) (wordA w) (w.extractLsb' 4 7))
  | 6 => .ok (.waitm (wordS w) (wordD w) (wordA w) (w.extractLsb' 7 4))
  | 7 => .ok (.recv (wordS w) (wordD w) (wordA w) (w.extractLsb' 7 4))
  | 8 => .ok (.mpcfg (wordS w) (wordD w) (wordA w))
  | _ => .error 3

/-- The words of opcode 0x37, before the checks of their fields. -/
def decode37 (w : BitVec 32) : Except Nat Instr :=
  match wordFunc w with
  | 0 => .ok (.jpset (wordS w) (wordA w) (w.extractLsb' 4 7))
  | 1 => .ok (.jpclr (wordS w) (w.extractLsb' 4 7))
  | 2 => .ok (.jpstat (wordS w) (wordD w) (w.extractLsb' 4 7))
  | _ => .error 3

/-- The words of opcode 0x38, before the checks of their fields. -/
def decode38 (w : BitVec 32) : Except Nat Instr :=
  match wordFunc w with
  | 0 => .ok (.spawn (wordS w) (wordD w) (wordA w) (w.extractLsb' 7 4))
  | 1 => .ok (.quit (wordS w))
  | 2 => .ok (.exit (wordS w) (wordA w))
  | 3 => .ok (.migrate (wordS w) (wordA w))
  | 4 => .ok (.launch (wordS w) (wordD w) (wordA w))
  | 5 => .ok (.garr (wordS w) (wordD w) (wordA w))
  | 6 => .ok (.gwait (wordS w) (wordD w) (wordA w) (w.extractLsb' 7 4))
  | 7 => .ok (.slots (wordS w) (wordD w) (w.extractLsb' 4 3))
  | _ => .error 3

/-- The words of opcode 0x3A, before the checks of their fields. -/
def decode3A (w : BitVec 32) : Except Nat Instr :=
  match wordFunc w with
  | 0 => .ok (.cpy (wordS w) (wordD w) (wordA w))
  | 1 => .ok (.cpys (wordS w) (wordD w) (wordA w) (w.extractLsb' 7 4))
  | 2 => .ok (.cpyx (wordS w) (wordD w) (wordA w) (w.extractLsb' 7 4))
  | 3 => .ok (.bmv (wordS w) (wordD w) (wordA w) (w.extractLsb' 7 4))
  | 4 => .ok (.bfence (wordS w) (w.extractLsb' 7 4))
  | 5 => .ok (.bstat (wordS w) (wordD w) (w.extractLsb' 4 3))
  | _ => .error 3

/-- The words of opcode 0x3B, before the checks of their fields. -/
def decode3B (w : BitVec 32) : Except Nat Instr :=
  match (w.extractLsb' 9 2).toNat with
  | 0 => .ok (.csrr (wordS w) (wordD w) (w.extractLsb' 0 9))
  | 1 => .ok (.csrw (wordS w) (wordD w) (wordA w) (w.extractLsb' 0 9))
  | 2 => .ok (.csrs (wordS w) (wordD w) (wordA w) (w.extractLsb' 0 9))
  | 3 => .ok (.csrc (wordS w) (wordD w) (wordA w) (w.extractLsb' 0 9))
  | _ => .error 3

/-- The words of opcode 0x3C, before the checks of their fields. -/
def decode3C (w : BitVec 32) : Except Nat Instr :=
  match wordFunc w with
  | 0 => .ok (.trap (wordS w) (w.extractLsb' 4 7))
  | 1 => .ok (.eret (wordS w) (wordA w))
  | 2 => .ok (.brk (wordS w))
  | 3 => .ok (.wfe (wordS w) (wordD w) (wordA w) (w.extractLsb' 4 7))
  | 4 => .ok (.tlbi (wordS w) (wordA w) (w.extractLsb' 4 7))
  | 5 => .ok (.ctxsv (wordS w) (wordD w) (wordA w) (wordB w))
  | 6 => .ok (.ctxld (wordS w) (wordD w) (wordA w) (wordB w))
  | _ => .error 3

/-- The instruction whose opcode and function a word holds, before the checks of its fields; reason 1 for a reserved
major opcode and reason 3 for a reserved function (Table FM-12). -/
def decodeRaw (w : BitVec 32) : Except Nat Instr :=
  match wordOp w with
  | 0x01 => decode01 w
  | 0x02 => decode02 w
  | 0x03 => decode03 w
  | 0x04 => decode04 w
  | 0x05 => decode05 w
  | 0x06 => decode06 w
  | 0x07 => decode07 w
  | 0x08 => decode08 w
  | 0x09 => decode09 w
  | 0x0A => decode0A w
  | 0x0B => decode0B w
  | 0x0C => decode0C w
  | 0x0D => decode0D w
  | 0x10 => decode10 w
  | 0x11 => decode11 w
  | 0x12 => decode12 w
  | 0x13 => decode13 w
  | 0x14 => decode14 w
  | 0x15 => decode15 w
  | 0x16 => decode16 w
  | 0x17 => decode17 w
  | 0x18 => decode18 w
  | 0x19 => decode19 w
  | 0x1A => decode1A w
  | 0x1B => decode1B w
  | 0x1C => decode1C w
  | 0x20 => decode20 w
  | 0x21 => decode21 w
  | 0x22 => decode22 w
  | 0x23 => decode23 w
  | 0x24 => decode24 w
  | 0x25 => decode25 w
  | 0x26 => decode26 w
  | 0x27 => decode27 w
  | 0x28 => decode28 w
  | 0x2C => decode2C w
  | 0x2D => decode2D w
  | 0x2E => decode2E w
  | 0x2F => decode2F w
  | 0x30 => decode30 w
  | 0x32 => decode32 w
  | 0x34 => decode34 w
  | 0x35 => decode35 w
  | 0x36 => decode36 w
  | 0x37 => decode37 w
  | 0x38 => decode38 w
  | 0x3A => decode3A w
  | 0x3B => decode3B w
  | 0x3C => decode3C w
  | _ => .error 1

/-- A word of a major opcode that is not reserved and that is absent on channel cores (R18). -/
def opAbsentOnChannel (w : BitVec 32) : Bool :=
  let op := wordOp w
  (decide (0x2C ≤ op) && decide (op ≤ 0x30)) || op == 0x32

/-- An instruction that is absent on a channel core (R18): the vector and matrix classes by `opAbsentOnChannel`,
the copy commands, and every use of a neighbour name. -/
def Instr.absentOnChannel : Instr → Bool
  | .cpy _ _ _ | .cpys _ _ _ _ | .cpyx _ _ _ _ => true
  | i => i.fields.any fun f => match f.2 with
    | .nb _ => true
    | _ => false

/-- An instruction that is absent on a compute core (Table MA-7): the bank commands. -/
def Instr.absentOnCompute : Instr → Bool
  | .bmv _ _ _ _ | .bfence _ _ => true
  | _ => false

/-- The checks of reasons 3 to 6 on the fields of a word whose opcode and function are not reserved: the fields'
limits, then every bit that the instruction does not use (the encoder gives zero there), then the register fields
and the bases. -/
def checkFields (w : BitVec 32) (i : Instr) : Except Nat Instr :=
  match i.fieldReason (encode i == w) with
  | some r => .error r
  | none => .ok i

/-- The instruction a word holds, on any core that has its class, or the first reason of Table FM-12 (R41). -/
def decode (w : BitVec 32) : Except Nat Instr :=
  match decodeRaw w with
  | .error r => .error r
  | .ok i => checkFields w i

/-- The instruction a word holds on a channel core (`channel`) or a compute core, with the check of reason 2 in its
place between those of reasons 1 and 3. -/
def decodeOn (channel : Bool) (w : BitVec 32) : Except Nat Instr :=
  if channel && opAbsentOnChannel w then .error 2 else
  match decodeRaw w with
  | .error r => .error r
  | .ok i =>
    if (if channel then i.absentOnChannel else i.absentOnCompute) then .error 2 else checkFields w i

/-- The word whose four bytes stand at the start of a list, little-endian (R3, R19). -/
def wordOfBytes : List Byte → Option (BitVec 32)
  | b0 :: b1 :: b2 :: b3 :: _ => some (b3 ++ b2 ++ b1 ++ b0)
  | _ => none

/-- The bytes of a word, lowest address first. -/
def bytesOfWord (w : BitVec 32) : List Byte :=
  [w.extractLsb' 0 8, w.extractLsb' 8 8, w.extractLsb' 16 8, w.extractLsb' 24 8]

/-- Decoding the bytes at an address: total on any bytes. -/
def decodeBytes (bs : List Byte) : Option Instr :=
  match wordOfBytes bs with
  | none => none
  | some w => match decode w with
    | .ok i => some i
    | .error _ => none

/-- The instruction the decoder reads from a word numbered as spec/opcode_table.json numbers it. -/
def decodeTableWord (nbits w : Nat) : Option Instr :=
  decodeBytes (bytesOfWord (BitVec.ofNat 32 (w % 2 ^ nbits)))

end Sys2Proof
end

