-- ==== Sys2Proof/Config.lean ====
section
/-! DEFINITION. What the manual leaves to the part and does not fix: free values. None of them has a body, so no proof
can rest on one. -/

namespace Sys2Proof

/-- The n-th open delay, in cycles: of a packet beyond one cycle (R130), of a DRAM fill (R125), of a table walk (R129),
of a firmware or host action. The manual gives these times as typical figures only. (DESIGN CHOICE, log 1.) -/
opaque Config.latency : Nat → Nat

/-- The set of its slice that a line address belongs to, modulo the number of sets (R119 gives ways and tags, not the
index). (DESIGN CHOICE, log 6.) -/
opaque Config.l2Set : Nat → Nat

/-- Whether the host's completer answers an AtomicOp of the request numbered n with Unsupported Request (R136).
(DESIGN CHOICE, log 76.) -/
opaque Config.hostRefusesAtomic : Nat → Bool

/-- Whether a request that only accesses of its own die's threads must find in order takes effect ahead of that order, as
observers elsewhere may see it (R117, R141, R342), for the request numbered n. (DESIGN CHOICE, log 77.) -/
opaque Config.ahead : Nat → Bool

/-- The n-th choice among the places at which a matrix operation may read or write a cell in unchecked mode (R192 allows
any interleaving with chains of other shapes). (DESIGN CHOICE, log 17.) -/
opaque Config.cellOrder : Nat → Nat

/-- Whether the two signatures of an image verify against the fused key hashes (R335): 0 both do, 1 the RSA-3072
signature fails, 2 the SLH-DSA signature fails, and above that the image cannot be read. (DESIGN CHOICE, log 15.) -/
opaque Config.signatureCheck : List Byte → Nat

/-- The version that a signed image carries, and the fused minimum (R335). (DESIGN CHOICE, log 15.) -/
opaque Config.imageVersion : List Byte → Nat
/-- The fused minimum of firmware versions (R335). (DESIGN CHOICE, log 15.) -/
opaque Config.fusedMinimum : Nat

/-- The identity image that Izren wrote to the module flash (R335): DRAM in MiB of each of the 192 channels, and the 32
bytes of the serial number. (DESIGN CHOICE, log 15.) -/
opaque Config.identityDram : List Byte → Nat → Nat
/-- A byte of the module serial number in an identity image (R334). (DESIGN CHOICE, log 15.) -/
opaque Config.identitySerial : List Byte → Nat → Byte
/-- Whether a signed image is an identity image (R335), else it is a firmware image. (DESIGN CHOICE, log 15.) -/
opaque Config.isIdentityImage : List Byte → Bool

/-- Where firmware puts the n-th page of a page table that MAP needs (R332): a page number of 4 KiB.
(DESIGN CHOICE, log 15; DEDUCED, log 47.) -/
opaque Config.tablePage : Nat → Nat

/-- The relocations of Table AS-4 (R54). -/
inductive RelocKind where
  | disp12
  | disp25
  | imm11
  | lix64
  | abs64
  | abs32
deriving DecidableEq, Repr
/-- A relocation of an object: its kind, the virtual address of its field's first word, and its resolved value, for a
displacement the target's address. -/
structure Reloc where
  kind : RelocKind
  site : Nat
  value : Int
deriving DecidableEq, Repr
/-- A .slot record with the W of its .window: core, count, W ÷ 8 and entry address (R57). -/
structure SlotRecord where
  core : Nat
  count : Nat
  w8 : Nat
  entry : Nat
deriving DecidableEq, Repr
/-- A .group record: index, expected arrivals and member tasks (R57, R272). -/
structure GroupRecord where
  index : Nat
  expected : Nat
  members : List Nat
deriving DecidableEq, Repr
/-- The launch section of an object (R57, R272): the eight words that the .launch keys fill, the .slot and .group records in
source order, and the memory that the loader allocates, as line numbers (virtual address ÷ 64) of the parameter block, the
slot-group list, the group table, the membership array and the barrier area. -/
structure LaunchRecord where
  keys : List Word
  slots : List SlotRecord
  groups : List GroupRecord
  lpbAt : Nat
  sglAt : Nat
  gtabAt : Nat
  membAt : Nat
  barsAt : Nat
deriving DecidableEq, Repr
/-- An object, as the loader reads it: the bytes of its sections with their virtual addresses, its relocations, its launch
section, and its .pattern records as core, entry and the two descriptor words of R264. -/
structure ObjectFile where
  bytes : List (Nat × Byte)
  relocs : List Reloc
  launch : Option LaunchRecord
  patterns : List (Nat × Nat × Word × Word)
deriving DecidableEq, Repr
/-- The object that the bytes of an object file stand for, with its place in the area that the loader may use (lowest address
and size), or `none` when they are none: the manual gives neither the file format nor the loader's choice of addresses.
(DESIGN CHOICE, log 15.) -/
opaque Config.loadObject : List Byte → Nat → Nat → Option ObjectFile

/-- The device operating system's choice of the memory it gives a core: its spill area and its paddock (R335).
(DESIGN CHOICE, log 15.) -/
opaque Config.spillBase : Nat → Word
/-- The paddock's memory of a core. (DESIGN CHOICE, log 15.) -/
opaque Config.paddockBase : Nat → Word
/-- The handler of the supervisor that the device operating system loads in entry 15 of every core (R320): its PC.
(DESIGN CHOICE, log 15.) -/
opaque Config.supervisorPc : BitVec 48
/-- W ÷ 8 of that supervisor, 1 to 12. (DESIGN CHOICE, log 15.) -/
opaque Config.supervisorW : Nat

end Sys2Proof
end

