-- ==== Sys2Proof/Machine/Bits.lean ====
section
/-! DEFINITION. Bit fields, sign extension and byte order (R2, R3). -/

namespace Sys2Proof.Machine

/-- The field of `len` bits of a word that starts at bit `lo` (R2). -/
def fld (w : Word) (lo len : Nat) : Nat := (w.toNat / 2 ^ lo) % 2 ^ len

/-- Bit `n` of a word. -/
def bitAt (w : Word) (n : Nat) : Bool := w.getLsbD n

/-- A natural number as an n-bit two's-complement number. -/
def signedOf (n v : Nat) : Int :=
  let x := v % 2 ^ n
  if n = 0 then 0 else if x < 2 ^ (n - 1) then (x : Int) else (x : Int) - (2 ^ n : Nat)

/-- The low `n` bits of a number, in two's complement. -/
def natOf (n : Nat) (i : Int) : Nat := (i % (2 ^ n : Nat)).toNat

/-- An integer modulo 2^64 (U64). -/
def u64 (i : Int) : Word := BitVec.ofInt 64 i

/-- A natural number modulo 2^64. -/
def word (n : Nat) : Word := BitVec.ofNat 64 n

/-- A field of the given value placed at bit `lo`. -/
def at' (lo v : Nat) : Nat := v * 2 ^ lo

/-- A Bool as one bit. -/
def bit (b : Bool) : Nat := if b then 1 else 0

/-- The value of little-endian bytes (R3). -/
def ofBytes : List Byte → Nat
  | [] => 0
  | b :: bs => b.toNat + 256 * ofBytes bs

/-- The n little-endian bytes of a value. -/
def toBytes : Nat → Nat → List Byte
  | 0, _ => []
  | n + 1, v => BitVec.ofNat 8 v :: toBytes n (v / 256)

/-- Clamp an integer to a range. -/
def clampInt (lo hi v : Int) : Int := if v < lo then lo else if hi < v then hi else v

/-- The number of leading zero bits among the low n bits of a number. -/
def clzNat : Nat → Nat → Nat
  | 0, _ => 0
  | n + 1, v => if v.testBit n then 0 else 1 + clzNat n v

/-- The number of trailing zero bits among the low n bits. -/
def ctzNat : Nat → Nat → Nat
  | 0, _ => 0
  | n + 1, v => if v.testBit 0 then 0 else 1 + ctzNat n (v / 2)

/-- The number of 1 bits among the low n bits. -/
def popcNat : Nat → Nat → Nat
  | 0, _ => 0
  | n + 1, v => v % 2 + popcNat n (v / 2)

/-- The exclusive or of the first k groups of n bits of a number (R123). -/
def xorGroups (n : Nat) : Nat → Nat → Nat
  | 0, _ => 0
  | k + 1, v => (v % 2 ^ n) ^^^ xorGroups n k (v / 2 ^ n)

/-- The numbers of the bits that are 1 among bits 0 to n − 1, rising. -/
def bitsOf (n v : Nat) : List Nat := (List.range n).filter fun i => v.testBit i

end Sys2Proof.Machine
end

