-- ==== Sys2Proof/Machine/State.lean ====
section
/-! DEFINITION. The state of the Sarhel 480: every piece of state the manual gives the machine, and the scheduling
data by which one step is one agent's one action. Numbering: a compute core is 256 × die + 4 × team + core (0 to
1,023), a channel core is 1024 + 48 × (die − 4) + n; a node is 64 × die + team (0 to 255) or 256 + 48 × (die − 4) + n;
a thread key is 64 × core number + slot. -/

namespace Sys2Proof.Machine

/-- Why a run stops. -/
inductive Fault where
  /-- raised by the meaning of a word when no thread is selected to issue it; safe: the machine never issues a word
  without a thread, so no run from reset reaches it -/
  | noIssuingThread
deriving DecidableEq, Repr

/-- Why an instruction has no meaning. -/
inductive Refusal where
  /-- raised by an arm of `exec` whose instruction has no meaning yet; safe: the run stops there -/
  | notModelled (mnemonic : String)
deriving DecidableEq, Repr

/-- What a step of the hardware acts on: numbers, a value and a register, as the step's row says. -/
structure Subj where
  n : Nat := 0
  m : Nat := 0
  k : Nat := 0
  v : Word := 0
  r : Reg := .g 0
deriving DecidableEq, Repr

/-- What a local access does in its bank cycle (R95), and a ring instruction in the same cycle (R208, R209): a load of n
bytes from a key, sign-extended or not, a group load, a store of bytes, MRADV and MRSTAT with their operand. -/
inductive LocalKind where
  | load (key n : Nat) (signed : Bool) (rd : Reg)
  | loadGroup (key : Nat) (rd : Reg)
  | store (key : Nat) (bytes : List Byte)
  | ringAdvance (rd : Reg) (a : Word)
  | ringStatus (rd : Reg) (a : Word)
deriving DecidableEq, Repr

/-- A local access or ring instruction on its way to its bank cycle: its thread, the number that thread was made under, and
its issue cycle. -/
structure LocalOp where
  tk : Nat
  born : Nat
  issued : Nat
  /-- its place in program order: numbers drawn before its issue are below it -/
  stamp : Nat := 0
  kind : LocalKind
deriving DecidableEq, Repr

/-- What the scheduler has the machine do in one step: a row of the opcode table, or a part of one that has no row of
its own. -/
inductive Move where
  /-- a row with its subject -/
  | ev (i : Instr) (subj : Subj)
  /-- a global access at its stream port is tried again (R107, R116, R118) -/
  | port (rid : Nat)
  /-- an owner other than a slice performs a load, or a slice performs a load or line operation -/
  | ownerRead (rid : Nat)
  /-- a withdrawal reaches the owner of a request (R148) -/
  | withdraw (rid : Nat)
  /-- a parked thread's instruction goes on -/
  | resume (tk : Nat)
  /-- an active copy or bank command moves on: engine or channel core, and command -/
  | beat (engine cid : Nat)
  /-- the head of a core's inbox goes to its destination (R268) -/
  | drain (core : Nat)
  /-- a core's slot allocator places the next thread of a task (R275, R281) -/
  | place (core : Nat)
  /-- a local access reaches its bank (R95) -/
  | bank (op : LocalOp)
  /-- MRADV or MRSTAT takes effect, after the engine's pointer moves of the cycle (R208, R209) -/
  | ringOp (op : LocalOp)
  /-- a line entered in a team's L1 waits for the ports of its banks: node and line (R95, R115) -/
  | l1Fill (node line : Nat)
  /-- a started operation of a matrix engine reads its operands: node and operation (R95, R187) -/
  | matrixRead (node op : Nat)
deriving DecidableEq, Repr

/-- A step that is due in a cycle; one that is tried again comes before those that are due for the first time. -/
structure Timer where
  due : Nat
  mv : Move
  retry : Bool := false
deriving DecidableEq, Repr

/-- A write of a core-shared register that is not yet visible (R66): the register's key, the value, its write cycle, the
slot of the writing instruction, and that instruction's place in program order. -/
structure SWrite where
  key : Nat
  value : Word
  cycle : Nat
  slot : Nat
  stamp : Nat
deriving DecidableEq, Repr

/-! ### Threads -/

/-- One claimed entry of a stream queue (R104, R109): a landed entry holds data, or a marker with its cause and the
faulting address. `seq` stands for the program order of its request. -/
structure Elem where
  serial : Nat
  landed : Bool := false
  value : Word := 0
  cause : Nat := 0
  size : Nat := 0
  ret : Nat := 0
  nc : Bool := false
  acq : Bool := false
  bound : Bool := false
deriving DecidableEq, Repr

/-- A stream binding (R107): the next address, the stride in bytes, and the requests left to issue. -/
structure Binding where
  next : Nat
  stride : Int
  left : Nat
  size : Nat
  ret : Nat
  nc : Bool
deriving DecidableEq, Repr

/-- A stream register (R104). -/
structure Stream where
  entries : List Elem := []
  bind : Option Binding := none
deriving DecidableEq, Repr

/-- A wait of a parked thread (Table CF-5): the instruction, the operand values it read at issue, the cycle in which
its bound expires, how far it has come, and what it waits for. -/
structure Wait where
  id : Nat
  instr : Instr
  vals : List Word := []
  deadline : Option Nat := none
  stage : Nat := 0
  req : Nat := 0
  count : Nat := 0
  stamp : Nat := 0
  gone : Bool := false
  /-- its withdrawal is the pre-emption's: it is to be reissued (R148, R236) -/
  reissue : Bool := false
  /-- the prefix under which it was issued, 0 for none (DEDUCED, log 11) -/
  pre : BitVec 32 := 0
deriving DecidableEq, Repr

/-- What the general pre-emption keeps of a wait that is reissued whole: the cycles left of its bound (none: no bound), and
for a BARW whose arrival has been counted that it is a wait alone (R152, R210, R236, R269, R292). -/
structure Carry where
  left : Option Nat := none
  alone : Bool := false
deriving DecidableEq, Repr

/-- The state of a slot's thread (Table CF-5); a forfeiting thread is `ready` with turns to forfeit. -/
inductive Run where
  | ready
  /-- parked at this instruction for a pop, a push or room -/
  | operand (i : Instr)
  /-- parked by the switch marker (R88) -/
  | switch
  /-- parked by an instruction-cache miss (R81) -/
  | fetch
  /-- groups handed to the vector unit (R172) -/
  | handed
  | wait (w : Wait)
  /-- halted: 1 to 12 by that trap kind, 31 by the pre-emption, 32 by firmware, 33 by CTXLD -/
  | halted (kind : Nat)
deriving DecidableEq, Repr

/-- A pending MPOP (R206). -/
structure MPop where
  id : Nat
  rd : Nat
  deadline : Option Nat
deriving DecidableEq, Repr

/-- The thread of a slot. -/
structure Thread where
  /-- the number it was made under: its requests have higher ones -/
  born : Nat := 0
  pc : BitVec 48 := 0
  status : Word := 0
  base : Nat := 0
  w : Nat := 8
  run : Run := .ready
  /-- turns still to forfeit (R63, R92, R165; DEDUCED, log 10) -/
  forfeit : Nat := 0
  /-- old values of AMO and ACAS that have not landed (Table CF-2) -/
  amos : Nat := 0
  mpops : List MPop := []
  u : Nat := 0
  log : Option (Nat × Word) := none
  bankCount : Nat := 0
  bankFault : Bool := false
  /-- a store to a host page since the last completed FENCE.sys (R153) -/
  hostStore : Bool := false
  launch : Nat := 0
  task : Nat := 0
  /-- firmware or the pre-emption halts the thread at its next instruction boundary, with this halt state -/
  stopReq : Option Nat := none
  /-- halted while parked by a switch marker: it stays out of the rotation until its results have landed (R88, R93) -/
  switchHeld : Bool := false
  /-- the first cycle in which it may issue -/
  notBefore : Nat := 0
  /-- what is left of a wait that the general pre-emption withdrew, for the instruction at the pc -/
  carry : Option Carry := none
  /-- stop tokens (tag 2) or end-of-stream tokens (tag 1) still to push: the tag, the next target and the field -/
  tokens : Option (Nat × Nat × Nat × Nat) := none
deriving DecidableEq, Repr

/-! ### Requests and packets -/

/-- Where a translated address lies (R101, R123, R128, R136, R337). -/
inductive Target where
  /-- an ordinary page: PA, page-interleaved (`none`) or on a die, compression, default retention -/
  | line (pa : Nat) (die : Option Nat) (comp : Bool) (ret : Nat)
  /-- a bank-layout page of a channel -/
  | bank (pa : Nat) (die chan : Nat)
  /-- a host page -/
  | host (ha : Nat)
  /-- a window address: node and offset -/
  | window (node off : Nat)
  /-- an ordinary page of a peer package: PA, default retention -/
  | peer (pa : Nat) (ret : Nat)
deriving DecidableEq, Repr

/-- How far a request has come. -/
inductive Stage where
  /-- in the store buffer -/
  | buffered
  /-- waits for a table walk, or for its turn at the stream port -/
  | port
  /-- on its way to its owner -/
  | sent
  /-- bounced by a retired slice; the new map is on its way to its stream port (R126) -/
  | bounced
  /-- holds an entry of its slice's request queue -/
  | queued
  /-- waits for its DRAM fill -/
  | filling
  /-- has entered a waiter at its owner -/
  | waiter
  /-- performed; its answer is on its way -/
  | performed
deriving DecidableEq, Repr

/-- A global access: the instruction that makes it, its operands and its place. -/
structure Req where
  id : Nat
  /-- program order: the stamp of its issue -/
  stamp : Nat
  tk : Nat
  node : Nat
  launch : Nat
  instr : Instr
  ea : Nat
  bytes : Nat
  data : Nat := 0
  exp : Nat := 0
  ret : Nat := 0
  nc : Bool := false
  acq : Bool := false
  rel : Bool := false
  serial : Nat := 0
  stage : Stage := .port
  tgt : Option Target := none
  /-- the fault found for it, if any -/
  fault : Nat := 0
  /-- a waiting request (R146), or a wait alone for the phase in `exp` (R152) -/
  waiting : Bool := false
  waitOnly : Bool := false
  /-- a withdrawal of it has been sent (R148) -/
  withdrawn : Bool := false
  /-- the map generation it was sent under (R124) -/
  gen : Nat := 0
  /-- the fabric node of its owner, and the order in which it was sent (0: not yet) -/
  dest : Nat := 0
  order : Nat := 0
  /-- with acquire: it holds back the later accesses whose numbers are not below this one (R109) -/
  holds : Nat := 0
deriving DecidableEq, Repr

/-- A thread context in transit or stored (R331). -/
structure Ctx where
  regs : List Word
  status : Word
  pc : BitVec 48
  launch : Nat
  task : Nat
  stamp : Nat
  /-- the source core and shadow serial -/
  src : Nat
  serial : Nat
  /-- the cycle from which it is admissible, once that is known (R295) -/
  okAt : Option Nat := none
  /-- the cycle in which it entered its arrival queue -/
  inAt : Nat := 0
  /-- the faulting address of a refusal with cause 8 -/
  fault : Option Word := none
  /-- the address named by MIGRATE, for the check at the target -/
  off : Nat := 0
  window : Bool := false
  /-- its place in the paddock's memory, while it is there -/
  place : Nat := 0
deriving DecidableEq, Repr

/-- A shadow entry (R286). -/
structure Shadow where
  serial : Nat
  ctx : Ctx
  dst : Nat
  departed : Nat
  addr : Word
  migPc : BitVec 48
deriving DecidableEq, Repr

/-- What a packet carries. -/
inductive Payload where
  /-- the response to a load: values or a fault -/
  | land (rid : Nat) (vals : List Word) (cause : Nat) (fill : Bool) (bytes : List Byte)
  /-- an acknowledgement of a store, RED or line operation; the fault's cause, 0 for none -/
  | ack (rid : Nat) (cause : Nat)
  /-- the old value of an AMO or ACAS -/
  | old (rid : Nat) (v : Word) (cause : Nat)
  /-- an owner's answer to a waiting instruction: status code, value, and whether rd is written; 8 not-ready,
  9 withdrawn, 10 remap, 16 + c a fault with cause c -/
  | answer (rid : Nat) (st : Nat) (v : Word) (writes : Bool)
  /-- a bucket map of a channel die (R126) -/
  | map (die : Nat) (entries : List Nat) (gen : Nat) (rid : Option Nat)
  /-- a message (R254) or, with `report`, an engine report -/
  | message (core port : Nat) (w0 w1 : Word) (report : Bool) (slot : Nat) (launch : Nat)
  /-- a harness flit to a home engine: 0 offer, 1 request, 2 withdrawal, 3 bind, 4 unbind, 5 HLOAD, 6 HSTOP, 7 HSTAT,
  8 acknowledgement of an unbinding; the last field is a thread slot for a bind, and the launch for an HLOAD -/
  | flit (kind : Nat) (node conn bport : Nat) (tk wid port : Nat) (v : Word) (image : List Word) (slot : Nat)
  /-- a completion flit, or the answers of R227 and R231 to R235 -/
  | done (kind : Nat) (tk wid port : Nat) (st : Nat) (v : Word)
  /-- an unbinding of a core port (R234) -/
  | unbind (core port : Nat) (node conn : Nat)
  /-- a migration packet -/
  | migrate (core : Nat) (c : Ctx)
  /-- 0 stored, 8 refused with cause 8, 2 FULL -/
  | migAck (core serial : Nat) (st : Nat) (dst : Nat)
  /-- a release, or with `discard` a discard -/
  | migRelease (core src serial : Nat) (discard : Bool)
deriving DecidableEq, Repr

/-- A packet on the fabric (R130): channel 0 request, 1 response, 2 message, 3 harness. -/
structure Packet where
  id : Nat
  src : Nat
  dst : Nat
  chan : Nat
  payload : Payload
  /-- in the inbox of a gated core, off the fabric (R268) -/
  boxed : Bool := false
deriving DecidableEq, Repr

/-! ### Cores -/

/-- An entry of a neighbour or role queue (R238): value, tag, and the cycle in which it took effect. -/
structure QEntry where
  v : Word
  tag : Nat := 0
  since : Nat := 0
deriving DecidableEq, Repr

/-- A role queue (R244, R247). -/
structure RoleQ where
  entries : List QEntry := []
  reserved : Nat := 0
  writer : Nat := 0
  reader : Nat := 0
  enabled : Bool := false
  owner : Nat := 0
deriving DecidableEq, Repr

/-- A tag pool (R251). -/
structure TagPool where
  k : Nat := 0
  mask : Word := 0
  a : Nat := 0
  owner : Nat := 0
deriving DecidableEq, Repr

/-- A message of a port, with the cycle in which it took effect. -/
structure Msg where
  w0 : Word
  w1 : Word
  since : Nat := 0
deriving DecidableEq, Repr

/-- A message port (R252): its owner setting and the launch that set it, its messages, and a place reserved for its
oldest spilled message. -/
structure MPort where
  msgs : List Msg := []
  owned : Bool := false
  ownerSlot : Nat := 0
  owner : Nat := 0
  reserved : Nat := 0
deriving DecidableEq, Repr

/-- A message in the outbound queue (R254). -/
structure OutMsg where
  target : Word
  w0 : Word
  w1 : Word
  slot : Nat
  launch : Nat
  stamp : Nat
deriving DecidableEq, Repr

/-- A join-pattern entry (R260); `pattern` marks one that a launch's .pattern loaded (R343). -/
structure JEntry where
  valid : Bool := false
  ports : BitVec 32 := 0
  slot : Nat := 0
  w : Nat := 0
  pc : BitVec 48 := 0
  prio : Nat := 0
  pass : Nat := 0
  owner : Nat := 0
  task : Nat := 0
  pattern : Bool := false
  /-- the cycle in which it was set: decisions after it may start it -/
  since : Nat := 0
deriving DecidableEq, Repr

/-- A core port (R212). -/
structure CPort where
  bound : Bool := false
  slot : Nat := 0
  bport : Nat := 0
  conn : Nat := 0
  node : Nat := 0
  sink : Bool := false
  owner : Nat := 0
deriving DecidableEq, Repr

/-- An engine command in a FIFO (R296, R307). -/
structure Cmd where
  id : Nat
  words : List Word
  tk : Nat
  pc : BitVec 48
  seq : Nat
  gen : Nat
  launch : Nat
  stamp : Nat
  /-- pushed by CPYX, whose thread waits with this wait; 0 for none -/
  wid : Nat := 0
  /-- the answer that its sequence domain has come (R301) -/
  admitted : Bool := false
deriving DecidableEq, Repr

/-- A command that an engine has granted: elements or, of kinds 0 to 2, bytes done, bytes written, a fault, and writes or updates not yet
acknowledged. -/
structure Active where
  cmd : Cmd
  pos : Nat := 0
  written : Nat := 0
  fault : Nat := 0
  addr : Word := 0
  finished : Bool := false
  /-- the vector of a bank product, and the cells of the current tile row -/
  vec : List Nat := []
  readAt : Nat := 0
  /-- what is left of the row or element in progress, as it was checked at its start: bytes of one line of the source and one of
  the destination, with their targets (R299) -/
  plan : List (Nat × Target × Target) := []
  /-- the page, of 64 KiB, for which its table walk has found no leaf (R129) -/
  noLeaf : Option Nat := none
deriving DecidableEq, Repr

/-- A trap report that waits inside its core (R256): its number in the order of raising, its slot and its words. -/
structure HeldReport where
  id : Nat
  slot : Nat
  w0 : Word
  w1 : Word
deriving DecidableEq, Repr

/-- A window being zeroed (R65): slot, base block, size, and the last cycle of zeroing. -/
structure Zeroing where
  slot : Nat
  base : Nat
  w : Nat
  till : Nat
deriving DecidableEq, Repr

/-- A core. -/
structure Core where
  turn : List Nat := [7, 15, 23, 31, 39, 47, 55, 63]
  feretry : BitVec 16 := 0x0404
  /-- EVT (R324; DESIGN CHOICE, log 4) -/
  evt : BitVec 10 := 0
  /-- the cycle of the last change of EVT by an instruction, the value that WFE sees in that cycle, and the bits that the
  instruction set (R324) -/
  evtAt : Option Nat := none
  evtWas : BitVec 10 := 0
  evtNew : BitVec 10 := 0
  /-- SPILLBASE and PADDOCKBASE (R317; DESIGN CHOICE, log 4) -/
  spillBase : Word := 0
  paddockBase : Word := 0
  /-- the requests of the store buffer, in order (R110) -/
  storeBuf : List Nat := []
  roles : List RoleQ := [{}, {}, {}, {}]
  tags : List TagPool := [{}, {}, {}, {}]
  mports : List MPort := List.replicate 32 {}
  /-- the spill area, as records and not as bytes (R255; DEDUCED, log 38) -/
  spill : List (Nat × Word × Word) := []
  overflow : Bool := false
  reserve : List (Nat × Word × Word) := []
  /-- reports that wait inside the core, for a place or behind an earlier report of their slot (R256, R319; DEDUCED, log 14) -/
  held : List HeldReport := []
  outq : List OutMsg := []
  jp : List JEntry := List.replicate 16 {}
  jptr : Nat := 15
  cports : List CPort := List.replicate 16 {}
  arrivals : List Ctx := []
  /-- the paddock, head first; the contexts themselves are in memory at PADDOCKBASE (R287) -/
  paddock : List Ctx := []
  /-- the cycle in which the move of the paddock's head ends -/
  moveDone : Option Nat := none
  shadows : List Shadow := []
  /-- slot generations (R206; DESIGN CHOICE, log 4) -/
  gens : SMap Nat := []
  zeroing : List Zeroing := []
  /-- slots reserved for patterns (R260): slot ↦ base block and W -/
  resv : SMap (Nat × Nat) := []
  idle : Nat := 0
  /-- the cycle in which the gate committed, and that in which ungating ends -/
  gated : Option Nat := none
  ungateAt : Option Nat := none
  inbox : List Move := []
  copyQ : List Cmd := []
  /-- the sequence counters of copy and bank commands (R296, R307) -/
  copySeq : Nat := 0
  bankQ : List Cmd := []
  bankSeq : Nat := 0
  bankRun : Option Active := none
  bankTables : List Word := [0x4444444444444444, 0x4444444444444444, 0x4444444444444444]
  /-- slots that the dispatcher holds for a task (R274): slot ↦ base block and W -/
  holds : SMap (Nat × Nat) := []
  /-- packets that wait in the fabric's message channel at the core's input (R255) -/
  inputQ : List Nat := []
  /-- the next arrival comes from the inbox and goes to its destination (R268) -/
  letIn : Bool := false
  /-- a channel core's launch: the last whose thread it ran (R317) -/
  lastLaunch : Nat := 0
deriving DecidableEq, Repr

/-! ### Teams -/

/-- A page of an address space: PTROOT, first virtual address and size. -/
structure PageRef where
  root : Nat
  va : Nat
  size : Nat
deriving DecidableEq, Repr
/-- A line of the L1 (R115): physical line address, its 64 bytes, the pages through which it has been read, and whether the fill
has been served at the ports of its banks (R95); most recently used last. -/
structure L1Line where
  pa : Nat
  bytes : List Byte
  pages : List PageRef := []
  ready : Bool := true
deriving DecidableEq, Repr

/-- A line of an instruction cache: address space, virtual line address and its 64 bytes, or the cause of a fault. -/
structure ILine where
  root : Nat
  va : Nat
  bytes : List Byte
  fault : Nat := 0
deriving DecidableEq, Repr

/-- A TLB entry (R129): address space, launch tag on a channel core, first page address, page size in bytes, leaf. -/
structure TlbEntry where
  root : Nat
  launch : Nat
  va : Nat
  size : Nat
  leaf : Word
deriving DecidableEq, Repr

/-- A table walk in flight, or queued for its die's page walker (R129). -/
structure Walk where
  id : Nat
  launch : Nat
  root : Nat
  va : Nat
  flying : Bool := false
  /-- the engine command that asked for it, 0 for none -/
  by' : Nat := 0
deriving DecidableEq, Repr

/-- A vector instruction in the unit (R172): thread, instruction, formats and the scalars read at issue. -/
structure VJob where
  id : Nat
  tk : Nat
  instr : Instr
  fmt : Nat
  aux : Nat
  scal : List (Option Word)
  issued : Nat
  due : Nat := 0
  result : List Word := []
deriving DecidableEq, Repr

/-- A ring of the matrix engine (R184). -/
structure Ring where
  b : Nat := 0
  e : Nat := 0
  n : Nat := 0
  h : Nat := 0
  c : Nat := 0
  t : Nat := 0
  f : Nat := 0
deriving DecidableEq, Repr

/-- An entry of a dispatch queue or of the start queue (R186). -/
structure MEntry where
  id : Nat
  tcw : List Word
  core : Nat
  slot : Nat
  gen : Nat
  seq : Nat
  fence : Bool
  pc : BitVec 48
  stamp : Nat
  tk : Nat
  cycle : Nat
deriving DecidableEq, Repr

/-- A started operation (R187): how many entries it pops of each operand's ring, where it reads and writes, its start
and completion cycles, and the operand bytes that it has read. -/
structure MOp where
  e : MEntry
  startAt : Nat
  doneAt : Nat
  popA : Nat := 0
  popB : Nat := 0
  atA : Nat := 0
  atB : Nat := 0
  atW : Nat := 0
  opA : List Byte := []
  opB : List Byte := []
  /-- its operands have still to be read: it waits for the ports of their banks (R95) -/
  reading : Bool := false
  /-- the cell values that it has read -/
  held : SMap (BitVec 36) := []
deriving DecidableEq, Repr

/-- A completion record (R206). -/
structure MRec where
  w0 : Word
  w1 : Word
  slot : Nat
  gen : Nat
  /-- word 0 of the TCW and the address of the MPUSH, for a report -/
  tcw0 : Word
  pc : BitVec 48
  /-- the operation -/
  op : Nat := 0
deriving DecidableEq, Repr

/-- A read or a write of a cell of the matrix engine since the last fence (R192): the shape of its operation, 0 for what the
cell held before them all, the operation, the value that the cell then has, and, once the operation's record has been
popped, the number from which pushes come after that pop (R189). -/
structure CellEvent where
  shape : Nat
  op : Nat := 0
  after : Option Nat := none
  value : BitVec 36
  wrote : Bool
deriving DecidableEq, Repr

/-- The matrix engine (Table MX-1). Cells that are 0 are not listed. -/
structure Matrix where
  acc : SMap (BitVec 36) := []
  corr : SMap (BitVec 36) := []
  rings : List Ring := List.replicate 8 {}
  tables : List Word := [0x4444444444444444, 0x4444444444444444, 0x4444444444444444]
  dq : List (List MEntry) := [[], [], [], []]
  grant : Nat := 3
  startQ : List MEntry := []
  active : List MOp := []
  results : List (List MRec) := [[], [], [], []]
  seqs : List Nat := [0, 0, 0, 0]
  /-- the array credit, and the cycle to whose start it stands -/
  credit : Nat := 0
  creditAt : Nat := 0
  /-- an operation with fence-after has started, and what was granted before it may be unfinished (R191) -/
  fenced : Bool := false
  /-- the reads and writes of each cell since the last fence, in the order in which they are taken to have happened (R192;
  the model's own; DESIGN CHOICE, log 17) -/
  hist : SMap (List CellEvent) := []
  drainFree : Nat := 0
  decFree : Nat := 0
  checked : Bool := false
  /-- entries popped by operations that are complete, by ring, and entries written, by ring + 8 (R188) -/
  passed : List (Nat × Nat) := []
deriving DecidableEq, Repr

/-- A pending operation at a boundary port (R213). -/
structure Pend where
  tk : Nat
  wid : Nat
  port : Nat
  offer : Option Word
  /-- the cycle of its arrival: it takes part in decisions after it (R222) -/
  since : Nat := 0
deriving DecidableEq, Repr

/-- A connector slot of a hitch engine (R221). -/
structure Conn where
  loaded : Bool := false
  image : List Word := []
  ages : List Nat := []
  bufs : List (List Word) := List.replicate 8 []
  binds : List (Option (Nat × Nat)) := List.replicate 16 none
  pend : List (Option Pend) := List.replicate 16 none
  /-- firings so far (DEDUCED, log 59) -/
  fired : Nat := 0
  /-- withdrawals that arrived in the current cycle: boundary port and wait -/
  withdraw : List (Nat × Nat) := []
  /-- HSTOPs that arrived in the current cycle, which is one of its decisions: thread and wait (R222, R234) -/
  stops : List (Nat × Nat) := []
  launch : Nat := 0
  /-- being stopped (R234): unbindings not yet acknowledged, and whom to answer -/
  stopping : Bool := false
  unacked : Nat := 0
  answerTo : List (Nat × Nat × Nat) := []
deriving DecidableEq, Repr

/-- A node: a team with its shared units, or a channel core's stream port and SRAM. -/
structure Team where
  /-- the scratchpad size S in bytes (R12) -/
  s : Nat := 2097152
  task : Option Nat := none
  /-- the launch whose task was last placed here -/
  lastLaunch : Option Nat := none
  l1 : List L1Line := []
  icache : List ILine := []
  tlb : List TlbEntry := []
  walks : List Walk := []
  /-- copies of the four bucket maps and their generations (R124) -/
  maps : List (List Nat) := List.replicate 4 (List.range 16)
  mapGens : List Nat := [0, 0, 0, 0]
  vq : List (List VJob) := [[], [], [], []]
  vlast : Nat := 3
  vfly : List VJob := []
  mx : Matrix := {}
  conns : List Conn := [{}, {}, {}, {}]
  domains : List Nat := List.replicate 16 0
  /-- all four cores are stopped by the general pre-emption -/
  stopped : Bool := false
deriving DecidableEq, Repr

/-- A copy engine (R296): the FIFO last granted, in the order of R296, and its active commands. -/
structure CopyEngine where
  last : Nat := 7
  active : List Active := []
deriving DecidableEq, Repr

/-- A line held by an L2 slice (R119): encoding of Table ME-7 (1 to 5), the sectors of its set that hold it, dirty, class
and recency. The line's bytes and full/empty bits are those of `State.mem` and `State.fe`. -/
structure L2Line where
  pa : Nat
  enc : Nat
  sectors : List Nat := []
  dirty : Bool
  cls : Nat
  used : Nat
deriving DecidableEq, Repr

/-- An L2 slice (R119 to R126). -/
structure Slice where
  queue : List Nat := []
  lines : List L2Line := []
  retired : Bool := false
  /-- retirement under way: no new request is accepted (R126) -/
  draining : Bool := false
  errors : Nat := 0
  /-- the cycle of the last acceptance, and of the last lookup (R125) -/
  accepted : Option Nat := none
  looked : Option Nat := none
deriving DecidableEq, Repr

/-- A request that its owner has accepted ahead of an order that binds only the threads of one die (R117, R342): its number,
that die, its node, the bytes it accesses, and the requests that come before it there. -/
structure Ahead where
  id : Nat
  region : Nat
  node : Nat
  key : Nat
  bytes : Nat
  before : List Nat
deriving DecidableEq, Repr

/-! ### The package -/

/-- A slot-group record (R271): core, count, W and entry PC. -/
structure SlotGroup where
  core : Nat
  count : Nat
  w : Nat
  pc : BitVec 48
deriving DecidableEq, Repr

/-- A .pattern entry of a launch (R57): core, entry number and contents. -/
structure Pattern where
  core : Nat
  entry : Nat
  e : JEntry
deriving DecidableEq, Repr

/-- A launch that waits to be taken (R276, R289). -/
structure LaunchReq where
  handle : Nat
  lpb : Nat
  root : Nat
  wpdie : Nat
  wpnode : List Nat
  patterns : List Pattern := []
  /-- pre-empted before it is taken: the dispatcher places no task of it (R330) -/
  held : Bool := false
deriving DecidableEq, Repr

/-- What firmware keeps of a team that the general pre-emption has saved, beside the save area, which has no field for it
(R330, R331; DEDUCED, log 54): the team, its threads' records by core and slot, its cores and matrix engine as they
stood, its connector slots' launches and firings, and the bank commands that target it with their channel cores. -/
structure Kept where
  team : Nat
  /-- the number that its task goes by -/
  task : Nat := 0
  threads : List (Nat × Nat × Thread) := []
  cores : List Core := []
  mx : Matrix := {}
  /-- its connector slots: loaded, by which launch, and the firings so far -/
  conns : List (Bool × Nat × Nat) := []
  bank : List (Nat × Cmd) := []
  /-- what was aimed at the team before its save has numbers below this one, and its scratchpad size (R313) -/
  mark : Nat := 0
  size : Nat := 0
  /-- the transitions, buffer places and predicates of its own connectors (R221) -/
  used : Nat × Nat × Nat := (0, 0, 0)
deriving DecidableEq, Repr

/-- What firmware keeps of a launch that PREEMPT with path 0 has saved (R329, R339, R340): the loader entries, the
scratchpad offset, each saved slot with the offset of its image, and the s registers of its cores. -/
structure PipeSave where
  loaders : List Word
  offset : Nat
  slots : List (Nat × Nat)
  sregs : List (Nat × List Word)
deriving DecidableEq, Repr

/-- A launch that the dispatcher has taken. -/
structure Launch where
  handle : Nat
  root : Nat
  wpdie : Nat
  wpnode : List Nat
  x : Nat := 1
  y : Nat := 1
  trav : Nat := 0
  swz : Nat := 0
  s : Nat := 2097152
  checked : Bool := false
  prio : Nat := 0
  compat : Bool := false
  arr : Nat := 16
  spw : Nat := 0
  budget : Nat := 0
  arg : Word := 0
  doneTarget : Word := 0
  notify : Bool := false
  bars : Nat := 0
  groups : List SlotGroup := []
  /-- the membership array, as it was read when the launch was taken (R278) -/
  members : List Word := []
  patterns : List Pattern := []
  nextTask : Nat := 0
  tasks : Nat := 0
  liveTasks : Nat := 0
  dropped : Nat := 0
  refused : Bool := false
  ended : Bool := false
  /-- the dispatcher places no task of it (R330) -/
  held : Bool := false
  /-- the teams its tasks have held -/
  teams : List Nat := []
  aborted : Bool := false
  /-- the teams that the general pre-emption has saved, and the virtual address of the save area -/
  saved : List Kept := []
  savedAt : Nat := 0
  /-- the general pre-emption has saved it, and the queued bank commands of its threads that target no saved team, with their
  channel cores (R313) -/
  preempted : Bool := false
  bank : List (Nat × Cmd) := []
  pipe : Option PipeSave := none
deriving DecidableEq, Repr

/-- A task (R275, R280, R283). -/
structure Task where
  launch : Nat
  num : Nat
  x : Nat
  y : Nat
  team : Nat
  budget : Nat
  live : Nat
  succ : Nat := 0
  /-- the groups it is a valid member of -/
  member : List Nat := []
  /-- its live count has reached 0 and its successor is still to be read -/
  ended : Bool := false
deriving DecidableEq, Repr

/-- A thread still to be placed for a task: its core, slot, base block, W, PC, slot group and index in it. -/
structure Seat where
  core : Nat
  slot : Nat
  base : Nat
  w : Nat
  pc : BitVec 48
  group : Nat
  index : Nat
deriving DecidableEq, Repr

/-- A placement in progress: the task, the threads still to be placed in slot-group order, those placed, and g2. -/
structure Placing where
  task : Nat
  todo : List Seat
  placed : List Nat := []
  arg : Word
deriving DecidableEq, Repr

/-- The dispatcher (R274 to R276, R289). -/
structure Dispatcher where
  /-- launches of the host, then the device launch queue, not yet taken -/
  hostQ : List LaunchReq := []
  devQ : List LaunchReq := []
  hostSeq : Nat := 0
  devSeq : Nat := 0
  launches : SMap Launch := []
  /-- launch keys in the order taken -/
  order : List Nat := []
  tasks : SMap Task := []
  lastTeam : Nat := 255
  placing : List Placing := []
  inTransit : Nat := 0
deriving DecidableEq, Repr

/-- A host ring (R332). -/
structure HRing where
  rbase : Word := 0
  rcfg : Word := 0
  cbase : Word := 0
  tail : Nat := 0
  head : Nat := 0
  chead : Nat := 0
  /-- a command taken and not completed: its dwords, and how far firmware has come -/
  cmd : Option (List Word) := none
  stage : Nat := 0
  deadline : Option Nat := none
  /-- firmware takes no command before this cycle -/
  wakeAt : Nat := 0
  /-- what the command waits for: numbers below this one -/
  mark : Nat := 0
deriving DecidableEq, Repr

/-- A log entry of LOGREAD (R333). -/
structure LogEntry where
  cycle : Nat
  w1 : Word
deriving DecidableEq, Repr

/-- The host interface, the life cycle and the package links. -/
structure Package where
  rings : List HRing := List.replicate 8 {}
  /-- MSI-X vectors raised (R332; DESIGN CHOICE, log 61) -/
  msix : List Nat := []
  booted : Bool := false
  bootFail : Nat := 0
  bootImage : Nat := 0
  fwVersion : Nat := 0
  /-- LCSTATE (R336; DESIGN CHOICE, log 5) -/
  lifecycle : Nat := 2
  /-- CLKBIN (R338; DESIGN CHOICE, log 5, 62) -/
  clkbin : Nat := 0
  absent : List Nat := []
  bucketMaps : List (List Nat) := List.replicate 4 (List.range 16)
  mapGens : List Nat := [0, 0, 0, 0]
  /-- link states (R337; DESIGN CHOICE, log 5) -/
  links : List Nat := List.replicate 8 0
  /-- the firmware's route table: peer package number ↦ link -/
  routes : SMap Nat := []
  logEntries : List LogEntry := []
  /-- the firmware image and the identity image in the module flash (R335) -/
  flash : List Byte := []
  idImage : List Byte := []
  /-- table pages that firmware has used for page tables -/
  tablePages : Nat := 0
  dram : List Nat := List.replicate 192 4096
  serial : List Byte := List.replicate 32 0
  /-- trap reports that slot 0 posts to steward firmware (R320) -/
  fwReports : List (Nat × Word × Word) := []
  /-- lines with an uncorrectable data error (DESIGN CHOICE, log 16) -/
  poison : List Nat := []
  /-- .pattern records of loaded objects: PTROOT, LPB address and entries (R57, R343) -/
  objects : List (Nat × Nat × List Pattern) := []
  threshold : Nat := 0
deriving DecidableEq, Repr

/-- Where the scheduler stands in a cycle: the bank accesses of the cycle, the matrix engines, then issue, the steps that
are due, the units, and the next cycle. -/
inductive Phase where
  | bank
  | arrays
  | issue
  | timers
  | units
  | tick
deriving DecidableEq, Repr

/-- The users of a bank's engine port that take turns at it (R95): matrix-ring reads and writes, window accesses from the fabric,
copy traffic, reduce-at-destination updates, L1 fills, and on a channel core its bank engine. -/
inductive PortUser where
  | matrix
  | fabric
  | copy
  | reduce
  | fill
  | bankEngine
deriving DecidableEq, Repr
/-- An access that waits at engine ports (R95): its user, its number among that user's, its banks, those that have still to serve
it, and the last cycle in which it asked. -/
structure PortAsk where
  user : PortUser
  id : Nat
  banks : List Nat
  left : List Nat
  asked : Nat
deriving DecidableEq, Repr

/-- The machine. -/
structure State where
  /-- CYCLE (R316) -/
  cycle : Nat := 0
  /-- the thread that is about to issue -/
  cur : Option Nat := none
  /-- what the step of the hardware in progress acts on -/
  subj : Subj := {}
  phase : Phase := .issue
  /-- cores that have still to issue in this cycle, and threads that could not -/
  issueQ : List Nat := []
  tried : List Nat := []
  todo : List Move := []
  timers : List Timer := []
  /-- external inputs still to come: steps of the host, of firmware and of the surroundings, each taken at the start of
  the first cycle that is not before its own (DEDUCED, log 60) -/
  inputs : List Timer := []
  /-- the next number for a request, packet, thread or wait (the model's own; DESIGN CHOICE, log 2) -/
  nextId : Nat := 1
  /-- how many open values have been drawn (the model's own; DESIGN CHOICE, log 1) -/
  draws : Nat := 0
  /-- bytes that are not 0: device DRAM, SRAMs and host memory, in one key space; of host
  memory DESIGN CHOICE, log 3 -/
  mem : List Host.Cell := []
  /-- full/empty bits that are empty (R144) -/
  fe : SMap Bool := []
  /-- scratchpad bytes before this cycle's local stores (R95) -/
  oldBytes : SMap Byte := []
  rf : SMap Word := []
  sregs : SMap Word := []
  /-- writes of s registers not yet visible (R66) -/
  spend : List SWrite := []
  threads : SMap Thread := []
  streams : SMap Stream := []
  nbr : SMap (List QEntry) := []
  /-- pops made of a queue and pushes sent to one, and the free places of an outbound queue (R242, R243; the counts
  DESIGN CHOICE, log 4) -/
  nbrPops : SMap Nat := []
  nbrFree : SMap Nat := []
  nbrSent : SMap Nat := []
  nbrSync : SMap Bool := []
  cores : SMap Core := []
  teams : SMap Team := []
  engines : SMap CopyEngine := []
  slices : SMap Slice := []
  reqs : SMap Req := []
  waiters : List Nat := []
  /-- requests accepted ahead of their die's order (the model's own; DESIGN CHOICE, log 77) -/
  ahead : List Ahead := []
  /-- the stream ports that have sent a request in this cycle (R132), and the banks whose engine port has been used in it,
  as 64 × node + bank (R95; DESIGN CHOICE, log 78) -/
  portsUsed : List Nat := []
  banksUsed : List Nat := []
  /-- the user that each bank's engine port served last, and the accesses that wait at the ports (R95; DESIGN CHOICE, log 78) -/
  portLast : SMap Nat := []
  portAsks : List PortAsk := []
  packets : SMap Packet := []
  /-- the last arrival cycle given to a packet of each path: source, destination and channel (R130) -/
  pathDue : SMap Nat := []
  disp : Dispatcher := {}
  pkg : Package := {}
deriving DecidableEq, Repr

/-- The machine right after reset (R335): every memory and register file wiped, every item of state at its reset value,
no thread, and the Horjan boot still to run. (DESIGN CHOICE, log 4, 5.) -/
def State.reset : State := {}

end Sys2Proof.Machine
end

