-- ==== Sys2Proof/Machine/Ops.lean ====
section
/-! DEFINITION. The named operations over the state: numbering, records, registers, memory, packets, queues and ports,
taking a trap and returning from one. Every meaning is written over these. -/

namespace Sys2Proof.Machine

/-! ### Numbering (R9, R17, R79) -/

/-- The core of a thread key. -/
def coreOf (tk : Nat) : Nat := tk / 64
/-- The slot of a thread key. -/
def slotOf (tk : Nat) : Nat := tk % 64
/-- A channel core. -/
def isChannel (core : Nat) : Bool := decide (1024 ≤ core)
/-- The node of a core: its team, or the channel core itself. -/
def nodeOf (core : Nat) : Nat := if core < 1024 then core / 4 else core - 1024 + 256
/-- The number of a core within its team; 0 for a channel core. -/
def coreInTeam (core : Nat) : Nat := if core < 1024 then core % 4 else 0
/-- The die of a node. -/
def dieOfNode (node : Nat) : Nat := if node < 256 then node / 64 else 4 + (node - 256) / 48
/-- The number of a node within its die. -/
def numOfNode (node : Nat) : Nat := if node < 256 then node % 64 else (node - 256) % 48
/-- The node of a die and a number. -/
def nodeAt (die num : Nat) : Nat := if die < 4 then 64 * die + num else 256 + 48 * (die - 4) + num
/-- A core of a node. -/
def coreAt (node c : Nat) : Nat := if node < 256 then 4 * node + c else 1024 + (node - 256)
/-- The channel core of a die (4 to 7) and channel. -/
def channelCore (die chan : Nat) : Nat := 1024 + 48 * (die - 4) + chan
/-- The compute die that a node's fabric belongs to: a channel die is joined to the compute die of its number (R9). -/
def regionOfNode (node : Nat) : Nat := dieOfNode node % 4
/-- The node number that stands for the I/O die: dispatcher, firmware and host endpoint. -/
def ioNode : Nat := 448

/-! ### Records -/

/-- A core's record. -/
def State.core (s : State) (k : Nat) : Core := SMap.getD s.cores k {}
/-- A core's record changed. -/
def State.modCore (s : State) (k : Nat) (f : Core → Core) : State :=
  { s with cores := SMap.put s.cores k (f (s.core k)) }
/-- The record of a node at reset: a channel core's SRAM is 512 KiB (R13, R94). -/
def Team.fresh (node : Nat) : Team := if node < 256 then {} else { s := 0x80000 }
/-- A node's record. -/
def State.team (s : State) (n : Nat) : Team := SMap.getD s.teams n (Team.fresh n)
/-- A node's record changed. -/
def State.modTeam (s : State) (n : Nat) (f : Team → Team) : State :=
  { s with teams := SMap.put s.teams n (f (s.team n)) }
/-- A team's matrix engine changed. -/
def State.modMx (s : State) (n : Nat) (f : Matrix → Matrix) : State := s.modTeam n fun t => { t with mx := f t.mx }
/-- A slot's thread. -/
def State.thread? (s : State) (tk : Nat) : Option Thread := SMap.get? s.threads tk
/-- A slot's thread, or an empty one. -/
def State.thread (s : State) (tk : Nat) : Thread := SMap.getD s.threads tk {}
/-- A slot's thread changed; a slot with no thread keeps none. -/
def State.modThread (s : State) (tk : Nat) (f : Thread → Thread) : State :=
  match SMap.get? s.threads tk with
  | none => s
  | some th => { s with threads := SMap.put s.threads tk (f th) }
/-- A core runs a thread of a launch: on a channel core its CSRs, and so its supervisor in slot 0, hold that launch's values
from now on (R317). -/
def State.servesLaunch (s : State) (core key : Nat) : State :=
  let s := s.modCore core fun c => { c with lastLaunch := key }
  if isChannel core then s.modThread (64 * core) fun th => { th with launch := key } else s
/-- A stream register. -/
def State.stream (s : State) (tk k : Nat) : Stream := SMap.getD s.streams (8 * tk + k) {}
/-- A stream register changed. -/
def State.setStream (s : State) (tk k : Nat) (x : Stream) : State :=
  { s with streams := SMap.putD s.streams (8 * tk + k) x {} }
/-- A request. -/
def State.req? (s : State) (rid : Nat) : Option Req := SMap.get? s.reqs rid
/-- A request placed or changed. -/
def State.putReq (s : State) (r : Req) : State := { s with reqs := SMap.put s.reqs r.id r }
/-- A request removed. -/
def State.delReq (s : State) (rid : Nat) : State := { s with reqs := SMap.del s.reqs rid }
/-- A new number for a request, packet, wait or command; numbers rise with program order. -/
def State.fresh (s : State) : Nat × State := (s.nextId, { s with nextId := s.nextId + 1 })
/-- A launch's record. -/
def State.launch? (s : State) (l : Nat) : Option Launch := SMap.get? s.disp.launches l
/-- The launch of a core: a team's last, or a channel core's last (R317). -/
def State.launchOfThread (s : State) (tk : Nat) : Option Launch := s.launch? (s.thread tk).launch
/-- A launch changed. -/
def State.modLaunch (s : State) (l : Nat) (f : Launch → Launch) : State :=
  match SMap.get? s.disp.launches l with
  | none => s
  | some x => { s with disp := { s.disp with launches := SMap.put s.disp.launches l (f x) } }
/-- A task's record. -/
def State.task? (s : State) (t : Nat) : Option Task := SMap.get? s.disp.tasks t
/-- A task changed. -/
def State.modTask (s : State) (t : Nat) (f : Task → Task) : State :=
  match SMap.get? s.disp.tasks t with
  | none => s
  | some x => { s with disp := { s.disp with tasks := SMap.put s.disp.tasks t (f x) } }
/-- An absent team position (R10). -/
def State.absent (s : State) (node : Nat) : Bool := decide (node < 256) && s.pkg.absent.contains node
/-- A node that exists: a team position that is not absent, or a channel core. -/
def State.nodeExists (s : State) (die num : Nat) : Bool :=
  if die < 4 then decide (num < 64) && !s.absent (nodeAt die num) else decide (die < 8) && decide (num < 48)
/-- A node inside a launch's window partition (R317). -/
def Launch.inPartition (l : Launch) (die num : Nat) : Bool :=
  l.wpdie.testBit die && (l.wpnode.getD die 0).testBit num
/-- The partition that a channel core holds is empty: it runs no launch's thread, but only its supervisor in slot 0 (R317). -/
def State.emptyPartition (s : State) (tk : Nat) : Bool :=
  isChannel (coreOf tk) && slotOf tk == 0 &&
    !(s.threads.any fun e => coreOf e.1 == coreOf tk && slotOf e.1 != 0 && e.2.launch != 0)
/-- A node inside the partition of a thread's launch; the partition is empty when the thread has none. -/
def State.inPartition (s : State) (tk die num : Nat) : Bool :=
  match s.launchOfThread tk with
  | none => false
  | some l => !s.emptyPartition tk && l.inPartition die num

/-! ### Time -/

/-- A step of the hardware set for a cycle. -/
def State.addTimer (s : State) (due : Nat) (ev : Instr) (subj : Subj) : State :=
  { s with timers := s.timers ++ [{ due := due, mv := .ev ev subj }] }
/-- The next open delay (Config.latency). (DESIGN CHOICE, log 1, 62.) -/
def State.delay (s : State) : Nat × State := (Config.latency s.draws, { s with draws := s.draws + 1 })

/-- A part of a step set for a cycle. -/
def State.addMove (s : State) (due : Nat) (mv : Move) : State := { s with timers := s.timers ++ [{ due := due, mv := mv }] }
/-- What is to happen next in this cycle. -/
def State.doNext (s : State) (mv : Move) : State := { s with todo := mv :: s.todo }
/-- The arrival cycle of something sent now on a path: after an open time, never before what was sent earlier on it.
(DESIGN CHOICE, log 1.) -/
def State.pathTime (s : State) (src dst chan : Nat) : Nat × State :=
  let (d, s) := s.delay
  let path := (4096 * src + dst) * 4 + chan
  let due := max (s.cycle + 1 + d) (SMap.getD s.pathDue path 0)
  (due, { s with pathDue := SMap.put s.pathDue path due })

/-- A packet sent (R130): it arrives after an open time, and never before an earlier packet of its path. The step of
its arrival is given. -/
def State.send (s : State) (src dst chan : Nat) (p : Payload) (ev : Instr) : State :=
  let (id, s) := s.fresh
  let (due, s) := s.pathTime src dst chan
  { s with
    packets := SMap.put s.packets id { id := id, src := src, dst := dst, chan := chan, payload := p }
    timers := s.timers ++ [{ due := due, mv := .ev ev { n := id } }] }
/-- A packet sent that arrives after a fixed time (R222, R242). (DESIGN CHOICE, log 1.) -/
def State.sendAt (s : State) (due src dst chan : Nat) (p : Payload) (ev : Instr) : State :=
  let (id, s) := s.fresh
  { s with
    packets := SMap.put s.packets id { id := id, src := src, dst := dst, chan := chan, payload := p }
    timers := s.timers ++ [{ due := due, mv := .ev ev { n := id } }] }
/-- An arrived packet taken off the fabric. -/
def State.dropPacket (s : State) (pid : Nat) : State := { s with packets := SMap.del s.packets pid }
/-- The core and slot of an engine's report. -/
def Payload.reportOf : Payload → Option (Nat × Nat)
  | .message core _ _ _ true slot _ => some (core, slot)
  | _ => none
/-- Two packets that arrive in the order sent: of one path (R130), of one engine, whose completions keep one order to all their
destinations, or with reports of one slot, from whichever engines (R42, R135). -/
def Packet.sameSource (q p : Packet) : Bool :=
  (q.src == p.src && (decide (1024 ≤ p.src) || (q.dst == p.dst && q.chan == p.chan))) ||
    (p.payload.reportOf.isSome && q.payload.reportOf == p.payload.reportOf)
/-- An earlier packet of the same source is still on the fabric, so this one waits behind it; one that waits at the input of the
core to which both go has arrived there (R255). -/
def State.behind (s : State) (p : Packet) : Bool :=
  !p.boxed && s.packets.any fun q => decide (q.1 < p.id) && !q.2.boxed && q.2.sameSource p &&
    !(q.2.dst == p.dst && (SMap.getD s.cores p.dst {}).inputQ.contains q.1)
/-- A part of a step is tried again in the next cycle, before what is due there for the first time. -/
def State.retryMove (s : State) (mv : Move) : State :=
  { s with timers := s.timers ++ [{ due := s.cycle + 1, mv := mv, retry := true }] }
/-- The step that the subject names is tried again in the next cycle. -/
def State.again (s : State) (ev : Instr) : State := s.retryMove (.ev ev s.subj)
/-- The cycle in which a bound of 64·2^e expires; none for e = 15 (R36, Table FM-2). -/
def State.bound (s : State) (e : Nat) : Option Nat := if e = 15 then none else some (s.cycle + 64 * 2 ^ e)

/-- A message, or with `report` an engine report, sent to a core's port on the message channel (R254, R256). -/
def State.sendMessage (s : State) (src core port : Nat) (w0 w1 : Word) (report : Bool) (slot launch : Nat) : State :=
  s.send src core 2 (.message core port w0 w1 report slot launch) .messageArrival

/-! ### Registers (R22, R64, R66) -/

/-- The file key of window register i of a thread. -/
def State.rfKey (s : State) (tk i : Nat) : Nat := 2048 * coreOf tk + (8 * (s.thread tk).base + i)
/-- A window register. -/
def State.readG (s : State) (tk i : Nat) : Word := SMap.getD s.rf (s.rfKey tk i) 0
/-- A window register written. -/
def State.writeG (s : State) (tk i : Nat) (v : Word) : State :=
  { s with rf := SMap.putD s.rf (s.rfKey tk i) v 0 }
/-- Core-shared register n of a core, as a read issued now sees it (R66). -/
def State.readS (s : State) (core n : Nat) : Word := SMap.getD s.sregs (16 * core + n) 0
/-- Of two writes of one register with one write cycle, the first remains: it comes from a lower slot, or within the slot
from an instruction later in program order (R66). -/
def SWrite.beats (a b : SWrite) : Bool := decide (a.slot < b.slot) || (a.slot == b.slot && decide (b.stamp < a.stamp))
/-- A write of a core-shared register with its write cycle, seen three cycles after it; of the writes of that register with
that write cycle one remains (R66). -/
def State.putSWrite (s : State) (w : SWrite) : State :=
  let same := fun (e : SWrite) => e.key == w.key && e.cycle == w.cycle
  if s.spend.any fun e => same e && e.beats w then s
  else { s with spend := s.spend.filter (fun e => !same e) ++ [w] }
/-- A write of a core-shared register with write cycle c, by an instruction at this place in program order. -/
def State.writeSAt (s : State) (core n : Nat) (v : Word) (slot c stamp : Nat) : State :=
  s.putSWrite { key := 16 * core + n, value := v, cycle := c, slot := slot, stamp := stamp }
/-- A write of a core-shared register with write cycle now, by the latest instruction of its thread. -/
def State.writeS (s : State) (core n : Nat) (v : Word) (slot : Nat) : State := s.writeSAt core n v slot s.cycle s.nextId
/-- The writes of core-shared registers that a read issued in cycle c sees become the registers' values. -/
def State.settleS (s : State) (c : Nat) : State :=
  let ripe := s.spend.filter fun e => decide (e.cycle + 3 ≤ c)
  { s with
    sregs := ripe.foldl (fun m e => SMap.putD m e.key e.value 0) s.sregs
    spend := s.spend.filter fun e => !decide (e.cycle + 3 ≤ c) }

/-- The status code written to the status word (R36, R315). -/
def setStatusField (w : Word) (code : Nat) : Word := (w &&& ~~~(7 : Word)) ||| word (code % 8)
/-- A status written by a thread. -/
def State.setStatus (s : State) (tk code : Nat) : State :=
  s.modThread tk fun th => { th with status := setStatusField th.status code }
/-- The pending prefix cleared (R87). -/
def clearPrefix (w : Word) : Word := w &&& 0x00000000FFFFFFF7
/-- A PRE word set pending. -/
def pendPrefix (w : Word) (p : BitVec 32) : Word := clearPrefix w ||| 8 ||| (p.zeroExtend 64 <<< 32)
/-- The pending PRE word, if any. -/
def pending (w : Word) : Option (BitVec 32) := if bitAt w 3 then some (w.extractLsb' 32 32) else none

/-! ### Memory (R3, R94, R123, R144) -/

/-- The memory key of an offset in a node's SRAM. -/
def sramKey (node off : Nat) : Nat := 2 ^ 48 + node * 2 ^ 21 + off
/-- The memory key of a host address. (DESIGN CHOICE, log 3.) -/
def hostKey (ha : Nat) : Nat := 2 ^ 60 + ha
/-- What an unlisted address reads as: the zero of the wipe (R144); for host memory the model's choice.
(DESIGN CHOICE, log 3.) -/
def unlisted : Byte := 0
/-- A byte of memory. -/
def State.byte (s : State) (key : Nat) : Byte := SMap.getD s.mem key unlisted
/-- A byte of memory written. -/
def State.setByte (s : State) (key : Nat) (b : Byte) : State := { s with mem := SMap.putD s.mem key b unlisted }
/-- The n bytes from a key on. -/
def State.bytes (s : State) (key : Nat) : Nat → List Byte
  | 0 => []
  | n + 1 => s.byte key :: s.bytes (key + 1) n
/-- Bytes written from a key on. -/
def State.setBytes (s : State) (key : Nat) : List Byte → State
  | [] => s
  | b :: bs => (s.setByte key b).setBytes (key + 1) bs
/-- The little-endian number of n bytes. -/
def State.load (s : State) (key n : Nat) : Nat := ofBytes (s.bytes key n)
/-- A little-endian number of n bytes written. -/
def State.store (s : State) (key n v : Nat) : State := s.setBytes key (toBytes n v)
/-- A scratchpad byte as a local access of this cycle reads it: the value before the cycle's local stores (R95). -/
def State.localByte (s : State) (key : Nat) : Byte :=
  match SMap.get? s.oldBytes key with
  | some b => b
  | none => s.byte key
/-- The n scratchpad bytes that a local access reads. -/
def State.localBytes (s : State) (key : Nat) : Nat → List Byte
  | 0 => []
  | n + 1 => s.localByte key :: s.localBytes (key + 1) n
/-- A local store (R95, R98): the bytes are written, and the values before the cycle stay readable in it.
(DEDUCED, log 8.) -/
def State.localStore (s : State) (key : Nat) : List Byte → State
  | [] => s
  | b :: bs =>
    let s := match SMap.get? s.oldBytes key with
      | some _ => s
      | none => { s with oldBytes := SMap.put s.oldBytes key (s.byte key) }
    (s.setByte key b).localStore (key + 1) bs
/-- The memory's canonical form: addresses strictly rising, and no entry that reads as an unlisted address does. -/
def Memory.wf (m : List Host.Cell) : Bool := SMap.sortedFrom 0 m && m.all fun c => c.2 != unlisted
/-- The full/empty bit of the 8-byte word that holds a key (R144): full unless listed. -/
def State.full (s : State) (key : Nat) : Bool := SMap.getD s.fe (key / 8) true
/-- A full/empty bit written. -/
def State.setFull (s : State) (key : Nat) (b : Bool) : State := { s with fe := SMap.putD s.fe (key / 8) b true }

/-! ### Outstanding results (R88, R89) -/

/-- Elements that GLD or GLDV requested and that have not landed. -/
def Stream.outstanding (x : Stream) : Nat := (x.entries.filter fun e => !e.landed && !e.bound).length
/-- A thread's outstanding results (Table CF-2). -/
def State.outstanding (s : State) (tk : Nat) : Nat :=
  (s.thread tk).amos + (s.thread tk).mpops.length +
    ((List.range 8).map fun k => (s.stream tk k).outstanding).sum
/-- A result has landed: a thread parked by the switch marker is ready from the next cycle when it was the last. -/
def State.landed (s : State) (tk : Nat) : State :=
  if (s.thread tk).run = .switch ∧ s.outstanding tk = 0 then
    s.modThread tk fun th => { th with run := .ready, notBefore := s.cycle + 1 }
  else if (s.thread tk).switchHeld = true ∧ s.outstanding tk = 0 then
    s.modThread tk fun th => { th with switchHeld := false }
  else s

/-! ### Messages and trap reports (R255, R256, R319, R320) -/

/-- A core's message port. -/
def Core.mport (c : Core) (p : Nat) : MPort := c.mports.getD p {}
/-- A message port changed. -/
def State.modPort (s : State) (core p : Nat) (f : MPort → MPort) : State :=
  s.modCore core fun c => { c with mports := c.mports.set p (f (c.mport p)) }
/-- A port that a valid join-pattern entry names (R252). -/
def Core.isJoin (c : Core) (p : Nat) : Bool := c.jp.any fun e => e.valid && e.ports.getLsbD p
/-- The wait of a thread. -/
def Thread.wait? (th : Thread) : Option Wait :=
  match th.run with
  | .wait w => some w
  | _ => none
/-- A marker S on a word. -/
def Wait.switch (w : Wait) : Bool :=
  match w.instr with
  | .recv sm _ _ _ | .taga sm _ _ _ | .waitm sm _ _ _ | .fence sm _ _ | .mpush sm _ _ _ | .mfence sm _ | .mring sm _ _
  | .put sm _ _ _ | .take sm _ _ _ | .pbind sm _ _ | .pfree sm _ | .hload sm _ _ _ | .hstop sm _ _ | .hstat sm _ _
  | .spawn sm _ _ _ | .gwait sm _ _ _ | .garr sm _ _ | .launch sm _ _ | .migrate sm _ | .cpys sm _ _ _ | .cpyx sm _ _ _
  | .bmv sm _ _ _ | .bfence sm _ | .wfe sm _ _ _ | .tlbi sm _ _ | .ctxsv sm _ _ _ | .eret sm _
  | .ldfe sm _ _ _ | .ldff sm _ _ _ | .stfe sm _ _ _ | .stff sm _ _ _ | .feq sm _ _ | .feset sm _ _
  | .bari sm _ _ | .bara sm _ _ | .barw sm _ _ _ | .waitw sm _ _ _ _ => sm
  | _ => false
/-- A waiting instruction completes (R93): the pc moves past it, the thread is ready from the next cycle, or stays
parked by the word's switch marker while results are outstanding (R88). -/
def State.completeWait (s : State) (tk : Nat) : State :=
  match (s.thread tk).wait? with
  | none => s
  | some w =>
    let park := w.switch && decide (0 < s.outstanding tk)
    s.modThread tk fun th =>
      { th with pc := th.pc + 4, run := if park then .switch else .ready, notBefore := s.cycle + 1 }
/-- A waiting instruction completes with a status. -/
def State.finishWait (s : State) (tk code : Nat) : State := (s.setStatus tk code).completeWait tk
/-- A waiting instruction withdrawn by the general pre-emption: its thread halts at it, to reissue it whole with its
prefix and what is left of its bound (R152, R210, R236, R269, R292). An element that it popped at issue is not kept.
(DEDUCED, log 11; DESIGN CHOICE, log 72.) -/
def State.haltWait (s : State) (tk : Nat) (w : Wait) (alone : Bool) : State :=
  s.modThread tk fun th =>
    { th with
      run := .halted 31, stopReq := none
      status := if w.pre = 0 then th.status else pendPrefix th.status w.pre
      carry := some { left := w.deadline.map fun d => d - s.cycle, alone := alone } }
/-- A wait that is withdrawn ends with TIMEOUT, or, where the pre-emption withdrew it, is kept to be reissued: at once, when the
pre-emption has been undone since (R148, R236). -/
def State.endWithdrawn (s : State) (tk : Nat) (w : Wait) (alone : Bool) : State :=
  let stop := (s.thread tk).stopReq
  if stop = some 31 ∨ w.reissue = true then
    (s.haltWait tk w alone).modThread tk fun th =>
      match stop with
      | some k => { th with run := .halted k }
      | none => { th with run := .ready, notBefore := s.cycle + 1 }
  else s.finishWait tk 1
/-- A window or core-shared register read. -/
def State.readGS (s : State) (tk : Nat) (r : Reg) : Word :=
  match r with
  | .g i => s.readG tk i.val
  | .s i => s.readS (coreOf tk) i.val
  | _ => 0
/-- A late result written in this cycle by an instruction at this place in program order: a window register, or a
core-shared one with this cycle as write cycle. -/
def State.writeGSOf (s : State) (tk : Nat) (r : Reg) (v : Word) (stamp : Nat) : State :=
  match r with
  | .g i => s.writeG tk i.val v
  | .s i => s.writeSAt (coreOf tk) i.val v (slotOf tk) s.cycle stamp
  | _ => s
/-- A result written by a waiting instruction, which its thread has issued last. The write cycle of a core-shared register
is the cycle in which the instruction completes. (DEDUCED, log 65.) -/
def State.writeGS (s : State) (tk : Nat) (r : Reg) (v : Word) : State := s.writeGSOf tk r v s.nextId
/-- The threads of a core that wait, with their waits, oldest wait first. -/
def State.waitsOf (s : State) (core : Nat) : List (Nat × Wait) :=
  let l := s.threads.filterMap fun e =>
    if coreOf e.1 = core then e.2.wait?.map fun w => (e.1, w) else none
  sortBy (fun a b => decide (a.2.id ≤ b.2.id)) l
/-- The oldest RECV that waits on a port (R258). -/
def State.recvWaiter (s : State) (core p : Nat) : Option (Nat × Wait) :=
  (s.waitsOf core).find? fun e => match e.2.instr with
    | .recv _ _ _ _ => e.2.vals.getD 1 0 == word p
    | _ => false
/-- A window register's number. -/
def Reg.gnum : Reg → Nat
  | .g i => i.val
  | _ => 0
/-- A RECV receives a message: rd and rd + 1 are written, with status OK (R258). -/
def State.recvTake (s : State) (tk : Nat) (rd : Reg) (w0 w1 : Word) : State :=
  (s.writeG tk (Reg.gnum rd) w0).writeG tk (Reg.gnum rd + 1) w1
/-- A message takes effect in a port in this cycle, or is popped in it by the oldest RECV parked there (R255, R258). -/
def State.portEffect (s : State) (core p : Nat) (w0 w1 : Word) : State :=
  match s.recvWaiter core p with
  | some (tk, w) =>
    match w.instr with
    | .recv _ rd _ _ => (s.recvTake tk rd w0 w1).finishWait tk 0
    | _ => s
  | none => s.modPort core p fun q => { q with msgs := q.msgs ++ [{ w0 := w0, w1 := w1, since := s.cycle }] }
/-- A port has a free place that is not reserved. -/
def Core.portFree (c : Core) (p : Nat) : Bool :=
  decide ((c.mport p).msgs.length + (c.mport p).reserved < 4)
/-- A port has spilled messages. -/
def Core.hasSpill (c : Core) (p : Nat) : Bool := c.spill.any fun e => e.1 == p
/-- A report held inside its core, behind those that are held already (R256, R319). -/
def State.holdReport (s : State) (core slot : Nat) (w0 w1 : Word) : State :=
  let (id, s) := s.fresh
  s.modCore core fun c => { c with held := c.held ++ [{ id := id, slot := slot, w0 := w0, w1 := w1 }] }
/-- A trap report raised inside a core: into m31, the spill area or the trap reserve, or it waits inside the core for
the first place that frees (R256). The reserve holds one report per slot. -/
def State.reportInside (s : State) (core slot : Nat) (w0 w1 : Word) : State :=
  let c := s.core core
  if c.portFree 31 && !c.hasSpill 31 && c.reserve.isEmpty then s.portEffect core 31 w0 w1
  else if c.spill.length < 256 then s.modCore core fun c => { c with spill := c.spill ++ [(31, w0, w1)] }
  else if !(c.reserve.any fun e => e.1 == slot) then
    s.modCore core fun c => { c with reserve := c.reserve ++ [(slot, w0, w1)] }
  else s.holdReport core slot w0 w1
/-- An engine's report of a slot with a number below n is still on the message channel (R256). (DEDUCED, log 14.) -/
def State.reportBefore (s : State) (core slot n : Nat) : Bool :=
  s.packets.any fun e => decide (e.1 < n) && e.2.payload.reportOf == some (core, slot)
/-- An engine's report of a slot is still on the message channel (R256). (DEDUCED, log 14.) -/
def State.reportOnWay (s : State) (core slot : Nat) : Bool := s.reportBefore core slot s.nextId
/-- A report of a halting kind posted after every earlier report of the same slot (R319): while one is on its way, it waits
inside the core. (DEDUCED, log 14, 57.) -/
def State.postReport (s : State) (core slot : Nat) (w0 w1 : Word) : State :=
  if s.reportOnWay core slot || (s.core core).held.any fun e => e.slot == slot then s.holdReport core slot w0 w1
  else s.reportInside core slot w0 w1
/-- Word 0 of a trap report (R319): kind, cause, slot, pc. -/
def reportWord (kind cause slot : Nat) (pc : BitVec 48) : Word :=
  word (at' 59 kind + at' 54 cause + at' 48 slot + pc.toNat)
/-- TAKING A TRAP of a halting kind (R319, R320): the slot halts with its pc at the trapping word and posts its report
to the core's trap port, or, from slot 0, to steward firmware. -/
def State.trap (s : State) (tk kind cause : Nat) (w1 : Word) : State :=
  let w0 := reportWord kind cause (slotOf tk) (s.thread tk).pc
  let s := s.modThread tk fun th => { th with run := .halted kind, tokens := none }
  if slotOf tk = 0 then { s with pkg := { s.pkg with fwReports := s.pkg.fwReports ++ [(coreOf tk, w0, w1)] } }
  else s.postReport (coreOf tk) (slotOf tk) w0 w1
/-- RETURNING FROM A TRAP (R323): the slot resumes at the trapping word, or, with `skip`, after it with no pending
prefix; it is ready from the next cycle, or goes on to wait for the results that a switch marker parked it for (R93). -/
def State.resume (s : State) (tk : Nat) (skip : Bool) : State :=
  s.modThread tk fun th =>
    { th with
      pc := if skip then th.pc + 4 else th.pc
      status := if skip then clearPrefix th.status else th.status
      run := if th.switchHeld && decide (0 < s.outstanding tk) then .switch else .ready
      switchHeld := false
      notBefore := s.cycle + 1 }

/-! ### Neighbour ports (R9, R240, R242) -/

/-- The opposite direction. -/
def Dir.opposite : Dir → Dir
  | .n => .s | .s => .n | .e => .w | .w => .e
/-- The number of a direction. -/
def Dir.idx : Dir → Nat
  | .n => 0 | .e => 1 | .s => 2 | .w => 3
/-- A team's package row and column (R9). -/
def teamRow (node : Nat) : Nat := 8 * (node / 64 / 2) + node % 64 / 8
/-- A team's package column. -/
def teamCol (node : Nat) : Nat := 8 * (node / 64 % 2) + node % 64 % 8
/-- The team at a package row and column. -/
def teamAt (row col : Nat) : Nat := 64 * (2 * (row / 8) + col / 8) + (8 * (row % 8) + col % 8)
/-- The team next to a team in a direction; none off the grid. -/
def neighbour (node : Nat) (d : Dir) : Option Nat :=
  let r := teamRow node
  let c := teamCol node
  match d with
  | .n => if r = 0 then none else some (teamAt (r - 1) c)
  | .s => if r = 15 then none else some (teamAt (r + 1) c)
  | .w => if c = 0 then none else some (teamAt r (c - 1))
  | .e => if c = 15 then none else some (teamAt r (c + 1))
/-- The queue-fault cause of a neighbour access (R241); 0 for none. -/
def State.nbrCause (s : State) (tk : Nat) (d : Dir) : Nat :=
  match neighbour (nodeOf (coreOf tk)) d with
  | none => 1
  | some n =>
    if s.absent n then 2
    else if s.inPartition tk (dieOfNode n) (numOfNode n) then 0 else 3
/-- The slot at the other end of a neighbour name. -/
def nbrSlot (tk : Nat) (d : Dir) : Nat :=
  match neighbour (nodeOf (coreOf tk)) d with
  | none => tk
  | some n => 64 * coreAt n (coreInTeam (coreOf tk)) + slotOf tk
/-- The cycles that a value or a return takes to the neighbour: 4 within a die, 16 across a die edge (R242). -/
def nbrTime (tk : Nat) (d : Dir) : Nat :=
  if dieOfNode (nodeOf (coreOf tk)) = dieOfNode (nodeOf (coreOf (nbrSlot tk d))) then 4 else 16
/-- The key of a slot's inbound queue, or of its outbound counter, in a direction. -/
def nbrKey (tk : Nat) (d : Dir) : Nat := 4 * tk + Dir.idx d
/-- The slot of such a key. -/
def nbrKeySlot (k : Nat) : Nat := k / 4
/-- The direction of such a key. -/
def nbrKeyDir (k : Nat) : Dir :=
  match k % 4 with
  | 0 => .n | 1 => .e | 2 => .s | _ => .w
/-- The free-place counter of an outbound queue (R242). -/
def State.nbrRoom (s : State) (k : Nat) : Nat := SMap.getD s.nbrFree k 4
/-- A place of an outbound queue taken at issue (R242). -/
def State.nbrTake (s : State) (tk : Nat) (d : Dir) : State :=
  let k := nbrKey tk d
  { s with
    nbrFree := SMap.put s.nbrFree k (s.nbrRoom k - 1)
    nbrSent := SMap.put s.nbrSent k ((SMap.getD s.nbrSent k 0 + 1) % 65536) }
/-- A value leaves in a given cycle and takes effect at the neighbour (R242). -/
def State.nbrLeave (s : State) (tk : Nat) (d : Dir) (v : Word) (tag leave : Nat) : State :=
  s.addTimer (leave + nbrTime tk d) .neighbourValueArrival
    { n := nbrKey (nbrSlot tk d) (Dir.opposite d), m := tag, k := (s.thread tk).launch, v := v }
/-- The entries of an inbound queue. -/
def State.nbrQueue (s : State) (k : Nat) : List QEntry := SMap.getD s.nbr k []
/-- An inbound queue's head popped: the pop is counted, and a return goes to the sender (R242, R243). -/
def State.nbrPop (s : State) (tk : Nat) (d : Dir) : State :=
  let k := nbrKey tk d
  let src := nbrKey (nbrSlot tk d) (Dir.opposite d)
  ({ s with
    nbr := SMap.putD s.nbr k (s.nbrQueue k).tail []
    nbrPops := SMap.put s.nbrPops k ((SMap.getD s.nbrPops k 0 + 1) % 65536) }).addTimer
      (s.cycle + nbrTime tk d) .neighbourReturn { n := src, k := (s.thread tk).launch }

/-! ### Role queues (R244, R247) -/

/-- A role queue of a core. -/
def Core.role (c : Core) (i : Nat) : RoleQ := c.roles.getD i {}
/-- A role queue changed. -/
def State.modRole (s : State) (core i : Nat) (f : RoleQ → RoleQ) : State :=
  s.modCore core fun c => { c with roles := c.roles.set i (f (c.role i)) }
/-- The queue-fault cause of a role-queue access (R244); 0 for none. -/
def State.roleCause (s : State) (tk i : Nat) (push : Bool) : Nat :=
  let q := (s.core (coreOf tk)).role i
  if !q.enabled then 4
  else if (if push then q.writer else q.reader) = slotOf tk then 0 else 5
/-- Places taken in a role queue: entries, and places reserved for pushes not yet written. -/
def RoleQ.taken (q : RoleQ) : Nat := q.entries.length + q.reserved
/-- The entries that have taken effect before a cycle. -/
def RoleQ.written (q : RoleQ) (c : Nat) : Nat := (q.entries.filter fun e => decide (e.since < c)).length
/-- An entry pushed that takes effect in a given cycle (R247). -/
def State.rolePush (s : State) (core i : Nat) (v : Word) (tag since : Nat) : State :=
  s.modRole core i fun q => { q with entries := q.entries ++ [{ v := v, tag := tag, since := since }] }
/-- The head of a role queue popped. -/
def State.rolePop (s : State) (core i : Nat) : State :=
  s.modRole core i fun q => { q with entries := q.entries.tail }

/-! ### Writing a result (R22, R66, R247) -/

/-- A result of an instruction issued in this cycle written or pushed to a destination; a push takes effect, or leaves
for the neighbour, `late` cycles after issue (R247): 3 for JLR, SCNT and JPSTAT too (DESIGN CHOICE, log 102). -/
def State.writeReg (s : State) (tk : Nat) (r : Reg) (v : Word) (late : Nat := 3) : State :=
  match r with
  | .g i => s.writeG tk i.val v
  | .s i => s.writeS (coreOf tk) i.val v (slotOf tk)
  | .nb d => (s.nbrTake tk d).nbrLeave tk d v 0 (s.cycle + late)
  | .q i => s.rolePush (coreOf tk) i.val v 0 (s.cycle + late)
  | .st _ => s
/-- The place that a later result will need, reserved at issue (R242, R247). -/
def State.reserveReg (s : State) (tk : Nat) (r : Reg) : State :=
  match r with
  | .nb d => s.nbrTake tk d
  | .q i => s.modRole (coreOf tk) i.val fun q => { q with reserved := q.reserved + 1 }
  | _ => s
/-- A result of a local load or ring instruction written in its bank cycle: an s register with the issue cycle as write
cycle (R66), a push into the place reserved for it, which takes effect `late` cycles later (R95, R247). -/
def State.writeBank (s : State) (tk : Nat) (r : Reg) (v : Word) (issued stamp late : Nat) : State :=
  match r with
  | .g i => s.writeG tk i.val v
  | .s i => s.writeSAt (coreOf tk) i.val v (slotOf tk) issued stamp
  | .nb d => s.nbrLeave tk d v 0 (s.cycle + late)
  | .q i =>
    (s.modRole (coreOf tk) i.val fun q => { q with reserved := q.reserved - 1 }).rolePush (coreOf tk) i.val v 0
      (s.cycle + late)
  | .st _ => s
/-- A late result written in this cycle, into the place reserved for it. -/
def State.writeLate (s : State) (tk : Nat) (r : Reg) (v : Word) : State :=
  match r with
  | .g i => s.writeG tk i.val v
  | .s i => s.writeS (coreOf tk) i.val v (slotOf tk)
  | .nb d => s.nbrLeave tk d v 0 s.cycle
  | .q i =>
    (s.modRole (coreOf tk) i.val fun q => { q with reserved := q.reserved - 1 }).rolePush (coreOf tk) i.val v 0 s.cycle
  | .st _ => s

end Sys2Proof.Machine
end

