-- ==== Sys2Proof/Machine/Flags.lean ====
section
/-! DEFINITION. The compare relations (R73), and which prefix fields each instruction
accepts (R29, R67, R86, R138, R164, R175). The part has no carry or overflow flags (R69). -/

namespace Sys2Proof.Machine

/-- The relations of R73, by function: CMPEQ, CMPNE, CMPLT, CMPLTU, CMPLE, CMPLEU. -/
def relEq (a b : Word) : Bool := a == b
/-- CMPNE. -/
def relNe (a b : Word) : Bool := a != b
/-- CMPLT. -/
def relLt (a b : Word) : Bool := BitVec.slt a b
/-- CMPLTU. -/
def relLtu (a b : Word) : Bool := BitVec.ult a b
/-- CMPLE. -/
def relLe (a b : Word) : Bool := BitVec.sle a b
/-- CMPLEU. -/
def relLeu (a b : Word) : Bool := BitVec.ule a b
/-- The result of a compare: bits [63:1] zero (R73). -/
def ofRel (b : Bool) : Word := if b then 1 else 0

/-! ### The pending prefix (Table FM-4) -/

/-- The guard register field of a PRE word. -/
def preReg (p : BitVec 32) : Reg := Reg.ofBits (p.extractLsb' 18 7)
/-- The guard bit. -/
def preBit (p : BitVec 32) : Nat := (p.extractLsb' 12 6).toNat
/-- G: the next instruction is guarded. -/
def preG (p : BitVec 32) : Bool := p.getLsbD 11
/-- The sense: executes when the bit is 1 (false) or 0 (true). -/
def preSense (p : BitVec 32) : Bool := p.getLsbD 10
/-- The format code. -/
def preFmt (p : BitVec 32) : Nat := (p.extractLsb' 6 4).toNat
/-- The aux field. -/
def preAux (p : BitVec 32) : Nat := (p.extractLsb' 2 4).toNat
/-- The ord field. -/
def preOrd (p : BitVec 32) : Nat := (p.extractLsb' 0 2).toNat

/-- A format code that reads as FP32 when 0 (Table VE-9). -/
def fmtOr1 (f : Nat) : Nat := if f = 0 then 1 else f

/-- Which fmt, aux and ord an instruction accepts. An instruction not named here accepts only a guard. -/
def accepts (i : Instr) (fmt aux ord : Nat) : Bool :=
  match i with
  -- AMO and ACAS: INT64 or INT32, any retention, any ord (Table AT-3)
  | .amoadd _ _ _ _ | .amoand _ _ _ _ | .amoor _ _ _ _ | .amoxor _ _ _ _ | .amomin _ _ _ _ | .amomax _ _ _ _
  | .amominu _ _ _ _ | .amomaxu _ _ _ _ | .amoswp _ _ _ _ | .acas _ _ _ _ =>
    (fmt == 0 || fmt == 8 || fmt == 9) && aux % 4 == 0
  -- RED: no acquire (R143)
  | .redadd _ _ _ | .redand _ _ _ | .redor _ _ _ | .redxor _ _ _ | .redmin _ _ _ | .redmax _ _ _ | .redminu _ _ _
  | .redmaxu _ _ _ => (fmt == 0 || fmt == 8 || fmt == 9) && aux % 4 == 0 && (ord == 0 || ord == 2)
  | .ldfe _ _ _ _ | .ldff _ _ _ _ | .stfe _ _ _ _ | .stff _ _ _ _ | .feq _ _ _ | .feset _ _ _
  | .bari _ _ _ | .bara _ _ _ | .barw _ _ _ _ | .waitw _ _ _ _ _ => fmt == 0 && aux % 4 == 0 && ord == 0
  -- scalar float (Table VE-4)
  | .fadd _ _ _ _ | .fsub _ _ _ _ | .fmul _ _ _ _ | .fmin _ _ _ _ | .fmax _ _ _ _
  | .fcmpeq _ _ _ _ | .fcmplt _ _ _ _ | .fcmple _ _ _ _ | .ffma _ _ _ _ =>
    decide (fmt ≤ 3) && aux == 0 && ord == 0
  | .fabs _ _ _ | .fneg _ _ _ | .fcls _ _ _ => decide (fmt ≤ 4) && aux == 0 && ord == 0
  | .fcvt _ _ _ => decide (fmt ≤ 9) && decide (aux ≤ 9) && ord == 0 && fmtOr1 fmt != fmtOr1 aux
  -- vector (Table VE-9)
  | .vadd _ _ _ _ | .vsub _ _ _ _ | .vmul _ _ _ _ | .vmin _ _ _ _ | .vmax _ _ _ _ | .vabs _ _ _ | .vneg _ _ _
  | .vcmpeq _ _ _ _ | .vcmplt _ _ _ _ | .vcmple _ _ _ _ | .vred _ _ _ _ =>
    (decide (fmt ≤ 3) || (decide (5 ≤ fmt) && decide (fmt ≤ 9))) && aux == 0 && ord == 0
  | .vfma _ _ _ _ | .vrcp _ _ _ | .vrsq _ _ _ | .vexp2 _ _ _ => decide (fmt ≤ 3) && aux == 0 && ord == 0
  | .vshl _ _ _ _ | .vshr _ _ _ _ | .vsar _ _ _ _ =>
    (fmt == 0 || (decide (5 ≤ fmt) && decide (fmt ≤ 9))) && aux == 0 && ord == 0
  | .vcvt _ _ _ => decide (fmt ≤ 9) && decide (aux ≤ 9) && ord == 0 && fmtOr1 fmt != fmtOr1 aux
  | .vdot _ _ _ _ => (decide (fmt ≤ 3) || (decide (5 ≤ fmt) && decide (fmt ≤ 7))) && aux == 0 && ord == 0
  | .vqnt _ _ _ _ => decide (2 ≤ fmt) && decide (fmt ≤ 7) && decide (aux ≤ 3) && ord == 0
  | .vbcast _ _ _ | .vext _ _ _ _ | .vins _ _ _ _ => decide (fmt ≤ 9) && aux == 0 && ord == 0
  | .pre _ _ _ _ _ _ _ _ => true
  | _ => fmt == 0 && aux == 0 && ord == 0

end Sys2Proof.Machine
end

