-- ==== Sys2Proof/Machine/Operands.lean ====
section
/-! DEFINITION. The operand forms (R22 to R26, R68): which registers an instruction reads, pops, writes and pushes, the
window check, readiness, and the checks of queue names. -/

namespace Sys2Proof.Machine

/-- The switch marker of a word (R19). -/
def smark : Instr → Bool
  | .add sm _ _ _ => sm
  | .sub sm _ _ _ => sm
  | .and sm _ _ _ => sm
  | .or sm _ _ _ => sm
  | .xor sm _ _ _ => sm
  | .andn sm _ _ _ => sm
  | .min sm _ _ _ => sm
  | .max sm _ _ _ => sm
  | .minu sm _ _ _ => sm
  | .maxu sm _ _ _ => sm
  | .mul sm _ _ _ => sm
  | .mulh sm _ _ _ => sm
  | .mulhu sm _ _ _ => sm
  | .div sm _ _ _ => sm
  | .divu sm _ _ _ => sm
  | .rem sm _ _ _ => sm
  | .remu sm _ _ _ => sm
  | .sll sm _ _ _ => sm
  | .srl sm _ _ _ => sm
  | .sra sm _ _ _ => sm
  | .rol sm _ _ _ => sm
  | .ror sm _ _ _ => sm
  | .clz sm _ _ => sm
  | .ctz sm _ _ => sm
  | .popc sm _ _ => sm
  | .bset sm _ _ _ => sm
  | .bclr sm _ _ _ => sm
  | .btgl sm _ _ _ => sm
  | .bfx sm _ _ _ => sm
  | .bfxu sm _ _ _ => sm
  | .bfi sm _ _ _ => sm
  | .cmpeq sm _ _ _ => sm
  | .cmpne sm _ _ _ => sm
  | .cmplt sm _ _ _ => sm
  | .cmpltu sm _ _ _ => sm
  | .cmple sm _ _ _ => sm
  | .cmpleu sm _ _ _ => sm
  | .addi sm _ _ _ => sm
  | .andi sm _ _ _ => sm
  | .ori sm _ _ _ => sm
  | .xori sm _ _ _ => sm
  | .slli sm _ _ _ => sm
  | .srli sm _ _ _ => sm
  | .srai sm _ _ _ => sm
  | .roli sm _ _ _ => sm
  | .rori sm _ _ _ => sm
  | .bseti sm _ _ _ => sm
  | .bclri sm _ _ _ => sm
  | .btgli sm _ _ _ => sm
  | .cmpeqi sm _ _ _ => sm
  | .cmpnei sm _ _ _ => sm
  | .cmplti sm _ _ _ => sm
  | .cmpltui sm _ _ _ => sm
  | .cmplei sm _ _ _ => sm
  | .cmpleui sm _ _ _ => sm
  | .li sm _ _ => sm
  | .lis sm _ _ => sm
  | .mov sm _ _ => sm
  | .sel sm _ _ _ => sm
  | .gadr sm _ _ _ => sm
  | .j sm _ => sm
  | .jl sm _ => sm
  | .jr sm _ => sm
  | .jlr sm _ _ => sm
  | .bbs sm _ _ _ => sm
  | .bbc sm _ _ _ => sm
  | .bz sm _ _ => sm
  | .bnz sm _ _ => sm
  | .bloop sm _ _ => sm
  | .pre sm _ _ _ _ _ _ _ => sm
  | .nop sm => sm
  | .yield sm => sm
  | .ldb sm _ _ _ _ => sm
  | .ldh sm _ _ _ _ => sm
  | .ldw sm _ _ _ _ => sm
  | .ldd sm _ _ _ _ => sm
  | .ldbu sm _ _ _ _ => sm
  | .ldhu sm _ _ _ _ => sm
  | .ldwu sm _ _ _ _ => sm
  | .stb sm _ _ _ _ => sm
  | .sth sm _ _ _ _ => sm
  | .stw sm _ _ _ _ => sm
  | .std sm _ _ _ _ => sm
  | .ldv sm _ _ _ _ => sm
  | .stv sm _ _ _ _ => sm
  | .gld sm _ _ _ _ _ _ _ => sm
  | .gst sm _ _ _ _ _ _ => sm
  | .gldv sm _ _ _ _ _ _ => sm
  | .gstv sm _ _ _ _ _ => sm
  | .sbind sm _ _ => sm
  | .scnt sm _ _ => sm
  | .ginv sm _ => sm
  | .gprf sm _ _ => sm
  | .lclean sm _ => sm
  | .lflush sm _ => sm
  | .amoadd sm _ _ _ => sm
  | .amoand sm _ _ _ => sm
  | .amoor sm _ _ _ => sm
  | .amoxor sm _ _ _ => sm
  | .amomin sm _ _ _ => sm
  | .amomax sm _ _ _ => sm
  | .amominu sm _ _ _ => sm
  | .amomaxu sm _ _ _ => sm
  | .amoswp sm _ _ _ => sm
  | .acas sm _ _ _ => sm
  | .redadd sm _ _ => sm
  | .redand sm _ _ => sm
  | .redor sm _ _ => sm
  | .redxor sm _ _ => sm
  | .redmin sm _ _ => sm
  | .redmax sm _ _ => sm
  | .redminu sm _ _ => sm
  | .redmaxu sm _ _ => sm
  | .ldfe sm _ _ _ => sm
  | .ldff sm _ _ _ => sm
  | .stfe sm _ _ _ => sm
  | .stff sm _ _ _ => sm
  | .feq sm _ _ => sm
  | .feset sm _ _ => sm
  | .bari sm _ _ => sm
  | .bara sm _ _ => sm
  | .barw sm _ _ _ => sm
  | .waitw sm _ _ _ _ => sm
  | .fence sm _ _ => sm
  | .fadd sm _ _ _ => sm
  | .fsub sm _ _ _ => sm
  | .fmul sm _ _ _ => sm
  | .fmin sm _ _ _ => sm
  | .fmax sm _ _ _ => sm
  | .fabs sm _ _ => sm
  | .fneg sm _ _ => sm
  | .fcmpeq sm _ _ _ => sm
  | .fcmplt sm _ _ _ => sm
  | .fcmple sm _ _ _ => sm
  | .fcls sm _ _ => sm
  | .ffma sm _ _ _ => sm
  | .fcvt sm _ _ => sm
  | .vadd sm _ _ _ => sm
  | .vsub sm _ _ _ => sm
  | .vmul sm _ _ _ => sm
  | .vfma sm _ _ _ => sm
  | .vmin sm _ _ _ => sm
  | .vmax sm _ _ _ => sm
  | .vabs sm _ _ => sm
  | .vneg sm _ _ => sm
  | .vrcp sm _ _ => sm
  | .vrsq sm _ _ => sm
  | .vexp2 sm _ _ => sm
  | .vand sm _ _ _ => sm
  | .vor sm _ _ _ => sm
  | .vxor sm _ _ _ => sm
  | .vshl sm _ _ _ => sm
  | .vshr sm _ _ _ => sm
  | .vsar sm _ _ _ => sm
  | .vcmpeq sm _ _ _ => sm
  | .vcmplt sm _ _ _ => sm
  | .vcmple sm _ _ _ => sm
  | .vsel sm _ _ _ => sm
  | .vcvt sm _ _ => sm
  | .vred sm _ _ _ => sm
  | .vdot sm _ _ _ => sm
  | .vqnt sm _ _ _ => sm
  | .vshuf sm _ _ _ => sm
  | .vbcast sm _ _ => sm
  | .vext sm _ _ _ => sm
  | .vins sm _ _ _ => sm
  | .vmov sm _ _ => sm
  | .mpush sm _ _ _ => sm
  | .mpop sm _ _ => sm
  | .mfence sm _ => sm
  | .mring sm _ _ => sm
  | .mradv sm _ _ => sm
  | .mrstat sm _ _ => sm
  | .put sm _ _ _ => sm
  | .take sm _ _ _ => sm
  | .pbind sm _ _ => sm
  | .pfree sm _ => sm
  | .hload sm _ _ _ => sm
  | .hstop sm _ _ => sm
  | .hstat sm _ _ => sm
  | .qcfg sm _ _ _ => sm
  | .qstat sm _ _ => sm
  | .taga sm _ _ _ => sm
  | .tagf sm _ _ => sm
  | .send sm _ _ => sm
  | .sendi sm _ _ _ => sm
  | .waitm sm _ _ _ => sm
  | .recv sm _ _ _ => sm
  | .mpcfg sm _ _ => sm
  | .jpset sm _ _ => sm
  | .jpclr sm _ => sm
  | .jpstat sm _ _ => sm
  | .spawn sm _ _ _ => sm
  | .quit sm => sm
  | .exit sm _ => sm
  | .migrate sm _ => sm
  | .launch sm _ _ => sm
  | .garr sm _ _ => sm
  | .gwait sm _ _ _ => sm
  | .slots sm _ _ => sm
  | .cpy sm _ _ => sm
  | .cpys sm _ _ _ => sm
  | .cpyx sm _ _ _ => sm
  | .bmv sm _ _ _ => sm
  | .bfence sm _ => sm
  | .bstat sm _ _ => sm
  | .csrr sm _ _ => sm
  | .csrw sm _ _ _ => sm
  | .csrs sm _ _ _ => sm
  | .csrc sm _ _ _ => sm
  | .trap sm _ => sm
  | .eret sm _ => sm
  | .brk sm => sm
  | .wfe sm _ _ _ => sm
  | .tlbi sm _ _ => sm
  | .ctxsv sm _ _ _ => sm
  | .ctxld sm _ _ _ => sm
  | .sliceRetire _ => false
  | .powerGate _ => false
  | .evtdoor _ => false
  | .rcfgEnable _ _ => false
  | .tail _ _ => false
  | .bar0RegisterWrite _ _ => false
  | .identify _ => false
  | .load _ => false
  | .patch _ => false
  | .hostLaunch _ => false
  | .preemptPipeline _ => false
  | .preemptGeneral _ => false
  | .resumePipeline _ => false
  | .resumeGeneral _ => false
  | .abort _ => false
  | .map _ => false
  | .lifecycle _ => false
  | .fwstage _ => false
  | .logread _ => false
  | .unknownHostCommand _ => false
  | .linkDown _ => false
  | .wordNotAnInstruction _ _ => false
  | .stewardAccess _ => false
  | .correctedError _ => false
  | .dividerWrite => false
  | .bindingRequestIssue => false
  | .streamElementLand => false
  | .storeBufferLeave => false
  | .ownerStore => false
  | .storeAcknowledge => false
  | .sliceAccept => false
  | .sliceLookup => false
  | .dramFill => false
  | .mapInstall => false
  | .pageWalkDone => false
  | .iCacheFill => false
  | .slotZeroingDone => false
  | .atomicAtOwner => false
  | .amoReply => false
  | .feRequestAtOwner => false
  | .feResend => false
  | .feAnswer => false
  | .barrierArrival => false
  | .ownerWaitTimeout => false
  | .withdrawalSettle => false
  | .fenceComplete => false
  | .fenceTimeout => false
  | .fenceHostReadDone => false
  | .normaliserWrite => false
  | .vectorGrant => false
  | .vectorReturn => false
  | .matrixGrant => false
  | .matrixOpStart => false
  | .matrixOpComplete => false
  | .mpopRecordLand => false
  | .matrixQueueTimeout => false
  | .mpopTimeout => false
  | .offerSend => false
  | .hitchFlitArrival => false
  | .connectorDecision => false
  | .portCompletion => false
  | .portOpTimeout => false
  | .withdrawn => false
  | .bindingAnswer => false
  | .stop => false
  | .neighbourValueArrival => false
  | .neighbourReturn => false
  | .auditSend => false
  | .auditReceipt => false
  | .counterResync => false
  | .resyncAnswer => false
  | .messageDepart => false
  | .messageArrival => false
  | .spillRefill => false
  | .queueWaitTimeout => false
  | .joinDecision => false
  | .ungate => false
  | .threadEnd => false
  | .spawnPlacement => false
  | .spawnTimeout => false
  | .departure => false
  | .migrationArrival => false
  | .migrationAck => false
  | .migrationRelease => false
  | .lost => false
  | .paddockMove => false
  | .admission => false
  | .launchTake => false
  | .taskPlacement => false
  | .successor => false
  | .launchEnd => false
  | .copyGrant => false
  | .domainAnswer => false
  | .reduceUpdate => false
  | .copyComplete => false
  | .enginePushTimeout => false
  | .bankCommandStart => false
  | .bankComplete => false
  | .bfenceTimeout => false
  | .wfeWake => false
  | .wfeTimeout => false
  | .reset => false
  | .barrierWordRequest => false
  | .barrierAnswer => false
  | .hitchAnswer => false
  | .connectorUnbinding => false
  | .migrationDiscard => false
  | .preemptTimeout => false

/-- The highest window register a field names, if it names any: a pair, four registers, or a group of eight (R23). -/
def fieldTop (f : Role × Reg) : Option Nat :=
  match f.2 with
  | .g i => some (i.val + match f.1 with
    | .pairS | .pairW => 1
    | .quad => 3
    | .group | .groupW => 7
    | _ => 0)
  | _ => none

/-- No field names a window register at or above W (R23). -/
def inWindow (i : Instr) (w : Nat) : Bool :=
  i.fields.all fun f => match fieldTop f with
    | some t => decide (t < w)
    | none => true

/-- A role whose field may push. -/
def rolePushes : Role → Bool
  | .dst | .upd => true
  | _ => false
/-- A register name that is popped when it is read. -/
def isQueueName : Reg → Bool
  | .st _ | .nb _ | .q _ => true
  | _ => false

/-- The names an instruction pops, in the order of R24: ra before rb. That a data rd is popped after them is the model's
choice (DESIGN CHOICE, log 64). -/
def popList (i : Instr) : List Reg :=
  let src := i.fields.filter fun f => f.1 == .src && isQueueName f.2
  let data := i.fields.filter fun f => f.1 == .data && isQueueName f.2
  (src ++ data).map (·.2)
/-- The names an instruction pushes. -/
def pushList (i : Instr) : List Reg :=
  (i.fields.filter fun f => rolePushes f.1 && (match f.2 with | .nb _ | .q _ => true | _ => false)).map (·.2)

/-- The landed elements at the head of a stream queue. -/
def Stream.ready (x : Stream) : List Elem := x.entries.takeWhile (·.landed)

/-- The elements of a name that an instruction issued now can pop. -/
def State.avail (s : State) (tk : Nat) (r : Reg) : Nat :=
  match r with
  | .st k => (Stream.ready (s.stream tk k.val)).length
  | .nb d => ((s.nbrQueue (nbrKey tk d)).filter fun e => decide (e.since < s.cycle)).length
  | .q i => ((s.core (coreOf tk)).role i.val).written s.cycle
  | _ => 0
/-- The n-th element from a name's head: value and tag. -/
def State.peek (s : State) (tk : Nat) (r : Reg) (n : Nat) : Word × Nat :=
  match r with
  | .st k => (((s.stream tk k.val).entries.getD n { serial := 0 }).value, 0)
  | .nb d => let e := (s.nbrQueue (nbrKey tk d)).getD n { v := 0 }; (e.v, e.tag)
  | .q i => let e := ((s.core (coreOf tk)).role i.val).entries.getD n { v := 0 }; (e.v, e.tag)
  | _ => (0, 0)
/-- One pop of a name. -/
def State.popReg (s : State) (tk : Nat) (r : Reg) : State :=
  match r with
  | .st k => let x := s.stream tk k.val; s.setStream tk k.val { x with entries := x.entries.tail }
  | .nb d => s.nbrPop tk d
  | .q i => s.rolePop (coreOf tk) i.val
  | _ => s
/-- The pops of an instruction. -/
def State.popAll (s : State) (tk : Nat) (rs : List Reg) : State := rs.foldl (fun s r => s.popReg tk r) s

/-- Every popping source has an element (R24). -/
def State.popsReady (s : State) (tk : Nat) (i : Instr) : Bool :=
  let l := (popList i)
  l.all fun r => decide (l.count r ≤ s.avail tk r)
/-- Every pushing destination has room (R24, R242, R244); a place that this instruction pops frees in the same cycle
(R239). -/
def State.roomReady (s : State) (tk : Nat) (i : Instr) : Bool :=
  (pushList i).all fun r => match r with
    | .nb d => decide (0 < s.nbrRoom (nbrKey tk d)) && !(SMap.getD s.nbrSync (nbrKey tk d) false)
    | .q q => decide (((s.core (coreOf tk)).role q.val).taken < 8 + (popList i).count (.q q))
    | _ => true

/-- The fault cause of a queue name (R241, R244); 0 for none. -/
def State.queueCause (s : State) (tk : Nat) (r : Reg) (push : Bool) : Nat :=
  match r with
  | .nb d => s.nbrCause tk d
  | .q i => s.roleCause tk i.val push
  | _ => 0
/-- The first queue name that faults: cause and field value (R245), the popped names before the pushed one (DESIGN CHOICE,
log 101). -/
def State.queueFault (s : State) (tk : Nat) (i : Instr) : Option (Nat × Nat) :=
  let l := (popList i).map (fun r => (s.queueCause tk r false, r.toNat)) ++
    (pushList i).map (fun r => (s.queueCause tk r true, r.toNat))
  l.find? fun e => e.1 != 0

/-- The places, from the head of a name, of the tokens of a given tag among the elements that an instruction pops from it:
an instruction that names a queue twice pops two of its elements (R24, R246, R293). (DEDUCED, log 79.) -/
def State.tokensOf (s : State) (tk : Nat) (i : Instr) (tag : Nat) (r : Reg) : List Nat :=
  (List.range (min ((popList i).count r) (s.avail tk r))).filter fun n => (s.peek tk r n).2 == tag
/-- The first popping source, in the order of the pops, whose element is a token of the given tag: the one that a stop report
names (R246, R293; DESIGN CHOICE, log 101). -/
def State.headToken (s : State) (tk : Nat) (i : Instr) (tag : Nat) : Option Reg :=
  (popList i).find? fun r => !(s.tokensOf tk i tag r).isEmpty
/-- An element of a list put before the others. -/
def toFront {α : Type} (l : List α) (n : Nat) : List α := (l.drop n).take 1 ++ l.eraseIdx n
/-- The n-th entry of a neighbour or role queue popped. -/
def State.popAt (s : State) (tk : Nat) (r : Reg) (n : Nat) : State :=
  match r with
  | .nb d => { s with nbr := SMap.putD s.nbr (nbrKey tk d) (toFront (s.nbrQueue (nbrKey tk d)) n) [] }.popReg tk r
  | .q i => (s.modRole (coreOf tk) i.val fun q => { q with entries := toFront q.entries n }).popReg tk r
  | _ => s
/-- The tokens among the elements that an instruction pops are popped, and nothing else. -/
def State.popTokens (s : State) (tk : Nat) (i : Instr) (tag : Nat) : State :=
  (popList i).eraseDups.foldl (fun s r =>
    (s.tokensOf tk i tag r).reverse.foldl (fun s n => s.popAt tk r n) s) s

/-- The elements an instruction pops, by source in pop order. -/
def State.popMarker (s : State) (tk : Nat) (i : Instr) : Option (Nat × Word) :=
  let l := (popList i)
  (List.range l.length).findSome? fun n => match l.getD n (.g 0) with
    | .st k =>
      let e := (s.stream tk k.val).entries.getD ((l.take n).count (.st k)) { serial := 0 }
      if e.cause = 0 then none else some (e.cause, e.value)
    | _ => none

/-- The value of each register field of an instruction, in the order of `Instr.fields`: a source is read, or popped in
the order of R24; a field that is read and written gives its old value, zero for a queue name (R68); a pair, group or
command gives its first register. -/
def State.operand (s : State) (tk : Nat) (i : Instr) (n : Nat) : Word :=
  let fs := i.fields
  match fs.getD n (.dst, .g 0) with
  | (role, .g k) => if role == .dst || role == .dstGS then 0 else s.readG tk k.val
  | (role, .s k) => if role == .dst || role == .dstGS then 0 else s.readS (coreOf tk) k.val
  | (.src, r) =>
    let before := ((fs.take n).filter fun f => f.1 == .src && f.2 == r).length
    (s.peek tk r before).1
  | (.data, r) =>
    let before := (fs.filter fun f => f.1 == .src && f.2 == r).length
    (s.peek tk r before).1
  | _ => 0

/-- The registers of a group, lowest first. -/
def State.readGroup (s : State) (tk : Nat) (r : Reg) : List Word :=
  (List.range 8).map fun k => s.readG tk (Reg.gnum r + k)
/-- A group written. -/
def State.writeGroup (s : State) (tk : Nat) (r : Reg) (vs : List Word) : State :=
  (List.range 8).foldl (fun s k => s.writeG tk (Reg.gnum r + k) (vs.getD k 0)) s
/-- The four registers of an engine command (R40). -/
def State.readQuad (s : State) (tk : Nat) (r : Reg) : List Word :=
  (List.range 4).map fun k => s.readG tk (Reg.gnum r + k)

end Sys2Proof.Machine
end

