-- ==== Sys2Proof/Machine/Issue.lean ====
section
/-! DEFINITION. The issue of a word (R24, R29, R30, R88, R241, R246, R293): every instruction with an encoding runs
through `issue`, which makes the checks in the manual's order and applies the instruction's own effect. -/

namespace Sys2Proof.Machine

/-- What an issuing instruction sees: its thread, its address, the values of its register fields in the order of
`Instr.fields`, and the pending prefix's fmt, aux and ord. -/
structure Issue where
  tk : Nat
  pc : BitVec 48
  vals : List Word
  fmt : Nat
  aux : Nat
  ord : Nat
  pre : BitVec 32
  carry : Option Carry := none
deriving DecidableEq, Repr

/-- The value of the n-th register field. -/
def Issue.val (x : Issue) (n : Nat) : Word := x.vals.getD n 0
/-- The retention hint of the prefix (Table FM-4). -/
def Issue.ret (x : Issue) : Nat := x.aux / 4
/-- The issuing core. -/
def Issue.core (x : Issue) : Nat := coreOf x.tk
/-- The issuing slot. -/
def Issue.slot (x : Issue) : Nat := slotOf x.tk
/-- The issuing node. -/
def Issue.node (x : Issue) : Nat := nodeOf (coreOf x.tk)

/-- What an instruction's own checks answer, on the values it reads: it goes on, parks for room, or traps before any
pop (R24). -/
inductive Check where
  | go
  | park
  | trap (kind cause : Nat) (w1 : Word)
deriving DecidableEq, Repr

/-- Word 1 of a kind 1 or 2 report: the pending prefix and the word (Table FM-16). -/
def wordReport (p : BitVec 32) (w : BitVec 32) : Word := (p.zeroExtend 64 <<< 32) ||| w.zeroExtend 64

/-- The slot has issued: the turn pointer of its post moves to it (R60). (DEDUCED, log 9.) -/
def State.takeTurn (s : State) (tk : Nat) : State :=
  { s.modCore (coreOf tk) (fun c => { c with turn := c.turn.set (slotOf tk / 8) (slotOf tk) }) with cur := none }

/-- The pc steps to the next word and the prefix is consumed (R80, R87). -/
def State.advance (s : State) (tk : Nat) : State :=
  s.modThread tk fun th => { th with pc := th.pc + 4, status := clearPrefix th.status, run := .ready, carry := none }

/-- The switch marker of a word that has issued (R88). -/
def State.settleSwitch (s : State) (i : Instr) (tk : Nat) : State :=
  if smark i = true ∧ (s.thread tk).run = .ready ∧ 0 < s.outstanding tk then
    s.modThread tk fun th => { th with run := .switch }
  else s

/-- An instruction with its own effect: its pops, the step past it, its effect, and its switch marker. -/
def commit (i : Instr) (x : Issue) (eff : Issue → State → State) (s : State) : State :=
  (eff x ((s.popAll x.tk (popList i)).advance x.tk)).settleSwitch i x.tk

/-- A word whose guard is false: no effect but the prefix, the pc and the switch marker (R29). -/
def skip (i : Instr) (tk : Nat) (s : State) : State := (s.advance tk).settleSwitch i tk

/-- The guard of the pending prefix holds, or there is none (R29, Table FM-4). -/
def State.guardOk (s : State) (tk : Nat) (p : BitVec 32) : Bool :=
  !preG p || (match preReg p with
    | .g k => bitAt (s.readG tk k.val) (preBit p)
    | .s k => bitAt (s.readS (coreOf tk) k.val) (preBit p)
    | _ => false) == !preSense p

/-- The thread's launch runs in compatibility mode (R294). -/
def State.compat (s : State) (tk : Nat) : Bool :=
  match s.launchOfThread tk with
  | some l => l.compat
  | none => false

/-- A thread parks in the operand state at its instruction (R24, R93); its post may issue a sibling.
(DEDUCED, log 9.) -/
def State.parkOperand (s : State) (tk : Nat) (i : Instr) : State :=
  { s.modThread tk (fun th => { th with run := .operand i }) with
    tried := tk :: s.tried, issueQ := coreOf tk :: s.issueQ, cur := none }

/-- The popping sources give up their tokens, and the thread pushes tokens of this tag to its forward-mask targets
before it halts (tag 2, R246) or ends (tag 1, R293). `field` is the register the token was popped from.
(DEDUCED, log 25.) -/
def State.startTokens (s : State) (tk tag : Nat) (i : Instr) (field : Nat) : State :=
  let s := s.popTokens tk i tag
  let (id, s) := s.fresh
  let s := s.modThread tk fun th =>
    { th with tokens := some (tag, 0, 0, field), run := .wait { id := id, instr := .stop } }
  s.takeTurn tk

/-- What the checks of an issuing word answer (R30). -/
inductive Verdict where
  /-- reason 6 at the prefixed instruction, whose prefix is consumed (R29) -/
  | badPrefix
  /-- a trap with the prefix left pending -/
  | trap (kind cause : Nat) (w1 : Word)
  /-- guarded off -/
  | off
  /-- a token at the head of a source: its tag and the register field -/
  | token (tag field : Nat)
  /-- parks in the operand state -/
  | park
  /-- has its effect -/
  | run
deriving DecidableEq, Repr

/-- The context of an issuing instruction. -/
def State.issueOf (s : State) (tk : Nat) (th : Thread) (i : Instr) : Issue :=
  let p := (pending th.status).getD 0
  { tk := tk, pc := th.pc, vals := (List.range i.fields.length).map fun n => s.operand tk i n
    fmt := preFmt p, aux := preAux p, ord := preOrd p, pre := p, carry := th.carry }

/-- The checks of an issuing word, in order: the prefix fields, the window, the guard, the queue names, stop and
end-of-stream tokens, readiness, fault markers, and the instruction's own checks. -/
def verdict (i : Instr) (chk : Issue → State → Check) (th : Thread) (x : Issue) (s : State) : Verdict :=
  if !accepts i x.fmt x.aux x.ord then .badPrefix
  else if !inWindow i th.w then .trap 2 0 (wordReport x.pre (encode i))
  else if !s.guardOk x.tk x.pre then .off
  else match s.queueFault x.tk i with
  | some (c, f) => .trap 5 c (word f)
  | none =>
    match s.headToken x.tk i 2 with
    | some r => .token 2 r.toNat
    | none =>
      match (if s.compat x.tk then s.headToken x.tk i 1 else none) with
      | some r => .token 1 r.toNat
      | none =>
        if !(s.popsReady x.tk i && s.roomReady x.tk i) then .park
        else match s.popMarker x.tk i with
        | some (c, a) => .trap 3 c a
        | none =>
          match chk x s with
          | .go => .run
          | .park => .park
          | .trap k c w => .trap k c w

/-- A verdict carried out. -/
def carryOut (i : Instr) (eff : Issue → State → State) (x : Issue) (s : State) : Verdict → State
  | .badPrefix =>
    (((s.trap x.tk 1 6 (wordReport x.pre (encode i))).modThread x.tk fun th =>
      { th with status := clearPrefix th.status }).takeTurn x.tk)
  | .trap k c w => (s.trap x.tk k c w).takeTurn x.tk
  | .off => (skip i x.tk s).takeTurn x.tk
  | .token t f => s.startTokens x.tk t i f
  | .park => s.parkOperand x.tk i
  | .run => (commit i x eff s).takeTurn x.tk

/-- The issue of a word by the thread that is about to issue: its checks, then its effect. (DEDUCED, log 9.) -/
def issue (i : Instr) (chk : Issue → State → Check) (eff : Issue → State → State) (s : State) :
    Host.Outcome State Fault Refusal :=
  match s.cur with
  | none => .fault .noIssuingThread
  | some tk =>
    match s.thread? tk with
    | none => .fault .noIssuingThread
    | some th =>
      let x := s.issueOf tk th i
      .next (carryOut i eff x s (verdict i chk th x s))

/-- An instruction with no check of its own. -/
def noCheck (_ : Issue) (_ : State) : Check := .go

/-- An instruction that writes one result computed from the values it reads, in the pipeline (R62, R67). -/
def issueAlu (i : Instr) (rd : Reg) (f : Issue → Word) (s : State) : Host.Outcome State Fault Refusal :=
  issue i noCheck (fun x s => s.writeReg x.tk rd (f x)) s

/-- An instruction that parks its thread in the wait state at its own address (Table CF-5), with the values it read; one
that is reissued keeps what is left of its bound. (DEDUCED, log 11.) -/
def State.beginWait (s : State) (i : Instr) (x : Issue) (deadline : Option Nat) (stage : Nat) : State :=
  let (id, s) := s.fresh
  s.modThread x.tk fun th =>
    { th with
      pc := x.pc
      run := .wait
        { id := id, instr := i, vals := x.vals, stage := stage, stamp := id, pre := x.pre
          deadline := match x.carry with
            | some c => c.left.map fun n => s.cycle + n
            | none => deadline } }

/-- An instruction that raises the privilege trap below supervisor level (R314). -/
def supervisorOnly (i : Instr) (x : Issue) : Check :=
  if x.slot = 0 then .go else .trap 9 1 ((encode i).zeroExtend 64)

end Sys2Proof.Machine
end

