-- ==== Sys2Proof/Machine/Integer.lean ====
section
/-! DEFINITION. Integer and address instructions, opcodes 0x01 to 0x0D (R59 to R79). -/

namespace Sys2Proof.Machine

/-! ### Values -/

/-- The smaller as signed. -/
def minS (a b : Word) : Word := if BitVec.sle a b then a else b
/-- The larger as signed. -/
def maxS (a b : Word) : Word := if BitVec.sle a b then b else a
/-- The smaller as unsigned. -/
def minU (a b : Word) : Word := if BitVec.ule a b then a else b
/-- The larger as unsigned. -/
def maxU (a b : Word) : Word := if BitVec.ule a b then b else a
/-- The high half of the signed product (R70). -/
def mulHigh (a b : Word) : Word := u64 (a.toInt * b.toInt / (2 ^ 64 : Nat))
/-- The high half of the unsigned product. -/
def mulHighU (a b : Word) : Word := word (a.toNat * b.toNat / 2 ^ 64)
/-- The signed quotient toward zero; all ones for a zero divisor (R70). -/
def quotS (a b : Word) : Word := if b = 0 then -1 else u64 (Int.tdiv a.toInt b.toInt)
/-- The signed remainder; the dividend for a zero divisor. -/
def remS (a b : Word) : Word := if b = 0 then a else u64 (Int.tmod a.toInt b.toInt)
/-- The unsigned quotient. -/
def quotU (a b : Word) : Word := if b = 0 then -1 else word (a.toNat / b.toNat)
/-- The unsigned remainder. -/
def remU (a b : Word) : Word := if b = 0 then a else word (a.toNat % b.toNat)
/-- The shift amount of R71. -/
def amount (b : Word) : Nat := b.toNat % 64
/-- A with bit n set. -/
def setBit (a : Word) (n : Nat) : Word := a ||| ((1 : Word) <<< n)
/-- A with bit n cleared. -/
def clearBit (a : Word) (n : Nat) : Word := a &&& ~~~((1 : Word) <<< n)
/-- A with bit n inverted. -/
def toggleBit (a : Word) (n : Nat) : Word := a ^^^ ((1 : Word) <<< n)
/-- The position and the cut width of a bit field (R72): a field that runs past bit 63 is cut there. -/
def fieldOf (b : Word) : Nat × Nat :=
  let pos := fld b 0 6
  (pos, min (fld b 8 6) (64 - pos))
/-- BFX: the field, sign-extended. -/
def extractS (a b : Word) : Word :=
  let (pos, w) := fieldOf b
  u64 (signedOf w (fld a pos w))
/-- BFXU: the field, zero-extended. -/
def extractU (a b : Word) : Word :=
  let (pos, w) := fieldOf b
  word (fld a pos w)
/-- BFI: the low bits of A placed into the old value. -/
def insertField (old a b : Word) : Word :=
  let (pos, w) := fieldOf b
  word (old.toNat - at' pos (fld old pos w) + at' pos (fld a 0 w))
/-- SignExtend(imm11). -/
def imm11 (i : BitVec 11) : Word := i.signExtend 64
/-- SignExtend of an 8-bit value (R76). -/
def imm8s (v : BitVec 8) : Word := v.signExtend 64
/-- ZeroExtend of an 8-bit value. -/
def imm8u (v : BitVec 8) : Word := v.zeroExtend 64
/-- A window address's coordinates and offset out of GADR's range (R78). -/
def gadrBad (a b : Word) : Bool :=
  let die := fld a 0 3
  let node := fld a 8 6
  fld a 14 50 != 0 || fld a 3 5 != 0 || fld b 21 43 != 0 ||
    (decide (4 ≤ die) && (decide (47 < node) || fld b 19 2 != 0))
/-- The window address that GADR composes (Table IN-6). -/
def gadrAddress (a b : Word) : Word :=
  word (at' 56 0xE1 + at' 53 (fld a 0 3) + at' 47 (fld a 8 6) + fld b 0 21)

/-! ### Divides (R63) -/

/-- The thread forfeits issue turns from now on (R63, R92, R165). -/
def State.forfeitTurns (s : State) (tk n : Nat) : State :=
  s.modThread tk fun th => { th with forfeit := th.forfeit + n }
/-- A divide: the result is written 56 cycles after issue, and seven turns are forfeited. -/
def issueDivide (i : Instr) (rd : Reg) (f : Issue → Word) (s : State) : Host.Outcome State Fault Refusal :=
  issue i noCheck (fun x s =>
    ((s.reserveReg x.tk rd).forfeitTurns x.tk 7).addTimer (s.cycle + 56) .dividerWrite
      { n := x.tk, m := (s.thread x.tk).born, v := f x, r := rd }) s
/-- A late result of the thread that the subject names, if it is still in its slot. -/
def State.lateResult (s : State) : State :=
  match s.thread? s.subj.n with
  | none => s
  | some th => if th.born = s.subj.m then s.writeLate s.subj.n s.subj.r s.subj.v else s
/-- The divider writes its result (R63). -/
def execDividerWrite (s : State) : Host.Outcome State Fault Refusal := .next s.lateResult

/-! ### Op 0x01 (R69) -/

/-- ADD (R69). -/
def execAdd (sm : Bool) (rd : Reg) (ra : Reg) (rb : Reg) (s : State) : Host.Outcome State Fault Refusal :=
  issueAlu (.add sm rd ra rb) rd (fun x => x.val 1 + x.val 2) s
/-- SUB (R69). -/
def execSub (sm : Bool) (rd : Reg) (ra : Reg) (rb : Reg) (s : State) : Host.Outcome State Fault Refusal :=
  issueAlu (.sub sm rd ra rb) rd (fun x => x.val 1 - x.val 2) s
/-- AND (R69). -/
def execAnd (sm : Bool) (rd : Reg) (ra : Reg) (rb : Reg) (s : State) : Host.Outcome State Fault Refusal :=
  issueAlu (.and sm rd ra rb) rd (fun x => x.val 1 &&& x.val 2) s
/-- OR (R69). -/
def execOr (sm : Bool) (rd : Reg) (ra : Reg) (rb : Reg) (s : State) : Host.Outcome State Fault Refusal :=
  issueAlu (.or sm rd ra rb) rd (fun x => x.val 1 ||| x.val 2) s
/-- XOR (R69). -/
def execXor (sm : Bool) (rd : Reg) (ra : Reg) (rb : Reg) (s : State) : Host.Outcome State Fault Refusal :=
  issueAlu (.xor sm rd ra rb) rd (fun x => x.val 1 ^^^ x.val 2) s
/-- ANDN (R69). -/
def execAndn (sm : Bool) (rd : Reg) (ra : Reg) (rb : Reg) (s : State) : Host.Outcome State Fault Refusal :=
  issueAlu (.andn sm rd ra rb) rd (fun x => x.val 1 &&& ~~~(x.val 2)) s
/-- MIN (R69). -/
def execMin (sm : Bool) (rd : Reg) (ra : Reg) (rb : Reg) (s : State) : Host.Outcome State Fault Refusal :=
  issueAlu (.min sm rd ra rb) rd (fun x => minS (x.val 1) (x.val 2)) s
/-- MAX (R69). -/
def execMax (sm : Bool) (rd : Reg) (ra : Reg) (rb : Reg) (s : State) : Host.Outcome State Fault Refusal :=
  issueAlu (.max sm rd ra rb) rd (fun x => maxS (x.val 1) (x.val 2)) s
/-- MINU (R69). -/
def execMinu (sm : Bool) (rd : Reg) (ra : Reg) (rb : Reg) (s : State) : Host.Outcome State Fault Refusal :=
  issueAlu (.minu sm rd ra rb) rd (fun x => minU (x.val 1) (x.val 2)) s
/-- MAXU (R69). -/
def execMaxu (sm : Bool) (rd : Reg) (ra : Reg) (rb : Reg) (s : State) : Host.Outcome State Fault Refusal :=
  issueAlu (.maxu sm rd ra rb) rd (fun x => maxU (x.val 1) (x.val 2)) s

/-! ### Op 0x02 (R70) -/

/-- MUL (R70). -/
def execMul (sm : Bool) (rd : Reg) (ra : Reg) (rb : Reg) (s : State) : Host.Outcome State Fault Refusal :=
  issueAlu (.mul sm rd ra rb) rd (fun x => x.val 1 * x.val 2) s
/-- MULH (R70). -/
def execMulh (sm : Bool) (rd : Reg) (ra : Reg) (rb : Reg) (s : State) : Host.Outcome State Fault Refusal :=
  issueAlu (.mulh sm rd ra rb) rd (fun x => mulHigh (x.val 1) (x.val 2)) s
/-- MULHU (R70). -/
def execMulhu (sm : Bool) (rd : Reg) (ra : Reg) (rb : Reg) (s : State) : Host.Outcome State Fault Refusal :=
  issueAlu (.mulhu sm rd ra rb) rd (fun x => mulHighU (x.val 1) (x.val 2)) s
/-- DIV (R63, R70). -/
def execDiv (sm : Bool) (rd : Reg) (ra : Reg) (rb : Reg) (s : State) : Host.Outcome State Fault Refusal :=
  issueDivide (.div sm rd ra rb) rd (fun x => quotS (x.val 1) (x.val 2)) s
/-- DIVU (R63, R70). -/
def execDivu (sm : Bool) (rd : Reg) (ra : Reg) (rb : Reg) (s : State) : Host.Outcome State Fault Refusal :=
  issueDivide (.divu sm rd ra rb) rd (fun x => quotU (x.val 1) (x.val 2)) s
/-- REM (R63, R70). -/
def execRem (sm : Bool) (rd : Reg) (ra : Reg) (rb : Reg) (s : State) : Host.Outcome State Fault Refusal :=
  issueDivide (.rem sm rd ra rb) rd (fun x => remS (x.val 1) (x.val 2)) s
/-- REMU (R63, R70). -/
def execRemu (sm : Bool) (rd : Reg) (ra : Reg) (rb : Reg) (s : State) : Host.Outcome State Fault Refusal :=
  issueDivide (.remu sm rd ra rb) rd (fun x => remU (x.val 1) (x.val 2)) s

/-! ### Op 0x03 (R71, R72) -/

/-- SLL (R71). -/
def execSll (sm : Bool) (rd : Reg) (ra : Reg) (rb : Reg) (s : State) : Host.Outcome State Fault Refusal :=
  issueAlu (.sll sm rd ra rb) rd (fun x => x.val 1 <<< amount (x.val 2)) s
/-- SRL (R71). -/
def execSrl (sm : Bool) (rd : Reg) (ra : Reg) (rb : Reg) (s : State) : Host.Outcome State Fault Refusal :=
  issueAlu (.srl sm rd ra rb) rd (fun x => x.val 1 >>> amount (x.val 2)) s
/-- SRA (R71). -/
def execSra (sm : Bool) (rd : Reg) (ra : Reg) (rb : Reg) (s : State) : Host.Outcome State Fault Refusal :=
  issueAlu (.sra sm rd ra rb) rd (fun x => BitVec.sshiftRight (x.val 1) (amount (x.val 2))) s
/-- ROL (R71). -/
def execRol (sm : Bool) (rd : Reg) (ra : Reg) (rb : Reg) (s : State) : Host.Outcome State Fault Refusal :=
  issueAlu (.rol sm rd ra rb) rd (fun x => BitVec.rotateLeft (x.val 1) (amount (x.val 2))) s
/-- ROR (R71). -/
def execRor (sm : Bool) (rd : Reg) (ra : Reg) (rb : Reg) (s : State) : Host.Outcome State Fault Refusal :=
  issueAlu (.ror sm rd ra rb) rd (fun x => BitVec.rotateRight (x.val 1) (amount (x.val 2))) s
/-- CLZ (R71). -/
def execClz (sm : Bool) (rd : Reg) (ra : Reg) (s : State) : Host.Outcome State Fault Refusal :=
  issueAlu (.clz sm rd ra) rd (fun x => word (clzNat 64 (x.val 1).toNat)) s
/-- CTZ (R71). -/
def execCtz (sm : Bool) (rd : Reg) (ra : Reg) (s : State) : Host.Outcome State Fault Refusal :=
  issueAlu (.ctz sm rd ra) rd (fun x => word (ctzNat 64 (x.val 1).toNat)) s
/-- POPC (R71). -/
def execPopc (sm : Bool) (rd : Reg) (ra : Reg) (s : State) : Host.Outcome State Fault Refusal :=
  issueAlu (.popc sm rd ra) rd (fun x => word (popcNat 64 (x.val 1).toNat)) s
/-- BSET (R71). -/
def execBset (sm : Bool) (rd : Reg) (ra : Reg) (rb : Reg) (s : State) : Host.Outcome State Fault Refusal :=
  issueAlu (.bset sm rd ra rb) rd (fun x => setBit (x.val 1) (amount (x.val 2))) s
/-- BCLR (R71). -/
def execBclr (sm : Bool) (rd : Reg) (ra : Reg) (rb : Reg) (s : State) : Host.Outcome State Fault Refusal :=
  issueAlu (.bclr sm rd ra rb) rd (fun x => clearBit (x.val 1) (amount (x.val 2))) s
/-- BTGL (R71). -/
def execBtgl (sm : Bool) (rd : Reg) (ra : Reg) (rb : Reg) (s : State) : Host.Outcome State Fault Refusal :=
  issueAlu (.btgl sm rd ra rb) rd (fun x => toggleBit (x.val 1) (amount (x.val 2))) s
/-- BFX (R72). -/
def execBfx (sm : Bool) (rd : Reg) (ra : Reg) (rb : Reg) (s : State) : Host.Outcome State Fault Refusal :=
  issueAlu (.bfx sm rd ra rb) rd (fun x => extractS (x.val 1) (x.val 2)) s
/-- BFXU (R72). -/
def execBfxu (sm : Bool) (rd : Reg) (ra : Reg) (rb : Reg) (s : State) : Host.Outcome State Fault Refusal :=
  issueAlu (.bfxu sm rd ra rb) rd (fun x => extractU (x.val 1) (x.val 2)) s
/-- BFI (R72). -/
def execBfi (sm : Bool) (rd : Reg) (ra : Reg) (rb : Reg) (s : State) : Host.Outcome State Fault Refusal :=
  issueAlu (.bfi sm rd ra rb) rd (fun x => insertField (x.val 0) (x.val 1) (x.val 2)) s

/-! ### Op 0x04 (R73) -/

/-- CMPEQ (R73). -/
def execCmpeq (sm : Bool) (rd : Reg) (ra : Reg) (rb : Reg) (s : State) : Host.Outcome State Fault Refusal :=
  issueAlu (.cmpeq sm rd ra rb) rd (fun x => ofRel (relEq (x.val 1) (x.val 2))) s
/-- CMPNE (R73). -/
def execCmpne (sm : Bool) (rd : Reg) (ra : Reg) (rb : Reg) (s : State) : Host.Outcome State Fault Refusal :=
  issueAlu (.cmpne sm rd ra rb) rd (fun x => ofRel (relNe (x.val 1) (x.val 2))) s
/-- CMPLT (R73). -/
def execCmplt (sm : Bool) (rd : Reg) (ra : Reg) (rb : Reg) (s : State) : Host.Outcome State Fault Refusal :=
  issueAlu (.cmplt sm rd ra rb) rd (fun x => ofRel (relLt (x.val 1) (x.val 2))) s
/-- CMPLTU (R73). -/
def execCmpltu (sm : Bool) (rd : Reg) (ra : Reg) (rb : Reg) (s : State) : Host.Outcome State Fault Refusal :=
  issueAlu (.cmpltu sm rd ra rb) rd (fun x => ofRel (relLtu (x.val 1) (x.val 2))) s
/-- CMPLE (R73). -/
def execCmple (sm : Bool) (rd : Reg) (ra : Reg) (rb : Reg) (s : State) : Host.Outcome State Fault Refusal :=
  issueAlu (.cmple sm rd ra rb) rd (fun x => ofRel (relLe (x.val 1) (x.val 2))) s
/-- CMPLEU (R73). -/
def execCmpleu (sm : Bool) (rd : Reg) (ra : Reg) (rb : Reg) (s : State) : Host.Outcome State Fault Refusal :=
  issueAlu (.cmpleu sm rd ra rb) rd (fun x => ofRel (relLeu (x.val 1) (x.val 2))) s

/-! ### Immediate forms (R74 to R77) -/

/-- ADDI (R74). -/
def execAddi (sm : Bool) (rd : Reg) (ra : Reg) (i : BitVec 11) (s : State) : Host.Outcome State Fault Refusal :=
  issueAlu (.addi sm rd ra i) rd (fun x => x.val 1 + imm11 i) s
/-- ANDI (R74). -/
def execAndi (sm : Bool) (rd : Reg) (ra : Reg) (i : BitVec 11) (s : State) : Host.Outcome State Fault Refusal :=
  issueAlu (.andi sm rd ra i) rd (fun x => x.val 1 &&& imm11 i) s
/-- ORI (R74). -/
def execOri (sm : Bool) (rd : Reg) (ra : Reg) (i : BitVec 11) (s : State) : Host.Outcome State Fault Refusal :=
  issueAlu (.ori sm rd ra i) rd (fun x => x.val 1 ||| imm11 i) s
/-- XORI (R74). -/
def execXori (sm : Bool) (rd : Reg) (ra : Reg) (i : BitVec 11) (s : State) : Host.Outcome State Fault Refusal :=
  issueAlu (.xori sm rd ra i) rd (fun x => x.val 1 ^^^ imm11 i) s
/-- SLLI (R75). -/
def execSlli (sm : Bool) (rd : Reg) (ra : Reg) (n : BitVec 6) (s : State) : Host.Outcome State Fault Refusal :=
  issueAlu (.slli sm rd ra n) rd (fun x => x.val 1 <<< n.toNat) s
/-- SRLI (R75). -/
def execSrli (sm : Bool) (rd : Reg) (ra : Reg) (n : BitVec 6) (s : State) : Host.Outcome State Fault Refusal :=
  issueAlu (.srli sm rd ra n) rd (fun x => x.val 1 >>> n.toNat) s
/-- SRAI (R75). -/
def execSrai (sm : Bool) (rd : Reg) (ra : Reg) (n : BitVec 6) (s : State) : Host.Outcome State Fault Refusal :=
  issueAlu (.srai sm rd ra n) rd (fun x => BitVec.sshiftRight (x.val 1) (n.toNat)) s
/-- ROLI (R75). -/
def execRoli (sm : Bool) (rd : Reg) (ra : Reg) (n : BitVec 6) (s : State) : Host.Outcome State Fault Refusal :=
  issueAlu (.roli sm rd ra n) rd (fun x => BitVec.rotateLeft (x.val 1) (n.toNat)) s
/-- RORI (R75). -/
def execRori (sm : Bool) (rd : Reg) (ra : Reg) (n : BitVec 6) (s : State) : Host.Outcome State Fault Refusal :=
  issueAlu (.rori sm rd ra n) rd (fun x => BitVec.rotateRight (x.val 1) (n.toNat)) s
/-- BSETI (R75). -/
def execBseti (sm : Bool) (rd : Reg) (ra : Reg) (n : BitVec 6) (s : State) : Host.Outcome State Fault Refusal :=
  issueAlu (.bseti sm rd ra n) rd (fun x => setBit (x.val 1) (n.toNat)) s
/-- BCLRI (R75). -/
def execBclri (sm : Bool) (rd : Reg) (ra : Reg) (n : BitVec 6) (s : State) : Host.Outcome State Fault Refusal :=
  issueAlu (.bclri sm rd ra n) rd (fun x => clearBit (x.val 1) (n.toNat)) s
/-- BTGLI (R75). -/
def execBtgli (sm : Bool) (rd : Reg) (ra : Reg) (n : BitVec 6) (s : State) : Host.Outcome State Fault Refusal :=
  issueAlu (.btgli sm rd ra n) rd (fun x => toggleBit (x.val 1) (n.toNat)) s
/-- CMPEQI (R76). -/
def execCmpeqi (sm : Bool) (rd : Reg) (ra : Reg) (v : BitVec 8) (s : State) : Host.Outcome State Fault Refusal :=
  issueAlu (.cmpeqi sm rd ra v) rd (fun x => ofRel (relEq (x.val 1) (imm8s v))) s
/-- CMPNEI (R76). -/
def execCmpnei (sm : Bool) (rd : Reg) (ra : Reg) (v : BitVec 8) (s : State) : Host.Outcome State Fault Refusal :=
  issueAlu (.cmpnei sm rd ra v) rd (fun x => ofRel (relNe (x.val 1) (imm8s v))) s
/-- CMPLTI (R76). -/
def execCmplti (sm : Bool) (rd : Reg) (ra : Reg) (v : BitVec 8) (s : State) : Host.Outcome State Fault Refusal :=
  issueAlu (.cmplti sm rd ra v) rd (fun x => ofRel (relLt (x.val 1) (imm8s v))) s
/-- CMPLTUI (R76). -/
def execCmpltui (sm : Bool) (rd : Reg) (ra : Reg) (v : BitVec 8) (s : State) : Host.Outcome State Fault Refusal :=
  issueAlu (.cmpltui sm rd ra v) rd (fun x => ofRel (relLtu (x.val 1) (imm8u v))) s
/-- CMPLEI (R76). -/
def execCmplei (sm : Bool) (rd : Reg) (ra : Reg) (v : BitVec 8) (s : State) : Host.Outcome State Fault Refusal :=
  issueAlu (.cmplei sm rd ra v) rd (fun x => ofRel (relLe (x.val 1) (imm8s v))) s
/-- CMPLEUI (R76). -/
def execCmpleui (sm : Bool) (rd : Reg) (ra : Reg) (v : BitVec 8) (s : State) : Host.Outcome State Fault Refusal :=
  issueAlu (.cmpleui sm rd ra v) rd (fun x => ofRel (relLeu (x.val 1) (imm8u v))) s
/-- LI (R77). -/
def execLi (sm : Bool) (rd : Reg) (i : BitVec 18) (s : State) : Host.Outcome State Fault Refusal :=
  issueAlu (.li sm rd i) rd (fun _ => i.signExtend 64) s
/-- LIS (R77). -/
def execLis (sm : Bool) (rd : Reg) (i : BitVec 18) (s : State) : Host.Outcome State Fault Refusal :=
  issueAlu (.lis sm rd i) rd (fun x => x.val 0 <<< 18 ||| i.zeroExtend 64) s

/-! ### Op 0x0D (R78) -/

/-- MOV (R78). -/
def execMov (sm : Bool) (rd : Reg) (rb : Reg) (s : State) : Host.Outcome State Fault Refusal :=
  issueAlu (.mov sm rd rb) rd (fun x => x.val 1) s
/-- SEL (R78). -/
def execSel (sm : Bool) (rd : Reg) (ra : Reg) (rb : Reg) (s : State) : Host.Outcome State Fault Refusal :=
  issueAlu (.sel sm rd ra rb) rd (fun x => if bitAt (x.val 0) 0 then x.val 1 else x.val 2) s
/-- GADR (R78): a window address, or 0 with REFUSED. -/
def execGadr (sm : Bool) (rd : Reg) (ra : Reg) (rb : Reg) (s : State) : Host.Outcome State Fault Refusal :=
  issue (.gadr sm rd ra rb) noCheck (fun x s =>
    if gadrBad (x.val 1) (x.val 2) then (s.writeReg x.tk rd 0).setStatus x.tk 4
    else (s.writeReg x.tk rd (gadrAddress (x.val 1) (x.val 2))).setStatus x.tk 0) s

end Sys2Proof.Machine
end

