-- ==== Sys2Proof/Machine/Control.lean ====
section
/-! DEFINITION. Control instructions, guards, PRE, NOP and YIELD (R80 to R93), words that are not instructions (R41),
and the stop that a stop token or firmware makes (R246). -/

namespace Sys2Proof.Machine

/-- The target of a displacement of n bits in words (R21, R80). -/
def target (pc : BitVec 48) {n : Nat} (disp : BitVec n) : BitVec 48 := pc + (disp.signExtend 48 <<< 2)
/-- A thread's pc set. -/
def State.setPc (s : State) (tk : Nat) (pc : BitVec 48) : State := s.modThread tk fun th => { th with pc := pc }
/-- The link value of an instruction (R80): its own address plus 4. -/
def Issue.link (x : Issue) : Word := (x.pc + 4).zeroExtend 64
/-- The address a register value names in a jump: bits [63:48] and [1:0] are ignored (R82). -/
def jumpTarget (a : Word) : BitVec 48 := (a.extractLsb' 2 46) ++ 0#2
/-- A branch taken or not. -/
def branchIf (c : Bool) (x : Issue) {n : Nat} (disp : BitVec n) (s : State) : State :=
  if c then s.setPc x.tk (target x.pc disp) else s

/-- J (R82). -/
def execJ (sm : Bool) (i : BitVec 25) (s : State) : Host.Outcome State Fault Refusal :=
  issue (.j sm i) noCheck (fun x s => s.setPc x.tk (target x.pc i)) s
/-- JL (R82): the link goes to g1. -/
def execJl (sm : Bool) (i : BitVec 25) (s : State) : Host.Outcome State Fault Refusal :=
  issue (.jl sm i) noCheck (fun x s => (s.writeG x.tk 1 x.link).setPc x.tk (target x.pc i)) s
/-- JR (R82). -/
def execJr (sm : Bool) (ra : Reg) (s : State) : Host.Outcome State Fault Refusal :=
  issue (.jr sm ra) noCheck (fun x s => s.setPc x.tk (jumpTarget (x.val 0))) s
/-- JLR (R82): the old value of ra is the target even when rd is ra. -/
def execJlr (sm : Bool) (rd : Reg) (ra : Reg) (s : State) : Host.Outcome State Fault Refusal :=
  issue (.jlr sm rd ra) noCheck (fun x s =>
    (s.writeReg x.tk rd x.link).setPc x.tk (jumpTarget (x.val 1))) s
/-- BBS (R83). -/
def execBbs (sm : Bool) (ra : Reg) (b : BitVec 6) (i : BitVec 12) (s : State) : Host.Outcome State Fault Refusal :=
  issue (.bbs sm ra b i) noCheck (fun x s => branchIf (bitAt (x.val 0) b.toNat) x i s) s
/-- BBC (R83). -/
def execBbc (sm : Bool) (ra : Reg) (b : BitVec 6) (i : BitVec 12) (s : State) : Host.Outcome State Fault Refusal :=
  issue (.bbc sm ra b i) noCheck (fun x s => branchIf (!bitAt (x.val 0) b.toNat) x i s) s
/-- BZ (R84). -/
def execBz (sm : Bool) (ra : Reg) (i : BitVec 12) (s : State) : Host.Outcome State Fault Refusal :=
  issue (.bz sm ra i) noCheck (fun x s => branchIf (x.val 0 == 0) x i s) s
/-- BNZ (R84). -/
def execBnz (sm : Bool) (ra : Reg) (i : BitVec 12) (s : State) : Host.Outcome State Fault Refusal :=
  issue (.bnz sm ra i) noCheck (fun x s => branchIf (x.val 0 != 0) x i s) s
/-- BLOOP (R84): a count of 0 writes nothing and does not branch. -/
def execBloop (sm : Bool) (ra : Reg) (i : BitVec 12) (s : State) : Host.Outcome State Fault Refusal :=
  issue (.bloop sm ra i) noCheck (fun x s =>
    if x.val 0 = 0 then s
    else branchIf (x.val 0 - 1 != 0) x i (s.writeReg x.tk ra (x.val 0 - 1))) s

/-- PRE (R27, R29, R85, R87): the word becomes pending; a PRE under a pending PRE raises reason 7 and the first stays
pending. -/
def execPre (sm : Bool) (g : Reg) (b : BitVec 6) (e : BitVec 1) (n : BitVec 1) (f : BitVec 4) (x : BitVec 4)
    (o : BitVec 2) (s : State) : Host.Outcome State Fault Refusal :=
  match s.cur with
  | none => .fault .noIssuingThread
  | some tk =>
    match (s.thread? tk).bind fun th => pending th.status with
    | some p => .next ((s.trap tk 1 7 (wordReport p (encode (.pre sm g b e n f x o)))).takeTurn tk)
    | none =>
      issue (.pre sm g b e n f x o) noCheck (fun y s =>
        s.modThread y.tk fun th => { th with status := pendPrefix th.status (encode (.pre sm g b e n f x o)) }) s

/-- NOP (R92). -/
def execNop (sm : Bool) (s : State) : Host.Outcome State Fault Refusal := issue (.nop sm) noCheck (fun _ s => s) s
/-- YIELD (R92): the next issue turn is forfeited. -/
def execYield (sm : Bool) (s : State) : Host.Outcome State Fault Refusal :=
  issue (.yield sm) noCheck (fun x s => s.forfeitTurns x.tk 1) s

/-- A word that is not an instruction (R41): trap kind 1 with the reason of Table FM-12, and no other effect. A pending
prefix is consumed by reason 6 and stays pending with any other (R29, R87). -/
def execWordNotAnInstruction (reason : Nat) (w : BitVec 32) (s : State) : Host.Outcome State Fault Refusal :=
  match s.cur with
  | none => .fault .noIssuingThread
  | some tk =>
    match s.thread? tk with
    | none => .fault .noIssuingThread
    | some th =>
      let t := s.trap tk 1 reason (wordReport ((pending th.status).getD 0) w)
      .next ((if reason = 6 then t.modThread tk fun th => { th with status := clearPrefix th.status } else t).takeTurn tk)

/-! ### Stop and end-of-stream tokens (R246, R293) -/

/-- The register that bit k of a forward mask names (R246). -/
def forwardReg (k : Nat) : Reg :=
  if k < 4 then .nb (match k with | 0 => .n | 1 => .e | 2 => .s | _ => .w) else .q ⟨(k - 4) % 4, by omega⟩
/-- A forward target that faults under R241 or R244 is skipped. -/
def State.forwardFaults (s : State) (tk k : Nat) : Bool :=
  if k < 4 ∧ isChannel (coreOf tk) then true else s.queueCause tk (forwardReg k) true != 0
/-- A forward target has room. -/
def State.forwardRoom (s : State) (tk k : Nat) : Bool :=
  match forwardReg k with
  | .nb d => decide (0 < s.nbrRoom (nbrKey tk d)) && !(SMap.getD s.nbrSync (nbrKey tk d) false)
  | .q i => decide (((s.core (coreOf tk)).role i.val).taken < 8)
  | _ => true
/-- A token pushed to a forward target. -/
def State.pushToken (s : State) (tk k tag : Nat) : State :=
  match forwardReg k with
  | .nb d => (s.nbrTake tk d).nbrLeave tk d 0 tag (s.cycle + 3)
  | .q i => s.rolePush (coreOf tk) i.val 0 tag (s.cycle + 3)
  | _ => s
/-- The tokens of a thread pushed as far as there is room: targets k to 7 of its forward mask. -/
def State.pushTokens (s : State) (tk tag field : Nat) : Nat → Nat → Nat → State
  | 0, k, skipped => s.modThread tk fun th => { th with tokens := some (tag, k, skipped, field) }
  | n + 1, k, skipped =>
    if !bitAt (s.thread tk).status (4 + k) then s.pushTokens tk tag field n (k + 1) skipped
    else if s.forwardFaults tk k then s.pushTokens tk tag field n (k + 1) (skipped + 2 ^ k)
    else if s.forwardRoom tk k then (s.pushToken tk k tag).pushTokens tk tag field n (k + 1) skipped
    else s.modThread tk fun th => { th with tokens := some (tag, k, skipped, field) }
/-- The next forward target of a thread that pushes tokens has room, is skipped, or there is none left. -/
def State.tokenReady (s : State) (tk : Nat) : Bool :=
  match (s.thread tk).tokens with
  | none => false
  | some (_, k, _, _) =>
    decide (8 ≤ k) || !bitAt (s.thread tk).status (4 + k) || s.forwardFaults tk k || s.forwardRoom tk k
/-- Every binding request of a thread that has not issued is cancelled (R282). -/
def State.cancelBindings (s : State) (tk : Nat) : State :=
  (List.range 8).foldl (fun s k => s.setStream tk k { s.stream tk k with bind := none }) s
/-- A thread whose tokens are all pushed: after stop tokens it halts with a kind-7 report; after end-of-stream tokens it
ends as QUIT ends (R293, R282). -/
def State.tokensDone (s : State) (tk : Nat) : State :=
  match (s.thread tk).tokens with
  | none => s
  | some (tag, k, skipped, field) =>
    if k < 8 then s
    else if tag = 2 then s.trap tk 7 0 (word (field + at' 8 skipped))
    else
      let (id, s) := s.cancelBindings tk |>.fresh
      s.modThread tk fun th =>
        { th with tokens := none, run := .wait { id := id, instr := .quit false, stamp := id } }
/-- STOP (R246), and the forwarding of end-of-stream tokens (R293): the thread that the subject names pushes its tokens
while its targets have room, then halts or ends. -/
def execStop (s : State) : Host.Outcome State Fault Refusal :=
  let tk := s.subj.n
  match (s.thread tk).tokens with
  | none => .next s
  | some (tag, k, skipped, field) => .next ((s.pushTokens tk tag field (8 - k) k skipped).tokensDone tk)

end Sys2Proof.Machine
end

