-- ==== Sys2Proof/Machine/Translate.lean ====
section
/-! DEFINITION. Addresses: their classes, window checks, page tables, TLBs and the slice hash (R101, R102, R123, R124,
R128, R129, R318, R337). A cause is one of Table ME-2. -/

namespace Sys2Proof.Machine

/-- A leaf's fields that are not of use, and combinations that are not allowed, at a level's size (R128). -/
def leafOk (l : Word) : Bool :=
  bitAt l 0 && fld l 4 2 != 3 && fld l 52 12 == 0 && !bitAt l 19 &&
    fld l 20 32 % 2 ^ (match fld l 4 2 with | 0 => 0 | 1 => 5 | _ => 14) == 0 &&
    (!bitAt l 3 || fld l 6 13 == 0) &&
    (!bitAt l 12 || (fld l 4 2 != 2 && decide (fld l 13 6 ≤ 47)))
/-- The bytes of a page by its size code. -/
def pageBytes (size : Nat) : Nat :=
  match size with | 0 => 2 ^ 16 | 1 => 2 ^ 21 | _ => 2 ^ 30
/-- A page-table entry that names a next table (R318): the table's PA. -/
def tableOf (e : Word) : Option Nat :=
  if bitAt e 0 && fld e 4 2 == 3 && fld e 1 3 == 0 && fld e 6 6 == 0 && fld e 48 16 == 0 then
    some (fld e 12 36 * 2 ^ 12)
  else none
/-- One level of the walk: the index into the table, and the size code that a leaf there must have (R318). -/
def walkLevels : List (Nat × Nat × Option Nat) := [(39, 9, none), (30, 9, some 2), (21, 9, some 1), (16, 5, some 0)]
/-- The leaf that a walk from a table finds for a virtual address; none gives cause 4. -/
def State.walk (s : State) (va : Nat) : Nat → List (Nat × Nat × Option Nat) → Option Word
  | _, [] => none
  | table, (lo, len, leafSize) :: rest =>
    let e := word (s.load (table + 8 * (va / 2 ^ lo % 2 ^ len)) 8)
    match leafSize with
    | some z =>
      if leafOk e && fld e 4 2 == z then some e
      else match tableOf e with
        | some t => s.walk va t rest
        | none => none
    | none => match tableOf e with
      | some t => s.walk va t rest
      | none => none
/-- The walk of R318 from a PTROOT. -/
def State.walkFrom (s : State) (root va : Nat) : Option Word := s.walk va root walkLevels

/-- Where a leaf maps a virtual address. All addresses of this package are taken as memory: of one below 2^40 beyond the 768 GiB
of DRAM that Table MA-3 gives, the manual states no outcome. (DESIGN CHOICE, log 85.) -/
def leafTarget (l : Word) (va : Nat) : Target :=
  let pa := fld l 20 32 * 2 ^ 16 + va % pageBytes (fld l 4 2)
  if bitAt l 3 then .host pa
  else if 2 ^ 40 ≤ pa then .peer pa (fld l 9 2)
  else if bitAt l 12 then .bank pa (4 + fld l 7 2) (fld l 13 6)
  else .line pa (if bitAt l 6 then some (4 + fld l 7 2) else none) (bitAt l 11) (fld l 9 2)
/-- A thread-level access by a leaf: cause 5 without permission (R128). -/
def leafAccess (l : Word) (va : Nat) (write : Bool) : Except Nat Target :=
  if !bitAt l 2 || (write && !bitAt l 1) then .error 5 else .ok (leafTarget l va)

/-- The class of a global address (R101). -/
inductive AddrClass where
  | virtual
  | window
  | bad
deriving DecidableEq, Repr
/-- The class of a global address (R101). -/
def addrClass (ea : Nat) : AddrClass :=
  if ea / 2 ^ 48 % 2 ^ 16 = 0 then .virtual else if ea / 2 ^ 56 % 256 = 0xE1 then .window else .bad
/-- A window address with its source checks, by the partition test of the accessor (R102, checks 1 to 3). -/
def State.windowTarget (s : State) (inPart : Nat → Nat → Bool) (ea : Nat) : Except Nat Target :=
  let die := ea / 2 ^ 53 % 8
  let num := ea / 2 ^ 47 % 64
  if ea / 2 ^ 21 % 2 ^ 26 ≠ 0 then .error 3
  else if !inPart die num then .error 6
  else if !s.nodeExists die num then .error 7
  else .ok (.window (nodeAt die num) (ea % 2 ^ 21))

/-- A TLB entry that serves a launch (R129). -/
def TlbEntry.serves (e : TlbEntry) (node : Nat) (l : Launch) (key va : Nat) : Bool :=
  e.root == l.root && (decide (node < 256) || e.launch == key) && decide (e.va ≤ va) && decide (va < e.va + e.size)
/-- The TLB entry of a node for a virtual address of a launch. -/
def State.tlbFind (s : State) (node key : Nat) (l : Launch) (va : Nat) : Option TlbEntry :=
  (s.team node).tlb.find? fun e => e.serves node l key va
/-- The page of a launch's address: that of its TLB entry, else of its table walk, else of 64 KiB. (DESIGN CHOICE, log 6.) -/
def State.pageOf (s : State) (node key va : Nat) : PageRef :=
  match s.launch? key with
  | none => { root := 0, va := va - va % 65536, size := 65536 }
  | some l =>
    match s.tlbFind node key l va with
    | some e => { root := l.root, va := e.va, size := e.size }
    | none =>
      let size := match s.walkFrom l.root va with | some leaf => pageBytes (fld leaf 4 2) | none => 65536
      { root := l.root, va := va - va % size, size := size }
/-- A page holds a virtual address of an address space. -/
def PageRef.holds (p : PageRef) (root va : Nat) : Bool := p.root == root && decide (p.va ≤ va) && decide (va < p.va + p.size)
/-- The answer of a translation: a target, a cause, or a TLB miss that needs a walk. -/
inductive Xlat where
  | ok (t : Target)
  | fault (cause : Nat)
  | miss
deriving DecidableEq, Repr
/-- An Except as an answer. -/
def Xlat.of : Except Nat Target → Xlat
  | .ok t => .ok t
  | .error c => .fault c
/-- An address of a launch translated through a node's TLB and the source checks of R101 and R102. -/
def State.translate (s : State) (node key ea : Nat) (write : Bool) : Xlat :=
  match s.launch? key with
  | none => .fault 4
  | some l =>
    match addrClass ea with
    | .bad => .fault 3
    | .window => .of (s.windowTarget l.inPartition ea)
    | .virtual =>
      match s.tlbFind node key l ea with
      | some e => .of (leafAccess e.leaf ea write)
      | none => .miss
/-- The translation of a thread's own access: a window address is outside the partition where its core holds an empty one
(R317). -/
def State.translateFor (s : State) (tk node key ea : Nat) (write : Bool) : Xlat :=
  if addrClass ea = .window ∧ s.emptyPartition tk = true then .of (s.windowTarget (fun _ _ => false) ea)
  else s.translate node key ea write
/-- The same with the walk made at once, for accesses of the dispatcher. -/
def State.translateNow (s : State) (key ea : Nat) (write : Bool) : Except Nat Target :=
  match s.launch? key with
  | none => .error 4
  | some l =>
    match addrClass ea with
    | .bad => .error 3
    | .window => s.windowTarget l.inPartition ea
    | .virtual =>
      match s.walkFrom l.root ea with
      | none => .error 4
      | some leaf => leafAccess leaf ea write
/-- The same for a thread: a window address is outside the partition where its core holds an empty one (R317). -/
def State.translateBy (s : State) (tk ea : Nat) (write : Bool) : Except Nat Target :=
  if addrClass ea = .window ∧ s.emptyPartition tk = true then s.windowTarget (fun _ _ => false) ea
  else s.translateNow (s.thread tk).launch ea write
/-- The entries of a TLB: 512 in a team, 64 on a channel core (R129). -/
def tlbSize (node : Nat) : Nat := if node < 256 then 512 else 64
/-- A leaf entered in a TLB; the oldest entry gives way when it is full. (DESIGN CHOICE, log 6.) -/
def State.tlbFill (s : State) (node key : Nat) (root va : Nat) (leaf : Word) : State :=
  let size := pageBytes (fld leaf 4 2)
  let e : TlbEntry := { root := root, launch := key, va := va - va % size, size := size, leaf := leaf }
  s.modTeam node fun t =>
    let old := t.tlb.filter fun x => !(x.root == root && x.va == e.va && (decide (node < 256) || x.launch == key))
    let old := if tlbSize node ≤ old.length then old.tail else old
    { t with tlb := old ++ [e] }

/-- The target of a line-control instruction by a leaf: permission is not asked for, and on host and bank-layout pages it
does nothing (R114). -/
def leafLine (leaf : Word) (ea : Nat) : Xlat :=
  match leafTarget leaf ea with
  | .line pa d c h => .ok (.line pa d c h)
  | .peer pa h => .ok (.peer pa h)
  | _ => .fault 4
/-- The translation of a line-control instruction's address (R101, R114, R129); a fault stands for an address on which it
does nothing. -/
def State.lineXlat (s : State) (node key ea : Nat) : Xlat :=
  match s.launch? key with
  | none => .fault 4
  | some l =>
    if addrClass ea ≠ .virtual then .fault 4
    else match s.tlbFind node key l ea with
      | some e => leafLine e.leaf ea
      | none => .miss
/-- The memory key of a target. -/
def Target.key : Target → Nat
  | .line pa _ _ _ => pa
  | .bank pa _ _ => pa
  | .host ha => hostKey ha
  | .window node off => sramKey node off
  | .peer pa _ => pa
/-- The channel die (0 to 3) and bucket of a line address (R123). -/
def bucketOf (pa : Nat) (die : Option Nat) : Nat × Nat :=
  match die with
  | none => let b := xorGroups 6 7 (pa / 64); (b / 16, b % 16)
  | some d => (d - 4, xorGroups 4 10 (pa / 64))
/-- The slice key (16 × channel die + slice) under a bucket map. -/
def sliceUnder (maps : List (List Nat)) (pa : Nat) (die : Option Nat) : Nat :=
  let (d, b) := bucketOf pa die
  16 * d + (maps.getD d []).getD b b
/-- A line's channel on its die (R123). -/
def channelOf (pa : Nat) (die : Option Nat) : Nat × Nat :=
  let (d, b) := bucketOf pa die
  (4 + d, 3 * b + pa / 64 % 3)
/-- The node number of a slice on the fabric: its die's slices stand behind the nodes. -/
def sliceNode (slice : Nat) : Nat := 449 + slice
/-- The slice of a fabric node. -/
def sliceOf (node : Nat) : Nat := node - 449
/-- The region of a target's owner: the compute die, or the compute die of its channel die; none for a host page or a
peer (R117). -/
def Target.region : Target → Option Nat
  | .line pa die _ _ => some (bucketOf pa die).1
  | .bank _ die _ => some (die - 4)
  | .window node _ => some (regionOfNode node)
  | .host _ | .peer _ _ => none
/-- The resolved retention hint (Table ME-6). -/
def Target.hint (t : Target) (h : Nat) : Nat :=
  match t with
  | .line _ _ _ r | .peer _ r => if h = 0 then r else h
  | _ => h
/-- The window offset check that the target makes (R102, check 4): cause 8, or 0. -/
def State.targetCause (s : State) (t : Target) (n : Nat) : Nat :=
  match t with
  | .window node off => if (s.team node).s < off + n then 8 else 0
  | .peer pa _ =>
    match SMap.get? s.pkg.routes (pa / 2 ^ 40) with
    | some l => if s.pkg.links.getD l 0 = 2 then 0 else 7
    | none => 7
  | _ => 0
/-- A line of n bytes has an uncorrectable data error (cause 9). (DESIGN CHOICE, log 16.) -/
def State.poisoned (s : State) (t : Target) (n : Nat) : Bool :=
  (List.range ((Target.key t % 64 + n + 63) / 64)).any fun i => s.pkg.poison.contains (Target.key t / 64 + i)
/-- n doublewords read at global addresses of a launch by an engine or the dispatcher, as thread-level loads, or the
first cause. -/
def State.readDwords (s : State) (key : Nat) : Nat → Nat → Except Nat (List Word)
  | _, 0 => .ok []
  | ea, n + 1 =>
    match s.translateNow key ea false with
    | .error c => .error c
    | .ok t =>
      if s.targetCause t 8 ≠ 0 then .error (s.targetCause t 8)
      else if s.poisoned t 8 then .error 9
      else (s.readDwords key (ea + 8) n).map fun ws => word (s.load (Target.key t) 8) :: ws

end Sys2Proof.Machine
end

