-- ==== Sys2Proof/Machine/Owner.lean ====
section
/-! DEFINITION. What an owner does with a request (R116, R119 to R122, R125, R136, R137, R140, R144 to R151): the L2's
lines, the waiters of a word, and the one place where each kind of global access is performed. -/

namespace Sys2Proof.Machine

/-! ### The L2's lines -/

/-- A slice's record. -/
def State.slice (s : State) (k : Nat) : Slice := SMap.getD s.slices k {}
/-- A slice changed. -/
def State.modSlice (s : State) (k : Nat) (f : Slice → Slice) : State :=
  { s with slices := SMap.put s.slices k (f (s.slice k)) }
/-- The sectors of an encoding (Table ME-7). -/
def encSectors (enc : Nat) : Nat :=
  match enc with | 1 => 0 | 2 => 1 | 3 => 2 | 4 => 2 | _ => 4
/-- Every word of a line is the base plus a signed delta of n bits (Table ME-7). -/
def deltasFit (width n : Nat) (ws : List Nat) : Bool :=
  ws.all fun w =>
    let d := signedOf width (w + 2 ^ width - ws.headD 0 % 2 ^ width)
    decide (-((2 ^ (n - 1) : Nat) : Int) ≤ d) && decide (d < ((2 ^ (n - 1) : Nat) : Int))
/-- The words of w bytes of a number. -/
def wordsOf (bits : Nat) : Nat → Nat → List Nat
  | 0, _ => []
  | n + 1, v => v % 2 ^ bits :: wordsOf bits n (v / 2 ^ bits)
/-- The first encoding of Table ME-7 that represents a line exactly; raw where the page does not allow compression. -/
def encodingOf (comp : Bool) (line : Nat) : Nat :=
  if !comp then 5
  else if line = 0 then 1
  else if deltasFit 64 8 (wordsOf 64 8 line) then 2
  else if deltasFit 32 8 (wordsOf 32 16 line) then 3
  else if deltasFit 64 16 (wordsOf 64 8 line) then 4
  else 5
/-- A line of a slice. -/
def Slice.line? (x : Slice) (pa : Nat) : Option L2Line := x.lines.find? fun l => l.pa == pa / 64
/-- The set of a line address: a slice of 16 MiB has 16,384 sets of 64 sectors (R8, R13, R119). -/
def l2SetOf (line : Nat) : Nat := Config.l2Set line % 16384
/-- The lines of the set of a line. -/
def Slice.setOf (x : Slice) (pa : Nat) : List L2Line := x.lines.filter fun l => l2SetOf l.pa == l2SetOf (pa / 64)
/-- Sectors of a set that no line holds: the n lowest. (DESIGN CHOICE, log 6.) -/
def freeSectors (ls : List L2Line) (n : Nat) : List Nat :=
  ((List.range 64).filter fun k => !(ls.any fun l => l.sectors.contains k)).take n
/-- The rank of a class as a victim: short-lived, normal, long-lived (R121). -/
def victimRank (cls : Nat) : Nat :=
  match cls with | 1 => 0 | 0 => 1 | _ => 2
/-- The victim among lines: by class, then least recent (R121). (DESIGN CHOICE, log 6.) -/
def victimOf (ls : List L2Line) : Option L2Line :=
  ls.foldl (fun best l => match best with
    | none => some l
    | some b =>
      if victimRank l.cls < victimRank b.cls || (victimRank l.cls == victimRank b.cls && decide (l.used < b.used))
      then some l else some b) none
/-- A set's lines fit with one more line: a free tag of 32 and sectors of 64 (R119, R121). -/
def setFits (ls : List L2Line) (sectors : Nat) : Bool :=
  decide (ls.length + 1 ≤ 32) && decide ((ls.map fun l => encSectors l.enc).sum + sectors ≤ 64)
/-- Victims taken one at a time until a line of the given sectors fits; a line in use by a request is never one. -/
def evict (inUse : Nat → Bool) (pa sectors : Nat) : Nat → Slice → Slice
  | 0, x => x
  | n + 1, x =>
    if setFits (x.setOf pa) sectors then x
    else match victimOf ((x.setOf pa).filter fun l => !inUse l.pa) with
      | none => x
      | some v => evict inUse pa sectors n { x with lines := x.lines.filter fun l => l.pa != v.pa }
/-- The line addresses that requests of a slice's queue name. -/
def State.sliceBusy (s : State) (k : Nat) (pa : Nat) : Bool :=
  (s.slice k).queue.any fun rid => match (s.req? rid).bind (·.tgt) with
    | some t => (Target.key t) / 64 == pa
    | none => false
/-- An access's effect on the line it touches in its slice (R120, R121): allocated unless it bypasses, its class and
recency set, dirty after a write, re-encoded, with victims taken for room. With `keep`, hint 3 makes the line
short-lived, be it there or not (R137). (DESIGN CHOICE, log 71.) -/
def State.l2Touch (s : State) (k : Nat) (t : Target) (hint : Nat) (write keep : Bool) : State :=
  match t with
  | .line pa _ comp _ =>
    let sl := s.slice k
    let old := sl.line? pa
    if old.isNone && hint == 3 && !keep then s
    else
      let (now, s) := s.fresh
      let hint := if keep && hint == 3 then 1 else hint
      let enc := encodingOf comp (s.load (pa / 64 * 64) 64)
      let cls := match old with
        | some l => if hint = 3 then l.cls else hint
        | none => hint
      let dirty := write || (match old with | some l => l.dirty | none => false)
      s.modSlice k fun x =>
        let x := { x with lines := x.lines.filter fun l => l.pa != pa / 64 }
        let x := evict (s.sliceBusy k) pa (encSectors enc) 40 x
        let at' := freeSectors (x.setOf pa) (encSectors enc)
        if setFits (x.setOf pa) (encSectors enc) then
          { x with lines := x.lines ++
              [{ pa := pa / 64, enc := enc, sectors := at', dirty := dirty, cls := cls, used := now }] }
        else x
  | _ => s
/-- The set of a line has no room for it, for requests are in progress on too many of its lines (R121). -/
def State.l2Full (s : State) (k : Nat) (t : Target) (hint : Nat) : Bool :=
  match t with
  | .line pa _ comp _ =>
    let x := s.slice k
    let sectors := encSectors (encodingOf comp (s.load (pa / 64 * 64) 64))
    let y := evict (s.sliceBusy k) pa sectors 40 { x with lines := x.lines.filter fun l => l.pa != pa / 64 }
    !((x.line? pa).isNone && hint == 3) && !setFits (y.setOf pa) sectors
  | _ => false

/-! ### Answers -/

/-- The node that performs a target's accesses, as a fabric node. -/
def State.ownerNode (_ : State) (r : Req) : Nat := r.dest
/-- A packet on the response channel from a request's owner to its core. -/
def State.respond (s : State) (r : Req) (p : Payload) (ev : Instr) : State := s.send (s.ownerNode r) r.node 1 p ev
/-- A request has been performed. -/
def State.performed (s : State) (r : Req) : State := s.putReq { r with stage := .performed }
/-- The row in which an owner's answer to a waiting instruction reaches its core. -/
def answerEv (r : Req) : Instr :=
  if r.withdrawn then .withdrawalSettle
  else match r.instr with
    | .ldfe _ _ _ _ | .ldff _ _ _ _ | .stfe _ _ _ _ | .stff _ _ _ _ | .feq _ _ _ | .feset _ _ _ => .feAnswer
    | _ => .barrierAnswer
/-- The owner answers a waiting instruction: status or code, value, and whether rd is written. -/
def State.answer (s : State) (r : Req) (st : Nat) (v : Word) (writes : Bool) : State :=
  (s.performed r).respond r (.answer r.id st v writes) (answerEv r)

/-! ### Waiters of a word (R146, R149, R150, R151) -/

/-- The memory key of a request. -/
def Req.key (r : Req) : Nat := match r.tgt with | some t => Target.key t | none => 0
/-- The requests in waiters, oldest first. -/
def State.waiting (s : State) : List Req := s.waiters.filterMap fun rid => s.req? rid
/-- A waiter leaves the list. -/
def State.unwait (s : State) (rid : Nat) : State := { s with waiters := s.waiters.filter (· != rid) }
/-- A request that waits as a barrier waiter. -/
def Req.isBarrier (r : Req) : Bool := match r.instr with | .barw _ _ _ _ => true | _ => false
/-- A request that waits for its word to differ. -/
def Req.isWaitw (r : Req) : Bool := match r.instr with | .waitw _ _ _ _ _ | .gwait _ _ _ _ => true | _ => false
/-- A full/empty request. -/
def Req.isFe (r : Req) : Bool :=
  match r.instr with
  | .ldfe _ _ _ _ | .ldff _ _ _ _ | .stfe _ _ _ _ | .stff _ _ _ _ | .feq _ _ _ | .feset _ _ _ => true
  | _ => false
/-- The mask of a WAITW or GWAIT (R150, R290). -/
def Req.mask (r : Req) : Word :=
  match r.instr with
  | .waitw _ _ _ _ m => match m.toNat with
    | 0 => 0xFFFFFFFFFFFFFFFF | 1 => 0xFFFF000000000000 | 2 => 0x00000000FFFFFFFF | _ => 0xFFFFFFFF00000000
  | _ => 0xFFFF000000000000
/-- The masked test of WAITW on a word (R150): `exp` holds the value of rd. -/
def Req.differs (r : Req) (w : Word) : Bool := (w &&& r.mask) != (word r.exp &&& r.mask)
/-- A waiter answered and removed. -/
def State.serve (s : State) (r : Req) (st : Nat) (v : Word) (writes : Bool) : State := (s.unwait r.id).answer r st v writes
/-- Every barrier waiter for which p holds is answered with its old word and a status. -/
def State.releaseBarrier (s : State) (p : Req → Bool) (st : Nat) : State :=
  (s.waiting.filter fun r => r.isBarrier && p r).foldl (fun s r => s.serve r st (word r.data) true) s
/-- WAITW and GWAIT waiters of the words of a range tested after a write (R150). -/
def State.wakeWords (s : State) (key n : Nat) : State :=
  (s.waiting.filter fun r => r.isWaitw && decide (key < r.key + 8) && decide (r.key < key + n)).foldl
    (fun s r =>
      let w := word (s.load r.key 8)
      if r.differs w then s.serve r 0 w true else s) s
/-- What a write of n bytes at a key does to waiters: barrier waiters of every line it touches end BROKEN, and watched
words are tested (R150, R151). -/
def State.afterWrite (s : State) (key n : Nat) : State :=
  if s.waiters.isEmpty then s
  else (s.releaseBarrier (fun r => decide (key / 64 ≤ r.key / 64) && decide (r.key / 64 ≤ (key + n - 1) / 64)) 3).wakeWords key n
/-- A write of memory by an owner or an engine, with what it does to waiters. -/
def State.ownerWrite (s : State) (key : Nat) (bs : List Byte) : State := (s.setBytes key bs).afterWrite key bs.length

/-- The entries for waiters of the owner of a target (R146). -/
def Target.waiterRoom : Target → Nat
  | .line _ _ _ _ | .peer _ _ => 256
  | .window _ _ => 64
  | _ => 32
/-- The number of the unit that holds a target's waiters: a slice of this package or of a peer, a network interface or a
channel controller (R146). Of a peer's slices the reset bucket map is taken. (DESIGN CHOICE, log 76.) -/
def Target.waiterUnit (t : Target) (dest : Nat) : Nat :=
  match t with
  | .peer pa _ => let (d, b) := bucketOf (pa % 2 ^ 40) none; 4096 + 64 * (pa / 2 ^ 40) + 16 * d + b
  | .bank _ _ _ => 1024 + dest
  | _ => dest
/-- The unit that holds a request's waiter. -/
def Req.waiterUnit (r : Req) : Option Nat := r.tgt.map fun t => t.waiterUnit r.dest
/-- The waiters that the owner of a request holds. -/
def State.waitersAt (s : State) (r : Req) : Nat := (s.waiting.filter fun q => q.waiterUnit == r.waiterUnit).length
/-- The owner has a free waiter entry. -/
def State.waiterFree (s : State) (r : Req) : Bool :=
  match r.tgt with
  | some t => decide (s.waitersAt r < t.waiterRoom)
  | none => false
/-- A request enters a waiter, after every earlier one. (DEDUCED, log 58.) -/
def State.enterWaiter (s : State) (r : Req) : State := { s.putReq { r with stage := .waiter } with waiters := s.waiters ++ [r.id] }

/-- A full/empty operation's condition holds for its word's bit (Table AT-6). -/
def Req.feReady (r : Req) (full : Bool) : Bool :=
  match r.instr with
  | .ldfe _ _ _ _ | .ldff _ _ _ _ | .stff _ _ _ _ => full
  | .stfe _ _ _ _ => !full
  | _ => true
/-- A full/empty operation's effect on its word and bit, and its answer; no waiter is looked at (Table AT-6). -/
def State.feEffect (s : State) (r : Req) : State :=
  let k := r.key
  let w := word (s.load k 8)
  match r.instr with
  | .ldfe _ _ _ _ => (s.setFull k false).serve r 0 w true
  | .ldff _ _ _ _ => s.serve r 0 w true
  | .stfe _ _ _ _ => (((s.store k 8 r.data).setFull k true).afterWrite k 8).serve r 0 0 false
  | .stff _ _ _ _ => ((s.store k 8 r.data).afterWrite k 8).serve r 0 0 false
  | .feq _ _ _ => s.serve r 0 (if s.full k then 1 else 0) true
  | .feset _ _ v => ((s.setFull k (v == 1)).afterWrite k 8).serve r 0 0 false
  | _ => s
/-- The waiters of a word served once each, in the order they were entered, after a change of its bit (R146). -/
def State.fePass (s : State) (k : Nat) : State :=
  (s.waiting.filter fun r => r.isFe && r.key == k).foldl
    (fun s r => if r.feReady (s.full k) then s.feEffect r else s) s
/-- A full/empty operation performed, with the pass over the word's waiters when its bit changed. (DEDUCED, log 58.) -/
def State.feServe (s : State) (r : Req) : State :=
  let before := s.full r.key
  let s := s.feEffect r
  if s.full r.key == before then s else s.fePass r.key

/-! ### Atomic updates (R140) -/

/-- The operand size and the value that an AMO, ACAS or RED leaves; `none` for an ACAS that does not match (R140). -/
def amoValue (i : Instr) (n old b exp : Nat) : Option Nat :=
  let bits := 8 * n
  let so := signedOf bits old
  let sb := signedOf bits b
  match i with
  | .amoadd _ _ _ _ | .redadd _ _ _ => some ((old + b) % 2 ^ bits)
  | .amoand _ _ _ _ | .redand _ _ _ => some (old &&& b)
  | .amoor _ _ _ _ | .redor _ _ _ => some (old ||| b)
  | .amoxor _ _ _ _ | .redxor _ _ _ => some (old ^^^ b)
  | .amomin _ _ _ _ | .redmin _ _ _ => some (if so ≤ sb then old else b)
  | .amomax _ _ _ _ | .redmax _ _ _ => some (if so ≤ sb then b else old)
  | .amominu _ _ _ _ | .redminu _ _ _ => some (min old b)
  | .amomaxu _ _ _ _ | .redmaxu _ _ _ => some (max old b)
  | .amoswp _ _ _ _ => some b
  | .acas _ _ _ _ => if old = exp then some b else none
  | _ => none
/-- An instruction that lands an old value. -/
def isAmo (i : Instr) : Bool :=
  match i with
  | .amoadd _ _ _ _ | .amoand _ _ _ _ | .amoor _ _ _ _ | .amoxor _ _ _ _ | .amomin _ _ _ _ | .amomax _ _ _ _
  | .amominu _ _ _ _ | .amomaxu _ _ _ _ | .amoswp _ _ _ _ | .acas _ _ _ _ => true
  | _ => false
/-- A RED. -/
def isRed (i : Instr) : Bool :=
  match i with
  | .redadd _ _ _ | .redand _ _ _ | .redor _ _ _ | .redxor _ _ _ | .redmin _ _ _ | .redmax _ _ _ | .redminu _ _ _
  | .redmaxu _ _ _ => true
  | _ => false
/-- A load into a stream queue. -/
def isLoad (i : Instr) : Bool :=
  match i with
  | .gld _ _ _ _ _ _ _ _ | .gldv _ _ _ _ _ _ _ | .sbind _ _ _ => true
  | _ => false
/-- A plain store. -/
def isStore (i : Instr) : Bool :=
  match i with
  | .gst _ _ _ _ _ _ _ | .gstv _ _ _ _ _ _ => true
  | _ => false
/-- A line-control request. -/
def isLineOp (i : Instr) : Bool :=
  match i with
  | .gprf _ _ _ | .lclean _ _ | .lflush _ _ => true
  | _ => false
/-- An instruction whose request goes through the store buffer (R110, R141). -/
def isBuffered (i : Instr) : Bool := isStore i || isAmo i || isRed i

/-- A prefetch, which has no answer (R114). -/
def isPrefetch (i : Instr) : Bool := match i with | .gprf _ _ _ => true | _ => false
/-- The answer of a fault found at the owner, by the kind of the request. -/
def State.ownerFault (s : State) (r : Req) (cause : Nat) : State :=
  if isPrefetch r.instr then s.delReq r.id else
  let s := s.performed r
  if isLoad r.instr then s.respond r (.land r.id [] cause false []) .streamElementLand
  else if isAmo r.instr then s.respond r (.old r.id 0 cause) .amoReply
  else if isBuffered r.instr || isLineOp r.instr then s.respond r (.ack r.id cause) .storeAcknowledge
  else s.respond r (.answer r.id (16 + cause) 0 false) (answerEv r)

/-- A host page's completer does not perform the AtomicOps of a request (R136). (DESIGN CHOICE, log 76.) -/
def Req.hostRefuses (r : Req) : Bool :=
  match r.tgt with
  | some (.host _) => (isAmo r.instr || isRed r.instr) && Config.hostRefusesAtomic r.id
  | _ => false
/-- The checks that the owner makes before it performs a request (R102, check 4; R136; Table ME-2, cause 9).
(DESIGN CHOICE, log 16; DEDUCED, log 51.) -/
def State.ownerCause (s : State) (r : Req) : Nat :=
  match r.tgt with
  | none => 4
  | some t =>
    let c := s.targetCause t r.bytes
    if c ≠ 0 then c else if s.poisoned t r.bytes then 9 else if r.hostRefuses then 5 else 0

/-- The little-endian number of n bytes that a load or an engine reads: of a scratchpad, as they stood before the local
stores of the cycle (R95). -/
def State.readAt (s : State) (key n : Nat) : Nat := ofBytes (s.localBytes key n)
/-- A load performed: its doublewords, or its zero-extended value, go back to the stream queue (R105, R106). -/
def State.performLoad (s : State) (r : Req) : State :=
  let vals := match r.instr with
    | .gldv _ _ _ _ _ _ _ => (wordsOf 64 8 (s.readAt r.key 64)).map word
    | _ => [word (s.readAt r.key r.bytes)]
  let line := s.bytes (r.key / 64 * 64) 64
  (s.performed r).respond r (.land r.id vals 0 true line) .streamElementLand
/-- A store performed in its byte's order (R116), and acknowledged. -/
def State.performStore (s : State) (r : Req) : State :=
  ((s.ownerWrite r.key (toBytes r.bytes r.data)).performed r).respond r (.ack r.id 0) .storeAcknowledge
/-- An AMO, ACAS or RED performed indivisibly (R137, R140). -/
def State.performAtomic (s : State) (r : Req) : State :=
  let old := s.load r.key r.bytes
  let s := match amoValue r.instr r.bytes old r.data r.exp with
    | some v => s.ownerWrite r.key (toBytes r.bytes v)
    | none => s
  let s := s.performed r
  if isAmo r.instr then s.respond r (.old r.id (u64 (signedOf (8 * r.bytes) old)) 0) .amoReply
  else s.respond r (.ack r.id 0) .storeAcknowledge
/-- A full/empty request at its owner (R146): done, not-ready, or a waiter. A peer package's ordinary page is served at its
owner there, as a local access (R337). -/
def State.performFe (s : State) (r : Req) : State :=
  match r.tgt with
  | some (.host _) => s.answer r 4 0 false
  | _ =>
    if r.feReady (s.full r.key) then s.feServe r
    else if r.waiting && s.waiterFree r then s.enterWaiter r
    else s.answer r 8 0 false
/-- Fields of a barrier word (Table AT-10). -/
def barPhase (w : Word) : Nat := fld w 48 16
/-- Arrivals that complete a phase. -/
def barExpected (w : Word) : Nat := fld w 32 16
/-- Arrivals counted. -/
def barCount (w : Word) : Nat := fld w 0 32
/-- A barrier word. -/
def barWord (phase expected count : Nat) : Word := word (at' 48 (phase % 65536) + at' 32 expected + count)
/-- The word after an arrival (R149). -/
def arriveWord (w : Word) : Word :=
  if barExpected w ≤ barCount w + 1 then barWord (barPhase w + 1) (barExpected w) 0
  else barWord (barPhase w) (barExpected w) (barCount w + 1)
/-- An arrival at the owner (R149, R150): BARA and GARR answer at once; a BARW that did not complete the phase waits.
A BARW reissued as a wait alone (R152) waits for the phase it holds. -/
def State.performArrival (s : State) (r : Req) : State :=
  match r.tgt with
  | some (.line _ _ _ _) | some (.peer _ _) =>
    let w := word (s.load r.key 8)
    if r.waitOnly then
      if barPhase w ≠ r.exp then s.answer r 0 (word r.data) true
      else if s.waiterFree r then s.enterWaiter r
      else s.answer r 8 (word r.data) true
    else if barExpected w = 0 then s.answer r 4 0 false
    else
      let s := s.store r.key 8 (arriveWord w).toNat
      let turned := decide (barExpected w ≤ barCount w + 1)
      let s := if turned then s.releaseBarrier (fun q => q.key == r.key && q.exp == barPhase w) 0 else s
      let s := s.wakeWords r.key 8
      let r := { r with data := w.toNat, exp := barPhase w, waitOnly := r.isBarrier }
      if !r.isBarrier || turned then s.answer r 0 w true
      else if s.waiterFree r then s.enterWaiter r
      else s.answer r 8 w true
  | _ => s.answer r 4 0 false
/-- BARI and WAITW at the owner (R150, R290). BARI breaks the barrier waiters of its own word, as R150 says, and not those of the
other words of its line, which R151's list could mean (DESIGN CHOICE, log 97). -/
def State.performBarrierWord (s : State) (r : Req) : State :=
  match r.instr with
  | .bari _ _ _ =>
    match r.tgt with
    | some (.line _ _ _ _) | some (.peer _ _) =>
      let w := word (s.load r.key 8)
      let s := s.store r.key 8 (barWord (barPhase w + 1) (r.data % 65536) 0).toNat
      ((s.releaseBarrier (fun q => q.key == r.key) 3).wakeWords r.key 8).answer r 0 0 false
    | _ => s.answer r 4 0 false
  | _ =>
    match r.tgt with
    | some (.line _ _ _ _) | some (.peer _ _) | some (.window _ _) =>
      let w := word (s.load r.key 8)
      if r.differs w then s.answer r 0 w true
      else if s.waiterFree r then s.enterWaiter r
      else s.answer r 8 0 false
    | _ => s.answer r 4 0 false
/-- A line-control request at its slice (R114): the line is fetched, written back, or written back and dropped. A line
of a peer package is kept there; the request is only acknowledged. -/
def State.performLine (s : State) (r : Req) : State :=
  match r.instr, r.tgt with
  | .gprf _ _ _, _ => s.delReq r.id
  | .lclean _ _, some (.line pa _ _ _) =>
    let k := sliceOf r.dest
    ((s.modSlice k fun x =>
      { x with lines := x.lines.map fun l => if l.pa = pa / 64 then { l with dirty := false } else l }).performed r).respond r
      (.ack r.id 0) .storeAcknowledge
  | _, some (.line pa _ _ _) =>
    let k := sliceOf r.dest
    ((s.modSlice k fun x => { x with lines := x.lines.filter fun l => l.pa != pa / 64 }).performed r).respond r
      (.ack r.id 0) .storeAcknowledge
  | _, _ => (s.performed r).respond r (.ack r.id 0) .storeAcknowledge
/-- The step that performs a request at its owner. -/
def performMove (r : Req) : Move :=
  if isLoad r.instr || isLineOp r.instr then .ownerRead r.id
  else if isStore r.instr then .ev .ownerStore { n := r.id }
  else if isAmo r.instr || isRed r.instr then .ev .atomicAtOwner { n := r.id }
  else if r.isFe then .ev .feRequestAtOwner { n := r.id }
  else match r.instr with
    | .bari _ _ _ | .waitw _ _ _ _ _ | .gwait _ _ _ _ => .ev .barrierWordRequest { n := r.id }
    | _ => .ev .barrierArrival { n := r.id }

/-- An entry in the log of LOGREAD (R333). -/
def State.logEntry (s : State) (kind die item detail : Nat) : State :=
  { s with pkg := { s.pkg with logEntries := s.pkg.logEntries ++
      [{ cycle := s.cycle, w1 := word (kind + at' 8 die + at' 16 item + at' 32 detail) }] } }
/-- An uncorrectable data error that an access has found, logged (R333): the die and slice, channel or node, and a count of 1.
(DESIGN CHOICE, log 16.) -/
def State.logPoison (s : State) (t : Target) : State :=
  match t with
  | .line pa die _ _ => let k := sliceUnder s.pkg.bucketMaps pa die; s.logEntry 5 (4 + k / 16) (k % 16) 1
  | .bank _ die chan => s.logEntry 5 die chan 1
  | .window node _ => s.logEntry 5 (dieOfNode node) (numOfNode node) 1
  | _ => s
/-- The same for an access of a launch's engines or fetches, when that is what it ended with. -/
def State.logCause (s : State) (key ea cause : Nat) : State :=
  if cause = 9 then (match s.translateNow key ea false with | .ok t => s.logPoison t | .error _ => s) else s

end Sys2Proof.Machine
end

