-- ==== Sys2Proof/Machine/LocalMem.lean ====
section
/-! DEFINITION. Local loads and stores, opcodes 0x18 to 0x1C (R94 to R100): the checks at issue, and what an access does
three cycles later in its bank (R95). -/

namespace Sys2Proof.Machine

/-- The effective address of a local access (R96). -/
def localEa (a : Word) (t : BitVec 7) (unit : Nat) : Word := a + t.signExtend 64 * word unit
/-- The scratchpad size that bounds a core's local accesses (R100). -/
def State.scratchSize (s : State) (core : Nat) : Nat := if isChannel core then 0x80000 else (s.team (nodeOf core)).s
/-- The checks of R100, in order: range, then alignment. -/
def localCheck (s : State) (core : Nat) (ea : Word) (unit : Nat) : Check :=
  if s.scratchSize core ≤ ea.toNat then .trap 3 1 ea
  else if ea.toNat % unit ≠ 0 then .trap 3 2 ea
  else .go
/-- The memory key of a local address. -/
def Issue.localKey (x : Issue) (ea : Word) : Nat := sramKey x.node ea.toNat
/-- A local store, with the test of the WAITWs that watch its words (R98, R150). -/
def State.scratchStore (s : State) (key : Nat) (bs : List Byte) : State := (s.localStore key bs).wakeWords key bs.length
/-- The value of a local load of n bytes, sign-extended or not (R97). -/
def loadValue (n : Nat) (signed : Bool) (v : Nat) : Word := if signed then u64 (signedOf (8 * n) v) else word v
/-- A local access or ring instruction on its way. -/
def Issue.localOp (x : Issue) (s : State) (k : LocalKind) : LocalOp :=
  { tk := x.tk, born := (s.thread x.tk).born, issued := s.cycle, stamp := s.nextId, kind := k }
/-- A local access that reaches its bank in cycle issue + 3 (R95). (DEDUCED, log 8.) -/
def State.sendBank (s : State) (x : Issue) (k : LocalKind) : State := s.addMove (s.cycle + 3) (.bank (x.localOp s k))
/-- A local load of n bytes (R97): a push reserves its place (R247), and the access goes to its bank. -/
def issueLoad (i : Instr) (rd : Reg) (n : Nat) (t : BitVec 7) (signed : Bool) (s : State) :
    Host.Outcome State Fault Refusal :=
  issue i (fun x s => localCheck s x.core (localEa (x.val 1) t n) n)
    (fun x s => (s.reserveReg x.tk rd).sendBank x (.load (x.localKey (localEa (x.val 1) t n)) n signed rd)) s
/-- A local store of n bytes (R98). -/
def issueStore (i : Instr) (n : Nat) (t : BitVec 7) (s : State) : Host.Outcome State Fault Refusal :=
  issue i (fun x s => localCheck s x.core (localEa (x.val 1) t n) n)
    (fun x s => s.sendBank x (.store (x.localKey (localEa (x.val 1) t n)) (toBytes n (x.val 0).toNat))) s

/-- LDB (R97). -/
def execLdb (sm : Bool) (rd : Reg) (ra : Reg) (r : BitVec 2) (t : BitVec 7) (s : State) :
    Host.Outcome State Fault Refusal := issueLoad (.ldb sm rd ra r t) rd 1 t true s
/-- LDH (R97). -/
def execLdh (sm : Bool) (rd : Reg) (ra : Reg) (r : BitVec 2) (t : BitVec 7) (s : State) :
    Host.Outcome State Fault Refusal := issueLoad (.ldh sm rd ra r t) rd 2 t true s
/-- LDW (R97). -/
def execLdw (sm : Bool) (rd : Reg) (ra : Reg) (r : BitVec 2) (t : BitVec 7) (s : State) :
    Host.Outcome State Fault Refusal := issueLoad (.ldw sm rd ra r t) rd 4 t true s
/-- LDD (R97). -/
def execLdd (sm : Bool) (rd : Reg) (ra : Reg) (r : BitVec 2) (t : BitVec 7) (s : State) :
    Host.Outcome State Fault Refusal := issueLoad (.ldd sm rd ra r t) rd 8 t true s
/-- LDBU (R97). -/
def execLdbu (sm : Bool) (rd : Reg) (ra : Reg) (r : BitVec 2) (t : BitVec 7) (s : State) :
    Host.Outcome State Fault Refusal := issueLoad (.ldbu sm rd ra r t) rd 1 t false s
/-- LDHU (R97). -/
def execLdhu (sm : Bool) (rd : Reg) (ra : Reg) (r : BitVec 2) (t : BitVec 7) (s : State) :
    Host.Outcome State Fault Refusal := issueLoad (.ldhu sm rd ra r t) rd 2 t false s
/-- LDWU (R97). -/
def execLdwu (sm : Bool) (rd : Reg) (ra : Reg) (r : BitVec 2) (t : BitVec 7) (s : State) :
    Host.Outcome State Fault Refusal := issueLoad (.ldwu sm rd ra r t) rd 4 t false s
/-- STB (R98). -/
def execStb (sm : Bool) (rd : Reg) (ra : Reg) (r : BitVec 2) (t : BitVec 7) (s : State) :
    Host.Outcome State Fault Refusal := issueStore (.stb sm rd ra r t) 1 t s
/-- STH (R98). -/
def execSth (sm : Bool) (rd : Reg) (ra : Reg) (r : BitVec 2) (t : BitVec 7) (s : State) :
    Host.Outcome State Fault Refusal := issueStore (.sth sm rd ra r t) 2 t s
/-- STW (R98). -/
def execStw (sm : Bool) (rd : Reg) (ra : Reg) (r : BitVec 2) (t : BitVec 7) (s : State) :
    Host.Outcome State Fault Refusal := issueStore (.stw sm rd ra r t) 4 t s
/-- STD (R98). -/
def execStd (sm : Bool) (rd : Reg) (ra : Reg) (r : BitVec 2) (t : BitVec 7) (s : State) :
    Host.Outcome State Fault Refusal := issueStore (.std sm rd ra r t) 8 t s
/-- Eight doublewords from bytes, lowest first. -/
def dwordsOf (v : Nat) : Nat → List Word
  | 0 => []
  | n + 1 => word v :: dwordsOf (v / 2 ^ 64) n
/-- The bytes of doublewords, lowest first. -/
def bytesOfDwords : List Word → List Byte
  | [] => []
  | w :: ws => toBytes 8 w.toNat ++ bytesOfDwords ws
/-- LDV (R99). -/
def execLdv (sm : Bool) (rd : Reg) (ra : Reg) (r : BitVec 2) (t : BitVec 7) (s : State) :
    Host.Outcome State Fault Refusal :=
  issue (.ldv sm rd ra r t) (fun x s => localCheck s x.core (localEa (x.val 1) t 64) 64)
    (fun x s => s.sendBank x (.loadGroup (x.localKey (localEa (x.val 1) t 64)) rd)) s
/-- STV (R99). -/
def execStv (sm : Bool) (rd : Reg) (ra : Reg) (r : BitVec 2) (t : BitVec 7) (s : State) :
    Host.Outcome State Fault Refusal :=
  issue (.stv sm rd ra r t) (fun x s => localCheck s x.core (localEa (x.val 1) t 64) 64)
    (fun x s => s.sendBank x (.store (x.localKey (localEa (x.val 1) t 64)) (bytesOfDwords (s.readGroup x.tk rd)))) s

/-! ### The bank cycle (R95) -/

/-- The thread that issued an access is still there. -/
def State.opLive (s : State) (op : LocalOp) : Bool :=
  match s.thread? op.tk with
  | some th => th.born == op.born
  | none => false
/-- A local access in its bank: a load writes its register, a store writes its bytes. (DEDUCED, log 8.) -/
def State.bankStep (s : State) (op : LocalOp) : State :=
  match op.kind with
  | .load key n signed rd =>
    if s.opLive op then s.writeBank op.tk rd (loadValue n signed (ofBytes (s.localBytes key n))) op.issued op.stamp 2 else s
  | .loadGroup key rd =>
    if s.opLive op then s.writeGroup op.tk rd (dwordsOf (ofBytes (s.localBytes key 64)) 8) else s
  | .store key bs => s.scratchStore key bs
  | .ringAdvance _ _ | .ringStatus _ _ => s
/-- The place of an access among those of its bank cycle: every read before every write, and the writes in core order. -/
def LocalOp.rank (op : LocalOp) : Nat :=
  match op.kind with
  | .store _ _ => 1 + coreOf op.tk
  | _ => 0
/-- The accesses that reach their banks in cycle c, in order. -/
def State.bankMoves (s : State) (c : Nat) : List Move :=
  (sortBy (fun a b => decide (a.rank ≤ b.rank)) (s.timers.filterMap fun t => match t.mv with
    | .bank op => if t.due ≤ c then some op else none
    | _ => none)).map .bank
/-- A thread's access or ring instruction has not taken effect. -/
def State.localPending (s : State) (tk : Nat) : Bool :=
  (s.timers.any fun t => match t.mv with | .bank op | .ringOp op => op.tk == tk | _ => false) ||
    s.todo.any fun mv => match mv with | .bank op | .ringOp op => op.tk == tk | _ => false

end Sys2Proof.Machine
end

