-- ==== Sys2Proof/Machine/SaveArea.lean ====
section
/-! DEFINITION. The save area of the general pre-emption in device memory (R331), as firmware and the L2 reach it: its
records and sections, and what is redirected to it (R313). -/

namespace Sys2Proof.Machine

/-! ### Doublewords -/

/-- Doubleword i of a list. -/
def dw (l : List Word) (i : Nat) : Word := l.getD i 0
/-- The number in doubleword i. -/
def dn (l : List Word) (i : Nat) : Nat := (l.getD i 0).toNat
/-- A length rounded up to a multiple of 64 bytes. -/
def padLen (n : Nat) : Nat := (n + 7) / 8 * 8
/-- Doublewords padded with zeros to a multiple of 64 bytes. -/
def pad64 (l : List Word) : List Word := l ++ List.replicate ((8 - l.length % 8) % 8) 0
/-- Chunks of n doublewords, m of them. -/
def chunks (n : Nat) : Nat → List Word → List (List Word)
  | 0, _ => []
  | m + 1, l => l.take n :: chunks n m (l.drop n)

/-! ### Device memory by virtual address -/

/-- The device memory at a virtual address, for firmware: whatever the permissions of its page. (DEDUCED, log 46.) -/
def State.deviceKey (s : State) (root va : Nat) : Option Nat :=
  if 2 ^ 48 ≤ va then none
  else match s.walkFrom root va with
    | none => none
    | some leaf => match leafTarget leaf va with
      | .line pa _ _ _ => some pa
      | .bank pa _ _ => some pa
      | _ => none
/-- A value written by firmware at virtual addresses, byte by byte. -/
def State.deviceWrite (s : State) (root : Nat) : List (Nat × Byte) → State
  | [] => s
  | (va, b) :: rest =>
    (match s.deviceKey root va with
      | some k => s.ownerWrite k [b]
      | none => s).deviceWrite root rest
/-- Doublewords written to device memory by firmware; none when an address cannot be reached. -/
def State.areaWrite (s : State) (root : Nat) : Nat → List Word → Option State
  | _, [] => some s
  | va, w :: rest =>
    match s.deviceKey root va with
    | none => none
    | some k => (s.ownerWrite k (toBytes 8 w.toNat)).areaWrite root (va + 8) rest
/-- Doublewords read from device memory by firmware. -/
def State.areaRead (s : State) (root : Nat) : Nat → Nat → Option (List Word)
  | _, 0 => some []
  | va, n + 1 =>
    match s.deviceKey root va, s.areaRead root (va + 8) n with
    | some k, some ws => some (word (s.load k 8) :: ws)
    | _, _ => none

/-! ### Records and sections -/

/-- A section: its header and its body. -/
def areaSection (k : Nat) (body : List Word) : List Word :=
  [word (k + at' 32 (8 * body.length)), 0, 0, 0, 0, 0, 0, 0] ++ pad64 body
/-- The sections of a record, numbered from k on. -/
def areaSections : Nat → List (List Word) → List Word
  | _, [] => []
  | k, b :: bs => areaSection k b ++ areaSections (k + 1) bs
/-- The bodies of the sections that stand one after another. -/
def sectionBodies : Nat → List Word → List (List Word)
  | 0, _ => []
  | n + 1, l =>
    let len := fld (dw l 0) 32 32 / 8
    (l.drop 8).take len :: sectionBodies n (l.drop (8 + padLen len))
/-- The offsets of records one after another, from a doubleword on. -/
def recordOffsets : Nat → List (List Word) → List Word
  | _, [] => []
  | at0, r :: rest => word (8 * at0) :: recordOffsets (at0 + r.length) rest
/-- A save area: its header, its directory and its records. -/
def areaOf (handle : Nat) (rs : List (List Word)) : List Word :=
  let n := rs.length
  let dir := pad64 (recordOffsets (8 + (pad64 (List.replicate n 0)).length) rs)
  let len := 8 + dir.length + (rs.map List.length).sum
  [word (0x45564153 + at' 32 1), word handle, word n, word (8 * len), 0, 0, 0, 0] ++ dir ++ rs.flatten
/-- The records of a save area. -/
def areaRecords (area : List Word) : List (List Word) :=
  let n := dn area 2
  (List.range n).map fun i =>
    let start := dn area (8 + i) / 8
    (area.drop start).take ((if i + 1 < n then dn area (9 + i) else dn area 3) / 8 - start)

/-! ### What is redirected (R313) -/

/-- The saved team that something aimed at a node before its save still means: its launch, its record's place and the team. -/
def State.savedTeam (s : State) (node id : Nat) : Option (Launch × Nat × Kept) :=
  s.disp.launches.findSome? fun e =>
    ((e.2.saved.zipIdx).find? fun k => k.1.team == node && decide (id < k.1.mark)).map fun k => (e.2, k.2, k.1)
/-- The memory of a byte of a saved team's scratchpad in its record: behind the header section and the section's header. -/
def State.imageKey (s : State) (l : Launch) (i off : Nat) : Option Nat :=
  match s.deviceKey l.root (l.savedAt + 64 + 8 * i) with
  | none => none
  | some k => s.deviceKey l.root (l.savedAt + s.load k 8 + 192 + off)
/-- The target of a write or update of n bytes with this number: one that was aimed at the scratchpad of a team which has been
saved since goes to its image (R313), and lies outside it by the size that the scratchpad had. (DEDUCED, log 53.) -/
def State.redirect (s : State) (id n : Nat) (t : Target) : Target :=
  match t with
  | .window node off =>
    match s.savedTeam node id with
    | none => t
    | some (l, i, k) =>
      if off + n ≤ k.size then (match s.imageKey l i off with | some a => .bank a 4 0 | none => t)
      else .window node (2 ^ 21 + off)
  | t => t
/-- The place of the count of the completion words in the body of section 6, for the cores that are left (Table SY-10). -/
def completionIndex : Nat → List Word → Nat
  | 0, _ => 4
  | n + 1, b =>
    let r := b.drop (1 + 6 * dn b 0)
    let skip := 1 + 6 * dn b 0 + 2 + dn r 1
    skip + completionIndex n (b.drop skip)
/-- A completion entered behind the others of a body of section 6. -/
def enterCompletion (core port : Nat) (w0 w1 : Word) (b : List Word) : List Word :=
  let i := completionIndex 4 b
  let n := dn b i
  let k := i + 1 + 3 * n
  (b.take i) ++ [word (n + 1)] ++ ((b.drop (i + 1)).take (3 * n)) ++ [word (port + at' 8 core), w0, w1] ++ b.drop k
/-- A record with the body of section 6 changed. -/
def recordEngines (f : List Word → List Word) (r : List Word) : List Word :=
  let bs := sectionBodies 7 r
  areaSections 1 (bs.set 5 (f (bs.getD 5 [])))
/-- The record of a saved team in its launch's area. -/
def State.savedRecord (s : State) (l : Launch) (i : Nat) : List Word :=
  match s.areaRead l.root l.savedAt 8 with
  | none => []
  | some head => match s.areaRead l.root l.savedAt (dn head 3 / 8) with
    | none => []
    | some area => (areaRecords area).getD i []
/-- The place of domain counter d in the body of section 6: its doubleword and its first bit (Table SY-10). -/
def domainPlace (d : Nat) (b : List Word) : Nat × Nat := (completionIndex 4 b - 4 + d / 4, 16 * (d % 4))
/-- A domain counter of a saved team, in its image (R301, R313). -/
def State.savedDomain (s : State) (l : Launch) (i d : Nat) : Nat :=
  let b := (sectionBodies 7 (s.savedRecord l i)).getD 5 []
  fld (dw b (domainPlace d b).1) (domainPlace d b).2 16
/-- A domain counter set in the body of section 6. -/
def enterDomain (d v : Nat) (b : List Word) : List Word :=
  let (i, lo) := domainPlace d b
  b.set i (word (dn b i - at' lo (fld (dw b i) lo 16) + at' lo (v % 65536)))
/-- Section 6 of a saved team's record changed in its image: the area is laid out again with it. (DEDUCED, log 53.) -/
def State.modSaved (s : State) (l : Launch) (i : Nat) (f : List Word → List Word) : State :=
  match s.areaRead l.root l.savedAt 8 with
  | none => s
  | some head =>
    match s.areaRead l.root l.savedAt (dn head 3 / 8) with
    | none => s
    | some area =>
      let rs := areaRecords area
      (s.areaWrite l.root l.savedAt
        (areaOf l.handle (rs.set i (recordEngines f (rs.getD i []))))).getD s
/-- A completion message for a port of a saved team written into the completion words of its record (R313). -/
def State.saveCompletion (s : State) (l : Launch) (i core port : Nat) (w0 w1 : Word) : State :=
  s.modSaved l i (enterCompletion core port w0 w1)

end Sys2Proof.Machine
end

