-- ==== Sys2Proof/Machine/GlobalMem.lean ====
section
/-! DEFINITION. Global loads and stores, opcodes 0x20 to 0x23 (R101 to R118), and the steps of the stream port, the
store buffer, the slices, the walkers and the instruction cache (R81, R119 to R129). -/

namespace Sys2Proof.Machine

/-! ### Requests at their stream port -/

/-- The effective address of a global access (R105, R111). -/
def globalEa (a : Word) {n : Nat} (off : BitVec n) (unit : Nat) : Nat := (a + off.signExtend 64 * word unit).toNat
/-- A request made by an issuing instruction, not yet placed. -/
def State.mkReq (s : State) (i : Instr) (x : Issue) (ea bytes : Nat) : Req × State :=
  let (id, s) := s.fresh
  ({ id := id, stamp := id, tk := x.tk, node := x.node, launch := (s.thread x.tk).launch, instr := i, ea := ea
     bytes := bytes, ret := x.ret }, s)
/-- The thread that made a request is still in its slot. -/
def State.mine (s : State) (r : Req) : Bool :=
  match s.thread? r.tk with
  | some th => decide (th.born < r.id)
  | none => false
/-- A request's thread changed, if it is still there. -/
def State.modMine (s : State) (r : Req) (f : Thread → Thread) : State := if s.mine r then s.modThread r.tk f else s
/-- The stream register of a load request. -/
def Req.streamOf (r : Req) : Nat :=
  match r.instr with
  | .gld _ (.st k) _ _ _ _ _ _ | .gldv _ (.st k) _ _ _ _ _ | .sbind _ (.st k) _ => k.val
  | _ => 0
/-- Two accesses share a byte. -/
def Req.overlaps (q r : Req) : Bool := decide (q.ea < r.ea + r.bytes) && decide (r.ea < q.ea + q.bytes)
/-- Every byte of r is a byte of q. -/
def Req.covers (q r : Req) : Bool := decide (q.ea ≤ r.ea) && decide (r.ea + r.bytes ≤ q.ea + q.bytes)
/-- Some earlier request of the same thread. -/
def State.anyEarlier (s : State) (r : Req) (p : Req → Bool) : Bool :=
  s.reqs.any fun e => e.2.tk == r.tk && decide (e.2.id < r.id) && p e.2
/-- An acquire that has not taken effect (R118, R141). -/
def Req.acquiring (q : Req) : Bool := q.acq && (isAmo q.instr || q.stage != .performed)
/-- An acquire that holds back a given later access (R109, R118). -/
def Req.holdsBack (q r : Req) : Bool := q.acquiring && decide (q.holds ≤ r.id)
/-- An earlier MPOP of the thread has no record yet: it is an acquire point (R133, R189). -/
def State.popPending (s : State) (r : Req) : Bool :=
  s.mine r && (s.thread r.tk).mpops.any fun p => decide (p.id < r.id)
/-- Held back by an earlier acquire. -/
def State.acqBlocked (s : State) (r : Req) : Bool := s.popPending r || s.anyEarlier r fun q => q.holdsBack r
/-- Held back because it is a release: an earlier load has not landed or an earlier store is not acknowledged (R133). -/
def State.releaseBlocked (s : State) (r : Req) : Bool :=
  s.anyEarlier r fun q => isLoad q.instr || isBuffered q.instr
/-- The region within which a request's order with another is total store order (R117). -/
def Req.region (r : Req) : Option Nat := r.tgt.bind Target.region
/-- An earlier request that has to take effect before another for every observer (R116, R118). -/
def precedesAlways (q r : Req) : Bool := q.tk == r.tk && (q.holdsBack r || q.overlaps r)
/-- An earlier request that has to take effect before another for the threads of their die (R117). -/
def precedesOnDie (q r : Req) : Bool :=
  q.region == some (regionOfNode r.node) && r.region == q.region &&
    ((q.tk == r.tk && isLoad q.instr) ||
      (isBuffered q.instr && !isLoad r.instr && !isLineOp r.instr && coreOf q.tk == coreOf r.tk))
/-- An earlier request that has to take effect before another (R116 to R118). -/
def mustPrecede (q r : Req) : Bool :=
  decide (q.id < r.id) && q.fault == 0 && (precedesAlways q r || precedesOnDie q r)
/-- A request that some unperformed request must precede. -/
def State.mustWait (s : State) (r : Req) : Bool :=
  s.reqs.any fun e => e.2.stage != .performed && mustPrecede e.2 r
/-- The unperformed requests that must precede a request. -/
def State.mustFollow (s : State) (r : Req) : List Req :=
  (s.reqs.filter fun e => e.2.stage != .performed && mustPrecede e.2 r).map fun e => e.2
/-- A request is on its way to its owner, or has to be sent there again: it is not accepted there yet. -/
def Req.underway (q : Req) : Bool := q.stage == .sent || q.stage == .bounced || (q.stage == .port && decide (0 < q.order))
/-- Two requests access a byte of the same owner in common. -/
def keysMeet (k n k' n' : Nat) : Bool := decide (k < k' + n') && decide (k' < k + n)
/-- No request on its way from a node of the die stands in the way of one that goes ahead: none from another node accesses its
bytes, and none from its own node the bytes of one from elsewhere that is ahead already. -/
def State.clearAhead (s : State) (r : Req) : Bool :=
  s.reqs.all fun e =>
    let u := e.2
    !u.underway || regionOfNode u.node != regionOfNode r.node ||
      (if u.node = r.node then
        !(s.ahead.any fun a => a.region == regionOfNode r.node && a.node != r.node && keysMeet a.key a.bytes u.key u.bytes)
      else !keysMeet r.key r.bytes u.key u.bytes)
/-- A request may take effect ahead of its die's order: only that order holds it, and what comes before it was sent before it
and is on its way to its owner or accepted there (R117, R141, R342). (DESIGN CHOICE, log 77.) -/
def State.mayGoAhead (s : State) (r : Req) : Bool :=
  Config.ahead r.id && (isLoad r.instr || isBuffered r.instr) &&
    (s.mustFollow r).all (fun q => !precedesAlways q r && decide (q.order < r.order) &&
      (q.stage == .sent || q.stage == .queued || q.stage == .filling)) &&
    s.clearAhead r
/-- A request that goes ahead of what comes before it on its die. -/
def State.goAhead (s : State) (r : Req) : State :=
  let before := (s.mustFollow r).map fun q => q.id
  if before.isEmpty then s
  else { s with ahead := s.ahead ++
    [{ id := r.id, region := regionOfNode r.node, node := r.node, key := r.key, bytes := r.bytes, before := before }] }
/-- A request goes ahead of its die's order. -/
def State.isAhead (s : State) (r : Req) : Bool := s.ahead.any fun a => a.id == r.id
/-- An access by a thread of a die finds a request there that is ahead of what comes before it: the access waits. -/
def State.meetsAhead (s : State) (r : Req) : Bool :=
  s.ahead.any fun a => a.region == regionOfNode r.node && keysMeet a.key a.bytes r.key r.bytes
/-- A request that must take effect before another has not been accepted at its owner (R116 to R118, R125). -/
def State.unaccepted (s : State) (r : Req) : Bool :=
  s.reqs.any fun e => e.2.underway && (e.2.stage != .sent || decide (e.2.order < r.order)) && mustPrecede e.2 r
/-- What has been overtaken has been performed: the request is ahead no more. -/
def State.settleAhead (s : State) : State :=
  let open' := fun (a : Ahead) => a.before.any fun i => match s.req? i with | some q => q.stage != .performed | none => false
  if s.ahead.all open' then s else { s with ahead := s.ahead.filter open' }
/-- An earlier request on the same path has not been accepted. -/
def State.earlierSent (s : State) (r : Req) : Bool :=
  s.reqs.any fun e => e.2.stage == .sent && e.2.node == r.node && e.2.dest == r.dest && decide (e.2.order < r.order)

/-- The fabric node that a stream port sends a target's requests to, by its own bucket maps (R123, R124). -/
def State.destOf (s : State) (node : Nat) (t : Target) : Nat :=
  match t with
  | .line pa die _ _ => sliceNode (sliceUnder (s.team node).maps pa die)
  | .bank _ die chan => nodeAt die chan
  | .window n _ => n
  | .host _ | .peer _ _ => ioNode
/-- The die and bucket of an ordinary line. -/
def Target.bucket : Target → Option (Nat × Nat)
  | .line pa die _ _ => some (bucketOf pa die)
  | _ => none
/-- R127: a moved bucket has an unanswered request under the old map, be it that its answer is on its way, or a bounced one that
goes first. -/
def State.moved (s : State) (r : Req) (t : Target) : Bool :=
  (t.bucket).isSome && s.reqs.any fun e =>
    let q := e.2
    q.id != r.id && q.node == r.node && decide (0 < q.order) && q.tgt.bind Target.bucket == t.bucket &&
      q.dest != s.destOf r.node t &&
      (q.stage != .port || r.order == 0 || decide (q.order < r.order))
/-- A node's stream port has not sent a request in this cycle (R132). -/
def State.portFree (s : State) (node : Nat) : Bool := !s.portsUsed.contains node
/-- A request issued earlier has still to be sent by the team's stream port, which sends in issue order (R132), and those that it
sends again in the order in which it first sent them (R127). -/
def State.portBehind (s : State) (r : Req) : Bool :=
  s.reqs.any fun e => e.2.stage == .port && e.2.node == r.node &&
    (if r.order = 0 then decide (e.2.id < r.id) else decide (0 < e.2.order) && decide (e.2.order < r.order))
/-- A request sent to its owner (R130): it is accepted there, or performed, when it arrives. -/
def State.sendReq (s : State) (r : Req) (t : Target) : State :=
  let s := { s with portsUsed := r.node :: s.portsUsed }
  let dest := s.destOf r.node t
  let (o, s) := s.fresh
  let (due, s) := s.pathTime r.node dest 0
  let gen := match t.bucket with | some (d, _) => (s.team r.node).mapGens.getD d 0 | none => 0
  let r := { r with stage := .sent, tgt := some t, dest := dest, order := o, gen := gen }
  let s := s.putReq r
  match t with
  | .line _ _ _ _ => s.addTimer due .sliceAccept { n := r.id }
  | _ => s.addMove due (performMove r)
/-- The walks that a die's page walker has in flight at most (R129). -/
def walkLimit (die : Nat) : Nat := if die < 4 then 32 else 16
/-- The walks of a die's nodes, with their nodes. -/
def State.walksOn (s : State) (die : Nat) : List (Nat × Walk) :=
  s.teams.flatMap fun e => if dieOfNode e.1 = die then e.2.walks.map fun w => (e.1, w) else []
/-- The oldest queued walk of a die begins, if its page walker can take it (R129). -/
def State.beginWalk (s : State) (die : Nat) : State :=
  let l := s.walksOn die
  if walkLimit die ≤ (l.filter fun e => e.2.flying).length then s
  else match (sortBy (fun a b => decide (a.2.id ≤ b.2.id)) (l.filter fun e => !e.2.flying)).head? with
    | none => s
    | some (node, w) =>
      let (d, s) := s.delay
      (s.modTeam node fun t =>
        { t with walks := t.walks.map fun v => if v.id = w.id then { v with flying := true } else v }).addTimer
          (s.cycle + 1 + d) .pageWalkDone { n := node, m := w.id }
/-- A TLB miss: a table walk for the page, unless one is there already (R129); `cid` is the engine command that needs it, 0 for
none. (DEDUCED, log 13.) -/
def State.startWalk (s : State) (node key ea : Nat) (cid : Nat := 0) : State :=
  if (s.team node).walks.any fun w => w.launch == key && w.va / 65536 == ea / 65536 then s
  else
    match s.launch? key with
    | none => s
    | some l =>
      let (id, s) := s.fresh
      (s.modTeam node fun t =>
        { t with walks := t.walks ++ [{ id := id, launch := key, root := l.root, va := ea, by' := cid }] }).beginWalk (dieOfNode node)

/-! ### Landing -/

/-- The entries of a request in a stream queue given their values, or markers with their addresses (R104, R109).
(DESIGN CHOICE, log 12.) -/
def landIn (rid : Nat) (vals : List Word) (cause ea : Nat) : Nat → List Elem → List Elem
  | _, [] => []
  | j, e :: es =>
    if e.serial = rid ∧ e.landed = false then
      { e with landed := true, cause := cause, value := if cause = 0 then vals.getD j 0 else word (ea + 8 * j) } ::
        landIn rid vals cause ea (j + 1) es
    else e :: landIn rid vals cause ea j es
/-- A load's elements land; the request is over. -/
def State.landLoad (s : State) (r : Req) (vals : List Word) (cause : Nat) : State :=
  let x := s.stream r.tk r.streamOf
  ((s.setStream r.tk r.streamOf { x with entries := landIn r.id vals cause r.ea 0 x.entries }).delReq r.id).landed r.tk
/-- A fault enters a thread's store-fault log, which keeps the first (R113). -/
def State.logFault (s : State) (r : Req) (cause : Nat) : State :=
  s.modMine r fun th => { th with log := some (th.log.getD (cause, word r.ea)) }
/-- U decreases by 1 (R110). -/
def State.acked (s : State) (r : Req) : State := (s.modMine r fun th => { th with u := th.u - 1 }).delReq r.id
/-- The destination of an AMO or ACAS. -/
def amoRd : Instr → Reg
  | .amoadd _ rd _ _ | .amoand _ rd _ _ | .amoor _ rd _ _ | .amoxor _ rd _ _ | .amomin _ rd _ _ | .amomax _ rd _ _
  | .amominu _ rd _ _ | .amomaxu _ rd _ _ | .amoswp _ rd _ _ | .acas _ rd _ _ => rd
  | _ => .g 0
/-- The old value of an AMO or ACAS lands; the reply is also the acknowledgement (R140). -/
def State.landOld (s : State) (r : Req) (v : Word) (cause : Nat) : State :=
  let s := if cause = 0 then s else s.logFault r cause
  if s.mine r then
    let s := s.writeGSOf r.tk (amoRd r.instr) (if cause = 0 then v else 0) r.stamp
    ((s.acked r).modThread r.tk fun th => { th with amos := th.amos - 1 }).landed r.tk
  else s.delReq r.id
/-- A waiting instruction of a request, if its thread still waits for it. -/
def State.waitFor (s : State) (r : Req) : Option Wait :=
  (s.thread r.tk).wait?.bind fun w => if w.req = r.id then some w else none
/-- A precise fault of an instruction that waits for its owner (R145): the trap is taken at the instruction. -/
def State.waitFault (s : State) (r : Req) (cause : Nat) : State :=
  let s := s.delReq r.id
  match s.waitFor r with
  | none => s
  | some _ => s.trap r.tk 3 cause (word r.ea)
/-- A fault found at translation (R109, R113, R142, R145). -/
def State.sourceFault (s : State) (r : Req) (cause : Nat) : State :=
  if isLoad r.instr then s.landLoad r [] cause
  else if isAmo r.instr then s.landOld r 0 cause
  else if isBuffered r.instr then (s.logFault r cause).acked r
  else if isLineOp r.instr then (match r.instr with | .gprf _ _ _ => s.delReq r.id | _ => s.acked r)
  else s.waitFault r cause

/-! ### The engine ports of the banks (R94, R95) -/

/-- The banks of a node's SRAM that n bytes from an offset lie in, as 64 × node + bank (R94). -/
def banksOf (node off n : Nat) : List Nat :=
  ((List.range ((off % 16 + n + 15) / 16)).map fun i => 64 * node + (off / 16 + i) % (if node < 256 then 64 else 16)).eraseDups
/-- The place of a user of an engine port in its round robin (R95). (DESIGN CHOICE, log 78.) -/
def PortUser.num : PortUser → Nat
  | .matrix => 0
  | .fabric => 1
  | .copy => 2
  | .reduce => 3
  | .fill => 4
  | .bankEngine => 5
/-- How many users have their turn at a bank before this one. -/
def State.turnAt (s : State) (b : Nat) (u : PortUser) : Nat := (u.num + 5 - SMap.getD s.portLast b 5) % 6
/-- An access is this user's, with this number. -/
def PortAsk.isOf (a : PortAsk) (u : PortUser) (id : Nat) : Bool := a.user == u && a.id == id
/-- An access that waits at a bank goes before one of this user: an earlier one of the same user, or one of a user whose turn
comes first (R95). (DESIGN CHOICE, log 78.) -/
def State.portAhead (s : State) (u : PortUser) (id b : Nat) : Bool :=
  ((s.portAsks.takeWhile fun a => !a.isOf u id).any fun a => a.user == u && a.left.contains b) ||
    s.portAsks.any fun a => a.user != u && a.left.contains b && decide (s.turnAt b a.user < s.turnAt b u)
/-- An access asks at the engine ports of its banks (R95): each port serves one access in a cycle, its users in turn. Whether
all have now served it; until then it waits for the rest. A bank in the list twice serves it in two cycles.
(DESIGN CHOICE, log 78.) -/
def State.askPorts (s : State) (u : PortUser) (id : Nat) (banks : List Nat) : Bool × State :=
  if banks.isEmpty then (true, s)
  else
    let left := match s.portAsks.find? fun a => a.isOf u id && a.banks == banks with
      | some a => a.left
      | none => banks
    let got := left.eraseDups.filter fun b => !s.banksUsed.contains b && !s.portAhead u id b
    let rest := got.foldl List.erase left
    let ask : PortAsk := { user := u, id := id, banks := banks, left := rest, asked := s.cycle }
    let asks :=
      if rest.isEmpty then s.portAsks.filter fun a => !a.isOf u id
      else if s.portAsks.any fun a => a.isOf u id then s.portAsks.map fun a => if a.isOf u id then ask else a
      else s.portAsks ++ [ask]
    (rest.isEmpty, { s with
      banksUsed := got ++ s.banksUsed, portLast := got.foldl (fun m b => SMap.put m b u.num) s.portLast, portAsks := asks })

/-! ### The L1 (R115) -/

/-- The lines of a team's L1: the SRAM behind its scratchpad. -/
def State.l1Lines (s : State) (node : Nat) : Nat := if node < 256 then (2 ^ 21 - (s.team node).s) / 64 else 0
/-- A load that the L1 may serve: of translated data that is neither the host's nor of a bank-layout page. -/
def State.l1Serves (s : State) (r : Req) (t : Target) : Bool :=
  match t with
  | .line _ _ _ _ | .peer _ _ => isLoad r.instr && !r.nc && t.hint r.ret != 3 && decide (0 < s.l1Lines r.node)
  | _ => false
/-- A line of a team's L1 that serves loads. -/
def State.l1Find (s : State) (node pa : Nat) : Option L1Line := (s.team node).l1.find? fun l => l.pa == pa / 64 && l.ready
/-- A line that serves a load is the most recent, and is known by the page through which it is read. -/
def State.l1Use (s : State) (node : Nat) (l : L1Line) (page : PageRef) : State :=
  s.modTeam node fun t =>
    { t with l1 := (t.l1.filter fun x => x.pa != l.pa) ++ [{ l with pages := (page :: l.pages).eraseDups }] }
/-- The banks that hold a line of a team's L1: four in a row. (DESIGN CHOICE, log 78.) -/
def l1Banks (node line : Nat) : List Nat := banksOf node (64 * (line % 16)) 64
/-- A fill of the L1 at the engine ports of its banks (R95): the line serves loads when they have served it. -/
def State.l1Fill (s : State) (node line : Nat) : State :=
  if (s.team node).l1.any fun l => l.pa == line && !l.ready then
    match s.askPorts .fill (256 * line + node) (l1Banks node line) with
    | (true, s) => s.modTeam node fun t => { t with l1 := t.l1.map fun l => if l.pa = line then { l with ready := true } else l }
    | (false, s) => s.retryMove (.l1Fill node line)
  else s
/-- A line filled into a team's L1, the most recent there; the least recent gives way. -/
def State.l1Put (s : State) (node pa : Nat) (bytes : List Byte) (page : PageRef) : State :=
  let n := s.l1Lines node
  (s.modTeam node fun t =>
    let rest := t.l1.filter fun l => l.pa != pa / 64
    { t with l1 := rest.drop (rest.length + 1 - n) ++
        [{ pa := pa / 64, bytes := bytes, pages := [page], ready := false }] }).l1Fill node (pa / 64)
/-- The values that a load takes from the bytes of its line. -/
def loadVals (r : Req) (pa : Nat) (line : List Byte) : List Word :=
  match r.instr with
  | .gldv _ _ _ _ _ _ _ => dwordsOf (ofBytes line) 8
  | _ => [word (ofBytes ((line.drop (pa % 64)).take r.bytes))]

/-! ### A request's turn at the stream port -/

/-- A buffered store's bytes that a load of its thread takes (R116). -/
def forwardVals (q r : Req) : List Word :=
  let v := q.data / 2 ^ (8 * (r.ea - q.ea)) % 2 ^ (8 * r.bytes)
  dwordsOf v (if r.bytes = 64 then 8 else 1)
/-- The newest earlier store or atomic of a load's thread that shares a byte with it, by their effective addresses.
(DESIGN CHOICE, log 68.) -/
def State.newestOverlap (s : State) (r : Req) : Option Req :=
  (s.reqs.filterMap fun e =>
    if e.2.tk = r.tk ∧ e.2.id < r.id ∧ isBuffered e.2.instr ∧ e.2.fault = 0 ∧ e.2.overlaps r then some e.2 else none).getLast?
/-- A load that must wait for an overlapping access of its thread (R116). -/
def State.overlapWait (s : State) (r : Req) : Bool :=
  match s.newestOverlap r with
  | none => false
  | some q =>
    if isStore q.instr && !q.covers r then true
    else if isStore q.instr && q.stage == .buffered then false
    else q.stage != .performed
/-- What holds a request at its stream port. -/
def State.portBlocked (s : State) (r : Req) : Bool :=
  s.acqBlocked r || (r.rel && s.releaseBlocked r) || s.anyEarlier r (fun q => q.stage == .port) ||
    (isLoad r.instr && s.overlapWait r) ||
    (!isLoad r.instr && s.anyEarlier r fun q => isBuffered q.instr && q.fault == 0 && q.overlaps r && q.stage != .performed)
/-- The translation of a request at its stream port. -/
def State.portXlat (s : State) (r : Req) : Xlat :=
  if r.fault ≠ 0 then .fault r.fault
  else if isLineOp r.instr then s.lineXlat r.node r.launch r.ea
  else s.translateFor r.tk r.node r.launch r.ea (!isLoad r.instr)
/-- The buffered store of a load's thread that covers the load, which is the newest to share a byte with it (R116). -/
def State.forwarder (s : State) (r : Req) : Option Req :=
  (s.newestOverlap r).bind fun q =>
    if isLoad r.instr ∧ isStore q.instr ∧ q.stage = .buffered ∧ q.covers r then some q else none
/-- A load that has to follow an earlier load of its thread which is still to be performed (R117). -/
def State.followsLoad (s : State) (r : Req) : Bool :=
  s.reqs.any fun e => isLoad e.2.instr && e.2.stage != .performed && mustPrecede e.2 r
/-- A request that waits for its owner, as a store of its core, follows an earlier one of the core that is still in the store
buffer and is not known to have its owner elsewhere (R117). -/
def State.followsBuffered (s : State) (r : Req) (t : Target) : Bool :=
  decide (r.order = 0) && !isLoad r.instr && !isLineOp r.instr && t.region == some (regionOfNode r.node) &&
    s.reqs.any fun e =>
      let q := e.2
      isBuffered q.instr && q.stage == .buffered && q.fault == 0 && coreOf q.tk == coreOf r.tk && decide (q.id < r.id) &&
        (match s.translateFor q.tk q.node q.launch q.ea true with
          | .ok u => u.region == t.region
          | .miss => true
          | .fault _ => false)
/-- A request's turn at its stream port: it waits, is served from the store buffer or the L1, or is sent. -/
def State.portStep (s : State) (rid : Nat) : State :=
  match s.req? rid with
  | none => s
  | some r =>
    if r.stage ≠ .port then s
    else if r.order = 0 ∧ s.portBlocked r = true then s
    else match s.portXlat r with
      | .miss => s.startWalk r.node r.launch r.ea
      | .fault c => s.sourceFault r c
      | .ok t =>
        match s.forwarder r with
        | some q => if s.followsLoad { r with tgt := some t } then s else s.landLoad r (forwardVals q r) 0
        | none =>
          let hit := if s.l1Serves r t then s.l1Find r.node (Target.key t) else none
          match hit with
          | some l =>
            (s.l1Use r.node l (s.pageOf r.node r.launch r.ea)).landLoad r (loadVals r (Target.key t) l.bytes) 0
          | none =>
            if s.moved r t || !s.portFree r.node || s.portBehind r || s.followsBuffered r t then s else s.sendReq r t

/-! ### GLD, GLDV, SBIND, SCNT -/

/-- A stream register named by a field. -/
def Reg.stNum : Reg → Nat
  | .st k => k.val
  | _ => 0
/-- The bytes of a size code. -/
def sizeBytes {n : Nat} (z : BitVec n) : Nat := 2 ^ z.toNat
/-- The entries that stK has free, and that it has no binding with requests left (R105). -/
def claimCheck (s : State) (x : Issue) (k n : Nat) : Check :=
  let q := s.stream x.tk k
  if q.entries.length + n ≤ 8 ∧ q.bind = none then .go else .park
/-- Entries claimed in a stream queue for a request; `cause` marks them at once. (DESIGN CHOICE, log 12.) -/
def State.claim (s : State) (tk k n : Nat) (e : Elem) : State :=
  let q := s.stream tk k
  s.setStream tk k { q with entries := q.entries ++ (List.range n).map fun j =>
    if e.landed then { e with value := e.value + word (8 * j) } else e }
/-- A load request with its claimed entries, or markers when it is misaligned (R105, R106). -/
def State.issueLoadReq (s : State) (r : Req) (k n : Nat) (e : Elem) : State :=
  if r.ea % r.bytes ≠ 0 then s.claim r.tk k n { e with serial := r.id, landed := true, cause := 2, value := word r.ea }
  else (s.claim r.tk k n { e with serial := r.id }).putReq r

/-- GLD (R105). -/
def execGld (sm : Bool) (rd : Reg) (ra : Reg) (r : BitVec 2) (z : BitVec 2) (n : BitVec 1) (q : BitVec 1) (o : BitVec 5)
    (s : State) : Host.Outcome State Fault Refusal :=
  issue (.gld sm rd ra r z n q o) (fun x s => claimCheck s x (Reg.stNum rd) 1)
    (fun x s =>
      let (w, s) := s.mkReq (.gld sm rd ra r z n q o) x (globalEa (x.val 1) o (sizeBytes z)) (sizeBytes z)
      s.issueLoadReq { w with ret := r.toNat, nc := n == 1, acq := q == 1 } (Reg.stNum rd) 1
        { serial := w.id, size := z.toNat, ret := r.toNat, nc := n == 1, acq := q == 1 }) s
/-- GLDV (R106). -/
def execGldv (sm : Bool) (rd : Reg) (ra : Reg) (r : BitVec 2) (n : BitVec 1) (q : BitVec 1) (o : BitVec 5)
    (s : State) : Host.Outcome State Fault Refusal :=
  issue (.gldv sm rd ra r n q o) (fun x s => claimCheck s x (Reg.stNum rd) 8)
    (fun x s =>
      let (w, s) := s.mkReq (.gldv sm rd ra r n q o) x (globalEa (x.val 1) o 64) 64
      s.issueLoadReq { w with ret := r.toNat, nc := n == 1, acq := q == 1 } (Reg.stNum rd) 8
        { serial := w.id, size := 3, ret := r.toNat, nc := n == 1, acq := q == 1 }) s
/-- The binding that a pair of registers describes (R107); none for a count of 0. -/
def bindingOf (a d : Word) : Option Binding :=
  if fld d 32 16 = 0 then none
  else some { next := a.toNat, stride := signedOf 32 (fld d 0 32), left := fld d 32 16, size := fld d 48 2,
              ret := fld d 50 2, nc := bitAt d 52 }
/-- SBIND (R107). -/
def execSbind (sm : Bool) (rd : Reg) (ra : Reg) (s : State) : Host.Outcome State Fault Refusal :=
  issue (.sbind sm rd ra) noCheck (fun x s =>
    let d := s.readG x.tk (Reg.gnum ra + 1)
    if fld d 53 11 ≠ 0 then s.setStatus x.tk 4
    else (s.setStream x.tk (Reg.stNum rd)
      { s.stream x.tk (Reg.stNum rd) with bind := bindingOf (x.val 1) d }).setStatus x.tk 0) s
/-- The count word of a stream register (R108). -/
def countWord (q : Stream) : Word :=
  let landed := (q.entries.filter fun e => e.landed).length
  word (landed + at' 4 (q.entries.length - landed) + at' 8 (match q.bind with | some b => b.left | none => 0))
/-- SCNT (R108). -/
def execScnt (sm : Bool) (rd : Reg) (ra : Reg) (s : State) : Host.Outcome State Fault Refusal :=
  issue (.scnt sm rd ra) noCheck (fun x s => s.writeReg x.tk rd (countWord (s.stream x.tk (Reg.stNum ra)))) s

/-- A binding's next request may issue: a free entry, and no FENCE, MIGRATE, LAUNCH or CTXSV holds the thread's bindings
(R107, R153, R285, R289, R327). While the thread is parked in LDFE, LDFF, BARW or WAITW the request is made and takes effect as a
load before that acquire (R133; DESIGN CHOICE, log 86). -/
def State.bindingReady (s : State) (tk k : Nat) : Bool :=
  let q := s.stream tk k
  q.bind.isSome && decide (q.entries.length < 8) &&
    (match (s.thread tk).wait? with
      | some w => (match w.instr with
        | .fence _ _ _ | .migrate _ _ | .launch _ _ _ => false
        | _ => true)
      | none => true) &&
    !((s.waitsOf (coreOf tk)).any fun e => match e.2.instr with
      | .ctxsv _ _ _ _ => (e.2.vals.getD 1 0).toNat % 64 == slotOf tk
      | _ => false)
/-- BINDING_REQUEST_ISSUE (R107): the subject is the stream key, 8 × thread key + register. -/
def execBindingRequestIssue (s : State) : Host.Outcome State Fault Refusal :=
  let tk := s.subj.n / 8
  let k := s.subj.n % 8
  let q := s.stream tk k
  match q.bind with
  | none => .next s
  | some b =>
    if s.bindingReady tk k then
      let bind := if b.left ≤ 1 then none
        else some { b with next := natOf 64 ((b.next : Int) + b.stride), left := b.left - 1 }
      let s := s.setStream tk k { q with bind := bind }
      let i : Instr := .sbind false (.st ⟨k % 8, by omega⟩) (.g 0)
      let (w, s) := s.mkReq i { tk := tk, pc := 0, vals := [], fmt := 0, aux := 0, ord := 0, pre := 0 } b.next (2 ^ b.size)
      .next (s.issueLoadReq { w with ret := b.ret, nc := b.nc } k 1
        { serial := w.id, size := b.size, ret := b.ret, nc := b.nc, bound := true })
    else .next s
/-- STREAM_ELEMENT_LAND (R104): the response of a load arrives; it fills the L1 when the load may be served there. -/
def execStreamElementLand (s : State) : Host.Outcome State Fault Refusal :=
  match SMap.get? s.packets s.subj.n with
  | none => .next s
  | some p =>
    if s.behind p then .next (s.again .streamElementLand)
    else
      let s := s.dropPacket p.id
      match p.payload with
      | .land rid vals cause fill bytes =>
        match s.req? rid with
        | none => .next s
        | some r =>
          let s := match r.tgt with
            | some t => if fill && s.l1Serves r t then 
              s.l1Put r.node (Target.key t) bytes (s.pageOf r.node r.launch r.ea) else s
            | none => s
          .next (s.landLoad r vals cause)
      | _ => .next s
/-- The requests of a thread's markers reissued in place (R109): each marker waits again for its element. -/
def State.reissueMarkers (s : State) (tk k : Nat) : List Elem → List Elem → State
  | done, [] => s.setStream tk k { s.stream tk k with entries := done }
  | done, e :: es =>
    if e.landed && e.cause != 0 then
      let z := BitVec.ofNat 2 e.size
      let i : Instr := .gld false (.st ⟨k % 8, by omega⟩) (.g 0) (BitVec.ofNat 2 e.ret) z (BitVec.ofNat 1 (bit e.nc))
        (BitVec.ofNat 1 (bit e.acq)) 0
      let (w, s) := s.mkReq i { tk := tk, pc := 0, vals := [], fmt := 0, aux := 0, ord := 0, pre := 0 } e.value.toNat
        (2 ^ e.size)
      if w.ea % w.bytes ≠ 0 then s.reissueMarkers tk k (done ++ [{ e with serial := w.id, cause := 2 }]) es
      else
        (s.putReq { w with ret := e.ret, nc := e.nc, acq := e.acq }).reissueMarkers tk k
          (done ++ [{ e with serial := w.id, landed := false, cause := 0, value := 0 }]) es
    else s.reissueMarkers tk k (done ++ [e]) es
/-- Every marker of a thread's queues reissued; their acquires hold back only what the thread issues from now on (R109). -/
def State.reissueAll (s : State) (tk : Nat) : State :=
  let first := s.nextId
  let s := (List.range 8).foldl (fun s k => s.reissueMarkers tk k [] (s.stream tk k).entries) s
  { s with reqs := s.reqs.map fun e =>
      if e.2.tk == tk && decide (first ≤ e.2.id) then (e.1, { e.2 with holds := s.nextId }) else e }

/-! ### GST, GSTV -/

/-- A free entry of the store buffer and U below 255 (R110). -/
def storeRoom (x : Issue) (s : State) : Check :=
  if (s.core x.core).storeBuf.length < 32 ∧ (s.thread x.tk).u < 255 then .go else .park
/-- A request enters the store buffer and U increases; a misaligned one is logged at once (R110, R111, R142). -/
def State.enterBuffer (s : State) (r : Req) : State :=
  let bad := decide (r.ea % r.bytes ≠ 0)
  let s := s.putReq { r with stage := .buffered, fault := if bad then 2 else 0 }
  let s := (s.modThread r.tk fun th => { th with u := th.u + 1 }).modCore (coreOf r.tk) fun c =>
    { c with storeBuf := c.storeBuf ++ [r.id] }
  if bad then s.modThread r.tk fun th => { th with log := some (th.log.getD (2, word r.ea)) } else s
/-- GST (R111). -/
def execGst (sm : Bool) (rd : Reg) (ra : Reg) (r : BitVec 2) (z : BitVec 2) (q : BitVec 1) (o : BitVec 5) (s : State) :
    Host.Outcome State Fault Refusal :=
  issue (.gst sm rd ra r z q o) storeRoom
    (fun x s =>
      let (w, s) := s.mkReq (.gst sm rd ra r z q o) x (globalEa (x.val 1) o (sizeBytes z)) (sizeBytes z)
      s.enterBuffer { w with ret := r.toNat, rel := q == 1, data := (x.val 0).toNat % 2 ^ (8 * sizeBytes z) }) s
/-- GSTV (R112). -/
def execGstv (sm : Bool) (rd : Reg) (ra : Reg) (r : BitVec 2) (q : BitVec 1) (o : BitVec 5) (s : State) :
    Host.Outcome State Fault Refusal :=
  issue (.gstv sm rd ra r q o) storeRoom
    (fun x s =>
      let (w, s) := s.mkReq (.gstv sm rd ra r q o) x (globalEa (x.val 1) o 64) 64
      s.enterBuffer { w with
        ret := r.toNat, rel := q == 1, data := ofBytes (bytesOfDwords (s.readGroup x.tk rd)) }) s
/-- What holds the head of a store buffer (R111, R116 to R118, R141). -/
def State.leaveBlocked (s : State) (r : Req) : Bool :=
  s.acqBlocked r || (r.rel && s.releaseBlocked r) ||
    s.anyEarlier r fun q => isLoad q.instr && (q.stage == .port || (q.overlaps r && q.stage != .performed))
/-- The head of the store buffer taken off. -/
def State.popBuffer (s : State) (core : Nat) : State := s.modCore core fun c => { c with storeBuf := c.storeBuf.tail }
/-- A request that leaves the buffer with a fault writes nothing and is acknowledged (R113, R142). -/
def State.leaveFault (s : State) (r : Req) (cause : Nat) : State :=
  if isAmo r.instr then s.landOld r 0 cause else (s.logFault r cause).acked r
/-- STORE_BUFFER_LEAVE (R110): the subject is the core. -/
def execStoreBufferLeave (s : State) : Host.Outcome State Fault Refusal :=
  let core := s.subj.n
  match (s.core core).storeBuf.head? with
  | none => .next s
  | some rid =>
    match s.req? rid with
    | none => .next (s.popBuffer core)
    | some r =>
      if s.leaveBlocked r then .next s
      else if r.fault ≠ 0 then .next ((s.popBuffer core).leaveFault r r.fault)
      else match s.translateFor r.tk r.node r.launch r.ea true with
        | .miss => .next (s.startWalk r.node r.launch r.ea)
        | .fault c => .next ((s.popBuffer core).leaveFault r c)
        | .ok t =>
          if s.moved r t || !s.portFree r.node || s.portBehind r then .next s
          else
            let s := s.popBuffer core
            let s := match t with
              | .host _ => s.modMine r fun th => { th with hostStore := true }
              | _ => s
            .next (s.sendReq r t)
/-- STORE_ACKNOWLEDGE (R110, R113): the subject is the packet. -/
def execStoreAcknowledge (s : State) : Host.Outcome State Fault Refusal :=
  match SMap.get? s.packets s.subj.n with
  | none => .next s
  | some p =>
    if s.behind p then .next (s.again .storeAcknowledge)
    else
      let s := s.dropPacket p.id
      match p.payload with
      | .ack rid cause =>
        match s.req? rid with
        | none => .next s
        | some r => .next ((if cause = 0 ∨ isLineOp r.instr = true then s else s.logFault r cause).acked r)
      | _ => .next s

/-! ### Line control (R114) -/

/-- Lines of a team's L1 invalidated: those for which p holds; loads in flight do not fill them. -/
def State.l1Drop (s : State) (node : Nat) (p : Nat → Bool) : State :=
  { s.modTeam node (fun t => { t with l1 := t.l1.filter fun l => !p l.pa }) with
    reqs := s.reqs.map fun e =>
      if e.2.node == node && isLoad e.2.instr && (match e.2.tgt with | some t => p (Target.key t / 64) | none => false) then
        (e.1, { e.2 with nc := true }) else e }
/-- The target of a line-control instruction at its issue. A TLB miss sends a walk to the die's walker (R129); the instruction
takes effect by what the tables hold now. (DESIGN CHOICE, log 94.) -/
def State.lineNow (s : State) (node key ea : Nat) : Xlat × State :=
  match s.lineXlat node key ea with
  | .miss =>
    (match (s.launch? key).bind fun l => s.walkFrom l.root ea with
      | some leaf => leafLine leaf ea
      | none => .fault 4, s.startWalk node key ea)
  | x => (x, s)
/-- GINV. -/
def execGinv (sm : Bool) (ra : Reg) (s : State) : Host.Outcome State Fault Refusal :=
  issue (.ginv sm ra) noCheck (fun x s =>
    if x.val 0 = -1 then s.l1Drop x.node fun _ => true
    else match s.lineNow x.node (s.thread x.tk).launch (x.val 0).toNat with
      | (.ok t, s) => s.l1Drop x.node fun l => l == Target.key t / 64
      | (_, s) => s) s
/-- A line-control request made with its retention hint, unless its address is at its issue one on which it does nothing. (DEDUCED, log 63.) -/
def State.lineReq (s : State) (i : Instr) (x : Issue) (hint : Nat) (counts : Bool) : State :=
  match s.lineNow x.node (s.thread x.tk).launch (x.val 0).toNat with
  | (.fault _, s) => s
  | (_, s) =>
    let (w, s) := s.mkReq i x ((x.val 0).toNat / 64 * 64) 64
    let s := s.putReq { w with ret := hint }
    if counts then s.modThread x.tk fun th => { th with u := th.u + 1 } else s
/-- GPRF: its hint is in the word. -/
def execGprf (sm : Bool) (ra : Reg) (r : BitVec 2) (s : State) : Host.Outcome State Fault Refusal :=
  issue (.gprf sm ra r) noCheck (fun x s => s.lineReq (.gprf sm ra r) x r.toNat false) s
/-- A line-control request that counts in U; at U = 255 it parks. (DEDUCED, log 63.) -/
def issueLineOp (i : Instr) (s : State) : Host.Outcome State Fault Refusal :=
  issue i (fun x s => if (s.thread x.tk).u < 255 then .go else .park) (fun x s => s.lineReq i x 0 true) s
/-- LCLEAN. -/
def execLclean (sm : Bool) (ra : Reg) (s : State) : Host.Outcome State Fault Refusal := issueLineOp (.lclean sm ra) s
/-- LFLUSH. -/
def execLflush (sm : Bool) (ra : Reg) (s : State) : Host.Outcome State Fault Refusal := issueLineOp (.lflush sm ra) s

/-! ### At the owners -/

/-- The resolved hint of a request at its owner. -/
def Req.hint (r : Req) : Nat := match r.tgt with | some t => t.hint r.ret | none => 0
/-- The line that a performed request touched in its slice (R120, R121, R137). -/
def State.touchLine (s : State) (r : Req) : State :=
  match r.tgt with
  | some (.line pa die c h) =>
    match r.instr with
    | .lclean _ _ | .lflush _ _ => s
    | _ =>
      s.l2Touch (sliceOf r.dest) (.line pa die c h) r.hint (!isLoad r.instr && !isLineOp r.instr)
        (!isLoad r.instr && !isStore r.instr && !isLineOp r.instr)
  | _ => s
/-- A request leaves its slice's queue. -/
def State.leaveQueue (s : State) (r : Req) : State :=
  match r.tgt with
  | some (.line _ _ _ _) => s.modSlice (sliceOf r.dest) fun x => { x with queue := x.queue.filter (· != r.id) }
  | _ => s
/-- An earlier request to the same line is in the slice's queue. (DEDUCED, log 58.) -/
def State.lineBusy (s : State) (r : Req) : Bool :=
  ((s.slice (sliceOf r.dest)).queue.takeWhile (· != r.id)).any fun q => match s.req? q with
    | some e => e.key / 64 == r.key / 64
    | none => false
/-- The banks whose engine port a request uses (R95, R102). -/
def Req.banks (r : Req) : List Nat :=
  match r.tgt with
  | some (.window node off) => banksOf node off r.bytes
  | _ => []
/-- A store or update that was aimed at a team which has been saved since goes to its image (R313). -/
def State.redirected (s : State) (r : Req) : Req :=
  if isBuffered r.instr then { r with tgt := r.tgt.map (s.redirect r.id r.bytes) } else r
/-- A request performed at its owner when its turn has come: what must take effect before it has been performed, unless it
goes ahead (R116 to R118), and in a slice the earlier ones of its line too (R125, R137), elsewhere those sent before it on its
way (R130). Until then it is tried again in the next cycle. -/
def State.atOwner (s : State) (mv : Move) (rid : Nat) (f : State → Req → State) : State :=
  match s.req? rid with
  | none => s
  | some r =>
    let line := match r.tgt with | some (.line _ _ _ _) => true | _ => false
    if r.stage = .performed ∨ r.stage = .port ∨ r.stage = .waiter then s
    else if (if line then s.lineBusy r || (s.mustWait r && !s.isAhead r)
        else s.earlierSent r || s.meetsAhead r || (s.mustWait r && !s.mayGoAhead r)) then s.retryMove mv
    else
      let r := s.redirected r
      match s.askPorts .fabric r.id r.banks with
      | (false, s) => s.retryMove mv
      | (true, s) =>
        let s := (if line then s else s.goAhead r).leaveQueue r
        let c := s.ownerCause r
        let s := match c, r.tgt with | 9, some t => s.logPoison t | _, _ => s
        ((if c ≠ 0 then s.ownerFault r c else (f s r).touchLine r)).settleAhead
/-- OWNER_STORE (R116): the subject is the request. -/
def execOwnerStore (s : State) : Host.Outcome State Fault Refusal :=
  .next (s.atOwner (.ev .ownerStore s.subj) s.subj.n fun s r => s.performStore r)
/-- A load or line operation at its owner. -/
def State.ownerReadStep (s : State) (rid : Nat) : State :=
  s.atOwner (.ownerRead rid) rid fun s r => if isLoad r.instr then s.performLoad r else s.performLine r

/-- A bounced request: the remap response carries the slice's die's map to the stream port (R126). -/
def State.bounce (s : State) (r : Req) : State :=
  let d := sliceOf r.dest / 16
  (s.putReq { r with stage := .bounced }).send r.dest r.node 1
    (.map d (s.pkg.bucketMaps.getD d []) (s.pkg.mapGens.getD d 0) (some r.id)) .mapInstall
/-- SLICE_ACCEPT (R125): a retired slice bounces the request (R126), another accepts it when what must take effect before it
has been accepted at its owner (R116 to R118). The subject is the request. -/
def execSliceAccept (s : State) : Host.Outcome State Fault Refusal :=
  match s.req? s.subj.n with
  | none => .next s
  | some r =>
    if r.stage ≠ .sent then .next s
    else
      let k := sliceOf r.dest
      let x := s.slice k
      let ahead := s.mayGoAhead r
      if s.earlierSent r then .next (s.again .sliceAccept)
      else if x.retired then .next (s.bounce r)
      else if (s.unaccepted r && !ahead) || s.meetsAhead r || x.draining || decide (16 ≤ x.queue.length) ||
          x.accepted == some s.cycle then
        .next (s.again .sliceAccept)
      else
        let s := if ahead then s.goAhead r else s
        .next ((s.putReq { r with stage := .queued }).modSlice k fun x =>
          { x with queue := x.queue ++ [r.id], accepted := some s.cycle })
/-- The request that a slice looks up next. -/
def State.nextLookup (s : State) (k : Nat) : Option Req :=
  (s.slice k).queue.findSome? fun rid => match s.req? rid with
    | some r => if r.stage = .queued then some r else none
    | none => none
/-- SLICE_LOOKUP (R125): the subject is the slice. A hit takes 8 cycles; a miss waits for its DRAM fill.
(DEDUCED, log 13.) -/
def execSliceLookup (s : State) : Host.Outcome State Fault Refusal :=
  let k := s.subj.n
  match s.nextLookup k with
  | none => .next s
  | some r =>
    let s := (s.putReq { r with stage := .filling }).modSlice k fun x => { x with looked := some s.cycle }
    if ((s.slice k).line? r.key).isSome then .next (s.addMove (s.cycle + 8) (performMove r))
    else
      let (d, s) := s.delay
      .next (s.addTimer (s.cycle + 1 + d) .dramFill { n := r.id })
/-- DRAM_FILL (R121): the line is there, and the request is performed. The subject is the request. -/
def execDramFill (s : State) : Host.Outcome State Fault Refusal :=
  match s.req? s.subj.n with
  | none => .next s
  | some r => .next (s.doNext (performMove r))

/-! ### Retirement and maps (R126, R127) -/

/-- The next live slice of a die, counting upward from a slice. -/
def State.nextLive (s : State) (die : Nat) : Nat → Nat → Nat
  | 0, k => k
  | n + 1, k => let j := (k + 1) % 16
    if (s.slice (16 * die + j)).retired || (s.slice (16 * die + j)).draining then s.nextLive die n j else j
/-- A waiter of a retiring slice is answered with a remap response. -/
def State.remapWaiters (s : State) (k : Nat) : State :=
  (s.waiting.filter fun r => r.dest == sliceNode k).foldl (fun s r => (s.unwait r.id).bounce r) s
/-- A map sent to every stream port. -/
def State.sendMap (s : State) (src die : Nat) : State :=
  (List.range 448).foldl (fun s n =>
    if s.absent n then s
    else s.send src n 1 (.map die (s.pkg.bucketMaps.getD die []) (s.pkg.mapGens.getD die 0) none) .mapInstall) s
/-- SLICE_RETIRE (R126): the slice accepts no more; when its queue has drained, its lines are dropped, its buckets move
to the next live slice, and every stream port is sent the new map. -/
def execSliceRetire (slice : Nat) (s : State) : Host.Outcome State Fault Refusal :=
  let x := s.slice slice
  let die := slice / 16
  if x.retired || decide (64 ≤ slice) then .next s
  else
    let s := (s.modSlice slice fun x => { x with draining := true })
    if !x.queue.isEmpty then .next (s.again (.sliceRetire slice))
    else
      let j := s.nextLive die 15 (slice % 16)
      let maps := s.pkg.bucketMaps
      let s := s.modSlice slice fun x => { x with draining := false, retired := true, lines := [] }
      let s := { s with pkg := { s.pkg with
        bucketMaps := maps.set die ((maps.getD die []).map fun b => if b = slice % 16 then j else b)
        mapGens := s.pkg.mapGens.set die ((s.pkg.mapGens.getD die 0 + 1) % 65536) } }
      .next (((s.remapWaiters slice).sendMap (sliceNode slice) die).logEntry 2 (4 + die) (slice % 16) 0)
/-- CORRECTED_ERROR (R126): the slice's count rises; steward firmware retires the slice when its count is above the
threshold that it has set (0: none set). (DESIGN CHOICE, log 70.) -/
def execCorrectedError (slice : Nat) (s : State) : Host.Outcome State Fault Refusal :=
  if 64 ≤ slice then .next s
  else
    let s := (s.modSlice slice fun x => { x with errors := x.errors + 1 })
    let n := (s.slice slice).errors
    let s := s.logEntry 1 (4 + slice / 16) (slice % 16) n
    if 0 < s.pkg.threshold ∧ s.pkg.threshold < n then .next (s.doNext (.ev (.sliceRetire slice) {})) else .next s
/-- A bounced request goes back to its stream port, to be reissued in its original order (R127). -/
def State.unbounce (s : State) (rid : Nat) : State :=
  match s.req? rid with
  | none => s
  | some r => if r.stage = .bounced then s.putReq { r with stage := .port } else s
/-- MAP_INSTALL (R127): the subject is the packet. -/
def execMapInstall (s : State) : Host.Outcome State Fault Refusal :=
  match SMap.get? s.packets s.subj.n with
  | none => .next s
  | some p =>
    if s.behind p then .next (s.again .mapInstall)
    else
      let s := s.dropPacket p.id
      match p.payload with
      | .map die entries gen rid =>
        let s := if (s.team p.dst).mapGens.getD die 0 = gen then s
          else s.modTeam p.dst fun t => { t with maps := t.maps.set die entries, mapGens := t.mapGens.set die gen }
        .next (match rid with | some r => s.unbounce r | none => s)
      | _ => .next s

/-! ### Translation and fetch -/

/-- Requests of a page that has no translation fault with cause 4 when their turn comes. -/
def State.failPage (s : State) (node key va : Nat) : State :=
  { s with reqs := s.reqs.map fun e =>
      if e.2.node = node ∧ e.2.launch = key ∧ (e.2.stage = .port ∨ e.2.stage = .buffered) ∧ e.2.fault = 0 ∧
          addrClass e.2.ea = .virtual ∧ e.2.ea / 65536 = va / 65536 then
        (e.1, { e.2 with fault := 4 }) else e }
/-- The line of a fetch by its page's leaf, or the cause of its fault (R81): as a thread-level load of the page. A page of a
peer package that cannot be reached gives cause 7 (DESIGN CHOICE, log 88). -/
def State.fetchLine (s : State) (leaf : Word) (va : Nat) : Except Nat (List Byte) :=
  match leafAccess leaf va false with
  | .error c => .error c
  | .ok t =>
    if s.targetCause t 64 ≠ 0 then .error (s.targetCause t 64)
    else if s.poisoned t 64 then .error 9
    else .ok (s.bytes (Target.key t) 64)
/-- The PTROOT that a thread's fetches use. -/
def State.rootOf (s : State) (tk : Nat) : Nat := match s.launchOfThread tk with | some l => l.root | none => 0
/-- The word at a thread's pc in its instruction cache; none is a miss. -/
def State.cached (s : State) (tk : Nat) : Option (List Byte) :=
  let pc := (s.thread tk).pc.toNat
  ((s.team (nodeOf (coreOf tk))).icache.find? fun l => l.root == s.rootOf tk && l.va == pc / 64).map fun l =>
    (l.bytes.drop (pc % 64)).take 4
/-- The fetch trap (kind 10, R81). -/
def State.fetchTrap (s : State) (tk cause : Nat) : State := s.trap tk 10 cause ((s.thread tk).pc.zeroExtend 64)
/-- Fetches from a page that has no translation end in the fetch trap with cause 4. -/
def State.failFetch (s : State) (node key va : Nat) : State :=
  ((s.threads.filter fun e => e.2.run == .fetch && nodeOf (coreOf e.1) == node && e.2.launch == key &&
    e.2.pc.toNat / 65536 == va / 65536).map fun e => e.1).foldl (fun s tk => s.fetchTrap tk 4) s
/-- The engine command that asked for a walk learns that its page has no translation. -/
def State.failEngine (s : State) (w : Walk) : State :=
  let tell := fun (a : Active) => if a.cmd.id = w.by' then { a with noLeaf := some (w.va / 65536) } else a
  if w.by' = 0 then s
  else { s with
    engines := s.engines.map fun e => (e.1, { e.2 with active := e.2.active.map tell })
    cores := s.cores.map fun e => (e.1, { e.2 with bankRun := e.2.bankRun.map tell }) }
/-- PAGE_WALK_DONE (R129, R318): the subject is the node and the walk. -/
def execPageWalkDone (s : State) : Host.Outcome State Fault Refusal :=
  let node := s.subj.n
  match (s.team node).walks.find? fun w => w.id == s.subj.m with
  | none => .next s
  | some w =>
    let s := (s.modTeam node fun t => { t with walks := t.walks.filter fun v => v.id != w.id }).beginWalk (dieOfNode node)
    match s.walkFrom w.root w.va with
    | some leaf => .next (s.tlbFill node w.launch w.root w.va leaf)
    | none => .next (((s.failPage node w.launch w.va).failFetch node w.launch w.va).failEngine w)
/-- A line entered in an instruction cache of 64 KiB, the size of a team's, on a channel core too; the oldest gives way.
(DESIGN CHOICE, log 6, 66.) -/
def State.icachePut (s : State) (node root va : Nat) (bytes : List Byte) : State :=
  s.modTeam node fun t =>
    let rest := t.icache.filter fun l => !(l.root == root && l.va == va)
    { t with icache := rest.drop (rest.length - 1023) ++ [{ root := root, va := va, bytes := bytes }] }
/-- I_CACHE_FILL (R81): the line of a parked thread arrives, and it is ready from the next cycle; or the fetch faults. The
fetch address is translated through the node's TLB, and a miss waits for its walk (R129). The subject is the thread key. -/
def execICacheFill (s : State) : Host.Outcome State Fault Refusal :=
  let tk := s.subj.n
  if (s.thread tk).run ≠ .fetch then .next s
  else
    let node := nodeOf (coreOf tk)
    let key := (s.thread tk).launch
    let va := 64 * ((s.thread tk).pc.toNat / 64)
    match s.launch? key with
    | none => .next (s.fetchTrap tk 4)
    | some l =>
      match s.tlbFind node key l va with
      | none => .next ((s.startWalk node key va).again .iCacheFill)
      | some e =>
        match s.fetchLine e.leaf va with
        | .error c => .next ((s.logCause key va c).fetchTrap tk c)
        | .ok bs =>
          .next ((s.icachePut node (s.rootOf tk) (va / 64) bs).modThread tk fun th =>
            { th with run := .ready, notBefore := s.cycle + 1 })

end Sys2Proof.Machine
end

