-- ==== Sys2Proof/Machine/Atomics.lean ====
section
/-! DEFINITION. Atomics, reductions, full/empty operations, barriers, WAITW and FENCE, opcodes 0x24 to 0x27 (R133 to
R153), with the steps of their owners and the withdrawals of R148. -/

namespace Sys2Proof.Machine

/-! ### AMO, ACAS and RED (R139 to R143) -/

/-- The operand size by the prefix's fmt (R138, R140). -/
def atomicBytes (fmt : Nat) : Nat := if fmt = 8 then 4 else 8
/-- An AMO, ACAS or RED enters the store buffer. `av` is the field of the address; the operand is the next. -/
def issueAtomic (i : Instr) (av : Nat) (lands : Bool) (s : State) : Host.Outcome State Fault Refusal :=
  issue i storeRoom (fun x s =>
    let n := atomicBytes x.fmt
    let (w, s) := s.mkReq i x (x.val av).toNat n
    let s := if lands then s.modThread x.tk fun th => { th with amos := th.amos + 1 } else s
    s.enterBuffer { w with
      data := (x.val (av + 1)).toNat % 2 ^ (8 * n), exp := (x.val 0).toNat % 2 ^ (8 * n)
      acq := x.ord % 2 == 1, rel := x.ord / 2 == 1 }) s

/-- AMOADD (R140). -/
def execAmoadd (sm : Bool) (rd : Reg) (ra : Reg) (rb : Reg) (s : State) : Host.Outcome State Fault Refusal :=
  issueAtomic (.amoadd sm rd ra rb) 1 true s

/-- AMOAND (R140). -/
def execAmoand (sm : Bool) (rd : Reg) (ra : Reg) (rb : Reg) (s : State) : Host.Outcome State Fault Refusal :=
  issueAtomic (.amoand sm rd ra rb) 1 true s

/-- AMOOR (R140). -/
def execAmoor (sm : Bool) (rd : Reg) (ra : Reg) (rb : Reg) (s : State) : Host.Outcome State Fault Refusal :=
  issueAtomic (.amoor sm rd ra rb) 1 true s

/-- AMOXOR (R140). -/
def execAmoxor (sm : Bool) (rd : Reg) (ra : Reg) (rb : Reg) (s : State) : Host.Outcome State Fault Refusal :=
  issueAtomic (.amoxor sm rd ra rb) 1 true s

/-- AMOMIN (R140). -/
def execAmomin (sm : Bool) (rd : Reg) (ra : Reg) (rb : Reg) (s : State) : Host.Outcome State Fault Refusal :=
  issueAtomic (.amomin sm rd ra rb) 1 true s

/-- AMOMAX (R140). -/
def execAmomax (sm : Bool) (rd : Reg) (ra : Reg) (rb : Reg) (s : State) : Host.Outcome State Fault Refusal :=
  issueAtomic (.amomax sm rd ra rb) 1 true s

/-- AMOMINU (R140). -/
def execAmominu (sm : Bool) (rd : Reg) (ra : Reg) (rb : Reg) (s : State) : Host.Outcome State Fault Refusal :=
  issueAtomic (.amominu sm rd ra rb) 1 true s

/-- AMOMAXU (R140). -/
def execAmomaxu (sm : Bool) (rd : Reg) (ra : Reg) (rb : Reg) (s : State) : Host.Outcome State Fault Refusal :=
  issueAtomic (.amomaxu sm rd ra rb) 1 true s

/-- AMOSWP (R140). -/
def execAmoswp (sm : Bool) (rd : Reg) (ra : Reg) (rb : Reg) (s : State) : Host.Outcome State Fault Refusal :=
  issueAtomic (.amoswp sm rd ra rb) 1 true s

/-- ACAS (R140): the expected value is the old value of rd. -/
def execAcas (sm : Bool) (rd : Reg) (ra : Reg) (rb : Reg) (s : State) : Host.Outcome State Fault Refusal :=
  issueAtomic (.acas sm rd ra rb) 1 true s

/-- REDADD (R143). -/
def execRedadd (sm : Bool) (ra : Reg) (rb : Reg) (s : State) : Host.Outcome State Fault Refusal :=
  issueAtomic (.redadd sm ra rb) 0 false s

/-- REDAND (R143). -/
def execRedand (sm : Bool) (ra : Reg) (rb : Reg) (s : State) : Host.Outcome State Fault Refusal :=
  issueAtomic (.redand sm ra rb) 0 false s

/-- REDOR (R143). -/
def execRedor (sm : Bool) (ra : Reg) (rb : Reg) (s : State) : Host.Outcome State Fault Refusal :=
  issueAtomic (.redor sm ra rb) 0 false s

/-- REDXOR (R143). -/
def execRedxor (sm : Bool) (ra : Reg) (rb : Reg) (s : State) : Host.Outcome State Fault Refusal :=
  issueAtomic (.redxor sm ra rb) 0 false s

/-- REDMIN (R143). -/
def execRedmin (sm : Bool) (ra : Reg) (rb : Reg) (s : State) : Host.Outcome State Fault Refusal :=
  issueAtomic (.redmin sm ra rb) 0 false s

/-- REDMAX (R143). -/
def execRedmax (sm : Bool) (ra : Reg) (rb : Reg) (s : State) : Host.Outcome State Fault Refusal :=
  issueAtomic (.redmax sm ra rb) 0 false s

/-- REDMINU (R143). -/
def execRedminu (sm : Bool) (ra : Reg) (rb : Reg) (s : State) : Host.Outcome State Fault Refusal :=
  issueAtomic (.redminu sm ra rb) 0 false s

/-- REDMAXU (R143). -/
def execRedmaxu (sm : Bool) (ra : Reg) (rb : Reg) (s : State) : Host.Outcome State Fault Refusal :=
  issueAtomic (.redmaxu sm ra rb) 0 false s

/-- ATOMIC_AT_OWNER (R137, R140): the subject is the request. -/
def execAtomicAtOwner (s : State) : Host.Outcome State Fault Refusal :=
  .next (s.atOwner (.ev .atomicAtOwner s.subj) s.subj.n fun s r => s.performAtomic r)
/-- AMO_REPLY (R140): the old value lands; the subject is the packet. -/
def execAmoReply (s : State) : Host.Outcome State Fault Refusal :=
  match SMap.get? s.packets s.subj.n with
  | none => .next s
  | some p =>
    if s.behind p then .next (s.again .amoReply)
    else
      let s := s.dropPacket p.id
      match p.payload with
      | .old rid v cause =>
        match s.req? rid with
        | none => .next s
        | some r => .next (s.landOld r v cause)
      | _ => .next s

/-! ### Instructions that wait for an owner's answer (R145, R146, R148, R150) -/

/-- An address that is a multiple of 8, or the memory-fault trap with cause 2 (R145, R150). -/
def alignCheck (av : Nat) (x : Issue) (_ : State) : Check :=
  if (x.val av).toNat % 8 ≠ 0 then .trap 3 2 (x.val av) else .go
/-- The wait of a thread changed. -/
def State.modWait (s : State) (tk : Nat) (f : Wait → Wait) : State :=
  match (s.thread tk).wait? with
  | none => s
  | some w => s.modThread tk fun th => { th with run := .wait (f w) }
/-- A full/empty instruction (R145). -/
def isFeInstr (i : Instr) : Bool :=
  match i with
  | .ldfe _ _ _ _ | .ldff _ _ _ _ | .stfe _ _ _ _ | .stff _ _ _ _ | .feq _ _ _ | .feset _ _ _ => true
  | _ => false
/-- A release point among the instructions that wait (Table AT-1). -/
def isReleaseWait (i : Instr) : Bool :=
  match i with
  | .stfe _ _ _ _ | .stff _ _ _ _ | .bara _ _ _ | .barw _ _ _ _ | .garr _ _ _ => true
  | _ => false
/-- The request that a thread's wait sends to the owner of an address (R146): a waiting request once the retries are
spent. After a counted BARW arrival it is a wait alone, for the phase of the old word that the wait keeps (R152). -/
def State.askOwner (s : State) (tk : Nat) (w : Wait) (ea : Nat) (ret : Nat) (data exp : Nat) : State :=
  let x : Issue := { tk := tk, pc := 0, vals := [], fmt := 0, aux := 4 * ret, ord := 0, pre := 0 }
  let (r, s) := s.mkReq w.instr x ea 8
  let retries := (s.core (coreOf tk)).feretry.toNat % 256
  let alone := w.stage == 1
  let old := w.vals.getD 0 0
  (s.putReq { r with
    data := if alone then old.toNat else data
    exp := if alone then barPhase old else exp
    rel := isReleaseWait w.instr && !alone
    waiting := !isFeInstr w.instr || retries == 0 || decide (retries < w.count)
    waitOnly := alone }).modWait tk fun w => { w with req := r.id }
/-- The destination of an instruction that waits for an owner. -/
def waitRd (i : Instr) : Reg :=
  match i with
  | .ldfe _ rd _ _ | .ldff _ rd _ _ | .feq _ rd _ | .bara _ rd _ | .barw _ rd _ _ | .waitw _ rd _ _ _ | .garr _ rd _
  | .gwait _ rd _ _ => rd
  | _ => .g 0
/-- An instruction that parks until its owner answers: `av` is the field of its address, `e` its timeout. A BARW that is
reissued after its arrival was counted is a wait alone, for the phase held in its rd (R152). -/
def issueOwnerWait (i : Instr) (av : Nat) (e : Option Nat) (data exp : Issue → Nat) (s : State) :
    Host.Outcome State Fault Refusal :=
  issue i (alignCheck av) (fun x s =>
    let alone := match x.carry with
      | some c => c.alone
      | none => false
    let old := s.readGS x.tk (waitRd i)
    let s := s.beginWait i x (e.bind s.bound) (bit alone)
    match (s.thread x.tk).wait? with
    | none => s
    | some w =>
      let w := { w with stamp := x.ret, vals := if alone then w.vals.set 0 old else w.vals }
      (s.modWait x.tk fun _ => w).askOwner x.tk w (x.val av).toNat x.ret (data x) (exp x)) s

/-- LDFE (R145). -/
def execLdfe (sm : Bool) (rd : Reg) (ra : Reg) (t : BitVec 4) (s : State) : Host.Outcome State Fault Refusal :=
  issueOwnerWait (.ldfe sm rd ra t) 1 (some t.toNat) (fun _ => 0) (fun _ => 0) s
/-- LDFF (R145). -/
def execLdff (sm : Bool) (rd : Reg) (ra : Reg) (t : BitVec 4) (s : State) : Host.Outcome State Fault Refusal :=
  issueOwnerWait (.ldff sm rd ra t) 1 (some t.toNat) (fun _ => 0) (fun _ => 0) s
/-- STFE (R145). -/
def execStfe (sm : Bool) (rd : Reg) (ra : Reg) (t : BitVec 4) (s : State) : Host.Outcome State Fault Refusal :=
  issueOwnerWait (.stfe sm rd ra t) 1 (some t.toNat) (fun x => (x.val 0).toNat) (fun _ => 0) s
/-- STFF (R145). -/
def execStff (sm : Bool) (rd : Reg) (ra : Reg) (t : BitVec 4) (s : State) : Host.Outcome State Fault Refusal :=
  issueOwnerWait (.stff sm rd ra t) 1 (some t.toNat) (fun x => (x.val 0).toNat) (fun _ => 0) s
/-- FEQ (R145). -/
def execFeq (sm : Bool) (rd : Reg) (ra : Reg) (s : State) : Host.Outcome State Fault Refusal :=
  issueOwnerWait (.feq sm rd ra) 1 none (fun _ => 0) (fun _ => 0) s
/-- FESET (R145). -/
def execFeset (sm : Bool) (ra : Reg) (v : BitVec 1) (s : State) : Host.Outcome State Fault Refusal :=
  issueOwnerWait (.feset sm ra v) 0 none (fun _ => 0) (fun _ => 0) s
/-- A BARI operand that is refused (R150). -/
def bariBad (b : Word) : Bool := fld b 16 48 != 0 || fld b 0 16 == 0
/-- BARI (R150): an operand out of range is refused at once. -/
def execBari (sm : Bool) (rd : Reg) (ra : Reg) (s : State) : Host.Outcome State Fault Refusal :=
  issue (.bari sm rd ra) (alignCheck 1) (fun x s =>
    if bariBad (x.val 0) then s.setStatus x.tk 4
    else
      let s := s.beginWait (.bari sm rd ra) x none 0
      match (s.thread x.tk).wait? with
      | none => s
      | some w => s.askOwner x.tk w (x.val 1).toNat x.ret (x.val 0).toNat 0) s
/-- BARA (R150). -/
def execBara (sm : Bool) (rd : Reg) (ra : Reg) (s : State) : Host.Outcome State Fault Refusal :=
  issueOwnerWait (.bara sm rd ra) 1 none (fun _ => 0) (fun _ => 0) s
/-- BARW (R150). -/
def execBarw (sm : Bool) (rd : Reg) (ra : Reg) (t : BitVec 4) (s : State) : Host.Outcome State Fault Refusal :=
  issueOwnerWait (.barw sm rd ra t) 1 (some t.toNat) (fun _ => 0) (fun _ => 0) s
/-- WAITW (R150): the value of rd is the one that the masked word must differ from. -/
def execWaitw (sm : Bool) (rd : Reg) (ra : Reg) (t : BitVec 4) (m : BitVec 3) (s : State) :
    Host.Outcome State Fault Refusal :=
  issueOwnerWait (.waitw sm rd ra t m) 1 (some t.toNat) (fun _ => 0) (fun x => (x.val 0).toNat) s

/-- FE_REQUEST_AT_OWNER (R146): the subject is the request. -/
def execFeRequestAtOwner (s : State) : Host.Outcome State Fault Refusal :=
  .next (s.atOwner (.ev .feRequestAtOwner s.subj) s.subj.n fun s r => s.performFe r)
/-- BARRIER_ARRIVAL (R149): the subject is the request. -/
def execBarrierArrival (s : State) : Host.Outcome State Fault Refusal :=
  .next (s.atOwner (.ev .barrierArrival s.subj) s.subj.n fun s r => s.performArrival r)
/-- BARRIER_WORD_REQUEST (R150): the subject is the request. -/
def execBarrierWordRequest (s : State) : Host.Outcome State Fault Refusal :=
  .next (s.atOwner (.ev .barrierWordRequest s.subj) s.subj.n fun s r => s.performBarrierWord r)

/-- The address field of an instruction that waits for an owner. -/
def waitAddr (w : Wait) : Word :=
  match w.instr with
  | .feset _ _ _ => w.vals.getD 0 0
  | _ => w.vals.getD 1 0
/-- The back-off of the core's FERETRY (R146). -/
def State.backoff (s : State) (core : Nat) : Nat := 8 * ((s.core core).feretry.toNat / 256)
/-- The end of a wait that is withdrawn (R148, R150, R152): with the old word of a counted BARW arrival. -/
def State.expireWait (s : State) (tk : Nat) (w : Wait) : State :=
  (if w.stage = 1 then s.writeGS tk (waitRd w.instr) (w.vals.getD 0 0) else s).endWithdrawn tk w (w.stage == 1)
/-- A not-ready answer: the request is sent again after the back-off (R146). A counted arrival keeps its old word. -/
def State.retryLater (s : State) (r : Req) (w : Wait) (v : Word) (counted : Bool) : State :=
  (s.modWait r.tk fun w => { w with
    req := 0, count := w.count + 1
    stage := if counted then 1 else w.stage, vals := if counted then w.vals.set 0 v else w.vals }).addTimer
      (s.cycle + s.backoff (coreOf r.tk)) .feResend { n := r.tk, m := w.id }
/-- An owner's answer reaches the thread that waits (R145, R146, R148, R150). -/
def State.takeAnswer (s : State) (rid st : Nat) (v : Word) (writes : Bool) : State :=
  match s.req? rid with
  | none => s
  | some r =>
    let s := s.delReq rid
    match s.waitFor r with
    | none => s
    | some w =>
      if 16 ≤ st then s.trap r.tk 3 (st - 16) (word r.ea)
      else if st = 9 ∨ (st = 8 ∧ (r.withdrawn = true ∨ w.gone = true)) then
        (if writes then s.writeGS r.tk (waitRd r.instr) v else s).endWithdrawn r.tk w writes
      else if st = 8 then s.retryLater r w v writes
      else (if writes then s.writeGS r.tk (waitRd r.instr) v else s).finishWait r.tk st
/-- An answer packet taken off the fabric in the order of its path. -/
def State.answerStep (s : State) (ev : Instr) : State :=
  match SMap.get? s.packets s.subj.n with
  | none => s
  | some p =>
    if s.behind p then s.again ev
    else
      let s := s.dropPacket p.id
      match p.payload with
      | .answer rid st v writes => s.takeAnswer rid st v writes
      | _ => s
/-- FE_ANSWER (R145): the subject is the packet. -/
def execFeAnswer (s : State) : Host.Outcome State Fault Refusal := .next (s.answerStep .feAnswer)
/-- BARRIER_ANSWER (R150): the subject is the packet. -/
def execBarrierAnswer (s : State) : Host.Outcome State Fault Refusal := .next (s.answerStep .barrierAnswer)
/-- WITHDRAWAL_SETTLE (R148): the subject is the packet. -/
def execWithdrawalSettle (s : State) : Host.Outcome State Fault Refusal := .next (s.answerStep .withdrawalSettle)
/-- FE_RESEND (R146): the subject is the thread and its wait. -/
def execFeResend (s : State) : Host.Outcome State Fault Refusal :=
  match (s.thread s.subj.n).wait? with
  | none => .next s
  | some w =>
    if w.id ≠ s.subj.m ∨ w.req ≠ 0 then .next s
    else .next (s.askOwner s.subj.n w (waitAddr w).toNat w.stamp (w.vals.getD 0 0).toNat (w.vals.getD 0 0).toNat)
/-- A withdrawal sent behind a request (R148). -/
def State.sendWithdrawal (s : State) (r : Req) : State :=
  let (due, s) := s.pathTime r.node r.dest 0
  ((s.putReq { r with withdrawn := true }).modWait r.tk fun w => { w with gone := true }).addMove due (.withdraw r.id)
/-- The withdrawal of a wait's operation begins (R148): it settles at once when no request is on its way or at the owner. -/
def State.withdrawWait (s : State) (tk : Nat) (w : Wait) : State :=
  match s.req? w.req with
  | none => s.expireWait tk w
  | some r =>
    if r.stage = .port ∨ r.stage = .bounced then
      (s.delReq r.id).expireWait tk (if r.waitOnly then { w with stage := 1, vals := w.vals.set 0 (word r.data) } else w)
    else if w.gone then s
    else s.sendWithdrawal r
/-- A withdrawal at the owner of a request: an operation that has not been served is removed and answered. -/
def State.withdrawStep (s : State) (rid : Nat) : State :=
  match s.req? rid with
  | none => s
  | some r =>
    match r.stage with
    | .sent => s.addMove (s.cycle + 1) (.withdraw rid)
    | .queued | .filling | .waiter => ((s.leaveQueue r).unwait rid).answer r 9 (word r.data) r.waitOnly
    | _ => s
/-- OWNER_WAIT_TIMEOUT (R148): the subject is the thread and its wait. -/
def execOwnerWaitTimeout (s : State) : Host.Outcome State Fault Refusal :=
  match (s.thread s.subj.n).wait? with
  | none => .next s
  | some w => if w.id ≠ s.subj.m then .next s else .next (s.withdrawWait s.subj.n w)

/-! ### FENCE (R153) -/

/-- The scope of a wait that is a fence: 5 for the fences of QUIT, EXIT and their like. -/
def fenceScope (i : Instr) : Nat :=
  match i with
  | .fence _ _ c => c.toNat
  | _ => 5
/-- Every load of the thread has landed, and its stores have left the buffer or have been acknowledged. -/
def State.drained (s : State) (tk scope : Nat) : Bool :=
  (s.reqs.all fun e => e.2.tk != tk || !isLoad e.2.instr) &&
    (if scope = 0 then s.reqs.all fun e => e.2.tk != tk || e.2.stage != .buffered else (s.thread tk).u == 0)
/-- The fence of scope 5 needs the zero-length read of the endpoint. -/
def State.needsHostRead (s : State) (tk scope : Nat) : Bool := scope == 5 && (s.thread tk).hostStore
/-- FENCE. -/
def execFence (sm : Bool) (t : BitVec 4) (c : BitVec 3) (s : State) : Host.Outcome State Fault Refusal :=
  issue (.fence sm t c) noCheck (fun x s => s.beginWait (.fence sm t c) x (s.bound t.toNat) 0) s
/-- The endpoint issues its zero-length read for a fence whose stores have all been acknowledged. -/
def State.fenceRead (s : State) (tk : Nat) (w : Wait) : State :=
  let (d, s) := s.delay
  (s.modWait tk fun w => { w with stage := 1 }).addTimer (s.cycle + 1 + d) .fenceHostReadDone { n := tk, m := w.id }
/-- FENCE_HOST_READ_DONE (R153): the subject is the thread (and its wait). -/
def execFenceHostReadDone (s : State) : Host.Outcome State Fault Refusal :=
  match (s.thread s.subj.n).wait? with
  | none => .next s
  | some w =>
    if w.id ≠ s.subj.m then .next s
    else .next ((s.modWait s.subj.n fun w => { w with stage := 2 }).modThread s.subj.n fun th => { th with hostStore := false })
/-- A fence's conditions hold. -/
def State.fenceReady (s : State) (tk : Nat) (w : Wait) : Bool :=
  s.drained tk (fenceScope w.instr) && !s.needsHostRead tk (fenceScope w.instr)
/-- The store-fault log raises the memory-fault trap at the thread's instruction, and is cleared (R113). -/
def State.logTrap (s : State) (tk cause : Nat) (a : Word) : State :=
  (s.modThread tk fun th => { th with log := none }).trap tk 3 cause a
/-- FENCE_COMPLETE (R153): the subject is the thread. With scope 0 the log raises its trap as soon as the fence completes.
(DESIGN CHOICE, log 69.) -/
def execFenceComplete (s : State) : Host.Outcome State Fault Refusal :=
  let tk := s.subj.n
  match (s.thread tk).wait? with
  | none => .next s
  | some w =>
    match w.instr with
    | .fence _ _ _ =>
      if s.fenceReady tk w then
        match (s.thread tk).log with
        | some (c, a) => .next (s.logTrap tk c a)
        | none => .next (s.finishWait tk 0)
      else .next s
    | _ => .next s
/-- FENCE_TIMEOUT (R153): the subject is the thread and its wait. -/
def execFenceTimeout (s : State) : Host.Outcome State Fault Refusal :=
  match (s.thread s.subj.n).wait? with
  | none => .next s
  | some w => if w.id ≠ s.subj.m then .next s else .next (s.finishWait s.subj.n 1)

end Sys2Proof.Machine
end

