-- ==== Sys2Proof/Machine/Number.lean ====
section
/-! DEFINITION. Number formats, rounding and conversion (R154 to R158), exact sums and products, the A36 cell (R162,
R163), and the three functions of R177. A value is exact: ± m × 2^e. -/

namespace Sys2Proof.Machine

/-- An exact value: NaN, an infinity by its sign, or (−1)^neg × m × 2^e. -/
inductive Val where
  | nan
  | inf (neg : Bool)
  | fin (neg : Bool) (m : Nat) (e : Int)
deriving DecidableEq, Repr

/-- A floating-point format: exponent and fraction bits, and whether it is ZF8, which has no infinity (R154, R157). -/
structure Fmt where
  eb : Nat
  fb : Nat
  zf : Bool := false
deriving DecidableEq, Repr

/-- The bias of a format. -/
def Fmt.bias (f : Fmt) : Nat := 2 ^ (f.eb - 1) - 1
/-- The exponent of the smallest subnormal. -/
def Fmt.low (f : Fmt) : Int := 1 - (f.bias : Int) - (f.fb : Int)
/-- FP32. -/
def fp32 : Fmt := { eb := 8, fb := 23 }
/-- FP16. -/
def fp16 : Fmt := { eb := 5, fb := 10 }
/-- BF16. -/
def bf16 : Fmt := { eb := 8, fb := 7 }
/-- ZF8. -/
def zf8 : Fmt := { eb := 4, fb := 3, zf := true }
/-- A36 in FP mode (R162). -/
def a36 : Fmt := { eb := 8, fb := 27 }
/-- The floating-point format of a code (Table FM-5); none for the integer formats. -/
def floatOf (code : Nat) : Option Fmt :=
  match code with
  | 0 | 1 => some fp32 | 2 => some fp16 | 3 => some bf16 | 4 => some zf8
  | _ => none
/-- The width of a format in bits (Table VE-1). -/
def widthOf (code : Nat) : Nat :=
  match code with
  | 0 | 1 | 8 => 32 | 2 | 3 | 7 => 16 | 4 | 5 | 6 => 8
  | _ => 64
/-- The sign bit of a value in a format. -/
def Fmt.sign (f : Fmt) (x : Nat) : Bool := x.testBit (f.eb + f.fb)
/-- The value of bits in a floating-point format (R154, R157, R162). -/
def Fmt.value (f : Fmt) (x : Nat) : Val :=
  let e := x / 2 ^ f.fb % 2 ^ f.eb
  let m := x % 2 ^ f.fb
  let s := f.sign x
  if f.zf && e == 15 && m == 7 then .nan
  else if !f.zf && e == 2 ^ f.eb - 1 then (if m = 0 then .inf s else .nan)
  else if e = 0 then .fin s m f.low
  else .fin s (m + 2 ^ f.fb) (f.low + (e : Int) - 1)
/-- The canonical NaN (R156). -/
def Fmt.canonical (f : Fmt) : Nat :=
  if f.zf then 0x7F else (2 ^ f.eb - 1) * 2 ^ f.fb + 2 ^ (f.fb - 1)
/-- The result of an overflow: infinity, or ±448 in ZF8 (R156). -/
def Fmt.over (f : Fmt) (neg : Bool) : Nat :=
  bit neg * 2 ^ (f.eb + f.fb) + if f.zf then 0x7E else (2 ^ f.eb - 1) * 2 ^ f.fb
/-- m ÷ 2^k rounded to nearest, ties to even. -/
def shiftEven (m k : Nat) : Nat :=
  if m.log2 + 1 < k then 0
  else
    let q := m / 2 ^ k
    let r := 2 * (m % 2 ^ k)
    if 2 ^ k < r || (r == 2 ^ k && q % 2 == 1) then q + 1 else q
/-- An exact value rounded once to a format (R156). -/
def Fmt.round (f : Fmt) : Val → Nat
  | .nan => f.canonical
  | .inf s => f.over s
  | .fin s m e =>
    if m = 0 then bit s * 2 ^ (f.eb + f.fb)
    else
      let top : Int := (m.log2 : Int) + e
      if (f.bias : Int) + 1 < top then f.over s
      else
        let q := max (top - (f.fb : Int)) f.low
        let n := if q ≤ e then m * 2 ^ (e - q).toNat else shiftEven m (q - e).toNat
        let code := if n < 2 ^ f.fb then n else n + (q - f.low).toNat * 2 ^ f.fb
        if (if f.zf then 0x7E else (2 ^ f.eb - 1) * 2 ^ f.fb - 1) < code then f.over s
        else bit s * 2 ^ (f.eb + f.fb) + code
/-- A subnormal nonzero operand (R165). -/
def Fmt.subnormal (f : Fmt) (x : Nat) : Bool := x / 2 ^ f.fb % 2 ^ f.eb == 0 && x % 2 ^ f.fb != 0
/-- A nonzero value smaller in magnitude than the smallest normal of a format (R165). -/
def Fmt.tiny (f : Fmt) : Val → Bool
  | .fin _ m e => m != 0 && decide ((m.log2 : Int) + e < 1 - (f.bias : Int))
  | _ => false

/-! ### Exact arithmetic -/

/-- An integer as an exact value. -/
def Val.ofInt (i : Int) : Val := .fin (decide (i < 0)) i.natAbs 0
/-- The integer that a finite value is, in units of 2^e0, for e0 no more than its exponent. -/
def Val.scaled (e0 : Int) : Val → Int
  | .fin s m e => let v : Int := (m : Int) * (2 ^ (e - e0).toNat : Nat); if s then -v else v
  | _ => 0
/-- The exponent of a value. -/
def Val.exp : Val → Int
  | .fin _ _ e => e
  | _ => 0
/-- The sign inverted. -/
def Val.neg : Val → Val
  | .nan => .nan
  | .inf s => .inf (!s)
  | .fin s m e => .fin (!s) m e
/-- An exact product (R156). -/
def Val.mul : Val → Val → Val
  | .nan, _ => .nan
  | _, .nan => .nan
  | .inf s, .inf t => .inf (s != t)
  | .inf s, .fin t m _ => if m = 0 then .nan else .inf (s != t)
  | .fin s m _, .inf t => if m = 0 then .nan else .inf (s != t)
  | .fin s m e, .fin t n d => .fin (s != t) (m * n) (e + d)
/-- A negative zero. -/
def Val.isNegZero : Val → Bool
  | .fin true 0 _ => true
  | _ => false
/-- An exact sum of terms, with the zero rule of R156. -/
def sumVals (l : List Val) : Val :=
  if l.contains .nan || (l.contains (.inf true) && l.contains (.inf false)) then .nan
  else if l.contains (.inf true) then .inf true
  else if l.contains (.inf false) then .inf false
  else
    let e0 := l.foldl (fun a v => min a v.exp) 0
    let t := l.foldl (fun (a : Int) v => a + v.scaled e0) 0
    if t = 0 then .fin (!l.isEmpty && l.all Val.isNegZero) 0 0 else .fin (decide (t < 0)) t.natAbs e0
/-- An exact sum of two values. -/
def Val.add (a b : Val) : Val := sumVals [a, b]
/-- The order of two values that are not NaN: +0 equals −0 (R168). -/
def Val.lt : Val → Val → Bool
  | .nan, _ | _, .nan => false
  | .inf s, .inf t => s && !t
  | .inf s, _ => s
  | _, .inf t => !t
  | a, b => let e := min a.exp b.exp; decide (a.scaled e < b.scaled e)
/-- Equality of values. -/
def Val.eq (a b : Val) : Bool :=
  match a, b with
  | .nan, _ | _, .nan => false
  | _, _ => !a.lt b && !b.lt a
/-- A value rounded to an integer, ties to even; infinities and NaN are not asked. -/
def Val.toInt : Val → Int
  | .fin s m e =>
    let n : Int := if 0 ≤ e then (m * 2 ^ e.toNat : Nat) else (shiftEven m (-e).toNat : Nat)
    if s then -n else n
  | _ => 0

/-! ### Integer formats and conversion (R158) -/

/-- The range of an integer format (Table VE-1). -/
def intRange (code : Nat) : Int × Int :=
  match code with
  | 5 => (-128, 127) | 6 => (0, 255) | 7 => (-32768, 32767) | 8 => (-2 ^ 31, 2 ^ 31 - 1)
  | _ => (-2 ^ 63, 2 ^ 63 - 1)
/-- The integer that bits hold in an integer format. -/
def intValue (code x : Nat) : Int :=
  if code = 6 then ((x % 256 : Nat) : Int) else signedOf (widthOf code) x
/-- ValueOf (R155). -/
def valueOf (code x : Nat) : Val :=
  match floatOf code with
  | some f => f.value (x % 2 ^ widthOf code)
  | none => Val.ofInt (intValue code x)
/-- A value converted to a format, as bits of its width (R158). -/
def convert (v : Val) (code : Nat) : Nat :=
  match floatOf code with
  | some f => f.round v
  | none =>
    let r := intRange code
    natOf (widthOf code) (match v with
      | .nan => 0
      | .inf s => if s then r.1 else r.2
      | .fin s m e =>
        if 80 < (m.log2 : Int) + e then (if m = 0 then 0 else if s then r.1 else r.2)
        else clampInt r.1 r.2 (Val.toInt (.fin s m e)))
/-- A scalar result of a format as it is written (R155). -/
def scalarOf (code x : Nat) : Word :=
  match code with
  | 5 | 7 | 8 | 9 => u64 (signedOf (widthOf code) x)
  | _ => word (x % 2 ^ widthOf code)

/-- FMIN and FMAX of bits in a format (R167): `big` for FMAX. −0 counts as less than +0. -/
def pickFloat (f : Fmt) (big : Bool) (x y : Nat) : Nat :=
  match f.value x, f.value y with
  | .nan, .nan => f.canonical
  | .nan, _ => y
  | _, .nan => x
  | a, b =>
    let xLess := if a.eq b then f.sign x && !f.sign y else a.lt b
    let yLess := if a.eq b then f.sign y && !f.sign x else b.lt a
    if big then (if xLess then y else x) else (if yLess then y else x)
/-- The smaller or larger of bits in any format (R176). -/
def pickOf (code : Nat) (big : Bool) (x y : Nat) : Nat :=
  match floatOf code with
  | some f => pickFloat f big x y
  | none =>
    let a := intValue code x
    let b := intValue code y
    if big then (if a < b then y else x) else (if b < a then y else x)
/-- The class mask of R169. -/
def classOf (f : Fmt) (x : Nat) : Nat :=
  let s := f.sign x
  match f.value x with
  | .nan => if f.zf || x.testBit (f.fb - 1) then 2 ^ 9 else 2 ^ 8
  | .inf _ => if s then 1 else 2 ^ 7
  | .fin _ m _ =>
    if m = 0 then (if s then 2 ^ 3 else 2 ^ 4)
    else if f.subnormal x then (if s then 2 ^ 2 else 2 ^ 5)
    else if s then 2 ^ 1 else 2 ^ 6

/-! ### 1/x, 1/√x and 2^x (R177) -/

/-- 1/x, exact up to a last bit that says whether anything follows: rounding it rounds 1/x. -/
def recip : Val → Val
  | .nan => .nan
  | .inf s => .fin s 0 0
  | .fin s m e =>
    if m = 0 then .inf s
    else
      let k := m.log2 + 40
      .fin s (2 * (2 ^ k / m) + (if 2 ^ k % m = 0 then 0 else 1)) (-(k : Int) - e - 1)
/-- The integer square root by bits from bit n − 1 down: the largest r with r² ≤ v, from a start. -/
def isqrt (v : Nat) : Nat → Nat → Nat
  | 0, r => r
  | n + 1, r => if (r + 2 ^ n) * (r + 2 ^ n) ≤ v then isqrt v n (r + 2 ^ n) else isqrt v n r
/-- 1/√x in the same way. -/
def rsqrt : Val → Val
  | .nan => .nan
  | .inf s => if s then .nan else .fin false 0 0
  | .fin s m e =>
    if m = 0 then .inf s
    else if s then .nan
    else
      let m' := if e % 2 = 0 then m else 2 * m
      let e' := if e % 2 = 0 then e else e - 1
      let k := m'.log2 + 40
      let r := isqrt (2 ^ (2 * k) / m') (k + 1) 0
      .fin false (2 * r + (if r * r * m' = 2 ^ (2 * k) then 0 else 1)) (-(k : Int) - e' / 2 - 1)
/-- ln 2 in units of 2^−P, from below: terms 1/(n·2^n) for n from the given number down to 1. (DEDUCED, log 18.) -/
def ln2 (p : Nat) : Nat → Nat
  | 0 => 0
  | n + 1 => 2 ^ p / ((n + 1) * 2 ^ (n + 1)) + ln2 p n
/-- Terms of the exponential series of y (units of 2^−P) from the n-th on: the n-th term is t. (DEDUCED, log 18.) -/
def expSum (p y : Nat) : Nat → Nat → Nat → Nat
  | 0, _, _ => 0
  | k + 1, n, t => t + expSum p y k (n + 1) (t * y / 2 ^ p / (n + 1))
/-- 2^x (R177), to 320 bits below the leading one, with a last bit that says that more follows: 2^x is irrational unless
x is an integer. (DEDUCED, log 18.) -/
def exp2 : Val → Val
  | .nan => .nan
  | .inf s => if s then .fin false 0 0 else .inf false
  | .fin s m e =>
    let p := 320
    if m = 0 then .fin false 1 0
    else if 20 < (m.log2 : Int) + e then (if s then .fin false 1 (-100000) else .fin false 1 100000)
    else
      let x : Int := (Val.fin s m e).scaled (min e 0)
      let d := (-(min e 0)).toNat
      let n := x / (2 ^ d : Nat)
      let f := (x % (2 ^ d : Nat)).toNat
      if f = 0 then .fin false 1 n
      else
        let y := f * ln2 p 340 / 2 ^ d
        .fin false (2 * expSum p y 90 0 (2 ^ p) + 1) (n - (p : Int) - 1)

/-! ### A36 (R162, R163) -/

/-- A set of products as it enters a cell, in FP mode. -/
def sumA36Fp (c : BitVec 36) (ps : List Val) : BitVec 36 := BitVec.ofNat 36 (a36.round (sumVals (a36.value c.toNat :: ps)))
/-- The same in integer mode. -/
def sumA36Int (sat : Bool) (c : BitVec 36) (total : Int) : BitVec 36 :=
  let v := c.toInt + total
  BitVec.ofInt 36 (if sat then clampInt (-2 ^ 31) (2 ^ 31 - 1) v else v)

end Sys2Proof.Machine
end

