-- ==== Sys2Proof/Machine/Block.lean ====
section
/-! DEFINITION. The ZF8 block (R159 to R161). -/

namespace Sys2Proof.Machine

/-- The code length of an exponent symbol in a table word (R160). -/
def codeLen (t : Word) (sym : Nat) : Nat := fld t (4 * sym) 4
/-- A valid table word: lengths of 1 to 8, and the Kraft equality. -/
def tableValid (t : Word) : Bool :=
  (List.range 16).all (fun k => decide (1 ≤ codeLen t k) && decide (codeLen t k ≤ 8)) &&
    ((List.range 16).map fun k => 2 ^ (8 - codeLen t k)).sum == 256
/-- The codes of the symbols with length n, from a first code on: length, code, symbol. -/
def codesOf (t : Word) (n : Nat) : List Nat → Nat → List (Nat × Nat × Nat)
  | [], _ => []
  | k :: ks, next => if codeLen t k = n then (n, next, k) :: codesOf t n ks (next + 1) else codesOf t n ks next
/-- The canonical codes of a table word, lengths n to n + m − 1. -/
def codeTable (t : Word) : Nat → Nat → Nat → List (Nat × Nat × Nat)
  | 0, _, _ => []
  | m + 1, n, next =>
    let l := codesOf t n (List.range 16) next
    l ++ codeTable t m (n + 1) (2 * (next + l.length))
/-- One token: the symbol and the rest of the stream; none when the stream runs out. -/
def token (codes : List (Nat × Nat × Nat)) : Nat → Nat → Nat → List Bool → Option (Nat × List Bool)
  | 0, _, _, _ => none
  | _, _, _, [] => none
  | fuel + 1, n, v, b :: bs =>
    let v := 2 * v + bit b
    match codes.find? fun c => c.1 == n + 1 && c.2.1 == v with
    | some c => some (c.2.2, bs)
    | none => token codes fuel (n + 1) v bs
/-- n tokens. -/
def tokens (codes : List (Nat × Nat × Nat)) : Nat → List Bool → Option (List Nat × List Bool)
  | 0, bs => some ([], bs)
  | n + 1, bs =>
    match token codes 8 0 0 bs with
    | none => none
    | some (e, rest) => (tokens codes n rest).map fun r => (e :: r.1, r.2)
/-- The bits of a byte, most significant first. -/
def bitsOfByte (b : Byte) : List Bool := (List.range 8).map fun k => b.getLsbD (7 - k)
/-- DecodeBlock (R161): the 256 ZF8 bytes and the scale exponent, or the cause of Table VE-3. `bs` holds at least the
block's bytes; `limit` is the entry size of an MDEC. -/
def decodeBlock (bs : List Byte) (limit : Option Nat) (tables : List Word) : Except Nat (List Nat × Nat) :=
  let h := word (ofBytes (bs.take 4))
  let l := fld h 16 6
  let t := fld h 30 2
  if fld h 0 16 ≠ 0 then .error 1
  else if l < 9 ∨ 25 < l then .error 2
  else if (match limit with | some e => decide (e < 16 * l) | none => false) then .error 6
  else if t < 3 ∧ tableValid (tables.getD t 0) = false then .error 3
  else
    let codes := if t < 3 then codeTable (tables.getD t 0) 8 1 0 else (List.range 16).map fun e => (4, e, e)
    match tokens codes 256 (((bs.take (16 * l)).drop 132).flatMap bitsOfByte) with
    | none => .error 4
    | some (es, rest) =>
      if rest.any id then .error 5
      else .ok ((es.zip (List.range 256)).map fun e =>
        let nib := (bs.getD (4 + e.2 / 2) 0).toNat / 16 ^ (e.2 % 2) % 16
        nib / 8 * 128 + e.1 * 8 + nib % 8, fld h 22 8)
/-- The value of a ZF8 byte with a block's scale exponent (R159). -/
def zfScaled (b x : Nat) : Val := (zf8.value b).mul (.fin false 1 ((x : Int) - 127))

end Sys2Proof.Machine
end

