-- ==== Sys2Proof/Machine/Float.lean ====
section
/-! DEFINITION. Scalar float, opcode 0x28 (R164 to R170), with the subnormal normaliser (R165). -/

namespace Sys2Proof.Machine

/-- The floating-point format of a scalar float instruction. -/
def Issue.ffmt (x : Issue) : Fmt := (floatOf x.fmt).getD fp32
/-- The bits of an operand in a width. -/
def lowBits (w : Word) (n : Nat) : Nat := w.toNat % 2 ^ n
/-- The value of an operand in the instruction's format. -/
def Issue.fval (x : Issue) (n : Nat) : Val := x.ffmt.value (lowBits (x.val n) (widthOf x.fmt))
/-- An operand is subnormal and nonzero. -/
def Issue.fsub (x : Issue) (n : Nat) : Bool := x.ffmt.subnormal (lowBits (x.val n) (widthOf x.fmt))
/-- A scalar float instruction: its result, and whether it goes to the normaliser, which writes 24 cycles after issue
while the thread forfeits three turns (R165). -/
def issueFloat (i : Instr) (rd : Reg) (f : Issue → Word) (slow : Issue → Bool) (s : State) :
    Host.Outcome State Fault Refusal :=
  issue i noCheck (fun x s =>
    if slow x then
      ((s.reserveReg x.tk rd).forfeitTurns x.tk 3).addTimer (s.cycle + 24) .normaliserWrite
        { n := x.tk, m := (s.thread x.tk).born, v := f x, r := rd }
    else s.writeReg x.tk rd (f x)) s
/-- NORMALISER_WRITE (R165): the subject is the thread, destination and value. -/
def execNormaliserWrite (s : State) : Host.Outcome State Fault Refusal := .next s.lateResult

/-- An arithmetic result rounded once (R166). -/
def issueArith (i : Instr) (rd : Reg) (ops : List Nat) (f : Issue → Val) (s : State) :
    Host.Outcome State Fault Refusal :=
  issueFloat i rd (fun x => word (x.ffmt.round (f x))) (fun x => ops.any x.fsub || x.ffmt.tiny (f x)) s

/-- FADD (R166). -/
def execFadd (sm : Bool) (rd : Reg) (ra : Reg) (rb : Reg) (s : State) : Host.Outcome State Fault Refusal :=
  issueArith (.fadd sm rd ra rb) rd [1, 2] (fun x => (x.fval 1).add (x.fval 2)) s

/-- FSUB (R166). -/
def execFsub (sm : Bool) (rd : Reg) (ra : Reg) (rb : Reg) (s : State) : Host.Outcome State Fault Refusal :=
  issueArith (.fsub sm rd ra rb) rd [1, 2] (fun x => (x.fval 1).add (x.fval 2).neg) s

/-- FMUL (R166). -/
def execFmul (sm : Bool) (rd : Reg) (ra : Reg) (rb : Reg) (s : State) : Host.Outcome State Fault Refusal :=
  issueArith (.fmul sm rd ra rb) rd [1, 2] (fun x => (x.fval 1).mul (x.fval 2)) s

/-- FFMA (R166): the old rd is the addend. -/
def execFfma (sm : Bool) (rd : Reg) (ra : Reg) (rb : Reg) (s : State) : Host.Outcome State Fault Refusal :=
  issueArith (.ffma sm rd ra rb) rd [0, 1, 2] (fun x => ((x.fval 1).mul (x.fval 2)).add (x.fval 0)) s

/-- FMIN (R167). -/
def execFmin (sm : Bool) (rd : Reg) (ra : Reg) (rb : Reg) (s : State) : Host.Outcome State Fault Refusal :=
  issueFloat (.fmin sm rd ra rb) rd
    (fun x => word (pickFloat x.ffmt false (lowBits (x.val 1) (widthOf x.fmt)) (lowBits (x.val 2) (widthOf x.fmt))))
    (fun x => x.fsub 1 || x.fsub 2) s

/-- FMAX (R167). -/
def execFmax (sm : Bool) (rd : Reg) (ra : Reg) (rb : Reg) (s : State) : Host.Outcome State Fault Refusal :=
  issueFloat (.fmax sm rd ra rb) rd
    (fun x => word (pickFloat x.ffmt true (lowBits (x.val 1) (widthOf x.fmt)) (lowBits (x.val 2) (widthOf x.fmt))))
    (fun x => x.fsub 1 || x.fsub 2) s

/-- FCMPEQ (R168). -/
def execFcmpeq (sm : Bool) (rd : Reg) (ra : Reg) (rb : Reg) (s : State) : Host.Outcome State Fault Refusal :=
  issueFloat (.fcmpeq sm rd ra rb) rd (fun x => ofRel ((x.fval 1).eq (x.fval 2))) (fun x => x.fsub 1 || x.fsub 2) s

/-- FCMPLT (R168). -/
def execFcmplt (sm : Bool) (rd : Reg) (ra : Reg) (rb : Reg) (s : State) : Host.Outcome State Fault Refusal :=
  issueFloat (.fcmplt sm rd ra rb) rd (fun x => ofRel ((x.fval 1).lt (x.fval 2))) (fun x => x.fsub 1 || x.fsub 2) s

/-- FCMPLE (R168). -/
def execFcmple (sm : Bool) (rd : Reg) (ra : Reg) (rb : Reg) (s : State) : Host.Outcome State Fault Refusal :=
  issueFloat (.fcmple sm rd ra rb) rd (fun x => ofRel ((x.fval 1).lt (x.fval 2) || (x.fval 1).eq (x.fval 2))) (fun x => x.fsub 1 || x.fsub 2) s

/-- FABS (R169): the sign bit cleared. -/
def execFabs (sm : Bool) (rd : Reg) (ra : Reg) (s : State) : Host.Outcome State Fault Refusal :=
  issueFloat (.fabs sm rd ra) rd (fun x => word (lowBits (x.val 1) (widthOf x.fmt - 1))) (fun _ => false) s

/-- FNEG (R169): the sign bit inverted. -/
def execFneg (sm : Bool) (rd : Reg) (ra : Reg) (s : State) : Host.Outcome State Fault Refusal :=
  issueFloat (.fneg sm rd ra) rd (fun x => word (lowBits (x.val 1) (widthOf x.fmt)) ^^^ word (2 ^ (widthOf x.fmt - 1))) (fun _ => false) s

/-- FCLS (R169): the class mask. -/
def execFcls (sm : Bool) (rd : Reg) (ra : Reg) (s : State) : Host.Outcome State Fault Refusal :=
  issueFloat (.fcls sm rd ra) rd (fun x => word (classOf x.ffmt (lowBits (x.val 1) (widthOf x.fmt)))) (fun _ => false) s

/-- FCVT goes to the normaliser: a subnormal source, or a tiny result of a floating-point destination (R165). -/
def cvtSlow (src dst x : Nat) : Bool :=
  (match floatOf src with | some f => f.subnormal (x % 2 ^ widthOf src) | none => false) ||
    (match floatOf dst with | some f => f.tiny (valueOf src x) | none => false)
/-- FCVT (R170). -/
def execFcvt (sm : Bool) (rd : Reg) (ra : Reg) (s : State) : Host.Outcome State Fault Refusal :=
  issueFloat (.fcvt sm rd ra) rd
    (fun x => scalarOf x.fmt (convert (valueOf x.aux (x.val 1).toNat) x.fmt))
    (fun x => cvtSlow x.aux x.fmt (x.val 1).toNat) s

end Sys2Proof.Machine
end

