-- ==== Sys2Proof/Machine/Vector.lean ====
section
/-! DEFINITION. Vector instructions, opcodes 0x2C to 0x30, and the team's vector unit (R171 to R182). -/

namespace Sys2Proof.Machine

/-! ### Lanes (R171) -/

/-- A group as one number, byte 0 lowest. -/
def groupNat (ws : List Word) : Nat := ofBytes (bytesOfDwords ws)
/-- The first n lanes of the given width in bits. -/
def lanes (bits n v : Nat) : List Nat := wordsOf bits n v
/-- Lanes packed, lane 0 lowest. -/
def packLanes (bits : Nat) : List Nat → Nat
  | [] => 0
  | x :: xs => x % 2 ^ bits + 2 ^ bits * packLanes bits xs
/-- The lane count of a format (Table VE-6). -/
def laneCount (code : Nat) : Nat := 512 / widthOf code
/-- Lanes combined one by one. -/
def zipLanes (code : Nat) (f : Nat → Nat → Nat) (a b : Nat) : Nat :=
  packLanes (widthOf code) (List.zipWith f (lanes (widthOf code) (laneCount code) a) (lanes (widthOf code) (laneCount code) b))
/-- Lanes changed one by one. -/
def mapLanes (code : Nat) (f : Nat → Nat) (a : Nat) : Nat :=
  packLanes (widthOf code) ((lanes (widthOf code) (laneCount code) a).map f)
/-- A lane operation that rounds in the floating-point formats and wraps in the integer formats (R176). -/
def laneArith (code : Nat) (f : Val → Val → Val) (g : Int → Int → Int) (x y : Nat) : Nat :=
  match floatOf code with
  | some m => m.round (f (m.value x) (m.value y))
  | none => natOf (widthOf code) (g x y)
/-- |a| of a lane (R176). -/
def laneAbs (code x : Nat) : Nat :=
  match floatOf code with
  | some _ => x % 2 ^ (widthOf code - 1)
  | none => natOf (widthOf code) ((intValue code x).natAbs : Int)
/-- −a of a lane. -/
def laneNeg (code x : Nat) : Nat :=
  match floatOf code with
  | some _ => x ^^^ 2 ^ (widthOf code - 1)
  | none => natOf (widthOf code) (-(x : Int))
/-- A function of R177 on a lane. -/
def laneFun (code : Nat) (f : Val → Val) (x : Nat) : Nat :=
  match floatOf code with
  | some m => m.round (f (m.value x))
  | none => 0
/-- A shift of a lane (R178): the format's width, 32 for fmt 0. -/
def laneShift (code kind x y : Nat) : Nat :=
  let w := widthOf code
  let m := y % w
  match kind with
  | 0 => x * 2 ^ m
  | 1 => x / 2 ^ m
  | _ => natOf w (signedOf w x / (2 ^ m : Nat))
/-- A compare mask of a lane (R179). -/
def laneMask (code : Nat) (f : Val → Val → Bool) (x y : Nat) : Nat :=
  if f (valueOf code x) (valueOf code y) then 2 ^ widthOf code - 1 else 0
/-- A ≤ B on values. -/
def Val.le (a b : Val) : Bool := a.lt b || a.eq b
/-- The lanes of a conversion (R180). -/
def cvtCount (dst src : Nat) : Nat := 512 / max (widthOf dst) (widthOf src)
/-- VCVT (R180). -/
def vcvtOf (dst src a : Nat) : Nat :=
  packLanes (widthOf dst) ((lanes (widthOf src) (cvtCount dst src) a).map fun x => convert (valueOf src x) dst)
/-- A lane of VQNT (R180). -/
def vqntLane (dst src : Nat) (b : Word) (x : Nat) : Nat :=
  let p := (valueOf src x).mul (fp32.value (fld b 0 32))
  let z := signedOf 16 (fld b 32 16)
  match floatOf dst with
  | some m => m.round p
  | none =>
    let r := intRange dst
    natOf (widthOf dst) (match p with
      | .nan => clampInt r.1 r.2 z
      | .inf s => if s then r.1 else r.2
      | .fin s m e =>
        if m != 0 && 80 < (m.log2 : Int) + e then (if s then r.1 else r.2)
        else clampInt r.1 r.2 (Val.toInt (.fin s m e) + z))
/-- VQNT (R180). -/
def vqntOf (dst src a : Nat) (b : Word) : Nat :=
  packLanes (widthOf dst) ((lanes (widthOf src) (cvtCount dst src) a).map (vqntLane dst src b))
/-- VRED (R181). -/
def vredOf (code op a : Nat) : Word :=
  let xs := lanes (widthOf code) (laneCount code) a
  if op = 0 then
    match floatOf code with
    | some m => word (m.round (sumVals (xs.map m.value)))
    | none => u64 ((xs.map (intValue code)).foldl (· + ·) 0)
  else scalarOf code (xs.tail.foldl (pickOf code (op == 2)) (xs.headD 0))
/-- The sum of a lane of VDOT (R181). -/
def vdotLane (code o : Nat) (xs ys : List Nat) : Nat :=
  match floatOf code with
  | some m => fp32.round (sumVals (fp32.value o :: List.zipWith (fun x y => (m.value x).mul (m.value y)) xs ys))
  | none => natOf 32 ((o : Int) + (List.zipWith (fun x y => intValue code x * intValue code y) xs ys).foldl (· + ·) 0)
/-- VDOT (R181). -/
def vdotOf (code o a b : Nat) : Nat :=
  let w := widthOf code
  packLanes 32 ((List.range 16).map fun j =>
    vdotLane code (o / 2 ^ (32 * j) % 2 ^ 32) (lanes w (32 / w) (a / 2 ^ (32 * j) % 2 ^ 32))
      (lanes w (32 / w) (b / 2 ^ (32 * j) % 2 ^ 32)))
/-- VSHUF (R182). -/
def vshufOf (a b : Nat) : Nat :=
  packLanes 8 ((lanes 8 64 b).map fun i => if 128 ≤ i then 0 else a / 2 ^ (8 * (i % 64)) % 256)
/-- VINS (R182): lane k replaced. -/
def vinsOf (code o : Nat) (v : Word) (k : Word) : Nat :=
  packLanes (widthOf code) ((lanes (widthOf code) (laneCount code) o).set (k.toNat % laneCount code) v.toNat)
/-- VEXT (R182). -/
def vextOf (code a : Nat) (k : Word) : Word :=
  scalarOf code (a / 2 ^ (widthOf code * (k.toNat % laneCount code)) % 2 ^ widthOf code)
/-- VBCAST (R182). -/
def vbcastOf (code : Nat) (v : Word) : Nat := packLanes (widthOf code) (List.replicate (laneCount code) v.toNat)
/-- VSEL (R179). -/
def vselOf (o a b : Nat) : Nat := (a &&& o) ||| (b &&& (o ^^^ (2 ^ 512 - 1)))

/-- The result of a vector instruction: o, a and b are its groups, `sc n` the scalar of its n-th field. A group result
has eight registers, a scalar one. -/
def vectorResult (i : Instr) (fmt aux o a b : Nat) (sc : Nat → Word) : List Word :=
  match i with

  | .vadd _ _ _ _ => dwordsOf (zipLanes fmt (laneArith fmt Val.add (· + ·)) a b) 8
  | .vsub _ _ _ _ => dwordsOf (zipLanes fmt (laneArith fmt (fun x y => x.add y.neg) (· - ·)) a b) 8
  | .vmul _ _ _ _ => dwordsOf (zipLanes fmt (laneArith fmt Val.mul (· * ·)) a b) 8
  | .vfma _ _ _ _ =>
    let m := (floatOf fmt).getD fp32
    dwordsOf (packLanes (widthOf fmt) (List.zipWith (fun x (p : Val) => m.round (p.add (m.value x)))
      (lanes (widthOf fmt) (laneCount fmt) o)
      (List.zipWith (fun x y => (m.value x).mul (m.value y)) (lanes (widthOf fmt) (laneCount fmt) a)
        (lanes (widthOf fmt) (laneCount fmt) b)))) 8
  | .vmin _ _ _ _ => dwordsOf (zipLanes fmt (pickOf fmt false) a b) 8
  | .vmax _ _ _ _ => dwordsOf (zipLanes fmt (pickOf fmt true) a b) 8
  | .vabs _ _ _ => dwordsOf (mapLanes fmt (laneAbs fmt) a) 8
  | .vneg _ _ _ => dwordsOf (mapLanes fmt (laneNeg fmt) a) 8
  | .vrcp _ _ _ => dwordsOf (mapLanes fmt (laneFun fmt recip) a) 8
  | .vrsq _ _ _ => dwordsOf (mapLanes fmt (laneFun fmt rsqrt) a) 8
  | .vexp2 _ _ _ => dwordsOf (mapLanes fmt (laneFun fmt exp2) a) 8
  | .vand _ _ _ _ => dwordsOf (a &&& b) 8
  | .vor _ _ _ _ => dwordsOf (a ||| b) 8
  | .vxor _ _ _ _ => dwordsOf (a ^^^ b) 8
  | .vshl _ _ _ _ => dwordsOf (zipLanes fmt (laneShift fmt 0) a b) 8
  | .vshr _ _ _ _ => dwordsOf (zipLanes fmt (laneShift fmt 1) a b) 8
  | .vsar _ _ _ _ => dwordsOf (zipLanes fmt (laneShift fmt 2) a b) 8
  | .vcmpeq _ _ _ _ => dwordsOf (zipLanes fmt (laneMask fmt Val.eq) a b) 8
  | .vcmplt _ _ _ _ => dwordsOf (zipLanes fmt (laneMask fmt Val.lt) a b) 8
  | .vcmple _ _ _ _ => dwordsOf (zipLanes fmt (laneMask fmt Val.le) a b) 8
  | .vsel _ _ _ _ => dwordsOf (vselOf o a b) 8
  | .vcvt _ _ _ => dwordsOf (vcvtOf fmt aux a) 8
  | .vred _ _ _ op => [vredOf fmt op.toNat a]
  | .vdot _ _ _ _ => dwordsOf (vdotOf fmt o a b) 8
  | .vqnt _ _ _ _ => dwordsOf (vqntOf fmt aux a (sc 2)) 8
  | .vshuf _ _ _ _ => dwordsOf (vshufOf a b) 8
  | .vbcast _ _ _ => dwordsOf (vbcastOf fmt (sc 1)) 8
  | .vext _ _ _ _ => [vextOf fmt a (sc 2)]
  | .vins _ _ _ _ => dwordsOf (vinsOf fmt o (sc 1) (sc 2)) 8
  | .vmov _ _ _ => dwordsOf (a) 8
  | _ => []

/-- The latency of a vector instruction (Table VE-7). -/
def vectorLatency (i : Instr) : Nat :=
  match i with
  | .vadd _ _ _ _ | .vsub _ _ _ _ | .vmul _ _ _ _ | .vfma _ _ _ _ | .vmin _ _ _ _ | .vmax _ _ _ _ | .vabs _ _ _
  | .vneg _ _ _ | .vcvt _ _ _ | .vqnt _ _ _ _ => 8
  | .vdot _ _ _ _ => 10
  | .vred _ _ _ _ => 12
  | .vrcp _ _ _ | .vrsq _ _ _ | .vexp2 _ _ _ => 16
  | _ => 4

/-! ### The unit (R172, R173) -/

/-- The dispatch queue of a core into its team's unit. -/
def State.vqueue (s : State) (core : Nat) : List VJob := (s.team (nodeOf core)).vq.getD (coreInTeam core) []
/-- A vector instruction issues when its core's dispatch queue has a free entry; it is handed over, with the scalars of
s registers read now (R172). -/
def issueVector (i : Instr) (s : State) : Host.Outcome State Fault Refusal :=
  issue i (fun x s => if (s.vqueue x.core).length < 2 then .go else .park) (fun x s =>
    let (id, s) := s.fresh
    let job : VJob := {
      id := id, tk := x.tk, instr := i, fmt := x.fmt, aux := x.aux
      scal := (List.range i.fields.length).map fun n => match (i.fields.getD n (.dst, .g 0)).2 with
        | .s _ => some (x.val n)
        | _ => none
      issued := s.cycle }
    (s.modTeam x.node fun t =>
      { t with vq := t.vq.set (coreInTeam x.core) (t.vq.getD (coreInTeam x.core) [] ++ [job]) }).modThread x.tk fun th =>
        { th with run := .handed }) s

/-- VADD (R176). -/
def execVadd (sm : Bool) (rd : Reg) (ra : Reg) (rb : Reg) (s : State) : Host.Outcome State Fault Refusal :=
  issueVector (.vadd sm rd ra rb) s
/-- VSUB (R176). -/
def execVsub (sm : Bool) (rd : Reg) (ra : Reg) (rb : Reg) (s : State) : Host.Outcome State Fault Refusal :=
  issueVector (.vsub sm rd ra rb) s
/-- VMUL (R176). -/
def execVmul (sm : Bool) (rd : Reg) (ra : Reg) (rb : Reg) (s : State) : Host.Outcome State Fault Refusal :=
  issueVector (.vmul sm rd ra rb) s
/-- VFMA (R177). -/
def execVfma (sm : Bool) (rd : Reg) (ra : Reg) (rb : Reg) (s : State) : Host.Outcome State Fault Refusal :=
  issueVector (.vfma sm rd ra rb) s
/-- VMIN (R176). -/
def execVmin (sm : Bool) (rd : Reg) (ra : Reg) (rb : Reg) (s : State) : Host.Outcome State Fault Refusal :=
  issueVector (.vmin sm rd ra rb) s
/-- VMAX (R176). -/
def execVmax (sm : Bool) (rd : Reg) (ra : Reg) (rb : Reg) (s : State) : Host.Outcome State Fault Refusal :=
  issueVector (.vmax sm rd ra rb) s
/-- VABS (R176). -/
def execVabs (sm : Bool) (rd : Reg) (ra : Reg) (s : State) : Host.Outcome State Fault Refusal :=
  issueVector (.vabs sm rd ra) s
/-- VNEG (R176). -/
def execVneg (sm : Bool) (rd : Reg) (ra : Reg) (s : State) : Host.Outcome State Fault Refusal :=
  issueVector (.vneg sm rd ra) s
/-- VRCP (R177). -/
def execVrcp (sm : Bool) (rd : Reg) (ra : Reg) (s : State) : Host.Outcome State Fault Refusal :=
  issueVector (.vrcp sm rd ra) s
/-- VRSQ (R177). -/
def execVrsq (sm : Bool) (rd : Reg) (ra : Reg) (s : State) : Host.Outcome State Fault Refusal :=
  issueVector (.vrsq sm rd ra) s
/-- VEXP2 (R177). -/
def execVexp2 (sm : Bool) (rd : Reg) (ra : Reg) (s : State) : Host.Outcome State Fault Refusal :=
  issueVector (.vexp2 sm rd ra) s
/-- VAND (R178). -/
def execVand (sm : Bool) (rd : Reg) (ra : Reg) (rb : Reg) (s : State) : Host.Outcome State Fault Refusal :=
  issueVector (.vand sm rd ra rb) s
/-- VOR (R178). -/
def execVor (sm : Bool) (rd : Reg) (ra : Reg) (rb : Reg) (s : State) : Host.Outcome State Fault Refusal :=
  issueVector (.vor sm rd ra rb) s
/-- VXOR (R178). -/
def execVxor (sm : Bool) (rd : Reg) (ra : Reg) (rb : Reg) (s : State) : Host.Outcome State Fault Refusal :=
  issueVector (.vxor sm rd ra rb) s
/-- VSHL (R178). -/
def execVshl (sm : Bool) (rd : Reg) (ra : Reg) (rb : Reg) (s : State) : Host.Outcome State Fault Refusal :=
  issueVector (.vshl sm rd ra rb) s
/-- VSHR (R178). -/
def execVshr (sm : Bool) (rd : Reg) (ra : Reg) (rb : Reg) (s : State) : Host.Outcome State Fault Refusal :=
  issueVector (.vshr sm rd ra rb) s
/-- VSAR (R178). -/
def execVsar (sm : Bool) (rd : Reg) (ra : Reg) (rb : Reg) (s : State) : Host.Outcome State Fault Refusal :=
  issueVector (.vsar sm rd ra rb) s
/-- VCMPEQ (R179). -/
def execVcmpeq (sm : Bool) (rd : Reg) (ra : Reg) (rb : Reg) (s : State) : Host.Outcome State Fault Refusal :=
  issueVector (.vcmpeq sm rd ra rb) s
/-- VCMPLT (R179). -/
def execVcmplt (sm : Bool) (rd : Reg) (ra : Reg) (rb : Reg) (s : State) : Host.Outcome State Fault Refusal :=
  issueVector (.vcmplt sm rd ra rb) s
/-- VCMPLE (R179). -/
def execVcmple (sm : Bool) (rd : Reg) (ra : Reg) (rb : Reg) (s : State) : Host.Outcome State Fault Refusal :=
  issueVector (.vcmple sm rd ra rb) s
/-- VSEL (R179). -/
def execVsel (sm : Bool) (rd : Reg) (ra : Reg) (rb : Reg) (s : State) : Host.Outcome State Fault Refusal :=
  issueVector (.vsel sm rd ra rb) s
/-- VCVT (R180). -/
def execVcvt (sm : Bool) (rd : Reg) (ra : Reg) (s : State) : Host.Outcome State Fault Refusal :=
  issueVector (.vcvt sm rd ra) s
/-- VRED (R181). -/
def execVred (sm : Bool) (rd : Reg) (ra : Reg) (o : BitVec 7) (s : State) : Host.Outcome State Fault Refusal :=
  issueVector (.vred sm rd ra o) s
/-- VDOT (R181). -/
def execVdot (sm : Bool) (rd : Reg) (ra : Reg) (rb : Reg) (s : State) : Host.Outcome State Fault Refusal :=
  issueVector (.vdot sm rd ra rb) s
/-- VQNT (R180). -/
def execVqnt (sm : Bool) (rd : Reg) (ra : Reg) (rb : Reg) (s : State) : Host.Outcome State Fault Refusal :=
  issueVector (.vqnt sm rd ra rb) s
/-- VSHUF (R182). -/
def execVshuf (sm : Bool) (rd : Reg) (ra : Reg) (rb : Reg) (s : State) : Host.Outcome State Fault Refusal :=
  issueVector (.vshuf sm rd ra rb) s
/-- VBCAST (R182). -/
def execVbcast (sm : Bool) (rd : Reg) (ra : Reg) (s : State) : Host.Outcome State Fault Refusal :=
  issueVector (.vbcast sm rd ra) s
/-- VEXT (R182). -/
def execVext (sm : Bool) (rd : Reg) (ra : Reg) (rb : Reg) (s : State) : Host.Outcome State Fault Refusal :=
  issueVector (.vext sm rd ra rb) s
/-- VINS (R182). -/
def execVins (sm : Bool) (rd : Reg) (ra : Reg) (rb : Reg) (s : State) : Host.Outcome State Fault Refusal :=
  issueVector (.vins sm rd ra rb) s
/-- VMOV (R182). -/
def execVmov (sm : Bool) (rd : Reg) (ra : Reg) (s : State) : Host.Outcome State Fault Refusal :=
  issueVector (.vmov sm rd ra) s

/-- The cores of a team in the order in which a round robin that last served a core looks at them. -/
def afterCore (last : Nat) : List Nat := (List.range 4).map fun k => (last + 1 + k) % 4
/-- The core whose head the unit grants in this cycle (R173). -/
def State.vectorNext (s : State) (node : Nat) : Option Nat :=
  let t := s.team node
  (afterCore t.vlast).find? fun c => match (t.vq.getD c []).head? with
    | some j => decide (j.issued < s.cycle)
    | none => false
/-- VECTOR_GRANT (R173): the unit reads the groups and the scalars in window registers, and the result returns after
the instruction's latency. The subject is the node. -/
def execVectorGrant (s : State) : Host.Outcome State Fault Refusal :=
  let node := s.subj.n
  match s.vectorNext node with
  | none => .next s
  | some c =>
    match ((s.team node).vq.getD c []).head? with
    | none => .next s
    | some j =>
      let reg := fun n => (j.instr.fields.getD n (.dst, .g 0)).2
      let grp := fun n => groupNat (s.readGroup j.tk (reg n))
      let sc := fun n => match j.scal.getD n none with
        | some v => v
        | none => s.readG j.tk (Reg.gnum (reg n))
      let due := s.cycle + vectorLatency j.instr
      let j := { j with due := due, result := vectorResult j.instr j.fmt j.aux (grp 0) (grp 1) (grp 2) sc }
      .next ((s.modTeam node fun t =>
        { t with vlast := c, vq := t.vq.set c (t.vq.getD c []).tail, vfly := t.vfly ++ [j] }).addTimer due .vectorReturn
          { n := node, m := j.id })
/-- VECTOR_RETURN (R172): the result is written, and the thread is ready from the next cycle. The subject is the node
and the job. -/
def execVectorReturn (s : State) : Host.Outcome State Fault Refusal :=
  let node := s.subj.n
  match (s.team node).vfly.find? fun j => j.id == s.subj.m with
  | none => .next s
  | some j =>
    let s := s.modTeam node fun t => { t with vfly := t.vfly.filter fun k => k.id != j.id }
    if (s.thread j.tk).run ≠ .handed then .next s
    else
      let rd := (j.instr.fields.getD 0 (.dst, .g 0)).2
      let s := match j.result with
        | [v] => s.writeGS j.tk rd v
        | vs => s.writeGroup j.tk rd vs
      .next ((s.modThread j.tk fun th => { th with run := .ready, notBefore := s.cycle + 1 }).settleSwitch j.instr j.tk)

end Sys2Proof.Machine
end

