-- ==== Sys2Proof/Machine/Matrix.lean ====
section
/-! DEFINITION. The matrix engine, opcode 0x32 (R183 to R211). -/

namespace Sys2Proof.Machine

/-! ### Tile command words (R37, R194 to R196) -/

/-- A word of a TCW. -/
def tw (t : List Word) (n : Nat) : Word := t.getD n 0
/-- The kind. -/
def tKind (t : List Word) : Nat := fld (tw t 0) 58 6
/-- The accumulator tile. -/
def tAcc (t : List Word) : Nat := fld (tw t 0) 54 4
/-- Ring A. -/
def tRingA (t : List Word) : Nat := fld (tw t 0) 51 3
/-- Ring B. -/
def tRingB (t : List Word) : Nat := fld (tw t 0) 48 3
/-- typeA. -/
def tTypeA (t : List Word) : Nat := fld (tw t 0) 44 4
/-- typeB. -/
def tTypeB (t : List Word) : Nat := fld (tw t 0) 40 4
/-- amode. -/
def tMode (t : List Word) : Nat := fld (tw t 0) 36 4
/-- saturate. -/
def tSat (t : List Word) : Bool := bitAt (tw t 0) 33
/-- fence-after. -/
def tFence (t : List Word) : Bool := bitAt (tw t 0) 32
/-- The row mask. -/
def tRow (t : List Word) (i : Nat) : Bool := bitAt (tw t 1) (48 + i)
/-- The column mask. -/
def tCol (t : List Word) (j : Nat) : Bool := bitAt (tw t 1) (32 + j)
/-- The depth mask. -/
def tDepth (t : List Word) (k : Nat) : Bool := bitAt (tw t 1) (16 + k)
/-- keepA. -/
def tKeepA (t : List Word) : Bool := bitAt (tw t 2) 63
/-- keepB, or the clear bit of MDRN. -/
def tKeepB (t : List Word) : Bool := bitAt (tw t 2) 62
/-- notify. -/
def tNotify (t : List Word) : Bool := bitAt (tw t 3) 63
/-- An 8-bit integer code. -/
def isInt8 (c : Nat) : Bool := c == 5 || c == 6
/-- An operand code of FP mode. -/
def isFpOp (c : Nat) : Bool := c == 2 || c == 3 || c == 4
/-- A result code of MDRN and MSTP. -/
def isDrain (c : Nat) : Bool := c == 1 || c == 2 || c == 3 || c == 5 || c == 6 || c == 8
/-- The bytes of an operand tile (Table MX-2). -/
def tileBytes (c : Nat) : Nat := if c = 4 then 272 else 32 * widthOf c
/-- The bytes of the entry of ring A that a command uses; 0 when it uses none. -/
def needA (t : List Word) : Nat :=
  match tKind t with
  | 1 => tileBytes (tTypeA t)
  | 2 => if (tMode t).testBit 1 then 576 else 384
  | 3 => if tMode t = 0 then 144 else 8
  | 5 => 1024
  | 7 | 8 => if tMode t = 2 then 80 else 0
  | _ => 0
/-- The bytes of an entry of ring B that a command reads; 0 when it reads none. -/
def needB (t : List Word) : Nat :=
  match tKind t with
  | 1 => tileBytes (tTypeB t)
  | 2 | 6 => 256
  | _ => 0
/-- The bytes that a command writes to an entry of ring B; 0 when it writes none. -/
def needW (t : List Word) : Nat :=
  match tKind t with
  | 3 => if tMode t = 0 then 272 else 0
  | 7 => 32 * widthOf (tTypeB t)
  | _ => 0
/-- The entries of ring B that a command reads. -/
def countB (t : List Word) : Nat := match tKind t with | 2 => 3 | 1 | 6 => 1 | _ => 0
/-- The command computes in FP mode. -/
def tFp (t : List Word) : Bool := match tKind t with | 1 => isFpOp (tTypeA t) | _ => false
/-- A ring that is configured and large enough, or an unused ring field that is zero. -/
def ringOk (rings : List Ring) (r need : Nat) : Bool :=
  if need = 0 then r == 0
  else let g := rings.getD r {}; g.n != 0 && decide (need ≤ g.e)
/-- Word 0 of a TCW (R195, R196). -/
def tcwOk0 (rings : List Ring) (t : List Word) : Bool :=
  let a := tTypeA t
  let b := tTypeB t
  let m := tMode t
  fld (tw t 0) 0 32 == 0 && (bitAt (tw t 0) 35 == (a == 5)) && (bitAt (tw t 0) 34 == (b == 5)) &&
    (match tKind t with
      | 1 => ((isFpOp a && isFpOp b) || (isInt8 a && isInt8 b)) && decide (m ≤ 1) && (!tSat t || isInt8 a)
      | 2 => isInt8 a && isInt8 b && decide (m ≤ 3)
      | 3 => a == 4 && ((m == 0 && b == 4) || (m == 1 && b == 0)) && !tSat t
      | 4 => a == 0 && b == 0 && decide (m ≤ 1) && !tSat t
      | 5 => (a == 1 || a == 8) && b == 0 && m == 0 && !tSat t
      | 6 => a == 0 && isInt8 b && decide (m ≤ 1) && !tSat t
      | 7 | 8 => a == 0 && isDrain b && decide (m ≤ 2) && (m != 2 || b == 5 || b == 6 || b == 8) && !tSat t
      | _ => false) &&
    ringOk rings (tRingA t) (needA t) && ringOk rings (tRingB t) (max (needB t) (needW t))
/-- Word 1 of a TCW. -/
def tcwOk1 (t : List Word) : Bool :=
  let rows := fld (tw t 1) 48 16 == 0xFFFF
  let cols := fld (tw t 1) 32 16 == 0xFFFF
  let depth := fld (tw t 1) 16 16 == 0xFFFF
  fld (tw t 1) 0 16 == 0 && (match tKind t with
    | 1 => true
    | 2 | 4 | 5 | 8 => depth
    | 6 => rows
    | _ => rows && cols && depth)
/-- Word 2 of a TCW, with the scratchpad size S. -/
def tcwOk2 (size : Nat) (t : List Word) : Bool :=
  let w := tw t 2
  let b := widthOf (tTypeB t) / 8
  match tKind t with
  | 1 | 2 => fld w 0 62 == 0
  | 3 => fld w 0 61 == 0 && decide (fld w 61 2 ≤ 2) && (tMode t == 1 || fld w 61 2 == 0)
  | 4 => w == 0
  | 5 => fld w 0 63 == 0
  | 6 => fld w 0 62 == 0 && !bitAt w 63
  | 7 => fld w 0 16 == 0 && fld w 48 14 == 0 && (tMode t == 2 || fld w 16 32 == 0)
  | _ => fld w 53 10 != 0 && (tMode t == 2 || fld w 0 32 == 0) && fld w 32 21 % b == 0 &&
      decide (fld w 32 21 + 240 * fld w 53 10 + 16 * b ≤ size)
/-- Word 3 of a TCW. -/
def tcwOk3 (t : List Word) : Bool := fld (tw t 3) 32 31 == 0
/-- The number of the first faulty word. -/
def tcwFault (rings : List Ring) (size : Nat) (t : List Word) : Option Nat :=
  if !tcwOk0 rings t then some 0
  else if !tcwOk1 t then some 1
  else if !tcwOk2 size t then some 2
  else if !tcwOk3 t then some 3
  else none

/-! ### Pushing (R204, R205) -/

/-- A team's engine. -/
def State.mx (s : State) (node : Nat) : Matrix := (s.team node).mx
/-- The dispatch queue of a core has room. -/
def State.mRoom (s : State) (core : Nat) : Bool :=
  decide (((s.mx (nodeOf core)).dq.getD (coreInTeam core) []).length < 2)
/-- A slot's generation (R206). -/
def State.slotGen (s : State) (tk : Nat) : Nat := SMap.getD (s.core (coreOf tk)).gens (slotOf tk) 0
/-- A command or fence entered in a core's dispatch queue. -/
def State.mEnqueue (s : State) (tk : Nat) (t : List Word) (fence : Bool) (pc : BitVec 48) (stamp : Nat) : State :=
  let core := coreOf tk
  let c := coreInTeam core
  let (id, s) := s.fresh
  let m := s.mx (nodeOf core)
  let e : MEntry := { id := id, tcw := t, core := c, slot := slotOf tk, gen := s.slotGen tk, seq := m.seqs.getD c 0
                      fence := fence, pc := pc, stamp := stamp, tk := tk, cycle := s.cycle }
  s.modMx (nodeOf core) fun m =>
    { m with
      dq := m.dq.set c (m.dq.getD c [] ++ [e])
      seqs := if fence then m.seqs else m.seqs.set c ((m.seqs.getD c 0 + 1) % 65536) }
/-- The sequence number that the next MPUSH of a core gets. -/
def State.mSeq (s : State) (core : Nat) : Nat := (s.mx (nodeOf core)).seqs.getD (coreInTeam core) 0
/-- The checks of MPUSH on its command (R196). -/
def mpushCheck (i : Instr) (ra : Reg) (x : Issue) (s : State) : Check :=
  match tcwFault (s.mx x.node).rings (s.team x.node).s (s.readQuad x.tk ra) with
  | some n => .trap 1 (16 + n) (wordReport x.pre (encode i))
  | none => .go
/-- MPUSH (R204): with no room the thread waits, with its command and pc in its wait. -/
def execMpush (sm : Bool) (rd : Reg) (ra : Reg) (e : BitVec 7) (s : State) : Host.Outcome State Fault Refusal :=
  let i : Instr := .mpush sm rd ra e
  issue i (mpushCheck i ra) (fun x s =>
    let t := s.readQuad x.tk ra
    if s.mRoom x.core then
      ((s.mEnqueue x.tk t false x.pc s.nextId).writeReg x.tk rd (word (s.mSeq x.core))).setStatus x.tk 0
    else s.beginWait i { x with vals := t } (s.bound e.toNat) 0) s
/-- MFENCE (R205). -/
def execMfence (sm : Bool) (e : BitVec 7) (s : State) : Host.Outcome State Fault Refusal :=
  issue (.mfence sm e) noCheck (fun x s =>
    if s.mRoom x.core then (s.mEnqueue x.tk [] true x.pc s.nextId).setStatus x.tk 0
    else s.beginWait (.mfence sm e) x (s.bound e.toNat) 0) s

/-! ### Rings (R207 to R209) -/

/-- The rings that a command names. -/
def namesRing (t : List Word) (n : Nat) : Bool :=
  (needA t != 0 && tRingA t == n) || (max (needB t) (needW t) != 0 && tRingB t == n)
/-- No queued or unfinished command of the team names a ring. -/
def State.ringIdle (s : State) (node n : Nat) : Bool :=
  let m := s.mx node
  !(m.dq.any fun q => q.any fun e => !e.fence && namesRing e.tcw n) &&
    !(m.startQ.any fun e => !e.fence && namesRing e.tcw n) && !(m.active.any fun o => namesRing o.e.tcw n)
/-- A ring descriptor that MRING refuses (R207). -/
def ringBad (size : Nat) (d0 d1 : Word) : Bool :=
  let b := fld d0 0 21
  let e := fld d0 32 16
  let n := fld d0 48 8
  d1 != 0 || fld d0 56 8 != 0 || bitAt d0 31 || fld d0 21 7 != 0 ||
    (if n = 0 then b != 0 || e != 0
     else b % 16 != 0 || e % 16 != 0 || decide (e < 16) || decide (4096 < e) || decide (size < b + e * n))
/-- A ring set by its descriptor. -/
def State.setRing (s : State) (node : Nat) (d0 : Word) : State :=
  let n := fld d0 28 3
  s.modMx node fun m =>
    { m with
      rings := m.rings.set n { b := fld d0 0 21, e := fld d0 32 16, n := fld d0 48 8 }
      passed := m.passed.filter fun p => p.1 != n && p.1 != n + 8 }
/-- MRING (R207). -/
def execMring (sm : Bool) (ra : Reg) (e : BitVec 4) (s : State) : Host.Outcome State Fault Refusal :=
  issue (.mring sm ra e) noCheck (fun x s =>
    let d0 := x.val 0
    let d1 := s.readG x.tk (Reg.gnum ra + 1)
    if ringBad (s.team x.node).s d0 d1 then s.setStatus x.tk 4
    else if s.ringIdle x.node (fld d0 28 3) then (s.setRing x.node d0).setStatus x.tk 0
    else s.beginWait (.mring sm ra e) x (s.bound e.toNat) 0) s
/-- A difference of two pointers of a ring, modulo 2N. -/
def ringDiff (n a b : Nat) : Nat := (a + 2 * n - b % (2 * n)) % (2 * n)
/-- MRADV's change of a ring; none when it is refused (R208). -/
def ringAdvance (g : Ring) (a : Word) : Option Ring :=
  let n := fld a 16 8
  let m := 2 * g.n
  if fld a 24 40 ≠ 0 ∨ fld a 9 7 ≠ 0 ∨ fld a 3 5 ≠ 0 ∨ n = 0 ∨ g.n = 0 then none
  else if !bitAt a 8 then
    if g.f ≠ g.t ∨ g.n < ringDiff g.n g.t g.h + n then none else some { g with t := (g.t + n) % m, f := (g.f + n) % m }
  else if g.c ≠ g.h ∨ ringDiff g.n g.t g.h < n then none
  else some { g with h := (g.h + n) % m, c := (g.c + n) % m }
/-- The occupancy of a ring. -/
def ringFill (g : Ring) : Word := if g.n = 0 then 0 else word (ringDiff g.n g.t g.h)
/-- MRADV (R208). -/
def execMradv (sm : Bool) (rd : Reg) (ra : Reg) (s : State) : Host.Outcome State Fault Refusal :=
  issue (.mradv sm rd ra) noCheck (fun x s =>
    (s.reserveReg x.tk rd).addMove (s.cycle + 3) (.ringOp (x.localOp s (.ringAdvance rd (x.val 1))))) s
/-- The word that MRSTAT writes (R209). -/
def State.ringStat (s : State) (tk : Nat) (a : Word) : Word :=
  let m := s.mx (nodeOf (coreOf tk))
  let c := coreInTeam (coreOf tk)
  if !bitAt a 8 then
    let g := m.rings.getD (fld a 0 3) {}
    word (g.h + at' 9 g.c + at' 18 g.t + at' 27 g.f + at' 36 g.n)
  else
    let pending := (m.dq.getD c []).length + (m.startQ.filter fun e => e.core == c && !e.fence).length +
      (m.active.filter fun o => o.e.core == c).length
    let recs := ((m.results.getD c []).filter fun r => r.slot == slotOf tk).length
    word (pending % 256 + at' 8 recs + at' 16 (bit m.checked))
/-- MRSTAT (R209). -/
def execMrstat (sm : Bool) (rd : Reg) (ra : Reg) (s : State) : Host.Outcome State Fault Refusal :=
  issue (.mrstat sm rd ra) noCheck (fun x s =>
    (s.reserveReg x.tk rd).addMove (s.cycle + 3) (.ringOp (x.localOp s (.ringStatus rd (x.val 1))))) s
/-- MRADV or MRSTAT in the bank cycle of a local store issued with it, after the engine's pointer moves (R208, R209).
(DEDUCED, log 8.) -/
def State.ringStep (s : State) (op : LocalOp) : State :=
  let node := nodeOf (coreOf op.tk)
  if !s.opLive op then s
  else match op.kind with
    | .ringAdvance rd a =>
      let g := (s.mx node).rings.getD (fld a 0 3) {}
      (match ringAdvance g a with
      | none => (s.writeBank op.tk rd (ringFill g) op.issued op.stamp 0).setStatus op.tk 4
      | some g' =>
        ((s.modMx node fun m => { m with rings := m.rings.set (fld a 0 3) g' }).writeBank op.tk rd (ringFill g')
          op.issued op.stamp 0).setStatus op.tk 0)
    | .ringStatus rd a =>
      if fld a 9 55 ≠ 0 ∨ fld a 3 5 ≠ 0 then (s.writeBank op.tk rd 0 op.issued op.stamp 0).setStatus op.tk 4
      else (s.writeBank op.tk rd (s.ringStat op.tk a) op.issued op.stamp 0).setStatus op.tk 0
    | .load _ _ _ _ | .loadGroup _ _ | .store _ _ => s

/-- An instruction of the engine that waits goes on when what it waits for is there (R204, R205, R207). -/
def State.matrixResume (s : State) (tk : Nat) (w : Wait) : State :=
  let pc := (s.thread tk).pc
  match w.instr with
  | .mpush _ rd _ _ =>
    if s.mRoom (coreOf tk) then
      ((s.mEnqueue tk w.vals false pc w.stamp).writeGS tk rd (word (s.mSeq (coreOf tk)))).finishWait tk 0
    else s
  | .mfence _ _ => if s.mRoom (coreOf tk) then (s.mEnqueue tk [] true pc w.stamp).finishWait tk 0 else s
  | .mring _ _ _ =>
    let d0 := w.vals.getD 0 0
    let node := nodeOf (coreOf tk)
    if s.ringIdle node (fld d0 28 3) then (s.setRing node d0).finishWait tk 0 else s
  | _ => s
/-- MATRIX_QUEUE_TIMEOUT (R204, R205, R207): the subject is the thread and its wait. -/
def execMatrixQueueTimeout (s : State) : Host.Outcome State Fault Refusal :=
  match (s.thread s.subj.n).wait? with
  | none => .next s
  | some w => if w.id ≠ s.subj.m then .next s else .next (s.finishWait s.subj.n 1)

/-! ### MPOP (R206) -/

/-- MPOP: a fifth pending pop parks. -/
def execMpop (sm : Bool) (rd : Reg) (e : BitVec 7) (s : State) : Host.Outcome State Fault Refusal :=
  issue (.mpop sm rd e) (fun x s => if (s.thread x.tk).mpops.length < 4 then .go else .park) (fun x s =>
    let (id, s) := s.fresh
    s.modThread x.tk fun th =>
      { th with mpops := th.mpops ++ [{ id := id, rd := Reg.gnum rd, deadline := s.bound e.toNat }] }) s
/-- The result queue of a core. -/
def State.mResults (s : State) (core : Nat) : List MRec := (s.mx (nodeOf core)).results.getD (coreInTeam core) []
/-- A result queue set. -/
def State.setResults (s : State) (core : Nat) (l : List MRec) : State :=
  s.modMx (nodeOf core) fun m => { m with results := m.results.set (coreInTeam core) l }
/-- The history of each cell once a record has been popped, by the number that is to be given next (R189). -/
def Matrix.popped (m : Matrix) (op now : Nat) : Matrix :=
  { m with hist := m.hist.map fun h => (h.1, h.2.map fun e => if e.op = op ∧ e.shape ≠ 0 then { e with after := some now } else e) }
/-- MPOP_RECORD_LAND (R206): the oldest record of the slot lands in its oldest pending MPOP. The subject is the thread. -/
def execMpopRecordLand (s : State) : Host.Outcome State Fault Refusal :=
  let tk := s.subj.n
  let l := s.mResults (coreOf tk)
  match (s.thread tk).mpops, l.find? fun r => r.slot == slotOf tk with
  | p :: ps, some r =>
    let rest := l.eraseIdx (l.findIdx fun q => q.slot == slotOf tk)
    let s := (s.setResults (coreOf tk) rest).modMx (nodeOf (coreOf tk)) fun m => m.popped r.op s.nextId
    let s := ((s.writeG tk p.rd r.w0).writeG tk (p.rd + 1) r.w1).setStatus tk 0
    .next ((s.modThread tk fun th => { th with mpops := ps }).landed tk)
  | _, _ => .next s
/-- MPOP_TIMEOUT (R206): the subject is the thread and its pending pop. -/
def execMpopTimeout (s : State) : Host.Outcome State Fault Refusal :=
  let tk := s.subj.n
  if (s.thread tk).mpops.any fun p => p.id == s.subj.m then
    .next (((s.modThread tk fun th => { th with mpops := th.mpops.filter fun p => p.id != s.subj.m }).setStatus tk 1).landed tk)
  else .next s
/-- A matrix-fault report sent to a core's trap port (R193, R256). (DEDUCED, log 57.) -/
def State.matrixReport (s : State) (core : Nat) (r : MRec) : State :=
  s.sendMessage (nodeOf core) core 31 (reportWord 4 (fld r.w0 48 6) r.slot r.pc) r.tcw0 true r.slot 0
/-- The records of a slot discarded when its thread leaves it; those with a cause become reports (R206). -/
def State.dropRecords (s : State) (tk : Nat) : State :=
  if isChannel (coreOf tk) then s
  else
    let l := s.mResults (coreOf tk)
    let s := if l.any fun r => r.slot == slotOf tk then s.setResults (coreOf tk) (l.filter fun r => r.slot != slotOf tk) else s
    (l.filter fun r => r.slot == slotOf tk && fld r.w0 48 6 != 0).foldl (fun s r => s.matrixReport (coreOf tk) r) s

/-! ### Cells (R190 to R192, R197 to R202) -/

/-- The key of a cell of an accumulator, and of a correction vector (from 4,096 on). -/
def cellKey (acc i j : Nat) : Nat := 256 * acc + 16 * i + j
/-- The key of a cell of a correction vector. -/
def corrKey (acc j : Nat) : Nat := 4096 + 16 * acc + j
/-- A cell of the engine. -/
def Matrix.cell (m : Matrix) (k : Nat) : BitVec 36 :=
  if k < 4096 then SMap.getD m.acc k 0 else SMap.getD m.corr (k - 4096) 0
/-- A cell written. -/
def Matrix.setCell (m : Matrix) (k : Nat) (v : BitVec 36) : Matrix :=
  if k < 4096 then { m with acc := SMap.putD m.acc k v 0 } else { m with corr := SMap.putD m.corr (k - 4096) v 0 }
/-- The rows and columns under a command's masks. -/
def tMasked (t : List Word) : List (Nat × Nat) :=
  (List.range 16).flatMap fun i => ((List.range 16).filter fun j => tRow t i && tCol t j).map fun j => (i, j)
/-- The cells that a command touches. (DESIGN CHOICE, log 17.) -/
def cellsOf (t : List Word) : List Nat :=
  let a := tAcc t
  let body := (tMasked t).map fun p => cellKey a p.1 p.2
  let corr := ((List.range 16).filter fun j => tCol t j).map (corrKey a)
  match tKind t with
  | 1 | 2 | 5 => body
  | 4 => if tMode t = 1 then body ++ corr else body
  | 6 => corr
  | 7 | 8 => if tMode t = 2 then body ++ corr else body
  | _ => []
/-- Little-endian bytes of an operand from an offset. -/
def opNat (bs : List Byte) (off n : Nat) : Nat := ofBytes ((bs.drop off).take n)
/-- Element n of a floating-point tile (R185). -/
def fpElem (code : Nat) (bs : List Byte) (n : Nat) : Val :=
  if code = 4 then zfScaled (opNat bs n 1) (opNat bs 256 1)
  else valueOf code (opNat bs (widthOf code / 8 * n) (widthOf code / 8))
/-- Element n of an 8-bit integer tile, from an offset. -/
def intElem (code : Nat) (bs : List Byte) (off n : Nat) : Int := intValue code (opNat bs (off + n) 1)
/-- The products of MMA for a cell, in FP mode (R197). A product that does not enter is no addend of the zero rule.
(DEDUCED, log 73.) -/
def mmaFp (o : MOp) (i j : Nat) : List Val :=
  let t := o.e.tcw
  ((List.range 16).filter fun k => tDepth t k).map fun k =>
    (fpElem (tTypeA t) o.opA (16 * i + k)).mul (fpElem (tTypeB t) o.opB (16 * k + j))
/-- The sum of products of MMA for a cell, in integer mode. -/
def mmaInt (o : MOp) (i j : Nat) : Int :=
  let t := o.e.tcw
  (((List.range 16).filter fun k => tDepth t k).map fun k =>
    intElem (tTypeA t) o.opA 0 (16 * i + k) * intElem (tTypeB t) o.opB 0 (16 * k + j)).foldl (· + ·) 0
/-- The sum of products of MMAS for a cell (R198). -/
def mmasInt (o : MOp) (i j : Nat) : Int :=
  let t := o.e.tcw
  let n := if (tMode t).testBit 1 then 6 else 4
  let kept := 4 * n
  ((List.range kept).map fun m =>
    let b := opNat o.opA (16 * kept + kept / 2 * i + m / 2) 1
    let idx := b / 16 ^ (m % 2) % 16
    if idx ≤ 11 then
      let k := 12 * (m / n) + idx
      intElem (tTypeA t) o.opA 0 (kept * i + m) * intElem (tTypeB t) o.opB (256 * (k / 16)) (16 * (k % 16) + j)
    else 0).foldl (· + ·) 0
/-- The value that a command leaves in a cell it writes; none for a cell it only reads. -/
def newCell (o : MOp) (k : Nat) (old : BitVec 36) : Option (BitVec 36) :=
  let t := o.e.tcw
  let i := k % 256 / 16
  let j := k % 16
  let m := tMode t
  match tKind t with
  | 1 =>
    let start := if m = 1 then 0 else old
    some (if tFp t then sumA36Fp start (mmaFp o i j) else sumA36Int (tSat t) start (mmaInt o i j))
  | 2 => some (sumA36Int (tSat t) (if m.testBit 0 then 0 else old) (mmasInt o i j))
  | 4 => some 0
  | 5 =>
    let x := opNat o.opA (4 * (16 * i + j)) 4
    some (if tTypeA t = 1 then BitVec.ofNat 36 (a36.round (valueOf 1 x)) else BitVec.ofInt 36 (intValue 8 x))
  | 6 =>
    let sum := (((List.range 16).filter fun d => tDepth t d).map fun d => intElem (tTypeB t) o.opB 0 (16 * d + j)).foldl (· + ·) 0
    some (sumA36Int false (if m = 1 then 0 else old) sum)
  | 7 => if tKeepB t then some 0 else none
  | _ => none
/-- A drain keeps what it reads; every other operation keeps what it will write. -/
def isDrainOp (t : List Word) : Bool := tKind t == 7 || tKind t == 8
/-- The number of an operation's shape (R190): operations of equal shape have equal numbers. -/
def shapeOf (t : List Word) : Nat :=
  1 + ((tKind t * 16 + tTypeA t) * 16 + tTypeB t) * 2 + (if tKind t = 2 then bit ((tMode t).testBit 1) else 0)
/-- The history of a cell since the last fence: it begins with what the cell held then. -/
def Matrix.history (m : Matrix) (k : Nat) : List CellEvent :=
  SMap.getD m.hist k [{ shape := 0, value := m.cell k, wrote := true }]
/-- A push of a number comes after the pop of an event's record (R189). -/
def CellEvent.precedes (e : CellEvent) (pushed : Nat) : Bool := match e.after with | some n => decide (n ≤ pushed) | none => false
/-- The first place at which an operation may read a cell: that of the last effect of its shape (R190), or of one whose record
was popped before its push (R189). (DEDUCED, log 17.) -/
def firstPlace (shape pushed : Nat) (l : List CellEvent) : Nat :=
  l.length - 1 - l.reverse.findIdx fun e => e.shape == shape || e.precedes pushed
/-- Where in a cell's history an operation reads it, as the n-th choice has it: there or after it (R192). (DESIGN CHOICE,
log 17.) -/
def readPlace (shape pushed : Nat) (l : List CellEvent) (n : Nat) : Nat :=
  firstPlace shape pushed l + Config.cellOrder n % (l.length - firstPlace shape pushed l)
/-- The event at a place of a history. -/
def eventAt (l : List CellEvent) (p : Nat) : CellEvent := l.getD p { shape := 0, value := 0, wrote := false }
/-- The places at which an operation that reads at place p may write: at the end, or at once before another's later write,
which then stands. -/
def writePlaces (l : List CellEvent) (p : Nat) : List Nat :=
  l.length :: (List.range l.length).filter fun j => decide (p < j) && (eventAt l j).wrote
/-- Where it writes, as the n-th choice has it (R192). (DESIGN CHOICE, log 17.) -/
def writePlace (l : List CellEvent) (p n : Nat) : Nat :=
  let w := writePlaces l p
  w.getD (Config.cellOrder n % w.length) l.length
/-- An operation's effect on one cell in checked mode, and what it has read: (values read, engine). -/
def cellInOrder (o : MOp) (acc : SMap (BitVec 36) × Matrix) (k : Nat) : SMap (BitVec 36) × Matrix :=
  let (held, m) := acc
  let v := m.cell k
  (SMap.put held k v, match newCell o k v with | some w => m.setCell k w | none => m)
/-- An operation's effect on one cell in unchecked mode, and what it has read: (values read, engine). Chains of other
shapes may come before its read, between its read and its write, and after its write (R192). (DESIGN CHOICE, log 17.) -/
def cellAnyOrder (o : MOp) (acc : SMap (BitVec 36) × Matrix) (k : Nat) : SMap (BitVec 36) × Matrix :=
  let (held, m) := acc
  let l := m.history k
  let event := fun v wrote => ({ shape := shapeOf o.e.tcw, op := o.e.id, value := v, wrote := wrote } : CellEvent)
  let n := 2 * (o.e.id * 8192 + k)
  let p := readPlace (shapeOf o.e.tcw) o.e.id l n
  let v := (eventAt l p).value
  (SMap.put held k v, match newCell o k v with
    | some w =>
      let q := writePlace l p (n + 1)
      let m := { m with hist := SMap.put m.hist k (l.take q ++ event w true :: l.drop q) }
      if q = l.length then m.setCell k w else m
    | none =>
      { m with hist := SMap.put m.hist k (l.take (p + 1) ++ event v false :: l.drop (p + 1)) })
/-- A fence has passed: what the cells held before it is no more to be read (R191, R192). -/
def Matrix.passFence (m : Matrix) : Matrix := { m with fenced := false, hist := [] }
/-- A drained cell converted (R202): the cell, its correction, and its column. -/
def drainElem (o : MOp) (c corr : BitVec 36) (j : Nat) : Nat :=
  let t := o.e.tcw
  match tMode t with
  | 0 => convert (a36.value c.toNat) (tTypeB t)
  | 1 => convert (Val.ofInt c.toInt) (tTypeB t)
  | _ =>
    let z := if tKind t = 7 then 32 else 16
    let za := signedOf 16 (fld (tw t 2) z 16)
    let zo := signedOf 16 (fld (tw t 2) (z - 16) 16)
    let v := c.toInt - za * corr.toInt
    let p := v * signedOf 32 (opNat o.opA (4 * j) 4)
    let r := Val.toInt (.fin (decide (p < 0)) p.natAbs (-((opNat o.opA (64 + j) 1 % 64 : Nat) : Int))) + zo
    let range := intRange (tTypeB t)
    natOf (widthOf (tTypeB t)) (clampInt range.1 range.2 r)

/-! ### Grant, start and completion (R186 to R188) -/

/-- The next dispatch queue to be granted: its core, and its head. -/
def Matrix.nextGrant (m : Matrix) (c : Nat) : Option (Nat × MEntry) :=
  (afterCore m.grant).findSome? fun k => match (m.dq.getD k []).head? with
    | some e => if e.cycle < c then some (k, e) else none
    | none => none
/-- One grant. -/
def Matrix.grantOne (m : Matrix) (c : Nat) : Matrix :=
  match m.nextGrant c with
  | none => m
  | some (k, e) =>
    if 8 ≤ m.startQ.length then m
    else { m with grant := k, dq := m.dq.set k (m.dq.getD k []).tail, startQ := m.startQ ++ [{ e with cycle := c }] }
/-- MATRIX_GRANT (R186): up to two grants in a cycle. The subject is the node. -/
def execMatrixGrant (s : State) : Host.Outcome State Fault Refusal :=
  if (s.team s.subj.n).stopped then .next s
  else .next (s.modMx s.subj.n fun m => (m.grantOne s.cycle).grantOne s.cycle)
/-- The units of the array, or 0 (Table MX-3). -/
def arrayUnits (t : List Word) : Nat :=
  match tKind t with
  | 1 => if isFpOp (tTypeA t) && !(tTypeA t == 4 && tTypeB t == 4) then 4 else 2
  | 2 => if (tMode t).testBit 1 then 3 else 2
  | _ => 0
/-- The latency of an operation. -/
def opLatency (t : List Word) : Nat :=
  match tKind t with
  | 1 => 12 | 2 => 14 | 3 => 40 | 4 => 2 | 5 => 4 | 6 => 6
  | _ => 8
/-- The array credit at the start of a cycle (R187). -/
def Matrix.creditNow (m : Matrix) (c : Nat) : Nat := min 7 (m.credit + 4 * (c - m.creditAt))
/-- Where an operation reads ring A, ring B and writes ring B, as pointer values. With one ring for both, B is read at
the entry after a popped A. (DESIGN CHOICE, log 74.) -/
def opPlaces (m : Matrix) (t : List Word) : Nat × Nat × Nat :=
  let ga := m.rings.getD (tRingA t) {}
  let gb := m.rings.getD (tRingB t) {}
  let popA := if needA t != 0 && !tKeepA t then 1 else 0
  let atB := if needA t != 0 && tRingA t == tRingB t then (gb.c + popA) % (2 * gb.n) else gb.c
  (ga.c, atB, gb.f)
/-- What an MDEC decodes from its source (R193, R199): the destination entry's bytes, or a cause. -/
def decodeOp (m : Matrix) (o : MOp) : Except Nat (List Byte) :=
  match decodeBlock o.opA (some ((m.rings.getD (tRingA o.e.tcw) {}).e)) m.tables with
  | .error c => .error c
  | .ok (bs, x) => .ok ((bs ++ [x]).map (BitVec.ofNat 8) ++ List.replicate 15 0)
/-- The cause that an operation faults with; 0 for none. -/
def opCause (m : Matrix) (o : MOp) : Nat :=
  if tKind o.e.tcw = 3 ∧ tMode o.e.tcw = 0 then (match decodeOp m o with | .error c => c | .ok _ => 0) else 0
/-- The engine cannot complete an operation because its record cannot be posted (R188), be it one of an older generation,
which is to be discarded. (DESIGN CHOICE, log 75.) -/
def Matrix.stalled (m : Matrix) (c : Nat) : Bool :=
  m.active.any fun o =>
    decide (o.doneAt ≤ c) && !o.reading && decide (16 ≤ (m.results.getD o.e.core []).length) && (tNotify o.e.tcw || opCause m o != 0)
/-- The operations that are due to complete, in the order in which they are. -/
def Matrix.dueOps (m : Matrix) (c : Nat) : List MOp :=
  sortBy (fun a b => decide (a.doneAt ≤ b.doneAt)) (m.active.filter fun o => decide (o.doneAt ≤ c))
/-- A fence separates what is granted from what is unfinished (R191): an operation with fence-after, complete or not. -/
def Matrix.fencePending (m : Matrix) : Bool := m.fenced && !m.active.isEmpty
/-- The release condition of a command (R187). -/
def State.released (s : State) (tk stamp : Nat) : Bool :=
  !(s.reqs.any fun e => e.2.tk == tk && decide (e.2.id < stamp) && (isLoad e.2.instr || isBuffered e.2.instr))
/-- The conditions of R187 for the head of the start queue. -/
def State.canStart (s : State) (node : Nat) (e : MEntry) : Bool :=
  let m := s.mx node
  let t := e.tcw
  let ga := m.rings.getD (tRingA t) {}
  let gb := m.rings.getD (tRingB t) {}
  let (atA, atB, _) := opPlaces m t
  decide (e.cycle < s.cycle) && !(m.stalled s.cycle) && !m.fencePending &&
    (if e.fence then m.active.isEmpty
     else
      s.released e.tk e.stamp &&
        (needA t == 0 || decide (1 ≤ ringDiff ga.n ga.t atA)) &&
        (needB t == 0 || decide (countB t ≤ ringDiff gb.n gb.t atB)) &&
        (needW t == 0 || decide (ringDiff gb.n gb.f gb.h < gb.n)) &&
        decide (arrayUnits t ≤ m.creditNow s.cycle) &&
        (tKind t != 3 || (decide (m.decFree ≤ s.cycle) && !(m.active.any fun o => tKind o.e.tcw == 3 && tMode o.e.tcw == 1))) &&
        (!(decide (4 ≤ tKind t)) || decide (m.drainFree ≤ s.cycle)))
/-- The bytes of n consecutive entries from a pointer. -/
def State.entryBytes (s : State) (node : Nat) (g : Ring) (p bytes : Nat) : Nat → List Byte
  | 0 => []
  | n + 1 => s.localBytes (sramKey node (g.b + g.e * (p % g.n))) bytes ++ s.entryBytes node g (p + 1) bytes n
/-- The bytes of ring A's entry that an operation reads. -/
def readA (t : List Word) (g : Ring) : Nat := if tKind t = 3 ∧ tMode t = 0 then min g.e 400 else needA t
/-- The banks of n consecutive entries from a pointer, of which each access takes some bytes (R94). -/
def entryBanks (node : Nat) (g : Ring) (p bytes n : Nat) : List Nat :=
  (List.range n).flatMap fun k => banksOf node (g.b + g.e * ((p + k) % g.n)) bytes
/-- The banks that an operation reads at its start (R95). -/
def readBanks (node : Nat) (m : Matrix) (t : List Word) (atA atB : Nat) : List Nat :=
  let ga := m.rings.getD (tRingA t) {}
  let gb := m.rings.getD (tRingB t) {}
  (if needA t = 0 then [] else entryBanks node ga atA (readA t ga) 1) ++
    if needB t = 0 then [] else entryBanks node gb atB (needB t) (countB t)
/-- A started operation reads its operands, when the ports of their banks have served it (R95, R187). In checked mode the cells
take its effect then, operations of one tile in grant order; in unchecked mode they take it at completion. The operations started
before it are given. (DESIGN CHOICE, log 17, 78.) -/
def State.readOperands (s : State) (node : Nat) (o : MOp) (before : List MOp) : MOp × State :=
  let m := s.mx node
  let t := o.e.tcw
  let ga := m.rings.getD (tRingA t) {}
  let gb := m.rings.getD (tRingB t) {}
  if m.checked && before.any fun p => p.reading && tAcc p.e.tcw == tAcc t then ({ o with reading := true }, s)
  else match s.askPorts .matrix (2 * o.e.id) (readBanks node m t o.atA o.atB) with
    | (false, s) => ({ o with reading := true }, s)
    | (true, s) =>
      let o := { o with
        reading := false
        opA := if needA t = 0 then [] else s.entryBytes node ga o.atA (readA t ga) 1
        opB := if needB t = 0 then [] else s.entryBytes node gb o.atB (needB t) (countB t) }
      if m.checked then
        let (held, m) := (cellsOf t).foldl (cellInOrder o) ([], m)
        ({ o with held := held }, s.modMx node fun _ => m)
      else (o, s)
/-- The operations started before one. -/
def Matrix.startedBefore (m : Matrix) (id : Nat) : List MOp := m.active.takeWhile fun p => p.e.id != id
/-- A started operation whose operands have still to be read tries again. -/
def State.readAgain (s : State) (node id : Nat) : State :=
  match (s.mx node).active.find? fun o => o.e.id == id with
  | none => s
  | some o =>
    let (o, s) := s.readOperands node o ((s.mx node).startedBefore id)
    s.modMx node fun m => { m with active := m.active.map fun p => if p.e.id = id then o else p }
/-- An operation starts: it claims and reserves entries, and its operands are read. -/
def State.startOp (s : State) (node : Nat) (e : MEntry) : State :=
  let m := s.mx node
  let t := e.tcw
  let ra := tRingA t
  let rb := tRingB t
  let (atA, atB, atW) := opPlaces m t
  let popA := if needA t != 0 && !tKeepA t then 1 else 0
  let popB := if needB t != 0 && !tKeepB t then countB t else 0
  let o : MOp := {
    e := e, startAt := s.cycle, doneAt := s.cycle + opLatency t, popA := popA, popB := popB, atA := atA, atB := atB, atW := atW }
  let adv := fun (g : Ring) n => { g with c := if g.n = 0 then 0 else (g.c + n) % (2 * g.n) }
  let rings := m.rings.set ra (adv (m.rings.getD ra {}) popA)
  let rings := rings.set rb (adv (rings.getD rb {}) popB)
  let rings := if needW t = 0 then rings
    else let g := rings.getD rb {}; rings.set rb { g with f := (g.f + 1) % (2 * g.n) }
  let m := if m.fenced then m.passFence else m
  let m := { m with
    fenced := tFence t, rings := rings, credit := m.creditNow s.cycle - arrayUnits t, creditAt := s.cycle
    drainFree := if 4 ≤ tKind t then s.cycle + (if 7 ≤ tKind t then 2 else 1) else m.drainFree
    decFree := if tKind t = 3 then s.cycle + 32 else m.decFree }
  let (o, s) := (s.modMx node fun _ => m).readOperands node o m.active
  s.modMx node fun m => { m with active := m.active ++ [o] }
/-- The fences at the head of the start queue that are complete, passed (R191). -/
def State.passFences (s : State) (node : Nat) : Nat → State
  | 0 => s
  | n + 1 =>
    match (s.mx node).startQ.head? with
    | none => s
    | some e =>
      if e.fence && s.canStart node e then
        State.passFences (s.modMx node fun m => { m with startQ := m.startQ.tail }.passFence) node n
      else s
/-- The head of the start queue started, if it can. -/
def State.startHead (s : State) (node : Nat) : State :=
  let s := s.passFences node 8
  match (s.mx node).startQ.head? with
  | none => s
  | some e =>
    if !e.fence && s.canStart node e then (s.modMx node fun m => { m with startQ := m.startQ.tail }).startOp node e
    else s
/-- MATRIX_OP_START (R187): up to two operations start in a cycle. The subject is the node. -/
def execMatrixOpStart (s : State) : Host.Outcome State Fault Refusal :=
  .next (((s.startHead s.subj.n).startHead s.subj.n).passFences s.subj.n 8)
/-- An entry that an unfinished operation reads. -/
def reads (m : Matrix) (r p : Nat) : Bool :=
  m.active.any fun o =>
    let t := o.e.tcw
    let g := m.rings.getD r {}
    (needA t != 0 && tRingA t == r && o.atA == p) ||
      (needB t != 0 && tRingB t == r && (List.range (countB t)).any fun k => (o.atB + k) % (2 * g.n) == p)
/-- H of a ring advanced over entries that are passed (R188). -/
def retire (r : Nat) : Nat → Matrix → Matrix
  | 0, m => m
  | n + 1, m =>
    let g := m.rings.getD r {}
    if m.passed.contains (r, g.h) && g.h != g.c && !reads m r g.h then
      retire r n { m with
        rings := m.rings.set r { g with h := (g.h + 1) % (2 * g.n) }, passed := m.passed.filter (· != (r, g.h)) }
    else m
/-- T of a ring advanced over entries whose writes are complete (R188). -/
def publish (r : Nat) : Nat → Matrix → Matrix
  | 0, m => m
  | n + 1, m =>
    let g := m.rings.getD r {}
    if m.passed.contains (r + 8, g.t) && g.t != g.f then
      publish r n { m with
        rings := m.rings.set r { g with t := (g.t + 1) % (2 * g.n) }, passed := m.passed.filter (· != (r + 8, g.t)) }
    else m
/-- The drained tile: one element for each touched cell, in row order. -/
def drainTile (o : MOp) (held : SMap (BitVec 36)) : List (Nat × Nat × Nat) :=
  (tMasked o.e.tcw).map fun p =>
    (p.1, p.2, drainElem o (SMap.getD held (cellKey (tAcc o.e.tcw) p.1 p.2) 0) (SMap.getD held (corrKey (tAcc o.e.tcw) p.2) 0) p.2)
/-- The banks that a completing operation writes (R95). -/
def writeBanks (node : Nat) (g : Ring) (o : MOp) : List Nat :=
  let t := o.e.tcw
  let b := widthOf (tTypeB t) / 8
  match tKind t with
  | 3 => if tMode t = 1 then [] else banksOf node (g.b + g.e * (o.atW % g.n)) 272
  | 7 => banksOf node (g.b + g.e * (o.atW % g.n)) (256 * b)
  | 8 => (List.range 16).flatMap fun i => banksOf node (fld (tw t 2) 32 21 + 16 * fld (tw t 2) 53 10 * i) (16 * b)
  | _ => []
/-- The bytes that a completing operation writes (R193, R199, R202). -/
def State.opWrites (s : State) (node : Nat) (o : MOp) (held : SMap (BitVec 36)) : State :=
  let t := o.e.tcw
  let m := s.mx node
  let g := m.rings.getD (tRingB t) {}
  let dst := sramKey node (g.b + g.e * (o.atW % g.n))
  let b := widthOf (tTypeB t) / 8
  match tKind t with
  | 3 =>
    if tMode t = 1 then
      s.modMx node fun m => { m with tables := m.tables.set (fld (tw t 2) 61 2) (word (opNat o.opA 0 8)) }
    else s.ownerWrite dst (match decodeOp m o with | .error _ => List.replicate 272 0 | .ok bs => bs)
  | 7 => s.ownerWrite dst ((drainTile o held).flatMap fun e => toBytes b e.2.2)
  | 8 =>
    let addr := fld (tw t 2) 32 21
    let pitch := fld (tw t 2) 53 10
    (drainTile o held).foldl (fun s e => s.ownerWrite (sramKey node (addr + 16 * pitch * e.1 + b * e.2.1)) (toBytes b e.2.2)) s
  | _ => s
/-- The record of an operation (R206). -/
def recordOf (o : MOp) (cause : Nat) : MRec :=
  let t := o.e.tcw
  { w0 := word (at' 58 (tKind t) + at' 54 (tAcc t) + at' 48 cause + at' 32 o.e.seq + fld (tw t 3) 0 32)
    w1 := if needW t = 0 then 0 else word (tRingB t + at' 8 o.atW)
    slot := o.e.slot, gen := o.e.gen, tcw0 := tw t 0, pc := o.e.pc, op := o.e.id }
/-- A record posted, or discarded when its thread has left its slot (R206): with notify clear, the report that R193 sends is the
only one at the posting (DESIGN CHOICE, log 89). -/
def State.postRecord (s : State) (core : Nat) (r : MRec) (notify : Bool) (cause : Nat) : State :=
  let tk := 64 * core + r.slot
  let s := if cause != 0 && !notify then s.matrixReport core r else s
  if (s.thread? tk).isSome && s.slotGen tk == r.gen then s.setResults core (s.mResults core ++ [r])
  else if cause != 0 && notify then s.matrixReport core r
  else s
/-- An operation that is due does not complete yet: its operands have still to be read, or one that it must follow was started
before it and is unfinished, of its shape on its tile (R190) or in the decoder (R199). (DESIGN CHOICE, log 78.) -/
def Matrix.unready (m : Matrix) (o : MOp) : Bool :=
  o.reading || (m.startedBefore o.e.id).any fun p =>
    (shapeOf p.e.tcw == shapeOf o.e.tcw && tAcc p.e.tcw == tAcc o.e.tcw) || (tKind p.e.tcw == 3 && tKind o.e.tcw == 3)
/-- The effect of a completing operation, whose bank writes the ports serve (R188). -/
def State.completeOp (s : State) (node : Nat) (o : MOp) : State :=
  let t := o.e.tcw
  let core := coreAt node o.e.core
  let m := s.mx node
  let (held, m) := if m.checked then (o.held, m) else (cellsOf t).foldl (cellAnyOrder o) ([], m)
  let cause := opCause m o
  let s := (s.modMx node fun _ => m).opWrites node o held
  let ra := tRingA t
  let rb := tRingB t
  let marks := (if o.popA = 0 then [] else [(ra, o.atA)]) ++
    ((List.range o.popB).map fun k => (rb, (o.atB + k) % (2 * (m.rings.getD rb {}).n))) ++
    (if needW t = 0 then [] else [(rb + 8, o.atW)])
  let s := s.modMx node fun m =>
    let m := { m with
      active := m.active.filter fun p => p.e.id != o.e.id, passed := m.passed ++ marks
      decFree := if tKind t = 3 ∧ tMode t = 1 then s.cycle + 1 else m.decFree }
    publish rb 510 (retire rb 510 (retire ra 510 m))
  if tNotify t ∨ cause ≠ 0 then s.postRecord core (recordOf o cause) (tNotify t) cause else s
/-- MATRIX_OP_COMPLETE (R188): the subject is the node and the operation. While a record that is due has no room, nothing
completes. -/
def execMatrixOpComplete (s : State) : Host.Outcome State Fault Refusal :=
  let node := s.subj.n
  match (s.mx node).active.find? fun o => o.e.id == s.subj.m with
  | none => .next s
  | some o =>
    let m := s.mx node
    if m.stalled s.cycle || m.unready o then .next s
    else match s.askPorts .matrix (2 * o.e.id + 1) (writeBanks node (m.rings.getD (tRingB o.e.tcw) {}) o) with
      | (false, s) => .next s
      | (true, s) => .next (s.completeOp node o)

end Sys2Proof.Machine
end

