-- ==== Sys2Proof/Machine/Hitch.lean ====
section
/-! DEFINITION. Ports and connectors, opcodes 0x34 and 0x35, and the hitch engine (R212 to R236). -/

namespace Sys2Proof.Machine

/-! ### Names, ports and flits -/

/-- A connector name's home node. -/
def nameNode (v : Word) : Nat := 64 * fld v 16 3 + fld v 24 6
/-- A connector name's connector slot. -/
def nameConn (v : Word) : Nat := fld v 12 2
/-- A connector name that is refused (R229); `bind` for the name of PBIND. -/
def State.nameRefused (s : State) (tk : Nat) (v : Word) (bind : Bool) : Bool :=
  fld v 30 34 != 0 || fld v 19 5 != 0 || fld v 14 2 != 0 || fld v 6 2 != 0 ||
    (!bind && (fld v 8 4 != 0 || fld v 0 6 != 0)) || decide (4 ≤ fld v 16 3) ||
    !s.inPartition tk (fld v 16 3) (fld v 24 6) || s.absent (nameNode v)
/-- A core port. -/
def Core.cport (c : Core) (p : Nat) : CPort := c.cports.getD p {}
/-- A core port set. -/
def State.setCport (s : State) (core p : Nat) (x : CPort) : State :=
  s.modCore core fun c => { c with cports := c.cports.set p x }
/-- A connector slot of a home. -/
def State.conn (s : State) (node c : Nat) : Conn := (s.team node).conns.getD c {}
/-- A connector slot changed. -/
def State.setConn (s : State) (node c : Nat) (x : Conn) : State :=
  s.modTeam node fun t => { t with conns := t.conns.set c x }
/-- A harness flit (R222): 2 cycles within the home team, else its time on the fabric. -/
def State.harness (s : State) (src dst : Nat) (p : Payload) (ev : Instr) : State :=
  if src = dst then s.sendAt (s.cycle + 2) src dst 3 p ev else s.send src dst 3 p ev
/-- A flit of a thread's instruction to a home. -/
def State.flitHome (s : State) (tk : Nat) (w : Wait) (kind home conn bport port : Nat) (v : Word) (image : List Word)
    (slot : Nat) : State :=
  s.harness (nodeOf (coreOf tk)) home (.flit kind home conn bport tk w.id port v image slot) .hitchFlitArrival
/-- A home's answer to a thread. -/
def State.flitBack (s : State) (home kind tk wid port st : Nat) (v : Word) (ev : Instr) : State :=
  s.harness home (nodeOf (coreOf tk)) (.done kind tk wid port st v) ev
/-- A thread begins a wait, and what follows sees it. -/
def State.waitThen (s : State) (i : Instr) (x : Issue) (deadline : Option Nat) (f : Wait → State → State) : State :=
  let s := s.beginWait i x deadline 0
  match (s.thread x.tk).wait? with
  | none => s
  | some w => f w s

/-! ### PUT and TAKE (R230) -/

/-- The port accepts this slot's PUT (or TAKE). -/
def portOk (c : CPort) (slot : Nat) (sink : Bool) : Bool := c.bound && c.slot == slot && c.sink == sink
/-- PUT (R230): the offer is sent when the release condition holds. -/
def execPut (sm : Bool) (rd : Reg) (p : BitVec 7) (t : BitVec 4) (s : State) : Host.Outcome State Fault Refusal :=
  issue (.put sm rd p t) noCheck (fun x s =>
    if portOk ((s.core x.core).cport p.toNat) x.slot false then s.beginWait (.put sm rd p t) x (s.bound t.toNat) 0
    else s.setStatus x.tk 4) s
/-- TAKE (R230). -/
def execTake (sm : Bool) (rd : Reg) (p : BitVec 7) (t : BitVec 4) (s : State) : Host.Outcome State Fault Refusal :=
  issue (.take sm rd p t) noCheck (fun x s =>
    let c := (s.core x.core).cport p.toNat
    if portOk c x.slot true then
      s.waitThen (.take sm rd p t) x (s.bound t.toNat) fun w s =>
        (s.modWait x.tk fun w => { w with stage := 1 }).flitHome x.tk w 1 c.node c.conn c.bport p.toNat 0 [] 0
    else s.setStatus x.tk 4) s
/-- The port of a wait. -/
def waitPort (i : Instr) : Nat :=
  match i with
  | .put _ _ p _ | .take _ _ p _ | .pbind _ _ p | .pfree _ p => p.toNat
  | _ => 0
/-- A PUT whose offer has not been sent and whose release condition holds (R228). -/
def State.offerReady (s : State) (tk : Nat) (w : Wait) : Bool :=
  (match w.instr with | .put _ _ _ _ => true | _ => false) && w.stage == 0 && s.released tk w.id
/-- OFFER_SEND (R228): the subject is the thread. The offer goes where the port's binding names at this moment, which may have
changed since the PUT issued, with no check but those of its issue (R230; DESIGN CHOICE, log 99). -/
def execOfferSend (s : State) : Host.Outcome State Fault Refusal :=
  let tk := s.subj.n
  match (s.thread tk).wait? with
  | none => .next s
  | some w =>
    if s.offerReady tk w then
      let c := (s.core (coreOf tk)).cport (waitPort w.instr)
      .next ((s.modWait tk fun w => { w with stage := 1 }).flitHome tk w 0 c.node c.conn c.bport (waitPort w.instr)
        (w.vals.getD 0 0) [] 0)
    else .next s
/-- PORT_OP_TIMEOUT (R227): the subject is the thread and its wait. -/
def execPortOpTimeout (s : State) : Host.Outcome State Fault Refusal :=
  let tk := s.subj.n
  match (s.thread tk).wait? with
  | none => .next s
  | some w =>
    if w.id ≠ s.subj.m then .next s
    else if w.stage = 0 then .next (s.endWithdrawn tk w false)
    else if w.gone then .next s
    else
      let c := (s.core (coreOf tk)).cport (waitPort w.instr)
      .next ((s.modWait tk fun w => { w with gone := true }).flitHome tk w 2 c.node c.conn c.bport (waitPort w.instr) 0 [] 0)
/-- An answer of a home taken by the thread that waits for it. -/
def State.homeAnswer (s : State) (ev : Instr) (f : State → Nat → Wait → Nat → Nat → Word → State) : State :=
  match SMap.get? s.packets s.subj.n with
  | none => s
  | some p =>
    if s.behind p then s.again ev
    else
      let s := s.dropPacket p.id
      match p.payload with
      | .done kind tk wid _ st v =>
        match (s.thread tk).wait? with
        | none => s
        | some w => if w.id = wid then f s tk w kind st v else s
      | _ => s
/-- PORT_COMPLETION (R225): the subject is the packet. -/
def execPortCompletion (s : State) : Host.Outcome State Fault Refusal :=
  .next (s.homeAnswer .portCompletion fun s tk w _ st v =>
    match w.instr with
    | .take _ rd _ _ => (if st = 0 then s.writeGS tk rd v else s).finishWait tk st
    | _ => s.finishWait tk st)
/-- WITHDRAWN (R227): the subject is the packet. -/
def execWithdrawn (s : State) : Host.Outcome State Fault Refusal :=
  .next (s.homeAnswer .withdrawn fun s tk w _ _ _ => s.endWithdrawn tk w false)

/-! ### PBIND and PFREE (R231, R232) -/

/-- PBIND. -/
def execPbind (sm : Bool) (rd : Reg) (p : BitVec 7) (s : State) : Host.Outcome State Fault Refusal :=
  issue (.pbind sm rd p) noCheck (fun x s =>
    let v := x.val 0
    if ((s.core x.core).cport p.toNat).bound || s.nameRefused x.tk v true then s.setStatus x.tk 4
    else s.waitThen (.pbind sm rd p) x none fun w s =>
      s.flitHome x.tk w 3 (nameNode v) (nameConn v) (fld v 8 4) p.toNat v [] (fld v 0 6)) s
/-- A port with a pending PUT or TAKE. -/
def State.portBusy (s : State) (core p : Nat) : Bool :=
  (s.waitsOf core).any fun e => match e.2.instr with
    | .put _ _ q _ | .take _ _ q _ => q.toNat == p
    | _ => false
/-- PFREE. -/
def execPfree (sm : Bool) (p : BitVec 7) (s : State) : Host.Outcome State Fault Refusal :=
  issue (.pfree sm p) noCheck (fun x s =>
    let c := (s.core x.core).cport p.toNat
    if !c.bound || s.portBusy x.core p.toNat then s.setStatus x.tk 4
    else s.waitThen (.pfree sm p) x none fun w s =>
      s.flitHome x.tk w 4 c.node c.conn c.bport p.toNat 0 [] 0) s
/-- BINDING_ANSWER (R231, R232): the subject is the packet. Of two bindings of one core port that are under way at once, the
later answer stands (DESIGN CHOICE, log 93). -/
def execBindingAnswer (s : State) : Host.Outcome State Fault Refusal :=
  .next (s.homeAnswer .bindingAnswer fun s tk w _ st v =>
    let core := coreOf tk
    match w.instr with
    | .pbind _ _ p =>
      let n := w.vals.getD 0 0
      (if st = 0 then s.setCport core p.toNat
        { bound := true, slot := fld n 0 6, bport := fld n 8 4, conn := nameConn n, node := nameNode n, sink := v == 1
          owner := (s.thread tk).launch }
       else s).finishWait tk st
    | .pfree _ p => (s.setCport core p.toNat {}).finishWait tk 0
    | _ => s)

/-! ### Images (R218 to R220, R233) -/

/-- A doubleword of an image. -/
def im (l : List Word) (n : Nat) : Word := l.getD n 0
/-- T of an image. -/
def imT (l : List Word) : Nat := fld (im l 0) 32 8
/-- P of an image. -/
def imP (l : List Word) : Nat := fld (im l 0) 40 4
/-- The capacity of a buffer. -/
def imCap (l : List Word) (b : Nat) : Nat := fld (im l 1) (4 * b) 4
/-- Buffer places of an image. -/
def imPlaces (l : List Word) : Nat := ((List.range 8).map (imCap l)).sum
/-- Boundary port b exists. -/
def imUsed (l : List Word) (b : Nat) : Bool := bitAt (im l 0) b
/-- Boundary port b is a sink. -/
def imSink (l : List Word) (b : Nat) : Bool := bitAt (im l 0) (16 + b)
/-- Doubleword k of transition i. -/
def imE (l : List Word) (i k : Nat) : Word := im l (4 * (1 + i) + k)
/-- Doubleword k of predicate i. -/
def imD (l : List Word) (i k : Nat) : Word := im l (4 * (1 + imT l + i) + k)
/-- Boundary port b fires in transition i. -/
def trPort (l : List Word) (i b : Nat) : Bool := bitAt (imE l i 0) b
/-- Buffer b gives its head. -/
def trDeq (l : List Word) (i b : Nat) : Bool := bitAt (imE l i 0) (16 + b)
/-- Buffer b takes a value. -/
def trEnq (l : List Word) (i b : Nat) : Bool := bitAt (imE l i 0) (24 + b)
/-- The PUT at source port b completes DROPPED. -/
def trDrop (l : List Word) (i b : Nat) : Bool := bitAt (imE l i 0) (32 + b)
/-- The selector of destination d. -/
def trRoute (l : List Word) (i d : Nat) : Nat := if d < 12 then fld (imE l i 1) (5 * d) 5 else fld (imE l i 2) (5 * (d - 12)) 5
/-- Check c of a transition. -/
def trCheck (l : List Word) (i c : Nat) : Nat := fld (imE l i 3) (12 * c) 12
/-- A selector that names a source port of the transition or a buffer it dequeues. -/
def selOk (l : List Word) (i sel : Nat) : Bool :=
  if sel < 16 then trPort l i sel && !imSink l sel else if sel < 24 then trDeq l i (sel - 16) else false
/-- A header that is accepted (R233). -/
def headerOk (l : List Word) : Bool :=
  fld (im l 0) 48 16 == 0x4843 && fld (im l 0) 44 4 == 0 && decide (1 ≤ imT l) && decide (imT l ≤ 32) &&
    decide (imP l ≤ 8) && fld (im l 1) 32 32 == 0 && im l 2 == 0 && im l 3 == 0 &&
    (List.range 16).all (fun b => !imSink l b || imUsed l b) && (List.range 8).all fun b => decide (imCap l b ≤ 8)
/-- A transition entry that is accepted. -/
def entryOk (l : List Word) (i : Nat) : Bool :=
  let e0 := imE l i 0
  fld e0 48 16 == 0 && fld (imE l i 1) 60 4 == 0 && fld (imE l i 2) 60 4 == 0 && fld (imE l i 3) 48 16 == 0 &&
    (List.range 16).all (fun b => (!trPort l i b || imUsed l b) && (!trDrop l i b || (trPort l i b && !imSink l b))) &&
    (List.range 8).all (fun b =>
      (!(trDeq l i b || trEnq l i b) || imCap l b != 0) && !(trDeq l i b && trEnq l i b)) &&
    fld e0 0 32 != 0 &&
    (List.range 24).all (fun d =>
      if (if d < 16 then trPort l i d && imSink l d else trEnq l i (d - 16)) then selOk l i (trRoute l i d)
      else trRoute l i d == 31) &&
    (List.range 4).all fun c =>
      let k := trCheck l i c
      k / 32 % 4 == 0 && (k / 2048 == 0 || (decide (k / 128 % 8 < imP l) && selOk l i (k % 32)))
/-- The bits of a predicate. -/
def predBits (l : List Word) (p : Nat) : Nat := 8 * 2 ^ fld (imD l p 0) 0 2
/-- A predicate entry that is accepted (R220). -/
def predOk (l : List Word) (p : Nat) : Bool :=
  let n := predBits l p
  fld (imD l p 0) 3 61 == 0 && imD l p 3 == 0 &&
    (if bitAt (imD l p 0) 2 then
       u64 (signedOf n (imD l p 1).toNat) == imD l p 1 && u64 (signedOf n (imD l p 2).toNat) == imD l p 2 &&
         decide ((imD l p 1).toInt ≤ (imD l p 2).toInt)
     else decide ((imD l p 1).toNat < 2 ^ n) && decide ((imD l p 2).toNat < 2 ^ n))
/-- No two entries are equal. -/
def entriesDiffer (l : List Word) : Bool :=
  (List.range (imT l)).all fun i => (List.range i).all fun j => (List.range 4).any fun k => imE l i k != imE l j k
/-- An image that is accepted, but for what its engine has free. -/
def imageOk (l : List Word) : Bool :=
  headerOk l && (List.range (imT l)).all (entryOk l) && (List.range (imP l)).all (predOk l) && entriesDiffer l
/-- What those of a home's loaded connectors that meet a test use: transitions, buffer places, predicates (R221). -/
def State.hitchUse (s : State) (node : Nat) (of : Conn → Bool) : Nat × Nat × Nat :=
  (s.team node).conns.foldl (fun a c =>
    if c.loaded && of c then (a.1 + imT c.image, a.2.1 + imPlaces c.image, a.2.2 + imP c.image) else a) (0, 0, 0)
/-- Two uses of a hitch engine are together within its capacity (R221). -/
def hitchRoom (u v : Nat × Nat × Nat) : Bool :=
  decide (u.1 + v.1 ≤ 64) && decide (u.2.1 + v.2.1 ≤ 32) && decide (u.2.2 + v.2.2 ≤ 8)
/-- The engine has room for an image. -/
def State.hitchFits (s : State) (node : Nat) (l : List Word) : Bool :=
  hitchRoom (s.hitchUse node fun _ => true) (imT l, imPlaces l, imP l)
/-- A predicate holds for a value. -/
def predHolds (l : List Word) (p : Nat) (v : Word) : Bool :=
  let n := predBits l p
  let x := v.toNat % 2 ^ n
  if bitAt (imD l p 0) 2 then
    decide ((imD l p 1).toInt ≤ signedOf n x) && decide (signedOf n x ≤ (imD l p 2).toInt)
  else (x &&& (imD l p 1).toNat) == (imD l p 2).toNat

/-! ### HLOAD, HSTOP, HSTAT (R233 to R235) -/

/-- HLOAD. (DESIGN CHOICE, log 19.) -/
def execHload (sm : Bool) (rd : Reg) (ra : Reg) (rb : Reg) (s : State) : Host.Outcome State Fault Refusal :=
  issue (.hload sm rd ra rb) noCheck (fun x s =>
    let v := x.val 2
    if s.nameRefused x.tk v false || (s.conn (nameNode v) (nameConn v)).loaded || (x.val 1).toNat % 32 != 0 then
      (s.writeReg x.tk rd 0).setStatus x.tk 4
    else s.beginWait (.hload sm rd ra rb) x none 0) s
/-- A name of HSTOP or HSTAT goes to its home. -/
def askHome (i : Instr) (rd : Reg) (kind : Nat) (s : State) : Host.Outcome State Fault Refusal :=
  issue i noCheck (fun x s =>
    let v := x.val 1
    if s.nameRefused x.tk v false then (s.writeReg x.tk rd 0).setStatus x.tk 4
    else s.waitThen i x none fun w s => s.flitHome x.tk w kind (nameNode v) (nameConn v) 0 0 0 [] 0) s
/-- HSTOP. -/
def execHstop (sm : Bool) (rd : Reg) (ra : Reg) (s : State) : Host.Outcome State Fault Refusal :=
  askHome (.hstop sm rd ra) rd 6 s
/-- HSTAT. -/
def execHstat (sm : Bool) (rd : Reg) (ra : Reg) (s : State) : Host.Outcome State Fault Refusal :=
  askHome (.hstat sm rd ra) rd 7 s
/-- The destination of an instruction that a home answers. -/
def homeRd (i : Instr) : Reg :=
  match i with
  | .hload _ rd _ _ | .hstop _ rd _ | .hstat _ rd _ => rd
  | _ => .g 0
/-- An HLOAD whose release condition holds reads its image and sends it (R233). (DESIGN CHOICE, log 19.) -/
def State.hloadStep (s : State) (tk : Nat) (w : Wait) : State :=
  if w.stage ≠ 0 || !s.released tk w.id then s
  else
    let a := (w.vals.getD 1 0).toNat
    let v := w.vals.getD 2 0
    let key := (s.thread tk).launch
    let fail := fun (s : State) st => (s.writeGS tk (homeRd w.instr) 0).finishWait tk st
    match s.readDwords key a 4 with
    | .error _ => fail s 6
    | .ok h =>
      if !headerOk h then fail s 4
      else
        match s.readDwords key (a + 32) (4 * (imT h + imP h)) with
        | .error _ => fail s 6
        | .ok rest =>
          if !imageOk (h ++ rest) then fail s 4
          else (s.modWait tk fun w => { w with stage := 1 }).flitHome tk w 5 (nameNode v) (nameConn v) 0 0 0 (h ++ rest) key
/-- HITCH_ANSWER (R233 to R235): the subject is the packet. -/
def execHitchAnswer (s : State) : Host.Outcome State Fault Refusal :=
  .next (s.homeAnswer .hitchAnswer fun s tk w _ st v => (s.writeGS tk (homeRd w.instr) v).finishWait tk st)

/-! ### The home engine (R221 to R226, R234) -/

/-- A connector's stop begins (R234): BROKEN to every pending operation, an unbinding to every bound core port. -/
def State.stopConn (s : State) (home c : Nat) (who : List (Nat × Nat × Nat)) : State :=
  let x := s.conn home c
  let pend := x.pend.filterMap id
  let binds := x.binds.filterMap id
  let s := pend.foldl (fun s p => s.flitBack home 0 p.tk p.wid p.port 3 0 .portCompletion) s
  let s := binds.foldl (fun s b =>
    s.harness home (nodeOf b.1) (.unbind b.1 b.2 home c) .connectorUnbinding) s
  s.setConn home c { x with
    pend := List.replicate 16 none, withdraw := [], stopping := true, unacked := binds.length, answerTo := x.answerTo ++ who }
/-- A stopping connector whose unbindings are all acknowledged is freed, and its stoppers are answered. -/
def State.freeConn (s : State) (home c : Nat) : State :=
  let x := s.conn home c
  if x.stopping && x.unacked == 0 then
    x.answerTo.foldl (fun s a => s.flitBack home 5 a.1 a.2.1 0 0 (word a.2.2) .hitchAnswer) (s.setConn home c {})
  else s
/-- The values that a connector's buffers hold. -/
def Conn.held (x : Conn) : Nat := (x.bufs.map List.length).sum
/-- A mask of the entries of a list that are present. -/
def maskOf {α : Type} : List (Option α) → Nat
  | [] => 0
  | o :: os => bit o.isSome + 2 * maskOf os
/-- The snapshot of HSTAT (R235). -/
def Conn.stat (x : Conn) : Word :=
  if x.loaded then
    word (maskOf x.binds + at' 16 (maskOf x.pend) + at' 32 (imT x.image) + at' 38 1 + at' 40 x.held + at' 48 (x.fired % 65536))
  else 0
/-- A withdrawal carried out at its home: the pending operation is removed and answered (R227). -/
def State.withdrawPend (s : State) (home c bport wid : Nat) : State :=
  let x := s.conn home c
  match x.pend.getD bport none with
  | some p =>
    if p.wid = wid then
      (s.setConn home c { x with pend := x.pend.set bport none }).flitBack home 1 p.tk p.wid p.port 1 0 .withdrawn
    else s
  | none => s
/-- An HSTOP acts (R234). One that finds the connector being stopped already is answered with the first, OK with rd := 0
(DESIGN CHOICE, log 98). -/
def State.stopAsked (s : State) (home c tk wid : Nat) : State :=
  let x := s.conn home c
  if !x.loaded then s.flitBack home 6 tk wid 0 4 0 .hitchAnswer
  else if x.stopping then s.setConn home c { x with answerTo := x.answerTo ++ [(tk, wid, 0)] }
  else (s.stopConn home c [(tk, wid, x.held)]).freeConn home c
/-- A flit arrives at its home. In a cycle of a decision, a withdrawal or HSTOP acts after it (R222, R227, R234). An offer or
request at a boundary port that its core port is not bound to is answered BROKEN (DESIGN CHOICE, log 92). A binding request at a
connector that is being stopped is answered REFUSED, as at one that is not loaded (DESIGN CHOICE, log 98). -/
def State.flitArrive (s : State) (kind home c bport tk wid port : Nat) (v : Word) (image : List Word) (slot : Nat) : State :=
  let x := s.conn home c
  let live := x.loaded && !x.stopping
  match kind with
  | 0 | 1 =>
    if live && (x.binds.getD bport none) == some (coreOf tk, port) then
      s.setConn home c { x with
        pend := x.pend.set bport (some { tk := tk, wid := wid, port := port, offer := if kind = 0 then some v else none, since := s.cycle }) }
    else s.flitBack home 0 tk wid port 3 0 .portCompletion
  | 2 =>
    if live && s.cycle % 2 == c % 2 then s.setConn home c { x with withdraw := x.withdraw ++ [(bport, wid)] }
    else s.withdrawPend home c bport wid
  | 3 =>
    if live && imUsed x.image bport && (x.binds.getD bport none).isNone then
      (s.setConn home c { x with binds := x.binds.set bport (some (coreOf tk, port)) }).flitBack home 2 tk wid port 0
        (word (bit (imSink x.image bport))) .bindingAnswer
    else s.flitBack home 2 tk wid port 4 (word slot) .bindingAnswer
  | 4 =>
    let s := if live && (x.binds.getD bport none) == some (coreOf tk, port) then
        s.setConn home c { x with binds := x.binds.set bport none } else s
    s.flitBack home 3 tk wid port 0 0 .bindingAnswer
  | 5 =>
    if x.loaded || !s.hitchFits home image then s.flitBack home 5 tk wid 0 4 0 .hitchAnswer
    else
      (s.setConn home c { loaded := true, image := image, ages := List.replicate (imT image) 0, launch := slot }).flitBack
        home 5 tk wid 0 0 (word (imT image)) .hitchAnswer
  | 6 =>
    if live && s.cycle % 2 == c % 2 then s.setConn home c { x with stops := x.stops ++ [(tk, wid)] }
    else s.stopAsked home c tk wid
  | 7 => s.flitBack home 7 tk wid 0 0 x.stat .hitchAnswer
  | _ => (s.setConn home c { x with unacked := x.unacked - 1 }).freeConn home c
/-- HITCH_FLIT_ARRIVAL (R222): the subject is the packet. -/
def execHitchFlitArrival (s : State) : Host.Outcome State Fault Refusal :=
  match SMap.get? s.packets s.subj.n with
  | none => .next s
  | some p =>
    if s.behind p then .next (s.again .hitchFlitArrival)
    else
      let s := s.dropPacket p.id
      match p.payload with
      | .flit kind node conn bport tk wid port v image slot =>
        .next (s.flitArrive kind node conn bport tk wid port v image slot)
      | _ => .next s
/-- CONNECTOR_UNBINDING (R234): a core port becomes unbound and acknowledges. The subject is the packet. -/
def execConnectorUnbinding (s : State) : Host.Outcome State Fault Refusal :=
  match SMap.get? s.packets s.subj.n with
  | none => .next s
  | some p =>
    if s.behind p then .next (s.again .connectorUnbinding)
    else
      let s := s.dropPacket p.id
      match p.payload with
      | .unbind core port node conn =>
        let q := (s.core core).cport port
        let s := if q.bound && q.node == node && q.conn == conn then s.setCport core port {} else s
        .next (s.harness (nodeOf core) node (.flit 8 node conn 0 (64 * core) 0 port 0 [] 0) .hitchFlitArrival)
      | _ => .next s

/-- The pending operation of a boundary port that a decision in cycle c sees. -/
def Conn.pendAt (x : Conn) (b c : Nat) : Option Pend :=
  match x.pend.getD b none with
  | some p => if p.since < c then some p else none
  | none => none
/-- The value that a selector names (R219). -/
def Conn.selected (x : Conn) (sel : Nat) : Word :=
  if sel < 16 then ((x.pend.getD sel none).bind (·.offer)).getD 0 else (x.bufs.getD (sel - 16) []).headD 0
/-- A transition is enabled (R223). -/
def Conn.enabled (x : Conn) (c i : Nat) : Bool :=
  let l := x.image
  (List.range 16).all (fun b => !trPort l i b || (match x.pendAt b c with
    | some p => p.offer.isSome != imSink l b
    | none => false)) &&
    (List.range 8).all (fun b => (!trDeq l i b || !(x.bufs.getD b []).isEmpty) &&
      (!trEnq l i b || decide ((x.bufs.getD b []).length < imCap l b))) &&
    (List.range 4).all fun k =>
      let q := trCheck l i k
      q / 2048 == 0 || predHolds l (q / 128 % 8) (x.selected (q % 32)) == (q / 1024 % 2 == 1)
/-- The transition that fires: the greatest age, then the lowest index (R224). -/
def Conn.chosen (x : Conn) (c : Nat) : Option Nat :=
  ((List.range (imT x.image)).filter fun i => x.enabled c i).foldl (fun best i => match best with
    | none => some i
    | some b => if x.ages.getD b 0 < x.ages.getD i 0 then some i else some b) none
/-- The connector after a transition has fired (R224, R225). -/
def Conn.fire (x : Conn) (c i : Nat) : Conn :=
  let l := x.image
  { x with
    ages := (List.range (imT l)).map fun j =>
      if j = i then 0 else if x.enabled c j then min 63 (x.ages.getD j 0 + 1) else x.ages.getD j 0
    bufs := (List.range 8).map fun b =>
      let q := x.bufs.getD b []
      let q := if trDeq l i b then q.tail else q
      if trEnq l i b then q ++ [x.selected (trRoute l i (16 + b))] else q
    pend := (List.range 16).map fun b => if trPort l i b then none else x.pend.getD b none
    fired := x.fired + 1 }
/-- CONNECTOR_DECISION (R223 to R225): a transition fires, its completion flits leave, and the withdrawals and stops of the
cycle act after it. The subject is the node and the connector. -/
def execConnectorDecision (s : State) : Host.Outcome State Fault Refusal :=
  let home := s.subj.n
  let c := s.subj.m
  let x := s.conn home c
  if !x.loaded || x.stopping || s.cycle % 2 != c % 2 then .next s
  else
    let s := match x.chosen s.cycle with
      | none => s
      | some i =>
        ((List.range 16).filter fun b => trPort x.image i b).foldl (fun s b =>
          match x.pend.getD b none with
          | none => s
          | some p =>
            if imSink x.image b then s.flitBack home 0 p.tk p.wid p.port 0 (x.selected (trRoute x.image i b)) .portCompletion
            else s.flitBack home 0 p.tk p.wid p.port (if trDrop x.image i b then 5 else 0) 0 .portCompletion)
          (s.setConn home c (x.fire s.cycle i))
    let ws := (s.conn home c).withdraw
    let stops := (s.conn home c).stops
    let s := s.setConn home c { s.conn home c with withdraw := [], stops := [] }
    let s := ws.foldl (fun s w => s.withdrawPend home c w.1 w.2) s
    .next (stops.foldl (fun s w => s.stopAsked home c w.1 w.2) s)

end Sys2Proof.Machine
end

