-- ==== Sys2Proof/Machine/Slots.lean ====
section
/-! DEFINITION. Slots, windows and the slot allocator's operations (R64, R65, R260, R274, R275, R281), power gating and
the inbox of a gated core (R267, R268), and the places in which messages and trap reports wait (R255, R256). -/

namespace Sys2Proof.Machine

/-! ### Slots and windows -/

/-- The order in which a core fills its free slots (R275). -/
def placementOrder : List Nat :=
  (List.range 8).flatMap fun r => ((List.range 7).map fun k => r + 8 * (k + 1)) ++ (if r = 0 then [] else [r])
/-- The window blocks of a core that are taken, as base blocks and counts: threads, windows being zeroed, reservations
of join patterns, and what the dispatcher holds. -/
def State.takenBlocks (s : State) (core : Nat) : List (Nat × Nat) :=
  let c := s.core core
  (s.threads.filterMap fun e => if coreOf e.1 = core then some (e.2.base, e.2.w / 8) else none) ++
    (c.zeroing.map fun z => (z.base, z.w / 8)) ++ (c.resv.map fun e => (e.2.1, e.2.2 / 8)) ++
    (c.holds.map fun e => (e.2.1, e.2.2 / 8))
/-- The lowest base block at which n blocks in a row are free (R64). (DEDUCED, log 20.) -/
def freeBase (taken : List (Nat × Nat)) (n : Nat) : Option Nat :=
  (List.range (257 - n)).find? fun b => taken.all fun e => decide (b + n ≤ e.1) || decide (e.1 + e.2 ≤ b)
/-- A slot that holds no thread and is not being zeroed. -/
def State.slotEmpty (s : State) (core slot : Nat) : Bool :=
  (s.thread? (64 * core + slot)).isNone && !((s.core core).zeroing.any fun z => z.slot == slot)
/-- A slot is free (R275). -/
def State.slotFree (s : State) (core slot : Nat) : Bool :=
  slot != 0 && s.slotEmpty core slot && (SMap.get? (s.core core).resv slot).isNone
/-- A slot that the dispatcher does not hold (R274). (DEDUCED, log 21.) -/
def State.unheld (s : State) (core slot : Nat) : Bool := (SMap.get? (s.core core).holds slot).isNone
/-- Where the allocator places a thread with a window of W registers: slot and base block (R281).
(DEDUCED, log 20, 21.) -/
def State.findSlot (s : State) (core w : Nat) : Option (Nat × Nat) :=
  match placementOrder.find? fun z => s.slotFree core z && s.unheld core z with
  | none => none
  | some z => (freeBase (s.takenBlocks core) (w / 8)).map fun b => (z, b)
/-- A thread placed in a slot: its registers are those given, then zeros; its stream queues are empty, and the slot
takes a new generation (R65, R206). -/
def State.placeThread (s : State) (tk : Nat) (th : Thread) (regs : List Word) : State :=
  let (id, s) := s.fresh
  let s := { s with threads := SMap.put s.threads tk { th with born := id } }
  let s := s.modCore (coreOf tk) fun c =>
    { c with gens := SMap.put c.gens (slotOf tk) ((SMap.getD c.gens (slotOf tk) 0 + 1) % 65536) }
  (List.range th.w).foldl (fun s i => s.writeG tk i (regs.getD i 0)) s
/-- The jobs of a thread leave the vector unit. -/
def State.dropJobs (s : State) (tk : Nat) : State :=
  if (s.thread tk).run = .handed then
    s.modTeam (nodeOf (coreOf tk)) fun t =>
      { t with vq := t.vq.map fun q => q.filter fun j => j.tk != tk, vfly := t.vfly.filter fun j => j.tk != tk }
  else s
/-- A reservation that no valid entry names and whose slot holds no thread ends (R260). -/
def State.settleResv (s : State) (core slot : Nat) : State :=
  if (SMap.get? (s.core core).resv slot).isSome && !((s.core core).jp.any fun e => e.valid && e.slot == slot) &&
      (s.thread? (64 * core + slot)).isNone then
    s.modCore core fun c => { c with resv := SMap.del c.resv slot }
  else s
/-- A thread of a launch has left a channel core: while others of launches run there, the core holds the values of one of them,
the latest to have come when the last one served is not among them (R317). (DESIGN CHOICE, log 95.) -/
def State.settleServes (s : State) (core : Nat) : State :=
  let l := s.threads.filter fun e => coreOf e.1 == core && slotOf e.1 != 0 && e.2.launch != 0
  if !isChannel core || l.any fun e => e.2.launch == (s.core core).lastLaunch then s
  else match (sortBy (fun a b => decide (b.2.born ≤ a.2.born)) l).head? with
    | some e => s.servesLaunch core e.2.launch
    | none => s
/-- A slot freed (R65, R282): its stream queues are emptied, its matrix records discarded, and its window is zeroed in
W/8 cycles from the next one on. -/
def State.freeThread (s : State) (tk : Nat) : State :=
  let th := s.thread tk
  let core := coreOf tk
  let s := (s.dropRecords tk).dropJobs tk
  let s := (List.range 8).foldl (fun s k => s.setStream tk k {}) s
  let s := { s with threads := SMap.del s.threads tk }
  let s := s.modCore core fun c =>
    { c with zeroing := c.zeroing ++ [{ slot := slotOf tk, base := th.base, w := th.w, till := s.cycle + th.w / 8 }] }
  ((s.addTimer (s.cycle + th.w / 8 + 1) .slotZeroingDone { n := tk }).settleResv core (slotOf tk)).settleServes core
/-- SLOT_ZEROING_DONE (R65): the window is zero and its slot and blocks are free, from the start of the cycle after zeroing
ends; the subject is the thread key. A zeroing that still runs is none of this event's. -/
def execSlotZeroingDone (s : State) : Host.Outcome State Fault Refusal :=
  let tk := s.subj.n
  let core := coreOf tk
  match (s.core core).zeroing.find? fun z => z.slot == slotOf tk && decide (z.till < s.cycle) with
  | none => .next s
  | some z =>
    let s := { s with rf := s.rf.filter fun e =>
      !(decide (2048 * core + 8 * z.base ≤ e.1) && decide (e.1 < 2048 * core + 8 * z.base + z.w)) }
    let s := s.modCore core fun c => { c with zeroing := c.zeroing.erase z }
    .next (s.settleResv core z.slot)

/-! ### The live count and the end of a task (R275, R282) -/

/-- A task that is over leaves its team, and a stop of that task ends with it (R330). -/
def State.closeTask (s : State) (t : Nat) : State :=
  match s.task? t with
  | none => s
  | some k =>
    let s := { s with disp := { s.disp with tasks := SMap.del s.disp.tasks t } }
    let s := s.modTeam k.team fun m => if m.task = some t then { m with task := none, stopped := false } else m
    s.modLaunch k.launch fun l => { l with liveTasks := l.liveTasks - 1 }
/-- A thread of a task is gone: at a live count of 0 the task ends, unless it has a successor (R282, R284). -/
def State.leaveTask (s : State) (t : Nat) : State :=
  match s.task? t with
  | none => s
  | some k =>
    if 1 < k.live then s.modTask t fun k => { k with live := k.live - 1 }
    else if k.succ ≠ 0 then s.modTask t fun k => { k with live := 0, ended := true }
    else s.closeTask t
/-- A thread joins a task. -/
def State.joinTask (s : State) (t : Nat) : State := s.modTask t fun k => { k with live := k.live + 1 }

/-! ### Power gating (R267, R268) -/

/-- The state that a core must be in to gate (R267). -/
def State.quiet (s : State) (core : Nat) : Bool :=
  let c := s.core core
  !(s.threads.any fun e => coreOf e.1 == core) && c.zeroing.isEmpty && c.storeBuf.isEmpty && c.outq.isEmpty &&
    (c.mports.all fun p => p.msgs.isEmpty) && (c.roles.all fun q => q.entries.isEmpty && q.reserved == 0) &&
    !(s.nbr.any fun e => coreOf (nbrKeySlot e.1) == core) && c.arrivals.isEmpty && c.spill.isEmpty
/-- Ungating starts with the first arrival and takes 2,040 cycles. (DEDUCED, log 22.) -/
def State.startUngate (s : State) (core : Nat) : State :=
  let c := s.core core
  if c.gated.isSome && c.ungateAt.isNone then
    (s.modCore core fun c => { c with ungateAt := some (s.cycle + 2040) }).addTimer (s.cycle + 2040) .ungate { n := core }
  else s
/-- POWER_GATE (R267): the core commits its gate, if it has been idle for 1,024 cycles and still is.
(DEDUCED, log 22.) -/
def execPowerGate (core : Nat) (s : State) : Host.Outcome State Fault Refusal :=
  let c := s.core core
  if c.gated.isNone && decide (1024 ≤ c.idle) && s.quiet core && c.inbox.isEmpty then
    .next (s.modCore core fun c => { c with gated := some s.cycle })
  else .next s
/-- UNGATE (R268): the core runs again; its inbox is emptied from now on, one entry in a cycle. The subject is the
core. (DEDUCED, log 22.) -/
def execUngate (s : State) : Host.Outcome State Fault Refusal :=
  let core := s.subj.n
  if (s.core core).ungateAt.any fun t => decide (t ≤ s.cycle) then
    .next (s.modCore core fun c => { c with gated := none, ungateAt := none, idle := 0 })
  else .next s
/-- A core takes what arrives for it: it is not gated, and its inbox is empty or has just given up this arrival. -/
def Core.takes (c : Core) : Bool := c.letIn || (c.gated.isNone && c.inbox.isEmpty)
/-- An arrival taken. -/
def State.takenIn (s : State) (core : Nat) : State :=
  if (s.core core).letIn then s.modCore core fun c => { c with letIn := false } else s
/-- An arrival that has no packet, given to its core, or put into the inbox, or left waiting outside it. -/
def State.arrive (s : State) (core : Nat) (ev : Instr) (f : State → State) : State :=
  let c := s.core core
  if c.takes then f (s.takenIn core)
  else if c.inbox.length < 32 then
    (s.modCore core fun c => { c with inbox := c.inbox ++ [.ev ev s.subj] }).startUngate core
  else s.again ev
/-- An arriving packet, in the order of its path. One that waits at the core's input has left the inbox (R255, R268). -/
def State.arrivePacket (s : State) (core : Nat) (ev : Instr) (p : Packet) (f : State → State) : State :=
  let c := s.core core
  if c.inputQ.contains p.id then f s
  else if s.behind p then s.again ev
  else if c.takes then f (s.takenIn core)
  else if c.inbox.length < 32 then
    let s := { s with packets := SMap.put s.packets p.id { p with boxed := true } }
    (s.modCore core fun c => { c with inbox := c.inbox ++ [.ev ev s.subj] }).startUngate core
  else s.again ev
/-- The head of the inbox goes to its destination. -/
def State.drainInbox (s : State) (core : Nat) : State :=
  match (s.core core).inbox with
  | [] => s
  | mv :: rest => (s.modCore core fun c => { c with inbox := rest, letIn := true }).doNext mv

/-! ### Ports, spill area and trap reserve (R255, R256) -/

/-- The spilled messages of a port, or the reports that stand ahead of them, still without a reserved place. -/
def Core.unplaced (c : Core) (p : Nat) : Nat :=
  (c.spill.filter fun e => e.1 == p).length + (if p = 31 then c.reserve.length else 0) - (c.mport p).reserved
/-- A free place of a port reserved for its oldest spilled message, which is written there within 64 cycles (R255). -/
def State.reservePlace (s : State) (core p : Nat) : Nat → State
  | 0 => s
  | n + 1 =>
    let c := s.core core
    if c.portFree p && decide (0 < c.unplaced p) then
      let (d, s) := s.delay
      ((s.modPort core p fun q => { q with reserved := q.reserved + 1 }).addTimer (s.cycle + 1 + d % 64) .spillRefill
        { n := core, m := p }).reservePlace core p n
    else s
/-- PORT_OVERFLOW may be raised again once the spill area holds 192 messages or fewer (R256). -/
def State.settleOverflow (s : State) (core : Nat) : State :=
  if (s.core core).overflow && decide ((s.core core).spill.length ≤ 192) then
    s.modCore core fun c => { c with overflow := false }
  else s
/-- There is a place for a report of a slot: in m31, in the spill area or in the trap reserve (R256). -/
def Core.reportFits (c : Core) (slot : Nat) : Bool :=
  (c.portFree 31 && !c.hasSpill 31 && c.reserve.isEmpty) || decide (c.spill.length < 256) ||
    !(c.reserve.any fun e => e.1 == slot)
/-- The reports that wait inside the core, oldest first, take the places that have freed, up to n of them; one behind an engine's
earlier report of its slot waits for it (R256, R319). (DEDUCED, log 14.) -/
def State.settleSome (s : State) (core : Nat) : Nat → State
  | 0 => s
  | n + 1 =>
    match (s.core core).held.find? fun e => !s.reportBefore core e.slot e.id && (s.core core).reportFits e.slot with
    | none => s
    | some e =>
      ((s.modCore core fun c => { c with held := c.held.erase e }).reportInside core e.slot e.w0 e.w1).settleSome core n
/-- All reports that wait inside the core and for which there is a place now take it (R256, R319). -/
def State.settleHeld (s : State) (core : Nat) : State := s.settleSome core (s.core core).held.length
/-- Places of a port have freed. -/
def State.freed (s : State) (core p : Nat) : State := (((s.reservePlace core p 4).settleOverflow core).settleHeld core)
/-- The head message of a port popped. -/
def State.portPop (s : State) (core p : Nat) : State :=
  (s.modPort core p fun q => { q with msgs := q.msgs.tail }).freed core p

end Sys2Proof.Machine
end

