-- ==== Sys2Proof/Machine/Queues.lean ====
section
/-! DEFINITION. Neighbour and role queues, loop tags and messages, op 0x36 (R238 to R259), with the steps that carry
neighbour values, returns, audits and messages. -/

namespace Sys2Proof.Machine

/-- The launch tag of what a thread sets on a channel core (R277). -/
def State.tagOf (s : State) (tk : Nat) : Nat := (s.thread tk).launch
/-- A result with a status (R36, R248). -/
def State.writeStatus (s : State) (tk : Nat) (r : Reg) (v : Word) (code : Nat) : State :=
  (s.writeReg tk r v).setStatus tk code

/-! ### QCFG and QSTAT (R249, R250) -/

/-- The configuration word of a role queue. -/
def RoleQ.config (q : RoleQ) : Word := word (q.writer + at' 8 q.reader + at' 16 (bit q.enabled))
/-- A thread of the core is parked on a role queue. -/
def State.parkedOn (s : State) (core i : Nat) : Bool :=
  s.threads.any fun e => coreOf e.1 == core && match e.2.run with
    | .operand j => (popList j).any fun r => match r with
      | .q k => k.val == i
      | _ => false
    | _ => false
/-- A role queue configured, or refused. -/
def State.qcfgRole (s : State) (x : Issue) (rd : Reg) (i : Nat) (c : Word) : State :=
  let q := (s.core x.core).role i
  if fld c 6 2 ≠ 0 ∨ fld c 14 2 ≠ 0 ∨ fld c 17 47 ≠ 0 ∨ q.taken ≠ 0 ∨ s.parkedOn x.core i = true then
    s.writeStatus x.tk rd 0 4
  else
    (s.modRole x.core i fun q =>
      { q with writer := fld c 0 6, reader := fld c 8 6, enabled := bitAt c 16, owner := s.tagOf x.tk }).writeStatus x.tk rd
        q.config 0
/-- The forward mask of a status word. -/
def forwardMask (w : Word) : Nat := fld w 4 8
/-- A status word with a forward mask. -/
def setForward (w : Word) (m : Nat) : Word := (w &&& ~~~(0xFF0 : Word)) ||| word (at' 4 (m % 256))
/-- The forward mask set, or refused. -/
def State.qcfgMask (s : State) (x : Issue) (rd : Reg) (c : Word) : State :=
  if fld c 8 56 ≠ 0 then s.writeStatus x.tk rd 0 4
  else
    let old := forwardMask (s.thread x.tk).status
    (s.modThread x.tk fun th => { th with status := setForward th.status (fld c 0 8) }).writeStatus x.tk rd (word old) 0
/-- A tag pool of a core. -/
def Core.pool (c : Core) (t : Nat) : TagPool := c.tags.getD t {}
/-- A tag pool changed. -/
def State.modPool (s : State) (core t : Nat) (f : TagPool → TagPool) : State :=
  s.modCore core fun c => { c with tags := c.tags.set t (f (c.pool t)) }
/-- The TAGAs that wait on a pool, oldest first. -/
def State.tagWaiters (s : State) (core t : Nat) : List (Nat × Wait) :=
  (s.waitsOf core).filter fun e => match e.2.instr with
    | .taga _ _ _ x => x.toNat == t
    | _ => false
/-- A tag pool configured, or refused. -/
def State.qcfgPool (s : State) (x : Issue) (rd : Reg) (c : Word) : State :=
  let t := fld c 16 2
  let p := (s.core x.core).pool t
  if fld c 7 9 ≠ 0 ∨ fld c 18 46 ≠ 0 ∨ 64 < fld c 0 7 ∨ p.mask ≠ 0 ∨ (s.tagWaiters x.core t).isEmpty = false then
    s.writeStatus x.tk rd 0 4
  else
    (s.modPool x.core t fun p => { p with k := fld c 0 7, a := 0, owner := s.tagOf x.tk }).writeStatus x.tk rd (word p.k) 0
/-- QCFG (R249). -/
def execQcfg (sm : Bool) (rd : Reg) (ra : Reg) (x : BitVec 3) (s : State) : Host.Outcome State Fault Refusal :=
  issue (.qcfg sm rd ra x) noCheck (fun y s =>
    if x.toNat < 4 then s.qcfgRole y rd x.toNat (y.val 1)
    else if x.toNat = 4 then s.qcfgMask y rd (y.val 1)
    else s.qcfgPool y rd (y.val 1)) s
/-- The snapshot of an inbound neighbour queue (R250). A channel core has no such queue, and its directions all fault (R241): it
reads as empty, with the counter of reset and the fault bit (DESIGN CHOICE, log 103). -/
def State.nbrStat (s : State) (tk : Nat) (d : Dir) : Word :=
  if isChannel (coreOf tk) then word (at' 8 4 + at' 12 1)
  else
    let k := nbrKey tk d
    let q := s.nbrQueue k
    let tag := match q with
      | e :: _ => e.tag
      | [] => 0
    word (q.length + at' 3 tag + at' 8 (s.nbrRoom k % 8) + at' 11 (bit (SMap.getD s.nbrSync k false)) +
      at' 12 (bit (s.nbrCause tk d != 0)))
/-- The snapshot of a role queue. -/
def RoleQ.stat (q : RoleQ) (cycle : Nat) : Word :=
  let tag := match q.entries with
    | e :: _ => if e.since < cycle then e.tag else 0
    | [] => 0
  word (q.written cycle + at' 4 (q.taken - q.written cycle) + at' 8 tag + at' 16 q.writer + at' 24 q.reader +
    at' 31 (bit q.enabled))
/-- QSTAT (R250). -/
def execQstat (sm : Bool) (rd : Reg) (x : BitVec 3) (s : State) : Host.Outcome State Fault Refusal :=
  issue (.qstat sm rd x) noCheck (fun y s =>
    s.writeStatus y.tk rd (if x.toNat < 4 then s.nbrStat y.tk (nbrKeyDir x.toNat)
      else ((s.core y.core).role (x.toNat - 4)).stat s.cycle) 0) s

/-! ### TAGA and TAGF (R251) -/

/-- The next tag of a pool is not in flight. -/
def TagPool.ready (p : TagPool) : Bool := !bitAt p.mask p.a
/-- The next tag allocated. -/
def TagPool.take (p : TagPool) : TagPool := { p with mask := setBit p.mask p.a, a := (p.a + 1) % p.k }
/-- TAGA: served at once, or a waiter behind the earlier ones. -/
def execTaga (sm : Bool) (rd : Reg) (t : BitVec 4) (x : BitVec 3) (s : State) : Host.Outcome State Fault Refusal :=
  issue (.taga sm rd t x) noCheck (fun y s =>
    let p := (s.core y.core).pool x.toNat
    if p.k = 0 then s.setStatus y.tk 4
    else if p.ready && (s.tagWaiters y.core x.toNat).isEmpty then
      (s.modPool y.core x.toNat TagPool.take).writeStatus y.tk rd (word p.a) 0
    else s.beginWait (.taga sm rd t x) y (s.bound t.toNat) 0) s
/-- The waiting TAGAs of a pool served in order while its next tag is not in flight. (DEDUCED, log 32.) -/
def State.serveTags (s : State) (core t : Nat) : List (Nat × Wait) → State
  | [] => s
  | (tk, w) :: rest =>
    let p := (s.core core).pool t
    if p.ready then
      match w.instr with
      | .taga _ rd _ _ =>
        (((s.modPool core t TagPool.take).writeGS tk rd (word p.a)).finishWait tk 0).serveTags core t rest
      | _ => s
    else s
/-- TAGF. (DEDUCED, log 32.) -/
def execTagf (sm : Bool) (rd : Reg) (x : BitVec 3) (s : State) : Host.Outcome State Fault Refusal :=
  issue (.tagf sm rd x) noCheck (fun y s =>
    let p := (s.core y.core).pool x.toNat
    let v := (y.val 0).toNat
    if p.k ≤ v ∨ bitAt p.mask v = false then s.setStatus y.tk 4
    else
      let s := s.modPool y.core x.toNat fun p => { p with mask := clearBit p.mask v }
      (s.setStatus y.tk 0).serveTags y.core x.toNat (s.tagWaiters y.core x.toNat)) s

/-! ### Messages (R253, R254) -/

/-- The bits of a message target that must be zero are, and its node exists (R253). -/
def targetOk (v : Word) : Bool :=
  fld v 29 35 == 0 && fld v 18 6 == 0 && fld v 14 2 == 0 && fld v 3 5 == 0 &&
    (decide (fld v 0 3 < 4) || (fld v 16 2 == 0 && decide (fld v 8 6 < 48)))
/-- The core that a target names. -/
def targetCore (v : Word) : Nat := coreAt (nodeAt (fld v 0 3) (fld v 8 6)) (fld v 16 2)
/-- The port that a target names. -/
def targetPort (v : Word) : Nat := fld v 24 5
/-- A target refused to a thread (R253). -/
def State.targetRefused (s : State) (tk : Nat) (v : Word) : Bool :=
  !targetOk v || s.absent (nodeAt (fld v 0 3) (fld v 8 6)) || !s.inPartition tk (fld v 0 3) (fld v 8 6)
/-- SEND and SENDI wait in the operand state for room in the outbound queue. -/
def sendRoom (x : Issue) (s : State) : Check :=
  if s.targetRefused x.tk (x.val 1) then .go
  else if 8 ≤ (s.core x.core).outq.length then .park else .go
/-- A message enqueued, or refused. -/
def State.enqueueMessage (s : State) (x : Issue) (w0 w1 : Word) : State :=
  if s.targetRefused x.tk (x.val 1) then s.setStatus x.tk 4
  else
    let (id, s) := s.fresh
    (s.modCore x.core fun c => { c with outq := c.outq ++
      [{ target := x.val 1, w0 := w0, w1 := w1, slot := x.slot, launch := s.tagOf x.tk, stamp := id }] }).setStatus x.tk 0
/-- SEND (R254). -/
def execSend (sm : Bool) (rd : Reg) (ra : Reg) (s : State) : Host.Outcome State Fault Refusal :=
  issue (.send sm rd ra) sendRoom (fun x s => s.enqueueMessage x (x.val 0) (s.readG x.tk (Reg.gnum rd + 1))) s
/-- SENDI (R254). -/
def execSendi (sm : Bool) (rd : Reg) (ra : Reg) (v : BitVec 7) (s : State) : Host.Outcome State Fault Refusal :=
  issue (.sendi sm rd ra v) sendRoom (fun x s => s.enqueueMessage x (x.val 0) (v.zeroExtend 64)) s
/-- The head of a core's outbound queue may leave (R254). -/
def State.messageReady (s : State) (core : Nat) : Bool :=
  match (s.core core).outq with
  | [] => false
  | m :: _ => s.released (64 * core + m.slot) m.stamp
/-- MESSAGE_DEPART (R254): the subject is the core. -/
def execMessageDepart (s : State) : Host.Outcome State Fault Refusal :=
  let core := s.subj.n
  if s.messageReady core then
    match (s.core core).outq with
    | [] => .next s
    | m :: rest =>
      .next ((s.modCore core fun c => { c with outq := rest }).sendMessage (nodeOf core) (targetCore m.target)
        (targetPort m.target) m.w0 m.w1 false m.slot m.launch)
  else .next s
/-- A message written at its core, if there is a place for it: the port, the spill area, or for an engine's report the
trap reserve (R255, R256). -/
def State.placeMessage (s : State) (core port : Nat) (w0 w1 : Word) (report : Bool) (slot : Nat) : Option State :=
  let c := s.core core
  if c.portFree port && !c.hasSpill port && (port != 31 || c.reserve.isEmpty) then some (s.portEffect core port w0 w1)
  else if c.spill.length < 256 then some (s.modCore core fun c => { c with spill := c.spill ++ [(port, w0, w1)] })
  else if report && !(c.reserve.any fun e => e.1 == slot) then
    some (s.modCore core fun c => { c with reserve := c.reserve ++ [(slot, w0, w1)] })
  else none
/-- A message that cannot be placed, or that has others ahead of it, waits at the core's input; when it first does,
PORT_OVERFLOW is raised (R256). -/
def State.messageWaits (s : State) (core port pid : Nat) (report : Bool) : State :=
  let c := s.core core
  let fresh := !c.inputQ.contains pid
  let s := if fresh then s.modCore core fun c => { c with inputQ := c.inputQ ++ [pid] } else s
  if fresh && !report && !c.overflow then
    (s.modCore core fun c => { c with overflow := true }).reportInside core 0 (word (at' 59 6)) (word (port + at' 16 256))
  else s
/-- MESSAGE_ARRIVAL (R255): the subject is the packet. A message behind others that wait at the core's input waits
with them, and an engine's report behind the earlier reports of its slot that wait inside the core (R42). -/
def execMessageArrival (s : State) : Host.Outcome State Fault Refusal :=
  match SMap.get? s.packets s.subj.n with
  | none => .next s
  | some p =>
    match p.payload with
    | .message core port w0 w1 report slot _ =>
      .next (s.arrivePacket core .messageArrival p fun s =>
        let q := (s.core core).inputQ
        let after := report && (s.core core).held.any fun e => e.slot == slot && decide (e.id < p.id)
        if !after && (q.isEmpty || q.head? == some p.id) then
          match s.placeMessage core port w0 w1 report slot with
          | some s =>
            (((s.modCore core fun c => { c with inputQ := c.inputQ.filter (· != p.id) }).dropPacket p.id).settleHeld core)
          | none => (s.messageWaits core port p.id report).again .messageArrival
        else (s.messageWaits core port p.id report).again .messageArrival)
    | _ => .next s
/-- SPILL_REFILL (R255): the oldest spilled message of a port is written into its reserved place; in the trap port the
reports of the trap reserve come first (R256). The subject is the core and port. (DEDUCED, log 38.) -/
def execSpillRefill (s : State) : Host.Outcome State Fault Refusal :=
  let core := s.subj.n
  let p := s.subj.m
  let c := s.core core
  if (c.mport p).reserved = 0 then .next s
  else
    let s := s.modPort core p fun q => { q with reserved := q.reserved - 1 }
    match (if p = 31 then c.reserve.head? else none) with
    | some e =>
      .next (((s.modCore core fun c => { c with reserve := c.reserve.tail }).portEffect core p e.2.1 e.2.2).freed core p)
    | none =>
      match c.spill.find? fun e => e.1 == p with
      | none => .next s
      | some e =>
        .next (((s.modCore core fun c => { c with spill := c.spill.erase e }).portEffect core p e.2.1 e.2.2).freed core p)

/-! ### WAITM, RECV and MPCFG (R257 to R259) -/

/-- A port is another slot's. -/
def Core.foreign (c : Core) (p slot : Nat) : Bool := (c.mport p).owned && (c.mport p).ownerSlot != slot
/-- The ports of a mask that WAITM may wait for. -/
def Core.waitMask (c : Core) (m : Word) (slot : Nat) : Word :=
  word (((bitsOf 32 m.toNat).filter fun p => !c.isJoin p && !c.foreign p slot).map fun p => 2 ^ p).sum
/-- The ports of a mask that hold a message that took effect before a cycle. -/
def Core.holding (c : Core) (m : Word) (cycle : Nat) : Word :=
  word (((bitsOf 32 m.toNat).filter fun p => (c.mport p).msgs.any fun e => decide (e.since < cycle)).map fun p => 2 ^ p).sum
/-- WAITM (R257). (DEDUCED, log 33.) -/
def execWaitm (sm : Bool) (rd : Reg) (ra : Reg) (t : BitVec 4) (s : State) : Host.Outcome State Fault Refusal :=
  issue (.waitm sm rd ra t) noCheck (fun x s =>
    let m := (s.core x.core).waitMask (x.val 1) x.slot
    if fld (x.val 1) 32 32 ≠ 0 ∨ (m = 0 ∧ t = 15) then s.writeStatus x.tk rd 0 4
    else if (s.core x.core).holding m s.cycle ≠ 0 then s.writeStatus x.tk rd ((s.core x.core).holding m s.cycle) 0
    else (s.beginWait (.waitm sm rd ra t) x (s.bound t.toNat) 0).modWait x.tk fun w => { w with vals := [0, m] }) s
/-- A parked WAITM whose ports hold a message. -/
def State.waitmReady (s : State) (tk : Nat) (w : Wait) : Bool :=
  match w.instr with
  | .waitm _ _ _ _ => (s.core (coreOf tk)).holding (w.vals.getD 1 0) (s.cycle + 1) != 0
  | _ => false
/-- Such a WAITM completes. -/
def State.waitmStep (s : State) (tk : Nat) (w : Wait) : State :=
  match w.instr with
  | .waitm _ rd _ _ =>
    if s.waitmReady tk w then
      (s.writeGS tk rd ((s.core (coreOf tk)).holding (w.vals.getD 1 0) (s.cycle + 1))).finishWait tk 0
    else s
  | _ => s
/-- RECV (R258). -/
def execRecv (sm : Bool) (rd : Reg) (ra : Reg) (t : BitVec 4) (s : State) : Host.Outcome State Fault Refusal :=
  issue (.recv sm rd ra t) noCheck (fun x s =>
    let a := x.val 1
    let c := s.core x.core
    if fld a 5 59 ≠ 0 ∨ c.isJoin (fld a 0 5) = true ∨ c.foreign (fld a 0 5) x.slot = true then s.setStatus x.tk 4
    else match (c.mport (fld a 0 5)).msgs with
      | m :: _ => ((s.portPop x.core (fld a 0 5)).recvTake x.tk rd m.w0 m.w1).setStatus x.tk 0
      | [] => s.beginWait (.recv sm rd ra t) x (s.bound t.toNat) 0) s
/-- The parked RECVs of a core that a condition picks end with REFUSED. (DEDUCED, log 33.) -/
def State.refuseWaits (s : State) (core : Nat) (p : Nat → Wait → Bool) : State :=
  (s.waitsOf core).foldl (fun s e =>
    if p e.1 e.2 then
      (match e.2.instr with
        | .waitm _ rd _ _ => (s.writeGS e.1 rd 0).finishWait e.1 4
        | _ => s.finishWait e.1 4)
    else s) s
/-- A parked RECV of a port. -/
def recvsOn (p : Nat) (w : Wait) : Bool :=
  match w.instr with
  | .recv _ _ _ _ => w.vals.getD 1 0 == word p
  | _ => false
/-- A parked WAITM that waits for a port. -/
def waitsOn (p : Nat) (w : Wait) : Bool :=
  match w.instr with
  | .waitm _ _ _ _ => bitAt (w.vals.getD 1 0) p
  | _ => false
/-- MPCFG (R259). -/
def execMpcfg (sm : Bool) (rd : Reg) (ra : Reg) (s : State) : Host.Outcome State Fault Refusal :=
  issue (.mpcfg sm rd ra) noCheck (fun x s =>
    let c := x.val 1
    if fld c 5 3 ≠ 0 ∨ fld c 16 48 ≠ 0 then s.writeStatus x.tk rd 0 4
    else
      let p := fld c 0 5
      let k := s.core x.core
      let old := k.mport p
      let gone := if bitAt c 15 then old.msgs.length + (k.spill.filter fun e => e.1 == p).length else 0
      let s := s.modPort x.core p fun q =>
        { q with owned := bitAt c 14, ownerSlot := fld c 8 6, owner := s.tagOf x.tk }
      let s := if bitAt c 15 then
          ((s.modPort x.core p fun q => { q with msgs := [], reserved := 0 }).modCore x.core fun k =>
            { k with spill := k.spill.filter fun e => e.1 != p }).freed x.core p
        else s
      (s.writeStatus x.tk rd (word (p + at' 8 (old.ownerSlot + 64 * bit old.owned) + at' 16 (gone % 512))) 0).refuseWaits
        x.core fun tk w => bitAt c 14 && slotOf tk != fld c 8 6 && (recvsOn p w || waitsOn p w)) s
/-- QUEUE_WAIT_TIMEOUT (R251, R257, R258): the subject is the thread and its wait. -/
def execQueueWaitTimeout (s : State) : Host.Outcome State Fault Refusal :=
  let tk := s.subj.n
  match (s.thread tk).wait? with
  | none => .next s
  | some w =>
    if w.id ≠ s.subj.m then .next s
    else match w.instr with
      | .waitm _ rd _ _ => .next ((s.writeGS tk rd 0).finishWait tk 1)
      | _ => .next (s.finishWait tk 1)

/-! ### Neighbour values, returns, audits and resynchronisation (R242, R243) -/

/-- NEIGHBOUR_VALUE_ARRIVAL: the subject is the inbound queue's key, the tag, the sender's launch and the value. -/
def execNeighbourValueArrival (s : State) : Host.Outcome State Fault Refusal :=
  let k := s.subj.n
  .next (s.arrive (coreOf (nbrKeySlot k)) .neighbourValueArrival fun s =>
    { s with nbr := SMap.put s.nbr k (s.nbrQueue k ++ [{ v := s.subj.v, tag := s.subj.m, since := s.cycle }]) })
/-- NEIGHBOUR_RETURN: the subject is the sender's key, and the launch of the thread that popped. -/
def execNeighbourReturn (s : State) : Host.Outcome State Fault Refusal :=
  let k := s.subj.n
  .next (s.arrive (coreOf (nbrKeySlot k)) .neighbourReturn fun s =>
    { s with nbrFree := SMap.put s.nbrFree k (s.nbrRoom k + 1) })
/-- The sender's key of an inbound queue. -/
def senderKey (k : Nat) : Nat := nbrKey (nbrSlot (nbrKeySlot k) (nbrKeyDir k)) (Dir.opposite (nbrKeyDir k))
/-- A queue that crosses a die edge, by either of its keys. -/
def crossesDie (k : Nat) : Bool :=
  !isChannel (coreOf (nbrKeySlot k)) && (neighbour (nodeOf (coreOf (nbrKeySlot k))) (nbrKeyDir k)).isSome &&
    nbrTime (nbrKeySlot k) (nbrKeyDir k) == 16
/-- AUDIT_SEND (R243): the pop count goes to the sender behind the returns; the subject is the inbound queue's key. -/
def execAuditSend (s : State) : Host.Outcome State Fault Refusal :=
  let k := s.subj.n
  if crossesDie k then
    .next (s.addTimer (s.cycle + nbrTime (nbrKeySlot k) (nbrKeyDir k)) .auditReceipt
      { n := senderKey k, m := SMap.getD s.nbrPops k 0 })
  else .next s
/-- AUDIT_RECEIPT (R243): the subject is the sender's key and the count. -/
def execAuditReceipt (s : State) : Host.Outcome State Fault Refusal :=
  let k := s.subj.n
  .next (s.arrive (coreOf (nbrKeySlot k)) .auditReceipt fun s =>
    if SMap.getD s.nbrSync k false then s
    else { s with nbrFree := SMap.put s.nbrFree k (4 - (SMap.getD s.nbrSent k 0 + 65536 - s.subj.m) % 65536) })
/-- The die and node that a neighbour key's log entry names. -/
def State.logNeighbour (s : State) (k : Nat) : State :=
  let n := nodeOf (coreOf (nbrKeySlot k))
  s.logEntry 3 (dieOfNode n) (numOfNode n) 1
/-- COUNTER_RESYNC (R243): a parity error is found when the counter of an outbound queue across a die edge is read; a
resynchronisation flit goes to the receiver. The subject is the sender's key. -/
def execCounterResync (s : State) : Host.Outcome State Fault Refusal :=
  let k := s.subj.n
  if crossesDie k && !SMap.getD s.nbrSync k false then
    .next (({ s with nbrSync := SMap.put s.nbrSync k true }.logNeighbour k).addTimer
      (s.cycle + nbrTime (nbrKeySlot k) (nbrKeyDir k)) .resyncAnswer { n := k })
  else .next s
/-- Values of an outbound queue that have not arrived at the neighbour: on the way, or still to be written. -/
def State.nbrInFlight (s : State) (k : Nat) : Bool :=
  let mine := fun (mv : Move) => match mv with
    | .ev .neighbourValueArrival j => j.n == senderKey k
    | .ev .dividerWrite j | .ev .normaliserWrite j => j.n == nbrKeySlot k && j.r == .nb (nbrKeyDir k)
    | .bank op | .ringOp op => op.tk == nbrKeySlot k && (match op.kind with
      | .load _ _ _ rd | .ringAdvance rd _ | .ringStatus rd _ => rd == .nb (nbrKeyDir k)
      | _ => false)
    | _ => false
  (s.timers.any fun t => mine t.mv) || s.todo.any mine
/-- The receiver answers a resynchronisation with its occupancy, and counts its pops from 0; returns that it has sent are
ahead of the answer. -/
def State.resyncReceiver (s : State) (k : Nat) : State :=
  let q := senderKey k
  { s with nbrPops := SMap.put s.nbrPops q 0 }.addTimer (s.cycle + nbrTime (nbrKeySlot k) (nbrKeyDir k)) .resyncAnswer
    { n := k, k := 1, m := (s.nbrQueue q).length }
/-- The answer at the sender: the counter is 4 less the occupancy, and parked pushes may reissue. The pushes that fill the
occupied places are those counted so far, so that the audits that follow give the same counter. (DEDUCED, log 34.) -/
def State.resyncSender (s : State) (k held : Nat) : State :=
  { s with
    nbrSync := SMap.put s.nbrSync k false
    nbrFree := SMap.put s.nbrFree k (4 - held)
    nbrSent := SMap.put s.nbrSent k held }
/-- RESYNC_ANSWER (R243): the subject is the sender's key, and with k = 1 the occupancy on its way back; until then the
flit is at the receiver, which answers once every earlier value has arrived. -/
def execResyncAnswer (s : State) : Host.Outcome State Fault Refusal :=
  let k := s.subj.n
  if s.subj.k = 1 then .next (s.arrive (coreOf (nbrKeySlot k)) .resyncAnswer fun s => s.resyncSender k s.subj.m)
  else if s.nbrInFlight k then .next (s.again .resyncAnswer)
  else .next (s.arrive (coreOf (nbrKeySlot (senderKey k))) .resyncAnswer fun s => s.resyncReceiver k)

end Sys2Proof.Machine
end

