-- ==== Sys2Proof/Machine/Join.lean ====
section
/-! DEFINITION. Join patterns, op 0x37, and the join unit (R260 to R266). -/

namespace Sys2Proof.Machine

/-- An entry of a core's join-pattern table. -/
def Core.entry (c : Core) (e : Nat) : JEntry := c.jp.getD e {}
/-- An entry set. -/
def State.setEntry (s : State) (core e : Nat) (x : JEntry) : State :=
  s.modCore core fun c => { c with jp := c.jp.set e x }
/-- The ports of an entry, lowest first. -/
def JEntry.portList (x : JEntry) : List Nat := bitsOf 32 x.ports.toNat
/-- The entry that a descriptor describes (R264). -/
def entryOf (d0 d1 : Word) (owner task cycle : Nat) : JEntry :=
  { valid := true, ports := d0.extractLsb' 0 32, slot := fld d0 32 6, w := 8 * fld d0 44 4, pc := d1.extractLsb' 0 48
    prio := fld d0 40 2, owner := owner, task := task, since := cycle }
/-- A descriptor's fields are in range and its reserved bits are zero (R264). A W ÷ 8 outside its range is refused also where W is
not too small for the ports (DESIGN CHOICE, log 104). -/
def descriptorOk (d0 d1 : Word) : Bool :=
  let n := popcNat 32 (fld d0 0 32)
  fld d0 48 16 == 0 && fld d0 42 2 == 0 && fld d0 38 2 == 0 && fld d1 48 16 == 0 && fld d1 0 2 == 0 &&
    decide (1 ≤ n) && decide (n ≤ 6) && decide (1 ≤ fld d0 44 4) && decide (fld d0 44 4 ≤ 12) &&
    decide (2 * n ≤ 8 * fld d0 44 4)
/-- The window that an entry's slot is to have: the one reserved for it, if it has the same W, or free blocks; none
when JPSET is refused for its slot (R264). (DEDUCED, log 21.) -/
def State.entryWindow (s : State) (core slot w : Nat) : Option (Nat × Nat) :=
  match SMap.get? (s.core core).resv slot with
  | some (b, w') => if w' = w then some (b, w) else none
  | none =>
    if (s.thread? (64 * core + slot)).isSome || (SMap.get? (s.core core).holds slot).isSome then none
    else (freeBase (s.takenBlocks core) (w / 8)).map fun b => (b, w)
/-- An entry loaded with its window: its slot is reserved, and RECVs parked on its ports end with REFUSED (R258). -/
def State.loadEntry (s : State) (core e : Nat) (x : JEntry) (win : Nat × Nat) : State :=
  let s := s.setEntry core e x
  let s := s.modCore core fun c => { c with resv := SMap.put c.resv x.slot win }
  s.refuseWaits core fun _ w => x.portList.any fun p => recvsOn p w
/-- An entry cleared (R265). -/
def State.clearEntry (s : State) (core e : Nat) : State :=
  let x := (s.core core).entry e
  if x.valid then (s.setEntry core e {}).settleResv core x.slot else s
/-- An instruction at thread level that names an entry of slot 0 raises the privilege trap (R263). -/
def entryPrivilege (i : Instr) (e : Nat) (named : Bool) (x : Issue) (s : State) : Check :=
  let y := (s.core x.core).entry e
  if x.slot ≠ 0 ∧ (named = true ∨ (y.valid = true ∧ y.slot = 0)) then .trap 9 1 ((encode i).zeroExtend 64) else .go

/-- JPSET (R264). -/
def execJpset (sm : Bool) (ra : Reg) (e : BitVec 7) (s : State) : Host.Outcome State Fault Refusal :=
  issue (.jpset sm ra e) (fun x s => entryPrivilege (.jpset sm ra e) e.toNat (fld (x.val 0) 32 6 == 0) x s) (fun x s =>
    let d0 := x.val 0
    let d1 := s.readG x.tk (Reg.gnum ra + 1)
    let c := s.core x.core
    let y := entryOf d0 d1 (s.tagOf x.tk) (s.thread x.tk).task s.cycle
    if !descriptorOk d0 d1 || (c.entry e.toNat).valid || (y.portList.any fun p => (c.mport p).owned) ||
        (y.ports.getLsbD 31 && x.slot != 0) then s.setStatus x.tk 4
    else match s.entryWindow x.core y.slot y.w with
      | none => s.setStatus x.tk 4
      | some win => (s.loadEntry x.core e.toNat y win).setStatus x.tk 0) s
/-- JPCLR (R265). -/
def execJpclr (sm : Bool) (e : BitVec 7) (s : State) : Host.Outcome State Fault Refusal :=
  issue (.jpclr sm e) (entryPrivilege (.jpclr sm e) e.toNat false) (fun x s =>
    (s.clearEntry x.core e.toNat).setStatus x.tk 0) s

/-- An entry is a candidate at a decision in the present cycle (R261). -/
def State.candidate (s : State) (core : Nat) (x : JEntry) : Bool :=
  let c := s.core core
  x.valid && c.gated.isNone && !(s.team (nodeOf core)).stopped && decide (x.since < s.cycle) && s.slotEmpty core x.slot &&
    x.portList.all fun p => (c.mport p).msgs.any fun m => decide (m.since < s.cycle)
/-- JPSTAT (R266). -/
def execJpstat (sm : Bool) (rd : Reg) (e : BitVec 7) (s : State) : Host.Outcome State Fault Refusal :=
  issue (.jpstat sm rd e) (entryPrivilege (.jpstat sm rd e) e.toNat false) (fun x s =>
    let y := (s.core x.core).entry e.toNat
    s.writeStatus x.tk rd (word (y.ports.toNat + at' 32 y.slot + at' 40 y.prio + at' 44 (y.w / 8) + at' 48 y.pass +
      at' 53 (bit y.valid) + at' 54 (bit ((s.thread? (64 * x.core + y.slot)).isSome)) +
      at' 55 (bit (s.candidate x.core y)))) 0) s

/-- The entry numbers in ascending order after the round-robin pointer, with wrap. -/
def entryOrder (ptr : Nat) : List Nat := (List.range 16).map fun k => (ptr + 1 + k) % 16
/-- The candidates of a core, in round-robin order. -/
def State.candidates (s : State) (core : Nat) : List Nat :=
  (entryOrder (s.core core).jptr).filter fun e => s.candidate core ((s.core core).entry e)
/-- The entry that a decision starts: pass count 16, then the highest priority, then the round robin (R261). -/
def Core.ranked (c : Core) (l : List Nat) : Option Nat :=
  match l.filter fun e => (c.entry e).pass == 16 with
  | e :: rest => some (best c (e :: rest))
  | [] => match l with
    | [] => none
    | e :: rest => some (best c (e :: rest))
where
  /-- the first of the highest priority -/
  best (c : Core) (l : List Nat) : Nat :=
    match [3, 2, 1, 0].findSome? fun p => l.find? fun e => (c.entry e).prio == p with
    | some e => e
    | none => 0
/-- The launch and task of a handler: slot 0 serves the launch whose values the core's CSRs hold (R317); any other
handler belongs to the launch that set its entry, and to the task that its team runs for it. (DEDUCED, log 23.) -/
def State.handlerOf (s : State) (core : Nat) (x : JEntry) : Nat × Nat :=
  let t := s.team (nodeOf core)
  if x.slot = 0 then (if isChannel core then (s.core core).lastLaunch else t.lastLaunch.getD 0, 0)
  else
    let task := if isChannel core then x.task else t.task.getD 0
    match s.task? task with
    | some k => (x.owner, if k.launch = x.owner ∧ k.ended = false then task else 0)
    | none => (x.owner, 0)
/-- An entry started (R262): the head messages of its ports are popped and fill the handler's registers.
(DEDUCED, log 23.) -/
def State.startEntry (s : State) (core e : Nat) : State :=
  let x := (s.core core).entry e
  let ports := x.portList
  let regs := ports.flatMap fun p => match ((s.core core).mport p).msgs with
    | m :: _ => [m.w0, m.w1]
    | [] => [0, 0]
  let (launch, task) := s.handlerOf core x
  let base := (SMap.getD (s.core core).resv x.slot (0, 8)).1
  let s := ports.foldl (fun s p => s.portPop core p) s
  let s := if isChannel core && x.slot != 0 then s.servesLaunch core launch else s
  (s.placeThread (64 * core + x.slot)
    { pc := x.pc, base := base, w := x.w, launch := launch, task := task, notBefore := s.cycle + 1 } regs).joinTask task
/-- JOIN_DECISION (R261, R262): the subject is the core. -/
def execJoinDecision (s : State) : Host.Outcome State Fault Refusal :=
  let core := s.subj.n
  let l := s.candidates core
  match (s.core core).ranked l with
  | none => .next s
  | some e =>
    let s := s.modCore core fun c => { c with
      jptr := e
      jp := c.jp.zipIdx.map fun p =>
        { p.1 with pass := if p.2 = e then 0 else if l.contains p.2 then min 16 (p.1.pass + 1) else 0 } }
    .next (s.startEntry core e)

end Sys2Proof.Machine
end

