-- ==== Sys2Proof/Machine/Threads.lean ====
section
/-! DEFINITION. Threads and migration, op 0x38 (R279 to R283, R285 to R291, R295), with the steps of the slot allocator
and of the arrival path. -/

namespace Sys2Proof.Machine

/-! ### QUIT and EXIT (R282, R283, R293) -/

/-- A thread pushes its end-of-stream tokens, and then ends as QUIT ends (R293). -/
def State.beginTokens (s : State) (tk : Nat) (pc : BitVec 48) : State :=
  let (id, s) := s.fresh
  s.modThread tk fun th =>
    { th with pc := pc, tokens := some (1, 0, 0, 0), run := .wait { id := id, instr := .stop, stamp := id } }
/-- QUIT and EXIT wait, after the end-of-stream tokens of compatibility mode where those are due. -/
def State.beginEnd (s : State) (i : Instr) (x : Issue) (tokens : Bool) : State :=
  let s := s.cancelBindings x.tk
  if tokens then s.beginTokens x.tk x.pc else s.beginWait i x none 0
/-- A thread's task has its successor, so that a later EXIT of it acts as QUIT (R283). -/
def State.succeeded (s : State) (tk : Nat) : Bool :=
  match s.task? (s.thread tk).task with
  | some t => t.succ != 0
  | none => false
/-- QUIT. -/
def execQuit (sm : Bool) (s : State) : Host.Outcome State Fault Refusal :=
  issue (.quit sm) noCheck (fun x s => s.beginEnd (.quit sm) x (s.compat x.tk)) s
/-- EXIT: an address that is not a multiple of 64 raises the memory-fault trap. (DEDUCED, log 25.) -/
def execExit (sm : Bool) (ra : Reg) (s : State) : Host.Outcome State Fault Refusal :=
  issue (.exit sm ra) (fun x _ => if (x.val 0).toNat % 64 ≠ 0 then .trap 3 2 (x.val 0) else .go) (fun x s =>
    s.beginEnd (.exit sm ra) x ((x.val 0 == 0 || s.succeeded x.tk) && s.compat x.tk)) s
/-- The waits of a thread that ends are over. -/
def State.endReady (s : State) (tk : Nat) (w : Wait) : Bool :=
  (match w.instr with | .quit _ | .exit _ _ => true | _ => false) && s.fenceReady tk w && s.outstanding tk == 0
/-- A thread leaves its slot and its task. (DESIGN CHOICE, log 24.) -/
def State.endThread (s : State) (tk : Nat) : State := (s.freeThread tk).leaveTask (s.thread tk).task
/-- THREAD_END (R282, R283): the first EXIT that names a successor sets it; one that has come to be a later EXIT while it
waited acts as QUIT, tokens first. The subject is the thread.
(DESIGN CHOICE, log 24.) -/
def execThreadEnd (s : State) : Host.Outcome State Fault Refusal :=
  let tk := s.subj.n
  match (s.thread tk).wait? with
  | none => .next s
  | some w =>
    if s.endReady tk w then
      match (s.thread tk).log with
      | some (c, a) => .next (s.logTrap tk c a)
      | none =>
        let a := match w.instr with
          | .exit _ _ => (w.vals.getD 0 0).toNat
          | _ => 0
        if a ≠ 0 ∧ s.succeeded tk = true ∧ s.compat tk = true then .next (s.beginTokens tk (s.thread tk).pc)
        else .next ((s.modTask (s.thread tk).task fun t => { t with succ := if t.succ = 0 then a else t.succ }).endThread tk)
    else .next s

/-! ### SPAWN and the slot allocator (R280, R281, R287, R295) -/

/-- SPAWN is refused (R279, R280). -/
def State.spawnRefused (s : State) (tk : Nat) (a : Word) : Bool :=
  isChannel (coreOf tk) || fld a 50 14 != 0 || fld a 0 2 != 0 ||
    match s.task? (s.thread tk).task, s.launchOfThread tk with
    | some t, some l => l.spw == 0 || t.budget == 0
    | _, _ => true
/-- The core that a SPAWN descriptor names. -/
def spawnCore (tk : Nat) (a : Word) : Nat := coreAt (nodeOf (coreOf tk)) (fld a 48 2)
/-- SPAWN (R280): the budget is charged at issue, and g0 to g3 are read. -/
def execSpawn (sm : Bool) (rd : Reg) (ra : Reg) (t : BitVec 4) (s : State) : Host.Outcome State Fault Refusal :=
  issue (.spawn sm rd ra t) noCheck (fun x s =>
    let a := x.val 1
    if s.spawnRefused x.tk a then s.setStatus x.tk 4
    else
      let v := (List.range 4).map fun i => s.readG x.tk i
      let s := s.modTask (s.thread x.tk).task fun k => { k with budget := k.budget - 1 }
      ((s.beginWait (.spawn sm rd ra t) x (s.bound t.toNat) 0).modWait x.tk fun w => { w with vals := a :: v }).startUngate
        (spawnCore x.tk a)) s
/-- The SPAWNs that wait for a core, oldest first. -/
def State.spawnWaiters (s : State) (core : Nat) : List (Nat × Wait) :=
  let node := nodeOf core
  let l := s.threads.filterMap fun e =>
    if nodeOf (coreOf e.1) = node then
      e.2.wait?.bind fun w => match w.instr with
        | .spawn _ _ _ _ => if spawnCore e.1 (w.vals.getD 0 0) = core then some (e.1, w) else none
        | _ => none
    else none
  sortBy (fun a b => decide (a.2.id ≤ b.2.id)) l
/-- The window of the threads that a thread spawns. -/
def State.spawnW (s : State) (tk : Nat) : Nat := match s.launchOfThread tk with | some l => 8 * l.spw | none => 8
/-- SPAWN_PLACEMENT (R280, R281): the oldest SPAWN that waits for the core is placed; the subject is the core. -/
def execSpawnPlacement (s : State) : Host.Outcome State Fault Refusal :=
  let core := s.subj.n
  match s.spawnWaiters core with
  | [] => .next s
  | (tk, w) :: _ =>
    match s.findSlot core (s.spawnW tk), w.instr with
    | some (z, b), .spawn _ rd _ _ =>
      let a := w.vals.getD 0 0
      let th := s.thread tk
      let s := s.placeThread (64 * core + z)
        { pc := word (fld a 2 46 * 4) |>.truncate 48, base := b, w := s.spawnW tk, launch := th.launch, task := th.task
          notBefore := s.cycle + 1 } w.vals.tail
      let s := ((s.joinTask th.task).writeGS tk rd (word (z + 256 * coreInTeam core))).finishWait tk 0
      .next (s.modThread tk fun th => { th with notBefore := s.cycle + 3 })
    | _, _ => .next s
/-- SPAWN_TIMEOUT (R280): the charge is refunded; the subject is the thread and its wait. -/
def execSpawnTimeout (s : State) : Host.Outcome State Fault Refusal :=
  let tk := s.subj.n
  match (s.thread tk).wait? with
  | none => .next s
  | some w =>
    if w.id ≠ s.subj.m then .next s
    else .next ((s.modTask (s.thread tk).task fun k => { k with budget := k.budget + 1 }).finishWait tk 1)
/-- The next thread of a task that a core's allocator is to place. -/
def State.nextSeat (s : State) (core : Nat) : Option (Placing × Seat) :=
  s.disp.placing.findSome? fun p => (p.todo.find? fun q => q.core == core).map fun q => (p, q)
/-- The head of a core's arrival queue can be admitted (R287, R295). -/
def State.admissible (s : State) (core : Nat) : Bool :=
  match (s.core core).arrivals with
  | [] => false
  | c :: _ =>
    (match c.okAt with | some k => decide (k ≤ s.cycle) | none => false) && decide (c.inAt < s.cycle) &&
      (s.findSlot core 16).isSome
/-- What a core's slot allocator does in this cycle (R281): the head of its arrival queue, then the oldest waiting SPAWN,
then the dispatcher. On a team that the general pre-emption stops, only a placement that has begun goes on. -/
def State.allocate (s : State) (core : Nat) : Option Move :=
  if (s.core core).gated.isSome then none
  else if (s.team (nodeOf core)).stopped then (s.nextSeat core).map fun _ => .place core
  else if s.admissible core then some (.ev .admission { n := core })
  else match s.spawnWaiters core with
    | (tk, _) :: _ =>
      if (s.findSlot core (s.spawnW tk)).isSome then some (.ev .spawnPlacement { n := core })
      else (s.nextSeat core).map fun _ => .place core
    | [] => (s.nextSeat core).map fun _ => .place core
/-- ADMISSION (R287, R288, R295): the head of the arrival queue is admitted; a context refused with cause 8 raises the
memory-fault trap at its MIGRATE. The subject is the core. -/
def execAdmission (s : State) : Host.Outcome State Fault Refusal :=
  let core := s.subj.n
  match (s.core core).arrivals, s.findSlot core 16 with
  | c :: rest, some (z, b) =>
    if s.admissible core then
      let s := (s.modCore core fun k => { k with arrivals := rest }).servesLaunch core c.launch
      let tk := 64 * core + z
      let s := s.placeThread tk
        { pc := c.pc, status := c.status, base := b, w := 16, launch := c.launch, task := c.task
          notBefore := s.cycle + 1 } c.regs
      match c.fault with
      | some a => .next (s.trap tk 3 8 a)
      | none => .next s
    else .next s
  | _, _ => .next s

/-! ### MIGRATE (R285 to R288) -/

/-- Where MIGRATE takes its thread: a cause, no owner, or the owner with the offset of a window address. -/
inductive Owner where
  | fault (cause : Nat)
  | nobody
  | core (k : Nat) (off : Option Nat)
deriving DecidableEq, Repr
/-- An address of a thread lies in a host page, whatever its permissions (R285). -/
def State.inHostPage (s : State) (tk : Nat) (a : Word) : Bool :=
  addrClass a.toNat == .virtual &&
    (((s.launch? (s.thread tk).launch).bind fun l => s.walkFrom l.root a.toNat).any fun leaf => bitAt leaf 3)
/-- The owner of an address (R285). A host page has none, accessible or not. An offset at or above the size of the thread's own team names no core there: the access
has cause 8; at another team its arrival is refused with that cause (R286). (DEDUCED, log 30.) -/
def State.ownerOf (s : State) (tk : Nat) (a : Word) : Owner :=
  if s.inHostPage tk a then .nobody else
  match s.translateBy tk a.toNat false with
  | .error c => .fault c
  | .ok (.host _) | .ok (.peer _ _) => .nobody
  | .ok (.line pa die _ _) => let (d, c) := channelOf pa die; .core (channelCore d c) none
  | .ok (.bank _ die chan) => .core (channelCore die chan) none
  | .ok (.window node off) =>
    if node = nodeOf (coreOf tk) ∧ (s.team node).s ≤ off then .fault 8
    else .core (if node < 256 then coreAt node (min 3 (off / ((s.team node).s / 4))) else coreAt node 0) (some off)
/-- MIGRATE: a window of another size than 16, or a page without an owner, is refused at issue. (DEDUCED, log 30.) -/
def execMigrate (sm : Bool) (ra : Reg) (s : State) : Host.Outcome State Fault Refusal :=
  issue (.migrate sm ra) noCheck (fun x s =>
    if (s.thread x.tk).w ≠ 16 ∨ s.ownerOf x.tk (x.val 0) = .nobody then s.setStatus x.tk 4
    else s.beginWait (.migrate sm ra) x none 0) s
/-- The waits of a MIGRATE are over, but for a shadow entry. -/
def State.migrateReady (s : State) (tk : Nat) (w : Wait) : Bool :=
  (match w.instr with | .migrate _ _ => true | _ => false) && s.fenceReady tk w && s.outstanding tk == 0
/-- A stream queue of the thread holds an element or marker, or a binding has requests left to issue. -/
def State.streamsHeld (s : State) (tk : Nat) : Bool :=
  (List.range 8).any fun k =>
    !(s.stream tk k).entries.isEmpty || match (s.stream tk k).bind with
      | some b => decide (0 < b.left)
      | none => false
/-- The departure (R286): the context goes into a shadow entry and a packet, and the slot is freed. -/
def State.depart (s : State) (tk dst : Nat) (off : Option Nat) (a : Word) : State :=
  let th := s.thread tk
  let core := coreOf tk
  let (id, s) := s.fresh
  let c : Ctx :=
    { regs := (List.range 10).map fun i => s.readG tk i, status := setStatusField th.status 0, pc := th.pc + 4
      launch := th.launch, task := th.task, stamp := s.cycle, src := core, serial := id, off := off.getD 0
      window := off.isSome }
  let s := s.modCore core fun k => { k with shadows := k.shadows ++
    [{ serial := id, ctx := c, dst := dst, departed := s.cycle, addr := a, migPc := th.pc }] }
  let s := { s with disp := { s.disp with inTransit := s.disp.inTransit + 1 } }
  (s.freeThread tk).send (nodeOf core) dst 2 (.migrate dst c) .migrationArrival
/-- DEPARTURE (R285, R286): the checks of a MIGRATE past its waits, and the departure; the subject is the thread. -/
def execDeparture (s : State) : Host.Outcome State Fault Refusal :=
  let tk := s.subj.n
  match (s.thread tk).wait? with
  | none => .next s
  | some w =>
    if s.migrateReady tk w then
      match (s.thread tk).log with
      | some (c, a) => .next (s.logTrap tk c a)
      | none =>
        let a := w.vals.getD 0 0
        if s.streamsHeld tk then .next (s.finishWait tk 4)
        else match s.ownerOf tk a with
          | .fault c => .next (s.trap tk 3 c a)
          | .nobody => .next (s.finishWait tk 4)
          | .core k off =>
            if k = coreOf tk then .next (s.finishWait tk 0)
            else if (s.core (coreOf tk)).shadows.length < 8 then .next (s.depart tk k off a)
            else .next s
    else .next s
/-- The limit of a core's arrival queue (R287). -/
def State.arrivalLimit (s : State) (core : Nat) : Nat :=
  if isChannel core then 16
  else match (s.team (nodeOf core)).task with
    | none => 16
    | some t => match (s.task? t).bind fun k => s.launch? k.launch with
      | some l => l.arr
      | none => 16
/-- A 128-byte context (R331). -/
def State.ctxWords (s : State) (c : Ctx) : List Word :=
  ((List.range 10).map fun i => c.regs.getD i 0) ++ [c.status, c.pc.zeroExtend 64,
    word ((match s.launch? c.launch with | some l => l.handle | none => 0) +
      at' 32 (match s.task? c.task with | some t => t.num | none => 0)), word c.stamp, 0, 0]
/-- The memory of a place of a core's paddock: 128 bytes from PADDOCKBASE on (R287, R317). -/
def State.paddockKey (s : State) (core place : Nat) : Nat := (s.core core).paddockBase.toNat % 2 ^ 40 + 128 * place
/-- A context entered at the tail of a core's paddock, and written to the lowest place of it that is free
(DESIGN CHOICE, log 38). One that re-enters a paddock of 1,024 has no place in memory: the core keeps it (log 31). -/
def State.intoPaddock (s : State) (core : Nat) (c : Ctx) : State :=
  let used := (s.core core).paddock.map fun d => d.place
  let c := { c with place := ((List.range 1024).find? fun p => !used.contains p).getD 1024 }
  (if c.place < 1024 then s.ownerWrite (s.paddockKey core c.place) (bytesOfDwords (s.ctxWords c)) else s).modCore core fun k =>
    { k with paddock := k.paddock ++ [c] }
/-- A context of the paddock as its memory holds it; one without a place there, as the core keeps it (log 31). -/
def State.fromPaddock (s : State) (core : Nat) (c : Ctx) : Ctx :=
  if c.place < 1024 then
    let l := dwordsOf (s.load (s.paddockKey core c.place) 128) 16
    { c with
      regs := l.take 10, status := l.getD 10 0, pc := (l.getD 11 0).truncate 48, stamp := (l.getD 13 0).toNat }
  else c
/-- Contexts dropped from a core's arrival queue and paddock; a move of a dropped context ends (R287, R288). -/
def Core.dropStored (c : Core) (gone : Ctx → Bool) : Core :=
  { c with
    arrivals := c.arrivals.filter fun x => !gone x, paddock := c.paddock.filter fun x => !gone x
    moveDone := if (match c.paddock.head? with | some x => gone x | none => false) then none else c.moveDone }
/-- A context stored in a core's arrival queue, or at the tail of its paddock. -/
def State.storeCtx (s : State) (core : Nat) (c : Ctx) : State :=
  let k := s.core core
  let c := { c with inAt := s.cycle }
  if k.arrivals.length < s.arrivalLimit core ∧ k.paddock = [] then
    s.modCore core fun k => { k with arrivals := k.arrivals ++ [c] }
  else s.intoPaddock core c
/-- The acknowledgement of a destination: 0 stored, 8 cause 8, 2 FULL. -/
def State.migAnswer (s : State) (core : Nat) (c : Ctx) (st : Nat) : State :=
  s.send (nodeOf core) (nodeOf c.src) 1 (.migAck c.src c.serial st core) .migrationAck
/-- MIGRATION_ARRIVAL (R286, R287): the subject is the packet. -/
def execMigrationArrival (s : State) : Host.Outcome State Fault Refusal :=
  match SMap.get? s.packets s.subj.n with
  | none => .next s
  | some p =>
    match p.payload with
    | .migrate core c =>
      .next (s.arrivePacket core .migrationArrival p fun s =>
        let s := s.dropPacket p.id
        let k := s.core core
        if c.window ∧ (s.team (nodeOf core)).s ≤ c.off then s.migAnswer core c 8
        else if 1024 ≤ k.paddock.length then s.migAnswer core c 2
        else (s.storeCtx core c).migAnswer core c 0)
    | _ => .next s
/-- A migration is no longer in transit. -/
def State.settled (s : State) : State := { s with disp := { s.disp with inTransit := s.disp.inTransit - 1 } }
/-- A shadow re-enters its source (R288): with LOST, FULL, or FAULTED at the MIGRATE. (DEDUCED, log 31.) -/
def State.reenter (s : State) (core : Nat) (h : Shadow) (code : Nat) : State :=
  let s := s.modCore core fun k => { k with shadows := k.shadows.filter fun y => y.serial != h.serial }
  (s.startUngate core).storeCtx core { h.ctx with
    status := setStatusField h.ctx.status code
    pc := if code = 6 then h.migPc else h.ctx.pc
    fault := if code = 6 then some h.addr else none
    okAt := some (s.cycle + 1) }
/-- A release, or a discard, sent to the destination. -/
def State.sendRelease (s : State) (core dst serial : Nat) (discard : Bool) : State :=
  s.send (nodeOf core) (nodeOf dst) 0 (.migRelease dst core serial discard)
    (if discard then .migrationDiscard else .migrationRelease)
/-- MIGRATION_ACK (R286, R288): the subject is the packet. (DEDUCED, log 31.) -/
def execMigrationAck (s : State) : Host.Outcome State Fault Refusal :=
  match SMap.get? s.packets s.subj.n with
  | none => .next s
  | some p =>
    if s.behind p then .next (s.again .migrationAck)
    else
      let s := s.dropPacket p.id
      match p.payload with
      | .migAck core serial st dst =>
        match (s.core core).shadows.find? fun h => h.serial == serial with
        | none => if st = 0 then .next (s.sendRelease core dst serial true) else .next s.settled
        | some h =>
          if st = 0 then
            .next ((s.modCore core fun k => { k with shadows := k.shadows.filter fun y => y.serial != serial }).sendRelease
              core dst serial false)
          else .next ((s.reenter core h (if st = 8 then 6 else 2)).settled)
      | _ => .next s
/-- The stored copy of a migration in a core's arrival queue or paddock released, or with `discard` dropped. -/
def State.modStored (s : State) (core src serial : Nat) (discard : Bool) : State :=
  let mine := fun (c : Ctx) => c.src == src && c.serial == serial && c.okAt.isNone
  let free := fun (c : Ctx) => if mine c then { c with okAt := some (s.cycle + 1) } else c
  s.modCore core fun k =>
    if discard then k.dropStored mine
    else { k with arrivals := k.arrivals.map free, paddock := k.paddock.map free }
/-- A release or discard taken off the fabric and applied. -/
def State.releaseStep (s : State) (ev : Instr) : State :=
  match SMap.get? s.packets s.subj.n with
  | none => s
  | some p =>
    if s.behind p then s.again ev
    else
      let s := s.dropPacket p.id
      match p.payload with
      | .migRelease core src serial discard =>
        (s.modStored core src serial discard).settled
      | _ => s
/-- MIGRATION_RELEASE (R286, R295): the stored context is admissible from the next cycle; the subject is the packet. -/
def execMigrationRelease (s : State) : Host.Outcome State Fault Refusal := .next (s.releaseStep .migrationRelease)
/-- MIGRATION_DISCARD (R288): the stored copy is dropped; the subject is the packet. -/
def execMigrationDiscard (s : State) : Host.Outcome State Fault Refusal := .next (s.releaseStep .migrationDiscard)
/-- A shadow entry has had no acknowledgement within 4,096 cycles of its departure. -/
def State.overdue (s : State) (h : Shadow) : Bool := decide (h.departed + 4096 ≤ s.cycle)
/-- LOST (R288): the subject is the core and the shadow entry. (DEDUCED, log 31.) -/
def execLost (s : State) : Host.Outcome State Fault Refusal :=
  let core := s.subj.n
  match (s.core core).shadows.find? fun h => h.serial == s.subj.m with
  | none => .next s
  | some h => if s.overdue h then .next (s.reenter core h 7) else .next s
/-- A move of a paddock's head into the arrival queue can begin. -/
def State.moveDue (s : State) (core : Nat) : Bool :=
  let k := s.core core
  k.moveDone.isNone && !k.paddock.isEmpty && decide (k.arrivals.length < s.arrivalLimit core)
/-- A move from the paddock begins; it takes 64 cycles. (DEDUCED, log 38.) -/
def State.beginMove (s : State) (core : Nat) : State :=
  if s.moveDue core then
    (s.modCore core fun k => { k with moveDone := some (s.cycle + 64) }).addTimer (s.cycle + 64) .paddockMove
      { n := core, m := s.cycle + 64 }
  else s
/-- PADDOCK_MOVE (R287): the moved context enters the queue, as the paddock's memory holds it; the subject is the core and the
cycle for which the move was set. -/
def execPaddockMove (s : State) : Host.Outcome State Fault Refusal :=
  let core := s.subj.n
  let k := s.core core
  if k.moveDone = some s.subj.m then
    match k.paddock with
    | [] => .next (s.modCore core fun k => { k with moveDone := none })
    | c :: rest =>
      .next (s.modCore core fun k =>
        { k with moveDone := none, paddock := rest, arrivals := k.arrivals ++ [{ s.fromPaddock core c with inAt := s.cycle }] })
  else .next s

/-! ### GARR and GWAIT (R290) -/

/-- The address of a group's barrier word, for a valid member of the group. -/
def State.groupAddress (s : State) (tk : Nat) (a : Word) : Option Nat :=
  if fld a 8 56 ≠ 0 then none
  else match s.task? (s.thread tk).task, s.launchOfThread tk with
    | some t, some l => if t.member.contains (fld a 0 8) then some (l.bars + 64 * fld a 0 8) else none
    | _, _ => none
/-- GARR and GWAIT ask the owner of the barrier word, or are refused. -/
def issueGroup (i : Instr) (e : Option Nat) (s : State) : Host.Outcome State Fault Refusal :=
  issue i noCheck (fun x s =>
    match s.groupAddress x.tk (x.val 1) with
    | none => s.setStatus x.tk 4
    | some ea =>
      s.waitThen i x (e.bind s.bound) fun w s =>
        (s.modWait x.tk fun w => { w with vals := w.vals.set 1 (word ea), stamp := 0 }).askOwner x.tk w ea 0 0
          (x.val 0).toNat) s
/-- GARR. -/
def execGarr (sm : Bool) (rd : Reg) (ra : Reg) (s : State) : Host.Outcome State Fault Refusal :=
  issueGroup (.garr sm rd ra) none s
/-- GWAIT. -/
def execGwait (sm : Bool) (rd : Reg) (ra : Reg) (t : BitVec 4) (s : State) : Host.Outcome State Fault Refusal :=
  issueGroup (.gwait sm rd ra t) (some t.toNat) s

/-! ### LAUNCH and SLOTS (R289, R291) -/

/-- LAUNCH: refused on a channel core. -/
def execLaunch (sm : Bool) (rd : Reg) (ra : Reg) (s : State) : Host.Outcome State Fault Refusal :=
  issue (.launch sm rd ra) noCheck (fun x s =>
    if isChannel x.core then s.setStatus x.tk 4 else s.beginWait (.launch sm rd ra) x none 0) s
/-- The .pattern entries of the object whose parameter block stands at an address (R343). (DEDUCED, log 46.) -/
def State.patternsOf (s : State) (root lpb : Nat) : List Pattern :=
  match s.pkg.objects.find? fun o => o.1 == root && o.2.1 == lpb with
  | some o => o.2.2
  | none => []
/-- The wait of a LAUNCH is over: its address is checked, and the entry enqueued. -/
def State.launchStep (s : State) (tk : Nat) (w : Wait) : State :=
  match w.instr with
  | .launch _ rd _ =>
    if s.fenceReady tk w then
      let a := (w.vals.getD 1 0).toNat
      match s.launchOfThread tk with
      | none => s.finishWait tk 4
      | some l =>
        if a % 64 ≠ 0 ∨ addrClass a ≠ .virtual then s.finishWait tk 4
        else if 64 ≤ s.disp.devQ.length then s.finishWait tk 2
        else
          let handle := 2 ^ 15 + s.disp.devSeq
          let r : LaunchReq :=
            { handle := handle, lpb := a, root := l.root, wpdie := l.wpdie, wpnode := l.wpnode
              patterns := s.patternsOf l.root a }
          let s := { s with disp := { s.disp with
            devQ := s.disp.devQ ++ [r], devSeq := (s.disp.devSeq + 1) % 32767 } }
          (s.writeGS tk rd (word handle)).finishWait tk 0
    else s
  | _ => s
/-- The snapshot of SLOTS: a context that is being moved out of the paddock counts in it no more. (DEDUCED, log 83.) -/
def State.slotsWord (s : State) (tk sel : Nat) : Word :=
  let core := coreOf tk
  let node := nodeOf core
  let k := s.core core
  match sel with
  | 0 => word (slotOf tk + at' 8 (coreInTeam core) + at' 10 (numOfNode node) + at' 16 (dieOfNode node) +
      at' 32 (match s.task? (s.thread tk).task with | some t => t.num | none => 0))
  | 1 => word (((List.range 64).filter fun z => s.slotFree core z).length + at' 8 k.arrivals.length +
      at' 16 (s.arrivalLimit core) + at' 21 (k.paddock.length - (if k.moveDone.isSome then 1 else 0)) +
      at' 32 k.shadows.length)
  | _ => match s.task? (s.thread tk).task with
    | some t => word (t.budget + at' 16 t.live)
    | none => 0
/-- SLOTS. -/
def execSlots (sm : Bool) (rd : Reg) (x : BitVec 3) (s : State) : Host.Outcome State Fault Refusal :=
  issue (.slots sm rd x) noCheck (fun y s => s.writeStatus y.tk rd (s.slotsWord y.tk x.toNat) 0) s

end Sys2Proof.Machine
end

