-- ==== Sys2Proof/Machine/Launch.lean ====
section
/-! DEFINITION. The dispatcher: taking launches, placing tasks and successors, and the end of a launch (R270 to R278,
R284, R343). -/

namespace Sys2Proof.Machine

/-! ### The launch parameter block (R270, R271, R278) -/

/-- A word's low bits and its other fields, all in the ranges of Table TH-1. (DESIGN CHOICE, log 27.) -/
def lpbOk (w : List Word) : Bool :=
  let f := fun n lo len => fld (w.getD n 0) lo len
  let x := f 0 0 24
  let y := f 0 24 24
  let groups := f 3 0 64
  decide (1 ≤ x) && decide (1 ≤ y) && decide (x * y < 2 ^ 32) && f 0 50 3 != 7 && f 0 60 4 == 0 &&
    f 1 0 4 == 0 &&
    decide (1 ≤ f 2 0 5) && decide (f 2 0 5 ≤ 16) && f 2 5 3 == 0 && decide (f 2 8 5 ≤ 16) && f 2 13 3 == 0 &&
    decide (f 2 16 4 ≤ 12) && f 2 20 12 == 0 && f 2 48 16 == 0 &&
    f 3 0 3 == 0 && f 4 0 3 == 0 && (f 4 0 64 == 0) == (groups == 0) &&
    f 6 29 34 == 0 && f 7 0 6 == 0 && (f 7 0 64 == 0) == (groups == 0)
/-- The completion target of a parameter block (R253, R270). -/
def lpbDone (w : List Word) : Word := word (fld (w.getD 6 0) 0 29)
/-- A launch with the fields of its parameter block. -/
def Launch.filled (l : Launch) (w : List Word) : Launch :=
  let f := fun n lo len => fld (w.getD n 0) lo len
  { l with
    x := f 0 0 24, y := f 0 24 24, trav := f 0 48 2, swz := f 0 50 3, s := (f 0 53 3 + 1) * 0x40000
    checked := f 0 56 1 == 1, prio := f 0 57 2, compat := f 0 59 1 == 1
    arr := if f 2 8 5 = 0 then 16 else f 2 8 5, spw := f 2 16 4, budget := f 2 32 16
    arg := w.getD 5 0, doneTarget := lpbDone w, notify := f 6 63 1 == 1, bars := f 7 0 64
    tasks := f 0 0 24 * f 0 24 24 }
/-- The slot-group records of a list's words (R271), if every one is well formed. -/
def slotGroups : List Word → Option (List SlotGroup)
  | a :: p :: rest =>
    if fld a 2 6 = 0 ∧ fld a 14 2 = 0 ∧ fld a 20 44 = 0 ∧ 1 ≤ fld a 8 6 ∧ 1 ≤ fld a 16 4 ∧ fld a 16 4 ≤ 12 ∧
        fld p 0 2 = 0 ∧ fld p 48 16 = 0 then
      (slotGroups rest).map fun l =>
        { core := fld a 0 2, count := fld a 8 6, w := 8 * fld a 16 4, pc := p.extractLsb' 0 48 } :: l
    else none
  | _ => some []
/-- The slots and window blocks that slot groups take on core c of a team. -/
def groupNeed (gs : List SlotGroup) (c : Nat) : Nat × Nat :=
  let mine := gs.filter fun g => g.core == c
  ((mine.map (·.count)).sum, (mine.map fun g => g.count * (g.w / 8)).sum)
/-- A slot group that some team of the partition could hold if it were empty but for the supervisor's window. -/
def State.groupFits (s : State) (l : Launch) (g : SlotGroup) : Bool :=
  (List.range 256).any fun n => !s.absent n && l.inPartition (dieOfNode n) (numOfNode n) &&
    (let sup := match SMap.get? (s.core (coreAt n g.core)).resv 0 with
        | some r => r.2 / 8
        | none => 0
      decide (g.count ≤ 63) && decide (g.count * (g.w / 8) + sup ≤ 256))
/-- Every slot group fits some team of the partition (R276). -/
def State.groupsFit (s : State) (l : Launch) (gs : List SlotGroup) : Bool := gs.all (s.groupFits l)
/-- A group table entry and a membership word without bits outside their fields (R278). -/
def tableOk (e : Word) : Bool := fld e 16 48 == 0
/-- A membership word's four entries have no other bits. -/
def memberOk (m : Word) : Bool := (List.range 4).all fun k => fld m (16 * k + 8) 7 == 0
/-- The groups that a membership word names. -/
def memberGroups (m : Word) : List Nat :=
  (List.range 4).filterMap fun k => if bitAt m (16 * k + 15) then some (fld m (16 * k) 8) else none
/-- The barrier words of the used groups written (R278), or none when one of them cannot be. (DESIGN CHOICE, log 27.) -/
def State.writeBarriers (s : State) (key bars : Nat) : List (Nat × Nat) → Option State
  | [] => some s
  | (g, expected) :: rest =>
    match s.translateNow key (bars + 64 * g) true with
    | .error _ => none
    | .ok t =>
      if s.targetCause t 64 ≠ 0 then none
      else
        (s.ownerWrite (Target.key t) (toBytes 64 (at' 32 expected))).writeBarriers key bars rest
/-- A launch checked as R276 asks, with its barrier words written; none when it is refused. (DESIGN CHOICE, log 27.) -/
def State.checkLaunch (s : State) (key : Nat) (w : List Word) (l : Launch) : Option State :=
  if !lpbOk w || !targetOk l.doneTarget || (l.notify && (s.absent (nodeAt (fld l.doneTarget 0 3) (fld l.doneTarget 8 6)) ||
      !l.inPartition (fld l.doneTarget 0 3) (fld l.doneTarget 8 6))) then none
  else
    match s.readDwords key (fld (w.getD 1 0) 0 64) (2 * fld (w.getD 2 0) 0 5) with
    | .error _ => none
    | .ok gw =>
      match slotGroups gw with
      | none => none
      | some gs =>
        if !((List.range 4).all fun c => decide ((groupNeed gs c).1 ≤ 63)) || !s.groupsFit l gs then none
        else
          let gtab := fld (w.getD 3 0) 0 64
          if gtab = 0 then some (s.modLaunch key fun _ => { l with groups := gs })
          else
            match s.readDwords key gtab 256, s.readDwords key (fld (w.getD 4 0) 0 64) l.tasks with
            | .ok tab, .ok mem =>
              if tab.all tableOk && mem.all memberOk then
                (s.writeBarriers key l.bars
                  ((tab.zipIdx.map fun e => (e.2, fld e.1 0 16)).filter fun e => e.2 != 0)).map fun s =>
                    s.modLaunch key fun _ => { l with groups := gs, members := mem }
              else none
            | _, _ => none
/-- A launch put among those taken. -/
def State.addLaunch (s : State) (key : Nat) (l : Launch) : State :=
  { s with disp := { s.disp with launches := SMap.put s.disp.launches key l, order := s.disp.order ++ [key] } }
/-- The dispatcher takes an entry: it reads the parameter block, which stands at a multiple of 64 on a translated page (R270),
and accepts or refuses the launch. (DEDUCED, log 26.) -/
def State.takeLaunch (s : State) (r : LaunchReq) : State :=
  let (key, s) := s.fresh
  let l : Launch :=
    { handle := r.handle, root := r.root, wpdie := r.wpdie, wpnode := r.wpnode, patterns := r.patterns, held := r.held
      preempted := r.held }
  let s := s.addLaunch key l
  match (if r.lpb % 64 = 0 ∧ addrClass r.lpb = .virtual then s.readDwords key r.lpb 8 else .error 4) with
  | .error _ => s.modLaunch key fun l => { l with refused := true }
  | .ok w =>
    let f := l.filled w
    match s.checkLaunch key w f with
    | some s => s
    | none => s.modLaunch key fun _ =>
        { l with refused := true, doneTarget := f.doneTarget, notify := f.notify && targetOk f.doneTarget }
/-- A launch still has a task to be placed. -/
def Launch.unplaced (l : Launch) : Bool := decide (l.nextTask < l.tasks) && !l.aborted && !l.refused
/-- The dispatcher can take the next launch: no earlier one has a task unplaced. -/
def State.canTake (s : State) : Bool :=
  (!s.disp.hostQ.isEmpty || !s.disp.devQ.isEmpty) &&
    !(s.disp.order.any fun k => match s.launch? k with | some l => l.unplaced | none => false)
/-- LAUNCH_TAKE (R276, R289): the host's launches in their order, or the head of the device launch queue. -/
def execLaunchTake (s : State) : Host.Outcome State Fault Refusal :=
  if s.canTake then
    match s.disp.hostQ, s.disp.devQ with
    | r :: rest, _ => .next ({ s with disp := { s.disp with hostQ := rest } }.takeLaunch r)
    | [], r :: rest => .next ({ s with disp := { s.disp with devQ := rest } }.takeLaunch r)
    | [], [] => .next s
  else .next s

/-! ### Traversal (R273) -/

/-- Bands of w rows: the task at place t of an X × Y space. -/
def bandAt (x y w t : Nat) : Nat × Nat :=
  let k := t / (w * x)
  let h := min w (y - w * k)
  let r := t - k * (w * x)
  (r / h, w * k + r % h)
/-- The even-numbered bits of a number, as many as the fuel. -/
def evenBits : Nat → Nat → Nat
  | 0, _ => 0
  | n + 1, d => d % 2 + 2 * evenBits n (d / 4)
/-- The Morton curve. -/
def mortonXY (d : Nat) : Nat × Nat := (evenBits 32 d, evenBits 32 (d / 2))
/-- The Hilbert curve, from m on. -/
def hilbertFrom : Nat → Nat → Nat → Nat → Nat → Nat → Nat × Nat
  | 0, _, x, y, _, _ => (x, y)
  | fuel + 1, n, x, y, q, m =>
    if m < n then
      let rx := q / 2 % 2
      let ry := (q % 2 + rx) % 2
      let (x, y) := if ry = 0 then
          (let (x, y) := if rx = 1 then (m - 1 - x, m - 1 - y) else (x, y)
           (y, x))
        else (x, y)
      hilbertFrom fuel n (x + m * rx) (y + m * ry) (q / 4) (2 * m)
    else (x, y)
/-- The Hilbert curve over an n × n square. -/
def hilbertXY (n d : Nat) : Nat × Nat := hilbertFrom 64 n 0 0 d 1
/-- The smallest power of two, from p on, that is at least m. -/
def powerFrom : Nat → Nat → Nat → Nat
  | 0, p, _ => p
  | fuel + 1, p, m => if m ≤ p then p else powerFrom fuel (2 * p) m
/-- The task at place t among blocks of w × w in curve order, from curve position d on. -/
def blockAt (curve : Nat → Nat × Nat) (x y w : Nat) : Nat → Nat → Nat → Nat × Nat
  | 0, _, _ => (0, 0)
  | fuel + 1, d, t =>
    let (bx, by') := curve d
    if x ≤ bx * w ∨ y ≤ by' * w then blockAt curve x y w fuel (d + 1) t
    else
      let bw := min w (x - bx * w)
      let bh := min w (y - by' * w)
      if t < bw * bh then (bx * w + t % bw, by' * w + t / bw)
      else blockAt curve x y w fuel (d + 1) (t - bw * bh)
/-- The coordinates of task t. -/
def Launch.coords (l : Launch) (t : Nat) : Nat × Nat :=
  let w := 2 ^ l.swz
  match l.trav with
  | 0 => bandAt l.x l.y w t
  | 1 => let (y, x) := bandAt l.y l.x w t; (x, y)
  | k =>
    let n := powerFrom 32 1 (max ((l.x + w - 1) / w) ((l.y + w - 1) / w))
    blockAt (if k = 2 then mortonXY else hilbertXY n) l.x l.y w (n * n) 0 t

/-! ### Placement (R274, R275, R277, R343) -/

/-- The slots and windows of one slot group: the first free slots in placement order, beside those already chosen. -/
def State.seatGroup (s : State) (node : Nat) (g : SlotGroup) (group : Nat) : Nat → List Seat → Option (List Seat)
  | 0, seats => some seats
  | n + 1, seats =>
    let core := coreAt node g.core
    let mine := seats.filter fun q => q.core == core
    match placementOrder.find? fun z => s.slotFree core z && s.unheld core z && !(mine.any fun q => q.slot == z) with
    | none => none
    | some z =>
      match freeBase (s.takenBlocks core ++ mine.map fun q => (q.base, q.w / 8)) (g.w / 8) with
      | none => none
      | some b =>
        s.seatGroup node g group n
          (seats ++ [{ core := core, slot := z, base := b, w := g.w, pc := g.pc, group := group, index := g.count - (n + 1) }])
/-- The slots and windows of all slot groups on a team, group after group. -/
def State.seatAll (s : State) (node : Nat) : List (SlotGroup × Nat) → List Seat → Option (List Seat)
  | [], seats => some seats
  | (g, k) :: rest, seats =>
    match s.seatGroup node g k g.count seats with
    | none => none
    | some seats => s.seatAll node rest seats
/-- Two entries with the same contents. -/
def JEntry.same (a b : JEntry) : Bool :=
  a.ports == b.ports && a.slot == b.slot && a.w == b.w && a.pc == b.pc && a.prio == b.prio
/-- The core holds the entry of a .pattern already, loaded by its launch's .pattern with the same contents (R343). -/
def State.keepsPattern (s : State) (key node : Nat) (p : Pattern) : Bool :=
  let old := (s.core (coreAt node p.core)).entry p.entry
  old.valid && old.pattern && old.owner == key && old.same p.e
/-- The entries that stand in the way of a .pattern entry, cleared as JPCLR clears them: the one at its index, if it is not
kept (R343), and those at other indexes that have reserved its slot with another W, for every entry that names a slot gives the
same W (R260) and the load is never refused (R343). (DESIGN CHOICE, log 84.) -/
def State.makeWay (s : State) (key node : Nat) (p : Pattern) : State :=
  if s.keepsPattern key node p then s
  else
    let core := coreAt node p.core
    (List.range 16).foldl (fun s e =>
      let x := (s.core core).entry e
      if e == p.entry || (x.valid && x.slot == p.e.slot && x.w != p.e.w) then s.clearEntry core e else s) s
/-- A .pattern entry loaded on a team whose way has been made (R343); none when its window finds no room. -/
def State.loadPattern (s : State) (key node : Nat) (p : Pattern) : Option State :=
  let core := coreAt node p.core
  if s.keepsPattern key node p then some s
  else
    (s.entryWindow core p.e.slot p.e.w).map fun win =>
      s.loadEntry core p.entry
        { p.e with valid := true, prio := p.e.prio % 4, pass := 0, owner := key, pattern := true, since := s.cycle } win
/-- .pattern entries loaded on a team, one after the other. -/
def State.loadEach (s : State) (key node : Nat) : List Pattern → Option State
  | [] => some s
  | p :: rest => match s.loadPattern key node p with
    | none => none
    | some s => s.loadEach key node rest
/-- All .pattern entries of a launch loaded on a team: what is in their way is cleared, then each is loaded (R343).
(DESIGN CHOICE, log 84.) -/
def State.loadPatterns (s : State) (key node : Nat) (l : List Pattern) : Option State :=
  (l.foldl (fun s p => s.makeWay key node p) s).loadEach key node l
/-- A team on which a task of a launch can be placed now, with the entries loaded and the seats found. -/
def State.tryTeam (s : State) (key : Nat) (l : Launch) (node : Nat) : Option (State × List Seat) :=
  let t := s.team node
  if s.absent node || !l.inPartition (dieOfNode node) (numOfNode node) || t.task.isSome || t.stopped ||
      (l.patterns.any fun p => (s.thread? (64 * coreAt node p.core + p.e.slot)).isSome) then none
  else match s.loadPatterns key node l.patterns with
    | none => none
    | some s => (s.seatAll node l.groups.zipIdx []).map fun seats => (s, seats)
/-- The teams in package row-major order, starting after a package team number (R274). -/
def teamOrder (last : Nat) : List Nat :=
  (List.range 256).map fun k => let n := (last + 1 + k) % 256; teamAt (n / 16) (n % 16)
/-- A team's package number: 16 × package row + package column. -/
def packageNumber (node : Nat) : Nat := 16 * teamRow node + teamCol node
/-- The launch whose task is placed next: the first that has a task unplaced, unless the pre-emption holds it; then none is
placed, for no task of a later launch is placed while an earlier one has a task unplaced (R274, R330). (DEDUCED, log 26.) -/
def State.nextLaunch (s : State) : Option (Nat × Launch) :=
  (s.disp.order.findSome? fun k => match s.launch? k with
    | some l => if l.unplaced then some (k, l) else none
    | none => none).filter fun e => !e.2.held
/-- The next placement that is possible: launch and team. (DEDUCED, log 26.) -/
def State.nextPlacement (s : State) : Option (Nat × Nat) :=
  match s.nextLaunch with
  | none => none
  | some (k, l) => ((teamOrder s.disp.lastTeam).find? fun n => (s.tryTeam k l n).isSome).map fun n => (k, n)
/-- A core's state at a launch start (R277): the ports whose messages remain are m31 and those of the .pattern entries that are
kept as they stand (R343; DEDUCED, log 28). The homes of its core ports keep their bindings (DESIGN CHOICE, log 90). -/
def Core.launched (c : Core) (kept : List Nat) : Core :=
  { c with
    cports := List.replicate 16 {}, roles := [{}, {}, {}, {}], tags := [{}, {}, {}, {}], copySeq := 0
    mports := (List.range 32).map fun p => if p = 31 then c.mport 31 else if kept.contains p then { msgs := (c.mport p).msgs } else {}
    spill := c.spill.filter fun e => e.1 == 31
    evt := c.evt &&& 0x300, feretry := 0x0404 }
/-- A team's state at a launch start (R12, R115, R173, R183, R277, R301). (DEDUCED, log 28.) -/
def Team.launched (t : Team) (key : Nat) (l : Launch) (task : Nat) : Team :=
  { t with
    s := l.s, task := some task, lastLaunch := some key, l1 := [], mx := { checked := l.checked }, vlast := 3
    domains := List.replicate 16 0 }
/-- The core of a neighbour key is on a team. -/
def keyOn (node k : Nat) : Bool := nodeOf (coreOf (nbrKeySlot k)) == node
/-- The state of a team and its cores at a launch start. (DEDUCED, log 28.) -/
def State.launchStart (s : State) (node key : Nat) (l : Launch) (task : Nat) : State :=
  let cores := (List.range 4).map fun c => coreAt node c
  let kept := fun k => (l.patterns.filter fun p => coreAt node p.core == k && s.keepsPattern key node p).flatMap fun p =>
    p.e.portList
  let s := s.modTeam node fun t => t.launched key l task
  let s := cores.foldl (fun s k => (((s.modCore k fun c => c.launched (kept k)).modThread (64 * k) fun th =>
    { th with launch := key }).settleOverflow k).settleHeld k) s
  { s with
    sregs := s.sregs.filter fun e => !cores.contains (e.1 / 16)
    spend := s.spend.filter fun e => !cores.contains (e.key / 16)
    nbr := s.nbr.filter fun e => !keyOn node e.1
    nbrPops := s.nbrPops.filter fun e => !keyOn node e.1
    nbrFree := s.nbrFree.filter fun e => !keyOn node e.1
    nbrSent := s.nbrSent.filter fun e => !keyOn node e.1
    nbrSync := s.nbrSync.filter fun e => !keyOn node e.1 }
/-- The slots and blocks of a task's threads held, and its placement begun; gated cores are woken. -/
def State.holdSeats (s : State) (task : Nat) (seats : List Seat) (arg : Word) : State :=
  let s := seats.foldl (fun s q => (s.modCore q.core fun c =>
    { c with holds := SMap.put c.holds q.slot (q.base, q.w) }).startUngate q.core) s
  { s with disp := { s.disp with placing := s.disp.placing ++ [{ task := task, todo := seats, arg := arg }] } }
/-- A task placed on a team (R274): the team's launch start, the .pattern entries, and the seats held. -/
def State.placeTask (s : State) (key : Nat) (l : Launch) (node : Nat) : State :=
  let (task, s) := s.fresh
  match (s.launchStart node key l task).loadPatterns key node l.patterns with
  | none => s
  | some s =>
    match s.seatAll node l.groups.zipIdx [] with
    | none => s
    | some seats =>
      let (x, y) := l.coords l.nextTask
      let t : Task :=
        { launch := key, num := l.nextTask, x := x, y := y, team := node, budget := l.budget, live := seats.length
          member := memberGroups (l.members.getD l.nextTask 0) }
      let s := { s with disp := { s.disp with tasks := SMap.put s.disp.tasks task t, lastTeam := packageNumber node } }
      let s := s.modLaunch key fun l => { l with
        nextTask := l.nextTask + 1, liveTasks := l.liveTasks + 1
        teams := if l.teams.contains node then l.teams else l.teams ++ [node] }
      s.holdSeats task seats l.arg
/-- TASK_PLACEMENT (R274). -/
def execTaskPlacement (s : State) : Host.Outcome State Fault Refusal :=
  match s.nextPlacement with
  | none => .next s
  | some (k, n) => match s.launch? k with
    | none => .next s
    | some l => .next (s.placeTask k l n)
/-- A core's allocator places the next thread of a task (R275, R281): all threads of the task may issue from the cycle
after the last is placed. -/
def State.placeSeat (s : State) (core : Nat) : State :=
  match s.nextSeat core with
  | none => s
  | some (p, q) =>
    match s.task? p.task with
    | none => { s with disp := { s.disp with placing := s.disp.placing.filter fun y => y.task != p.task } }
    | some t =>
      let tk := 64 * core + q.slot
      let regs := [word (t.x + at' 32 t.y), word (q.index + at' 8 q.group + at' 32 t.num), p.arg]
      let s := s.modCore core fun c => { c with holds := SMap.del c.holds q.slot }
      let s := s.placeThread tk
        { pc := q.pc, base := q.base, w := q.w, launch := t.launch, task := p.task, notBefore := 2 ^ 64 } regs
      let p := { p with todo := p.todo.erase q, placed := p.placed ++ [tk] }
      if p.todo.isEmpty then
        let s := p.placed.foldl (fun s k => s.modThread k fun th => { th with notBefore := s.cycle + 1 }) s
        { s with disp := { s.disp with placing := s.disp.placing.filter fun y => y.task != p.task } }
      else { s with disp := { s.disp with placing := s.disp.placing.map fun y => if y.task = p.task then p else y } }

/-! ### Successors (R284) -/

/-- The slot groups and argument of a successor block, if it passes its checks. -/
def State.successorOf (s : State) (l : Launch) (key a : Nat) : Option (List SlotGroup × Word) :=
  match s.readDwords key a 8 with
  | .error _ => none
  | .ok w =>
    let n := fld (w.getD 0 0) 0 64
    if n = 0 ∨ 16 < n ∨ fld (w.getD 1 0) 0 4 ≠ 0 ∨ ((w.drop 3).all (· == 0)) = false then none
    else match s.readDwords key (w.getD 1 0).toNat (2 * n) with
      | .error _ => none
      | .ok gw => match slotGroups gw with
        | none => none
        | some gs =>
          if ((List.range 4).all fun c => decide ((groupNeed gs c).1 ≤ 63)) && s.groupsFit l gs then some (gs, w.getD 2 0)
          else none
/-- SUCCESSOR (R284): the block is read, and the successor is placed on the held team as soon as it fits there, or
dropped. The subject is the task. (DEDUCED, log 29.) -/
def execSuccessor (s : State) : Host.Outcome State Fault Refusal :=
  let key := s.subj.n
  match s.task? key with
  | none => .next s
  | some t =>
    match s.launch? t.launch with
    | none => .next s
    | some l =>
      if t.ended && !l.held then
        match s.successorOf l t.launch t.succ with
        | none => .next ((s.modLaunch t.launch fun l => { l with dropped := l.dropped + 1 }).closeTask key)
        | some (gs, arg) =>
          match s.seatAll t.team gs.zipIdx [] with
          | none => .next s
          | some seats =>
            .next ((s.modTask key fun t =>
              { t with ended := false, succ := 0, live := seats.length, budget := l.budget }).holdSeats key seats arg)
      else .next s

/-! ### The end of a launch (R235, R260, R276, R277) -/

/-- A step that carries a neighbour value or a return to a slot of one of these teams. -/
def carriesTo (teams : List Nat) (mv : Move) : Bool :=
  match mv with
  | .ev .neighbourValueArrival j | .ev .neighbourReturn j => teams.contains (nodeOf (coreOf (nbrKeySlot j.n)))
  | _ => false
/-- A step that carries a neighbour value or a return that a thread of a launch has sent. -/
def carriesFrom (key : Nat) (mv : Move) : Bool :=
  match mv with
  | .ev .neighbourValueArrival j | .ev .neighbourReturn j => j.k == key
  | _ => false
/-- Something that a launch's threads or commands have sent has not taken effect. -/
def State.launchMoving (s : State) (key : Nat) : Bool :=
  (s.packets.any fun e => match e.2.payload with
    | .message _ _ _ _ _ _ k => k == key
    | .migrate _ c => c.launch == key
    | .flit 5 _ _ _ _ _ _ _ _ k => k == key
    | _ => false) ||
    (s.timers.any fun t => carriesFrom key t.mv) || (s.todo.any (carriesFrom key)) ||
    (s.reqs.any fun e => e.2.launch == key) ||
    (s.cores.any fun e =>
      (e.2.outq.any fun m => m.launch == key) || (e.2.copyQ.any fun c => c.launch == key) ||
        (e.2.bankQ.any fun c => c.launch == key) || (e.2.inbox.any (carriesFrom key)) ||
        (match e.2.bankRun with | some a => a.cmd.launch == key | none => false)) ||
    (s.engines.any fun e => e.2.active.any fun a => a.cmd.launch == key)
/-- A launch can end now. -/
def State.launchOver (s : State) (key : Nat) : Bool :=
  match s.launch? key with
  | none => false
  | some l =>
    !l.ended && (l.refused || l.aborted || decide (l.tasks ≤ l.nextTask)) && l.liveTasks == 0 && !l.held &&
      !s.launchMoving key
/-- The connectors of a launch stop. -/
def State.stopLaunchConns (s : State) (key : Nat) : State :=
  s.teams.foldl (fun s e =>
    (List.range 4).foldl (fun s c =>
      let x := s.conn e.1 c
      if x.launch = key ∧ x.loaded = true ∧ x.stopping = false then (s.stopConn e.1 c []).freeConn e.1 c else s) s) s
/-- The join-pattern entries of a launch on a core cleared, but for slot 0. -/
def State.clearEntries (s : State) (core key : Nat) : State :=
  (List.range 16).foldl (fun s e =>
    let x := (s.core core).entry e
    if x.valid ∧ x.owner = key ∧ x.slot ≠ 0 then s.clearEntry core e else s) s
/-- The items of a channel core that a launch's threads set return to their reset values. -/
def Core.untagged (c : Core) (key : Nat) : Core :=
  { c with
    cports := c.cports.map fun x => if x.owner = key then {} else x
    roles := c.roles.map fun q => if q.owner = key then {} else q
    tags := c.tags.map fun p => if p.owner = key then {} else p
    mports := c.mports.map fun q => if q.owner = key then { q with owned := false, ownerSlot := 0, owner := 0 } else q }
/-- LAUNCH_END (R276): the subject is the launch. -/
def execLaunchEnd (s : State) : Host.Outcome State Fault Refusal :=
  let key := s.subj.n
  match s.launch? key with
  | none => .next s
  | some l =>
    if s.launchOver key then
      let s := s.stopLaunchConns key
      let s := l.teams.foldl (fun s n => (List.range 4).foldl (fun s c => s.clearEntries (coreAt n c) key) s) s
      let s := s.cores.foldl (fun s e => if isChannel e.1 then (s.clearEntries e.1 key).modCore e.1 fun c => c.untagged key else s) s
      let s := { s with disp := { s.disp with order := s.disp.order.filter (· != key) } }
      let s := s.modLaunch key fun l => { l with ended := true }
      if l.notify then
        .next (s.sendMessage ioNode (targetCore l.doneTarget) (targetPort l.doneTarget) (word (l.handle % 65536))
          (word (l.dropped % 65536 + at' 63 (bit l.refused))) false 0 0)
      else .next s
    else .next s

end Sys2Proof.Machine
end

