-- ==== Sys2Proof/Machine/CopyBank.lean ====
section
/-! DEFINITION. Copy and bank engines, op 0x3A (R296 to R312). -/

namespace Sys2Proof.Machine

/-! ### Command words (R38, R296 to R298, R307, R308) -/

/-- Word n of a command. -/
def cw (c : List Word) (n : Nat) : Word := c.getD n 0
/-- The kind of a copy command. -/
def cpKind (c : List Word) : Nat := fld (cw c 0) 60 4
/-- Its element format. -/
def cpFmt (c : List Word) : Nat := fld (cw c 0) 56 4
/-- Its reduction operation. -/
def cpRop (c : List Word) : Nat := fld (cw c 0) 54 2
/-- It is sequenced (R301). -/
def cpSeq (c : List Word) : Bool := bitAt (cw c 0) 53
/-- Its sequence domain. -/
def cpDom (c : List Word) : Nat := fld (cw c 1) 32 4
/-- Its number in the domain. -/
def cpNum (c : List Word) : Nat := fld (cw c 1) 36 16
/-- The bytes of an element of kind 3. -/
def cpElem (c : List Word) : Nat := widthOf (cpFmt c) / 8
/-- The tag of a command. -/
def cmdTag (c : List Word) : Nat := fld (cw c 3) 32 16
/-- A completion message is asked for. -/
def cmdNotify (c : List Word) : Bool := bitAt (cw c 3) 29
/-- Its target. -/
def cmdTarget (c : List Word) : Word := word (fld (cw c 3) 0 29)
/-- The full address of a compact address's low 49 bits (R296). -/
def fullAddress (w : Word) : Nat :=
  if bitAt w 48 then 0xE1 * 2 ^ 56 + fld w 45 3 * 2 ^ 53 + fld w 39 6 * 2 ^ 47 + fld w 0 21 else fld w 0 48
/-- The window part of a compact address is well formed. -/
def compactOk (w : Word) : Bool :=
  !bitAt w 48 || (fld w 21 18 == 0 && (decide (fld w 45 3 < 4) || decide (fld w 39 6 < 48)))
/-- Word 0 of a copy command (R298). -/
def copyOk0 (c : List Word) : Bool :=
  let w := cw c 0
  decide (cpKind c ≤ 3) && fld w 49 2 == 0 && compactOk w &&
    (if cpKind c = 3 then
      (cpFmt c == 1 || cpFmt c == 2 || cpFmt c == 3 || cpFmt c == 8) && cpRop c != 3 && bitAt w 48 &&
        decide (fld w 45 3 < 4) && fld w 0 21 % cpElem c == 0
     else cpFmt c == 0 && cpRop c == 0 && !cpSeq c)
/-- Word 1 (R297, R298), with the scratchpad size of the pushing team. -/
def copyOk1 (size : Nat) (c : List Word) : Bool :=
  let w := cw c 1
  match cpKind c with
  | 0 => decide (1 ≤ fld w 0 32) && fld w 32 32 == 0
  | 1 => decide (1 ≤ fld w 0 16) && decide (1 ≤ fld w 16 16)
  | 2 =>
    let isz := if bitAt w 20 then 8 else 4
    decide (1 ≤ fld w 0 16) && decide (fld w 16 4 ≤ 12) && fld w 21 1 == 0 && fld w 43 21 == 0 &&
      fld w 22 21 % isz == 0 && decide (fld w 22 21 + fld w 0 16 * isz ≤ size)
  | _ => fld w 0 32 % cpElem c == 0 && fld w 52 12 == 0 && (cpSeq c || fld w 32 20 == 0)
/-- Word 2. -/
def copyOk2 (c : List Word) : Bool := cpKind c != 3 || (cw c 2).toNat % cpElem c == 0
/-- Word 3, for the pushing thread; `x` for CPYX. -/
def State.copyOk3 (s : State) (tk : Nat) (c : List Word) (x : Bool) : Bool :=
  fld (cw c 3) 30 2 == 0 && fld (cw c 3) 48 16 == 0 && !(cmdNotify c && s.targetRefused tk (cmdTarget c)) &&
    (!x || fld (cw c 3) 0 30 == 0)
/-- The first faulty word of a copy command. -/
def State.copyFault (s : State) (tk : Nat) (c : List Word) (x : Bool) : Option Nat :=
  if !copyOk0 c then some 0
  else if !copyOk1 (s.team (nodeOf (coreOf tk))).s c then some 1
  else if !copyOk2 c then some 2
  else if !s.copyOk3 tk c x then some 3
  else none
/-- The operation of a bank command: 0 a product, 1 to 3 a table load. -/
def bmOp (c : List Word) : Nat := fld (cw c 3) 62 2
/-- Its tile rows. -/
def bmRows (c : List Word) : Nat := fld (cw c 0) 51 9
/-- Its tile columns. -/
def bmCols (c : List Word) : Nat := fld (cw c 0) 42 9
/-- Its matrix format. -/
def bmFmt (c : List Word) : Nat := fld (cw c 0) 60 4
/-- The format of its vector (word 1) or result (word 2). -/
def bmElem (c : List Word) (n : Nat) : Nat := fld (cw c n) 60 4
/-- A vector or result location of n elements (R307, R308). (DEDUCED, log 37.) -/
def bankPlaceOk (w : Word) (n : Nat) : Bool :=
  let size := widthOf (fld w 60 4) / 8
  (fld w 60 4 == 1 || fld w 60 4 == 2 || fld w 60 4 == 3) &&
    (if bitAt w 48 then compactOk w && fld w 0 21 % size == 0
     else fld w 19 29 == 0 && fld w 0 19 % size == 0 && decide (fld w 0 19 + n * size ≤ 0x80000))
/-- The first faulty word of a bank command (R308). (DEDUCED, log 37.) -/
def State.bankFault (s : State) (tk : Nat) (c : List Word) : Option Nat :=
  let load := bmOp c != 0
  let f := bmFmt c
  if !(if load then f == 4 && bmRows c == 0 && bmCols c == 0
       else (f == 2 || f == 3 || f == 4) && decide (1 ≤ bmRows c) && decide (1 ≤ bmCols c)) then some 0
  else if !(if load then cw c 1 == 0 else fld (cw c 1) 49 11 == 0 && bankPlaceOk (cw c 1) (16 * bmCols c)) then some 1
  else if !(if load then cw c 2 == 0 else fld (cw c 2) 49 10 == 0 && bankPlaceOk (cw c 2) (16 * bmRows c)) then some 2
  else if !(fld (cw c 3) 30 2 == 0 && fld (cw c 3) 48 14 == 0 && !(cmdNotify c && s.targetRefused tk (cmdTarget c))) then some 3
  else none
/-- The trap of a faulty command word (R40). -/
def commandCheck (i : Instr) (x : Issue) (f : Option Nat) : Check :=
  match f with
  | some n => .trap 1 (16 + n) (wordReport x.pre (encode i))
  | none => .go

/-! ### Pushing (R305, R306, R310) -/

/-- A command of a thread with its sequence number. -/
def State.command (s : State) (tk : Nat) (pc : BitVec 48) (c : List Word) (seq wid : Nat) : Cmd × State :=
  let (id, s) := s.fresh
  ({ id := id, words := c, tk := tk, pc := pc, seq := seq, gen := s.slotGen tk, launch := s.tagOf tk, stamp := id
     wid := wid }, s)
/-- A copy command enqueued (R296). -/
def State.pushCopy (s : State) (tk : Nat) (pc : BitVec 48) (c : List Word) (wid : Nat) : State :=
  let core := coreOf tk
  let (m, s) := s.command tk pc c (s.core core).copySeq wid
  s.modCore core fun k => { k with copyQ := k.copyQ ++ [m], copySeq := (k.copySeq + 1) % 65536 }
/-- A bank command enqueued (R307, R310). -/
def State.pushBank (s : State) (tk : Nat) (pc : BitVec 48) (c : List Word) : State :=
  let core := coreOf tk
  let (m, s) := s.command tk pc c (s.core core).bankSeq 0
  (s.modCore core fun k => { k with bankQ := k.bankQ ++ [m], bankSeq := (k.bankSeq + 1) % 65536 }).modThread tk fun th =>
    { th with bankCount := th.bankCount + 1 }
/-- A core's copy FIFO has a free entry. -/
def State.copyRoom (s : State) (core : Nat) : Bool := decide ((s.core core).copyQ.length < 4)
/-- A channel core's bank FIFO has a free entry. -/
def State.bankRoom (s : State) (core : Nat) : Bool := decide ((s.core core).bankQ.length < 8)
/-- A thread of the core already waits to push: another's push then waits behind it (DESIGN CHOICE, log 105). -/
def State.pushWaiting (s : State) (core : Nat) : Bool :=
  (s.waitsOf core).any fun e => e.2.stage == 0 && match e.2.instr with
    | .cpys _ _ _ _ | .cpyx _ _ _ _ | .bmv _ _ _ _ => true
    | _ => false
/-- CPY (R305): never waits. -/
def execCpy (sm : Bool) (rd : Reg) (ra : Reg) (s : State) : Host.Outcome State Fault Refusal :=
  let i : Instr := .cpy sm rd ra
  issue i (fun x s => commandCheck i x (s.copyFault x.tk (s.readQuad x.tk ra) false)) (fun x s =>
    if s.copyRoom x.core then
      (s.pushCopy x.tk x.pc (s.readQuad x.tk ra) 0).writeStatus x.tk rd (word (s.core x.core).copySeq) 0
    else s.setStatus x.tk 2) s
/-- CPYS (R305): the command stays in the wait while there is no room. -/
def execCpys (sm : Bool) (rd : Reg) (ra : Reg) (t : BitVec 4) (s : State) : Host.Outcome State Fault Refusal :=
  let i : Instr := .cpys sm rd ra t
  issue i (fun x s => commandCheck i x (s.copyFault x.tk (s.readQuad x.tk ra) false)) (fun x s =>
    let c := s.readQuad x.tk ra
    if s.copyRoom x.core && !s.pushWaiting x.core then
      (s.pushCopy x.tk x.pc c 0).writeStatus x.tk rd (word (s.core x.core).copySeq) 0
    else (s.beginWait i x (s.bound t.toNat) 0).modWait x.tk fun w => { w with vals := c }) s
/-- A waiting CPYX has pushed its command: it waits for its completion. -/
def State.pushedX (s : State) (tk : Nat) (seq : Nat) : State :=
  s.modWait tk fun w => { w with stage := 1, count := seq }
/-- CPYX (R306). -/
def execCpyx (sm : Bool) (rd : Reg) (ra : Reg) (t : BitVec 4) (s : State) : Host.Outcome State Fault Refusal :=
  let i : Instr := .cpyx sm rd ra t
  issue i (fun x s => commandCheck i x (s.copyFault x.tk (s.readQuad x.tk ra) true)) (fun x s =>
    let c := s.readQuad x.tk ra
    let free := s.copyRoom x.core && !s.pushWaiting x.core
    s.waitThen i x (s.bound t.toNat) fun w s =>
      let s := s.modWait x.tk fun w => { w with vals := c }
      if free then (s.pushCopy x.tk x.pc c w.id).pushedX x.tk (s.core x.core).copySeq else s) s
/-- BMV (R310). -/
def execBmv (sm : Bool) (rd : Reg) (ra : Reg) (t : BitVec 4) (s : State) : Host.Outcome State Fault Refusal :=
  let i : Instr := .bmv sm rd ra t
  issue i (fun x s => commandCheck i x (s.bankFault x.tk (s.readQuad x.tk ra))) (fun x s =>
    let c := s.readQuad x.tk ra
    if s.bankRoom x.core && !s.pushWaiting x.core then
      (s.pushBank x.tk x.pc c).writeStatus x.tk rd (word (s.core x.core).bankSeq) 0
    else (s.beginWait i x (s.bound t.toNat) 0).modWait x.tk fun w => { w with vals := c }) s
/-- BFENCE (R311). -/
def execBfence (sm : Bool) (t : BitVec 4) (s : State) : Host.Outcome State Fault Refusal :=
  issue (.bfence sm t) noCheck (fun x s => s.beginWait (.bfence sm t) x (s.bound t.toNat) 0) s
/-- A parked CPYS, CPYX or BMV pushes when there is room, and a parked BFENCE whose count is 0 completes. -/
def State.engineStep (s : State) (tk : Nat) (w : Wait) : State :=
  let core := coreOf tk
  let pc := (s.thread tk).pc
  match w.instr with
  | .cpys _ rd _ _ =>
    if s.copyRoom core then ((s.pushCopy tk pc w.vals 0).writeGS tk rd (word (s.core core).copySeq)).finishWait tk 0 else s
  | .cpyx _ _ _ _ =>
    if w.stage = 0 ∧ s.copyRoom core = true then (s.pushCopy tk pc w.vals w.id).pushedX tk (s.core core).copySeq else s
  | .bmv _ rd _ _ =>
    if s.bankRoom core then ((s.pushBank tk pc w.vals).writeGS tk rd (word (s.core core).bankSeq)).finishWait tk 0 else s
  | .bfence _ _ =>
    if (s.thread tk).bankCount = 0 then
      (s.modThread tk fun th => { th with bankFault := false }).finishWait tk (if (s.thread tk).bankFault then 6 else 0)
    else s
  | _ => s
/-- ENGINE_PUSH_TIMEOUT (R305, R306, R310): the subject is the thread and its wait. -/
def execEnginePushTimeout (s : State) : Host.Outcome State Fault Refusal :=
  let tk := s.subj.n
  match (s.thread tk).wait? with
  | none => .next s
  | some w =>
    if w.id ≠ s.subj.m then .next s
    else match w.instr with
      | .cpyx _ rd _ _ =>
        .next ((if w.stage = 1 then s.writeGS tk rd (word w.count) else s).finishWait tk 1)
      | _ => .next (s.finishWait tk 1)
/-- BFENCE_TIMEOUT (R311): the flag is left as it is; the subject is the thread and its wait. -/
def execBfenceTimeout (s : State) : Host.Outcome State Fault Refusal :=
  match (s.thread s.subj.n).wait? with
  | none => .next s
  | some w => if w.id ≠ s.subj.m then .next s else .next (s.finishWait s.subj.n 1)

/-! ### Accesses of the engines (R128, R296) -/

/-- An access of n bytes of one line by the engine command numbered id, translated through the pushing node's TLB (R129, R296); a
write, or a read that is part of an update, with its redirection (R313). A page that is not in the TLB has cause 4. -/
def State.engineXlat (s : State) (node key id ea n : Nat) (write : Bool) (update : Bool := write) : Except Nat Target :=
  match s.translate node key ea write with
  | .fault c => .error c
  | .miss => .error 4
  | .ok t =>
    let t := if update then s.redirect id n t else t
    if s.targetCause t n ≠ 0 then .error (s.targetCause t n)
    else if !write && s.poisoned t n then .error 9
    else .ok t
/-- An engine's access that fails waits for a table walk of its page, which goes to the die's walker (R129), unless its page is in
the TLB or has been walked to no leaf: then the access is a fault, and the answer is none. (DEDUCED, log 13.) -/
def State.engineWalks (s : State) (node : Nat) (a : Active) (f : Nat × Nat) : Option State :=
  if f.1 == 4 && s.translate node a.cmd.launch f.2 false == .miss && a.noLeaf != some (f.2 / 65536) then
    some (s.startWalk node a.cmd.launch f.2 a.cmd.id)
  else none
/-- The bytes from an address to the end of its line, at most n. -/
def toLineEnd (ea n : Nat) : Nat := min n (64 - ea % 64)
/-- A target n bytes on in its line. -/
def Target.plus (t : Target) (n : Nat) : Target :=
  match t with
  | .line pa d c r => .line (pa + n) d c r
  | .bank pa d c => .bank (pa + n) d c
  | .host ha => .host (ha + n)
  | .window node off => .window node (off + n)
  | .peer pa r => .peer (pa + n) r
/-- The bytes of an SRAM that an engine accesses at a target, by the banks that hold them (R95). -/
def Target.banks (t : Target) (n : Nat) : List Nat :=
  match t with
  | .window node off => banksOf node off n
  | _ => []
/-- What an engine's access does to the L2 slice of its line (R120, R122, R297). -/
def State.engineTouch (s : State) (t : Target) (hint : Nat) (write : Bool) : State :=
  match t with
  | .line pa die _ _ => s.l2Touch (sliceUnder s.pkg.bucketMaps pa die) t (t.hint hint) write false
  | _ => s
/-- An engine's write of bytes of one line. -/
def State.engineWrite (s : State) (t : Target) (bs : List Byte) (hint : Nat) : State :=
  (s.ownerWrite (Target.key t) bs).engineTouch t hint true
/-- The set of a target's line has no room for it at present (R121). -/
def State.engineFull (s : State) (t : Target) (hint : Nat) : Bool :=
  match t with
  | .line pa die _ _ => s.l2Full (sliceUnder s.pkg.bucketMaps pa die) t (t.hint hint)
  | _ => false
/-- Bytes written by an engine, with the lines that its read and its write touch; none while a line has no room (R121). -/
def State.engineMove (s : State) (from' to' : Target) (bs : List Byte) (hint : Nat) : Option State :=
  let t := s.engineTouch from' hint false
  if s.engineFull from' hint || (t.ownerWrite (Target.key to') bs).engineFull to' hint then none
  else some (t.engineWrite to' bs hint)

/-! ### Copy engines (R296, R299 to R301) -/

/-- The core whose FIFO is the k-th of an engine, in the order of R296. -/
def engineCore (e k : Nat) : Nat := coreAt (64 * (e / 32) + 2 * (e % 32) + k / 4) (k % 4)
/-- The engine of a core. -/
def engineOf (core : Nat) : Nat := nodeOf core / 2
/-- A copy engine. -/
def State.engine (s : State) (e : Nat) : CopyEngine := SMap.getD s.engines e {}
/-- A copy engine changed. -/
def State.modEngine (s : State) (e : Nat) (f : CopyEngine → CopyEngine) : State :=
  { s with engines := SMap.put s.engines e (f (s.engine e)) }
/-- The team of a copy's destination window. -/
def cpTeam (c : List Word) : Nat := nodeAt (fld (cw c 0) 45 3) (fld (cw c 0) 39 6)
/-- A sequenced command that has not had its answer waits for the destination's counter. -/
def Cmd.gatedBy (m : Cmd) : Bool := cpKind m.words == 3 && cpSeq m.words && !m.admitted
/-- The domain counter that a sequenced command means: its destination team's, or the one in the image of a team that has been
saved since (R301, R313). -/
def State.domainOf (s : State) (m : Cmd) : Nat :=
  match s.savedTeam (cpTeam m.words) m.id with
  | some (l, i, _) => s.savedDomain l i (cpDom m.words)
  | none => (s.team (cpTeam m.words)).domains.getD (cpDom m.words) 0
/-- The destination can answer that a core's waiting head has the number of its domain (R301). -/
def State.domainReady (s : State) (core : Nat) : Bool :=
  match (s.core core).copyQ with
  | [] => false
  | m :: _ => m.gatedBy && s.domainOf m == cpNum m.words
/-- DOMAIN_ANSWER (R301): the subject is the core whose FIFO's head waits. -/
def execDomainAnswer (s : State) : Host.Outcome State Fault Refusal :=
  let core := s.subj.n
  if s.domainReady core then
    .next (s.modCore core fun k => { k with copyQ := match k.copyQ with
      | [] => []
      | m :: rest => { m with admitted := true } :: rest })
  else .next s
/-- The FIFO that an engine grants next (R296). -/
def State.copyNext (s : State) (e : Nat) : Option (Nat × Cmd) :=
  let g := s.engine e
  if 4 ≤ g.active.length then none
  else (List.range 8).findSome? fun j =>
    let k := (g.last + 1 + j) % 8
    let core := engineCore e k
    match (s.core core).copyQ with
    | [] => none
    | m :: _ => if m.gatedBy || (s.team (nodeOf core)).stopped then none else some (k, m)
/-- COPY_GRANT (R296): the subject is the engine. -/
def execCopyGrant (s : State) : Host.Outcome State Fault Refusal :=
  let e := s.subj.n
  match s.copyNext e with
  | none => .next s
  | some (k, m) =>
    .next ((s.modCore (engineCore e k) fun c => { c with copyQ := c.copyQ.tail }).modEngine e fun g =>
      { g with last := k, active := g.active ++ [{ cmd := m }] })
/-- The number of pieces of a copy: rows or elements; all of kind 0 is one. -/
def cpPieces (c : List Word) : Nat :=
  match cpKind c with
  | 0 => 1
  | 1 => fld (cw c 1) 16 16
  | 2 => fld (cw c 1) 0 16
  | _ => fld (cw c 1) 0 32 / cpElem c
/-- The bytes of a piece. -/
def cpSize (c : List Word) : Nat :=
  match cpKind c with
  | 0 => fld (cw c 1) 0 32
  | 1 => fld (cw c 1) 0 16
  | 2 => 2 ^ fld (cw c 1) 16 4
  | _ => cpElem c
/-- The scratchpad offset and the bytes of index i of a gather. -/
def cpIndexAt (c : List Word) (i : Nat) : Nat × Nat :=
  let isz := if bitAt (cw c 1) 20 then 8 else 4
  (fld (cw c 1) 22 21 + i * isz, isz)
/-- The index of element i of a gather, from the pushing team's scratchpad. -/
def State.cpIndex (s : State) (node : Nat) (c : List Word) (i : Nat) : Nat :=
  s.readAt (sramKey node (cpIndexAt c i).1) (cpIndexAt c i).2
/-- Where piece i of a copy is read, modulo 2^64. -/
def State.cpSource (s : State) (node : Nat) (c : List Word) (i : Nat) : Nat :=
  let src := (cw c 2).toNat
  match cpKind c with
  | 0 => src % 2 ^ 64
  | 1 => (src + 16 * fld (cw c 1) 32 16 * i) % 2 ^ 64
  | 2 => (src + s.cpIndex node c i * cpSize c) % 2 ^ 64
  | _ => (src + i * cpElem c) % 2 ^ 64
/-- Where piece i of a copy is written, modulo 2^64. -/
def cpDest (c : List Word) (i : Nat) : Nat :=
  match cpKind c with
  | 0 => fullAddress (cw c 0) % 2 ^ 64
  | 1 => (fullAddress (cw c 0) + 16 * fld (cw c 1) 48 16 * i) % 2 ^ 64
  | _ => (fullAddress (cw c 0) + i * cpSize c) % 2 ^ 64
/-- The bytes of one step of a copy: at most `room` of the n that are left, within one line of the source and one of the
destination. -/
def chunkSize (room src dst n : Nat) : Nat := min room (toLineEnd src (toLineEnd dst n))
/-- n bytes of a row or element, in ascending order, with their targets, or the first fault: at each byte the source comes before
the destination (R299). -/
def State.rowPlan (s : State) (node : Nat) (m : Cmd) :
    Nat → Nat → Nat → Nat → Except (Nat × Nat) (List (Nat × Target × Target))
  | 0, _, _, _ => .ok []
  | fuel + 1, src, dst, n =>
    if n = 0 then .ok []
    else
      let src := src % 2 ^ 64
      let dst := dst % 2 ^ 64
      let k := chunkSize n src dst n
      match s.engineXlat node m.launch m.id src k false, s.engineXlat node m.launch m.id dst k true with
      | .error c, _ => .error (c, src)
      | _, .error c => .error (c, dst)
      | .ok x, .ok y => (s.rowPlan node m fuel (src + k) (dst + k) (n - k)).map fun l => (k, x, y) :: l
/-- The retention hint of a copy's global accesses (Table FM-15). -/
def cpRet (c : List Word) : Nat := fld (cw c 0) 51 2
/-- An active command of an engine changed. -/
def State.modActive (s : State) (e cid : Nat) (f : Active → Active) : State :=
  s.modEngine e fun g => { g with active := g.active.map fun a => if a.cmd.id = cid then f a else a }
/-- A command's last write is done: it is complete when its acknowledgements have come. -/
def State.wrote (s : State) (e cid : Nat) : State :=
  let (d, s) := s.delay
  s.modActive e cid fun a => { a with finished := true, readAt := s.cycle + 1 + d }
/-- A command stops at a fault, or waits for a table walk. -/
def State.copyStops (s : State) (e : Nat) (a : Active) (f : Nat × Nat) : State :=
  match s.engineWalks (nodeOf (coreOf a.cmd.tk)) a f with
  | some s => s
  | none => ((s.logCause a.cmd.launch f.2 f.1).modActive e a.cmd.id fun b => { b with fault := f.1, addr := word f.2 }).wrote e a.cmd.id
/-- What a copy of kinds 0 to 2 moves next, from byte j of piece i on (R299): a copy of kind 0 stops at its first faulting byte; a row
or element is checked whole at its start, when a gather's index is read, and its bytes go where it was checked.
(DEDUCED, log 35.) -/
def State.copyPlan (s : State) (a : Active) (i j : Nat) : Except (Nat × Nat) (List (Nat × Target × Target)) :=
  let c := a.cmd.words
  let node := nodeOf (coreOf a.cmd.tk)
  let src := s.cpSource node c i
  if cpKind c = 0 then s.rowPlan node a.cmd 1 (src + j) (cpDest c i + j) (cpSize c - j)
  else if j ≠ 0 then .ok a.plan
  else if cpKind c = 2 ∧ src % cpSize c ≠ 0 then .error (2, src)
  else s.rowPlan node a.cmd (cpSize c) src (cpDest c i) (cpSize c)
/-- The next bytes of a copy of kinds 0 to 2 moved, up to `room` of them (R299). The answer is the number of bytes moved, 0 when
the copy has come to its end or to a fault, or waits for a table walk, an engine port or a line's place.
(DEDUCED, log 35.) -/
def State.copyChunk (s : State) (e : Nat) (a : Active) (room : Nat) : Nat × State :=
  let c := a.cmd.words
  let node := nodeOf (coreOf a.cmd.tk)
  let i := a.pos / cpSize c
  let j := a.pos % cpSize c
  if cpPieces c * cpSize c ≤ a.pos then (0, s.wrote e a.cmd.id)
  else
    let index := if j = 0 ∧ cpKind c = 2 then banksOf node (cpIndexAt c i).1 (cpIndexAt c i).2 else []
    match s.copyPlan a i j with
    | .error f => (0, s.copyStops e a f)
    | .ok [] => (0, s)
    | .ok ((m, from', to') :: rest) =>
      let n := min room m
      let to' := s.redirect a.cmd.id n to'
      let left := if n = m then rest else (m - n, from'.plus n, to'.plus n) :: rest
      match s.askPorts .copy a.cmd.id (index ++ from'.banks n ++ to'.banks n) with
      | (false, s) => (0, s)
      | (true, s) =>
        match s.engineMove from' to' (s.localBytes (Target.key from') n) (cpRet c) with
        | none => (0, s)
        | some s => (n, s.modActive e a.cmd.id fun a => { a with pos := a.pos + n, plan := left, written := a.written + n })
/-- Bytes of a copy moved, up to `room` of them. -/
def State.copyBytes (s : State) (e cid : Nat) : Nat → Nat → State
  | 0, _ => s
  | fuel + 1, room =>
    match (s.engine e).active.find? fun a => a.cmd.id == cid with
    | none => s
    | some a =>
      if room = 0 then s
      else match s.copyChunk e a room with
        | (0, t) => t
        | (n, t) => t.copyBytes e cid fuel (room - n)
/-- The new value of a reduced element (R300). -/
def reduced (c : List Word) (d x : Nat) : Nat :=
  match cpRop c with
  | 0 => laneArith (cpFmt c) Val.add (· + ·) d x
  | 1 => pickOf (cpFmt c) false d x
  | _ => pickOf (cpFmt c) true d x
/-- A command whose number is used up moves its domain's counter on (R301), in the image of a team that has been saved since
(R313). (DEDUCED, log 36.) -/
def State.passDomain (s : State) (m : Cmd) : State :=
  let c := m.words
  if cpSeq c then
    match s.savedTeam (cpTeam c) m.id with
    | some (l, i, _) => s.modSaved l i (enterDomain (cpDom c) (cpNum c + 1))
    | none => s.modTeam (cpTeam c) fun t => { t with domains := t.domains.set (cpDom c) ((cpNum c + 1) % 65536) }
  else s
/-- A reduction stops at a fault, or waits for a table walk. -/
def State.reduceStops (s : State) (e : Nat) (a : Active) (f : Nat × Nat) : State :=
  match s.engineWalks (nodeOf (coreOf a.cmd.tk)) a f with
  | some s => s
  | none => (s.passDomain a.cmd).copyStops e a f
/-- REDUCE_UPDATE (R300, R301): the next element of a kind-3 command; the subject is the engine and the command. -/
def execReduceUpdate (s : State) : Host.Outcome State Fault Refusal :=
  let e := s.subj.n
  match (s.engine e).active.find? fun a => a.cmd.id == s.subj.m with
  | none => .next s
  | some a =>
    let c := a.cmd.words
    let node := nodeOf (coreOf a.cmd.tk)
    if a.finished || cpKind c != 3 then .next s
    else if cpPieces c ≤ a.pos then .next ((s.passDomain a.cmd).wrote e a.cmd.id)
    else
      let src := s.cpSource node c a.pos
      let dst := cpDest c a.pos
      let n := cpElem c
      match s.engineXlat node a.cmd.launch a.cmd.id src n false, s.engineXlat node a.cmd.launch a.cmd.id dst n true with
      | .error x, _ => .next (s.reduceStops e a (x, src))
      | _, .error x => .next (s.reduceStops e a (x, dst))
      | .ok from', .ok to' =>
        match s.askPorts .reduce a.cmd.id (from'.banks n ++ to'.banks n) with
        | (false, s) => .next s
        | (true, s) =>
          let v := reduced c (s.load (Target.key to') n) (s.readAt (Target.key from') n)
          match s.engineMove from' to' (toBytes n v) (cpRet c) with
          | none => .next s
          | some s => .next (s.modActive e a.cmd.id fun a => { a with pos := a.pos + 1, written := a.written + n })
/-- A command may read and write: its release condition holds, and the commands of its FIFO before it are done. -/
def State.copyMoves (s : State) (e : Nat) (a : Active) : Bool :=
  !a.finished && s.released a.cmd.tk a.cmd.stamp &&
    !((s.engine e).active.any fun b => coreOf b.cmd.tk == coreOf a.cmd.tk && decide (b.cmd.id < a.cmd.id) && !b.finished)
/-- One cycle of an active copy: up to 128 bytes of kinds 0 to 2, or the updates of up to 128 bytes of kind 3 (R296).
(DEDUCED, log 35.) -/
def State.copyBeat (s : State) (e cid : Nat) : State :=
  match (s.engine e).active.find? fun a => a.cmd.id == cid with
  | none => s
  | some a =>
    if s.copyMoves e a then
      match cpKind a.cmd.words with
      | 3 => { s with todo := List.replicate (128 / cpElem a.cmd.words) (.ev .reduceUpdate { n := e, m := cid }) ++ s.todo }
      | _ => s.copyBytes e cid 129 128
    else s
/-- The command that an engine serves in this cycle: round robin among those that may move, by the cycle's number.
(DESIGN CHOICE, log 2.) -/
def State.copyTurn (s : State) (e : Nat) : Option Nat :=
  let l := (s.engine e).active.filter fun a => s.copyMoves e a
  (l[s.cycle % l.length]?).map fun a => a.cmd.id

/-! ### Completion (R302, R306) -/

/-- Word 0 of a completion message (Table CB-2). -/
def completionWord (kind fault : Nat) (m : Cmd) : Word :=
  word (at' 60 kind + at' 57 (if fault = 0 then 0 else 6) + at' 52 fault + at' 32 (cmdTag m.words) +
    at' 22 (coreInTeam (coreOf m.tk)) + at' 16 (slotOf m.tk) + m.seq)
/-- An engine as the source of its completions: a copy engine, or a channel core's bank engine (R135). -/
def engineSource (copy : Bool) (core : Nat) : Nat := if copy then 1024 + engineOf core else 2048 + nodeOf core
/-- A command's end told as R302 says: to the waiting CPYX, by a message, or by a report; a message for a port of a team that
has been saved since goes into its completion words (R313). (DEDUCED, log 36, 57.) -/
def State.completeCmd (s : State) (m : Cmd) (kind fault count : Nat) (addr : Word) : State :=
  let core := coreOf m.tk
  let w0 := completionWord kind fault m
  let src := engineSource (decide (kind < 4)) core
  let report := fun (s : State) =>
    if fault = 0 then s
    else s.sendMessage src core 31 (reportWord 8 fault (slotOf m.tk) m.pc) addr true (slotOf m.tk) m.launch
  if m.wid ≠ 0 then
    match (s.thread m.tk).wait? with
    | some w =>
      if w.id = m.wid then
        match w.instr with
        | .cpyx _ rd _ _ => (s.writeGS m.tk rd w0).finishWait m.tk (if fault = 0 then 0 else 6)
        | _ => report s
      else report s
    | none => report s
  else if cmdNotify m.words then
    let to' := targetCore (cmdTarget m.words)
    let w1 := if fault = 0 then word count else addr
    match s.savedTeam (nodeOf to') m.id with
    | some (l, i, _) => s.saveCompletion l i (coreInTeam to') (targetPort (cmdTarget m.words)) w0 w1
    | none => s.sendMessage src to' (targetPort (cmdTarget m.words)) w0 w1 false (slotOf m.tk) m.launch
  else report s
/-- An active copy is complete, and the commands of its FIFO before it are. What a CPYX waits for comes in the order of its
engine's completions (R135). -/
def State.copyDone (s : State) (e : Nat) (a : Active) : Bool :=
  a.finished && decide (a.readAt ≤ s.cycle) &&
    (a.cmd.wid == 0 || !(s.packets.any fun q => q.2.src == 1024 + e && !q.2.boxed)) &&
    !((s.engine e).active.any fun b => coreOf b.cmd.tk == coreOf a.cmd.tk && decide (b.cmd.id < a.cmd.id))
/-- COPY_COMPLETE (R302): the subject is the engine and the command. -/
def execCopyComplete (s : State) : Host.Outcome State Fault Refusal :=
  let e := s.subj.n
  match (s.engine e).active.find? fun a => a.cmd.id == s.subj.m with
  | none => .next s
  | some a =>
    if s.copyDone e a then
      .next ((s.modEngine e fun g => { g with active := g.active.filter fun b => b.cmd.id != a.cmd.id }).completeCmd a.cmd
        (cpKind a.cmd.words) a.fault a.written a.addr)
    else .next s

/-! ### Bank engines (R307 to R309) -/

/-- The key of n bytes of a vector or result location of the command numbered id, or its cause and address. -/
def State.bankPlace (s : State) (core key id : Nat) (w : Word) (off n : Nat) (write update : Bool) : Except (Nat × Nat) Nat :=
  if bitAt w 48 then
    let ea := (fullAddress w + off) % 2 ^ 64
    match s.engineXlat (nodeOf core) key id ea n write update with
    | .ok t => .ok (Target.key t)
    | .error c => .error (c, ea)
  else .ok (sramKey (nodeOf core) (fld w 0 19 + off))
/-- The banks of n elements from element i on of a vector or result, all of which lie in one SRAM (R95, R307). -/
def placeBanks (core : Nat) (w : Word) (i n : Nat) : List Nat :=
  let size := widthOf (fld w 60 4) / 8
  if bitAt w 48 then banksOf (nodeAt (fld w 45 3) (fld w 39 6)) (fld w 0 21 + i * size) (n * size)
  else banksOf (nodeOf core) (fld w 0 19 + i * size) (n * size)
/-- Elements i on of a vector read, as bit patterns, or of a result that is to be updated. -/
def State.bankRead (s : State) (core key id : Nat) (update : Bool) (w : Word) : Nat → Nat → Except (Nat × Nat) (List Nat)
  | _, 0 => .ok []
  | i, n + 1 =>
    let size := widthOf (fld w 60 4) / 8
    match s.bankPlace core key id w (i * size) size false update with
    | .error f => .error f
    | .ok k => (s.bankRead core key id update w (i + 1) n).map fun l => s.readAt k size :: l
/-- Elements written from i on. -/
def State.bankWrite (s : State) (core key id : Nat) (w : Word) : Nat → List Nat → Except (Nat × Nat) State
  | _, [] => .ok s
  | i, v :: vs =>
    let size := widthOf (fld w 60 4) / 8
    match s.bankPlace core key id w (i * size) size true true with
    | .error f => .error f
    | .ok k => (s.ownerWrite k (toBytes size v)).bankWrite core key id w (i + 1) vs
/-- Bytes of a matrix: every page is a bank-layout page of the engine's channel, or the cause is 10 (R307). -/
def State.matrixBytes (s : State) (core key : Nat) : Nat → Nat → Except (Nat × Nat) (List Byte)
  | _, 0 => .ok []
  | ea, n + 1 =>
    match s.engineXlat (nodeOf core) key 0 (ea % 2 ^ 64) 1 false with
    | .error c => .error (c, ea % 2 ^ 64)
    | .ok (.bank pa die chan) =>
      if channelCore die chan = core then (s.matrixBytes core key (ea + 1) n).map fun l => s.byte pa :: l
      else .error (10, ea % 2 ^ 64)
    | .ok _ => .error (10, ea % 2 ^ 64)
/-- A tile at an address: its 256 element values and its length in bytes (R185, R309). All bytes of a ZF8 block are read before
checks 3 to 5 of its decoding (R161), so that a fault of a later byte is reported ahead of theirs; and a block that fails to
decode is reported with the address of its first byte. (DESIGN CHOICE, log 87.) -/
def State.bankTile (s : State) (core key f ea : Nat) : Except (Nat × Nat) (List Val × Nat) :=
  if f = 4 then
    match s.matrixBytes core key ea 4 with
    | .error e => .error e
    | .ok h =>
      let l := ofBytes h / 2 ^ 16 % 64
      let n := if 9 ≤ l ∧ l ≤ 25 ∧ ofBytes h % 2 ^ 16 = 0 then 16 * l else 4
      match s.matrixBytes core key ea n with
      | .error e => .error e
      | .ok bs =>
        match decodeBlock bs none (s.core core).bankTables with
        | .error c => .error (10 + c, ea)
        | .ok (es, x) => .ok (es.map fun b => zfScaled b x, 16 * l)
  else (s.matrixBytes core key ea 512).map fun bs => ((wordsOf 16 256 (ofBytes bs)).map fun x => valueOf f x, 512)
/-- The products of row i of a tile with its part of the vector. -/
def tileProducts (t : List Val) (x : List Val) (i : Nat) : List Val :=
  (List.range 16).map fun k => (t.getD (16 * i + k) (.fin false 0 0)).mul (x.getD k (.fin false 0 0))
/-- The tiles of a tile row from column j on: the cells, and the next tile's address (R309). -/
def State.bankRow (s : State) (core key f : Nat) (vec : List Val) :
    Nat → Nat → Nat → List (BitVec 36) → Except (Nat × Nat) (List (BitVec 36) × Nat)
  | 0, _, ea, c => .ok (c, ea)
  | n + 1, j, ea, c =>
    match s.bankTile core key f ea with
    | .error e => .error e
    | .ok (t, len) =>
      let x := (vec.drop (16 * j)).take 16
      s.bankRow core key f vec n (j + 1) (ea + len) (c.zipIdx.map fun e => sumA36Fp e.1 (tileProducts t x e.2))
/-- The team that a bank command targets: the node of its result's window. -/
def bmTeam (c : List Word) : Option Nat :=
  if bmOp c = 0 ∧ bitAt (cw c 2) 48 = true then some (nodeAt (fld (cw c 2) 45 3) (fld (cw c 2) 39 6)) else none
/-- A bank command that targets a team which the general pre-emption stops, or that a thread of the launch it stops pushed,
stays in its FIFO (R313). -/
def State.bankHeld (s : State) (m : Cmd) : Bool :=
  (match bmTeam m.words with
    | some n => (s.team n).stopped
    | none => false) ||
    match s.launch? m.launch with
    | some l => l.held
    | none => false
/-- A bank command may start (R307, R310). -/
def State.bankStarts (s : State) (core : Nat) : Bool :=
  let k := s.core core
  k.bankRun.isNone && match k.bankQ with
    | [] => false
    | m :: _ => s.released m.tk m.stamp && !s.bankHeld m
/-- A running bank command has ended its reads and writes. -/
def State.bankEnds (s : State) (core : Nat) (a : Active) : State :=
  let (d, s) := s.delay
  s.modCore core fun k => { k with bankRun := some { a with finished := true, readAt := s.cycle + 1 + d } }
/-- A running bank command stops at a fault, or waits for a table walk. -/
def State.bankStops (s : State) (core : Nat) (a : Active) (f : Nat × Nat) : State :=
  match s.engineWalks (nodeOf core) a f with
  | some s => s
  | none => s.bankEnds core { a with fault := f.1, addr := word f.2 }
/-- BANK_COMMAND_START (R307, R309): the vector is read once; the subject is the core. -/
def execBankCommandStart (s : State) : Host.Outcome State Fault Refusal :=
  let core := s.subj.n
  if s.bankStarts core then
    match (s.core core).bankQ with
    | [] => .next s
    | m :: rest =>
      let begin := fun (s : State) (a : Active) => s.modCore core fun k => { k with bankQ := rest, bankRun := some a }
      let a : Active := { cmd := m, pos := fld (cw m.words 0) 0 42 * 64, readAt := s.cycle + 1 }
      if bmOp m.words ≠ 0 then .next (begin s a)
      else
        match s.askPorts .bankEngine m.id (placeBanks core (cw m.words 1) 0 (16 * bmCols m.words)) with
        | (false, s) => .next s
        | (true, s) =>
          match s.bankRead core m.launch m.id false (cw m.words 1) 0 (16 * bmCols m.words) with
          | .error f => .next ((begin s a).bankStops core a f)
          | .ok v => .next (begin s { a with vec := v })
  else .next s
/-- A tile row of a product: the cells it starts from, the tiles, and the results written after it.
(DEDUCED, log 37.) -/
def State.bankRowStep (s : State) (core : Nat) (a : Active) : Except (Nat × Nat) (State × Nat) :=
  let c := a.cmd.words
  let key := a.cmd.launch
  let start : Except (Nat × Nat) (List (BitVec 36)) :=
    if bitAt (cw c 2) 59 then
      (s.bankRead core key a.cmd.id true (cw c 2) a.written 16).map fun l =>
        l.map fun y => BitVec.ofNat 36 (a36.round (valueOf (bmElem c 2) y))
    else .ok (List.replicate 16 0)
  match start with
  | .error f => .error f
  | .ok c0 =>
    match s.bankRow core key (bmFmt c) (a.vec.map fun x => valueOf (bmElem c 1) x) (bmCols c) 0 a.pos c0 with
    | .error f => .error f
    | .ok (cs, ea) =>
      (s.bankWrite core key a.cmd.id (cw c 2) a.written (cs.map fun x => convert (a36.value x.toNat) (bmElem c 2))).map fun s => (s, ea)
/-- One step of a running bank command: a table load, or one tile row; a tile takes 4 cycles of arithmetic. -/
def State.bankBeat (s : State) (core : Nat) : State :=
  match (s.core core).bankRun with
  | none => s
  | some a =>
    if a.finished || decide (s.cycle < a.readAt) then s
    else if bmOp a.cmd.words ≠ 0 then
      match s.matrixBytes core a.cmd.launch a.pos 8 with
      | .error f => s.bankStops core a f
      | .ok bs =>
        (s.modCore core fun k =>
          { k with bankTables := k.bankTables.set (bmOp a.cmd.words - 1) (word (ofBytes bs)) }).bankEnds core a
    else
      match s.askPorts .bankEngine a.cmd.id (placeBanks core (cw a.cmd.words 2) a.written 16) with
      | (false, s) => s
      | (true, s) =>
        match s.bankRowStep core a with
        | .error f => s.bankStops core a f
        | .ok (s, ea) =>
          let a := { a with pos := ea, written := a.written + 16, readAt := s.cycle + 4 * bmCols a.cmd.words }
          if 16 * bmRows a.cmd.words ≤ a.written then s.bankEnds core a
          else s.modCore core fun k => { k with bankRun := some a }
/-- A bank command is complete. -/
def State.bankOver (s : State) (core : Nat) : Bool :=
  match (s.core core).bankRun with
  | none => false
  | some a => a.finished && decide (a.readAt ≤ s.cycle)
/-- BANK_COMPLETE (R302, R309, R310): the subject is the core. -/
def execBankComplete (s : State) : Host.Outcome State Fault Refusal :=
  let core := s.subj.n
  if s.bankOver core then
    match (s.core core).bankRun with
    | none => .next s
    | some a =>
      let m := a.cmd
      let s := s.modCore core fun k => { k with bankRun := none }
      let s := if (s.thread m.tk).born < m.id then s.modThread m.tk fun th =>
          { th with bankCount := th.bankCount - 1, bankFault := th.bankFault || a.fault != 0 } else s
      .next (s.completeCmd m (if bmOp m.words = 0 then 15 else 14) a.fault (if bmOp m.words = 0 then a.written else 0) a.addr)
  else .next s

/-! ### BSTAT (R312) -/

/-- The snapshot of a channel core's bank engine, for a thread. -/
def State.bankStat (s : State) (tk : Nat) : Word :=
  let k := s.core (coreOf tk)
  word (k.bankQ.length + at' 4 (bit k.bankRun.isSome) + at' 8 ((s.thread tk).bankCount % 65536) +
    at' 24 (bit (s.thread tk).bankFault) + at' 32 k.bankSeq)
/-- The snapshot of a core's copy FIFO. -/
def State.copyStat (s : State) (core : Nat) : Word :=
  let k := s.core core
  word (k.copyQ.length + at' 3 ((s.engine (engineOf core)).active.filter fun a => coreOf a.cmd.tk == core).length +
    at' 32 k.copySeq)
/-- BSTAT. -/
def execBstat (sm : Bool) (rd : Reg) (x : BitVec 3) (s : State) : Host.Outcome State Fault Refusal :=
  issue (.bstat sm rd x) noCheck (fun y s =>
    if isChannel y.core = (x == 0) then
      s.writeStatus y.tk rd (if x = 0 then s.bankStat y.tk else s.copyStat y.core) 0
    else s.writeStatus y.tk rd 0 4) s

end Sys2Proof.Machine
end

