-- ==== Sys2Proof/Machine/System.lean ====
section
/-! DEFINITION. The system class: CSRs (R315, R316), the instructions of op 0x3C (R321 to R325), context images (R326 to
R328), and the steward access path (R314, R320). -/

namespace Sys2Proof.Machine

/-! ### CSRs (R316, Table SY-1) -/

/-- A CSR that only firmware may reach. -/
def csrFirmware (n : Nat) : Bool := n == 0x040 || n == 0x048 || n == 0x049
/-- A CSR that software at a level may write; slot 0 is the supervisor. -/
def csrWritable (slot n : Nat) : Bool := n == 0x000 || n == 0x020 || (n == 0x008 && slot == 0)
/-- The bits that a level may write. -/
def csrMask (slot n : Nat) : Word :=
  if n = 0x000 then 0x7
  else if n = 0x008 then 0xFFFF
  else if n = 0x020 then (if slot = 0 then 0x3FF else 0xFF)
  else 0
/-- The value of a CSR as a thread's core holds it. -/
def State.csrRead (s : State) (tk n : Nat) : Word :=
  let c := s.core (coreOf tk)
  let l := s.launchOfThread tk
  if n = 0x000 then (s.thread tk).status
  else if n = 0x008 then c.feretry.zeroExtend 64
  else if n = 0x010 then word s.cycle
  else if n = 0x020 then c.evt.zeroExtend 64
  else if 0x030 ≤ n ∧ n ≤ 0x038 ∧ s.emptyPartition tk = true then 0
  else if n = 0x030 then word (match l with | some l => l.wpdie | none => 0)
  else if 0x031 ≤ n ∧ n ≤ 0x038 then word (match l with | some l => l.wpnode.getD (n - 0x031) 0 | none => 0)
  else if n = 0x040 then word (match l with | some l => l.root | none => 0)
  else if n = 0x048 then c.spillBase
  else if n = 0x049 then c.paddockBase
  else if n = 0x050 then word s.pkg.lifecycle
  else if n = 0x051 then word s.pkg.clkbin
  else 0
/-- EVT as WFE sees it in a cycle: a change made by an instruction counts from the next cycle (R324). -/
def Core.evtSeen (c : Core) (cycle : Nat) : BitVec 10 := if c.evtAt = some cycle then c.evtWas else c.evt
/-- EVT changed by an instruction. -/
def Core.evtWrite (c : Core) (cycle : Nat) (v : BitVec 10) : Core :=
  { c with evtAt := some cycle, evtWas := c.evtSeen cycle, evtNew := v &&& ~~~c.evt, evt := v }
/-- EVT bits set from outside. -/
def Core.evtRaise (c : Core) (b : BitVec 10) : Core := { c with evt := c.evt ||| b, evtWas := c.evtWas ||| b }
/-- EVT bits taken by a WFE; a bit that an instruction sets in this cycle stays. -/
def Core.evtTake (c : Core) (cycle : Nat) (b : BitVec 10) : Core :=
  if c.evtAt = some cycle then { c with evt := c.evt &&& ~~~(b &&& ~~~c.evtNew), evtWas := c.evtWas &&& ~~~b }
  else { c with evt := c.evt &&& ~~~b }
/-- A value written to a CSR by a thread. -/
def State.csrWrite (s : State) (tk n : Nat) (v : Word) : State :=
  if n = 0x000 then s.modThread tk fun th => { th with status := v }
  else if n = 0x008 then s.modCore (coreOf tk) fun c => { c with feretry := v.truncate 16 }
  else if n = 0x020 then s.modCore (coreOf tk) fun c => c.evtWrite s.cycle (v.truncate 10)
  else s
/-- The privilege check of a CSR access (R316): cause 2. -/
def csrCheck (i : Instr) (n : Nat) (write : Bool) (x : Issue) (_ : State) : Check :=
  if csrFirmware n || (write && !csrWritable x.slot n) then .trap 9 2 ((encode i).zeroExtend 64) else .go
/-- The CSR instructions that write (cop 1 to 3): `f` makes the new value from the old one and A. -/
def issueCsr (i : Instr) (rd : Reg) (n : BitVec 9) (f : Word → Word → Word) (s : State) :
    Host.Outcome State Fault Refusal :=
  issue i (csrCheck i n.toNat true) (fun x s =>
    let old := s.csrRead x.tk n.toNat
    let m := csrMask x.slot n.toNat
    (s.csrWrite x.tk n.toNat ((f old (x.val 1) &&& m) ||| (old &&& ~~~m))).writeGS x.tk rd old) s
/-- CSRR. -/
def execCsrr (sm : Bool) (rd : Reg) (n : BitVec 9) (s : State) : Host.Outcome State Fault Refusal :=
  issue (.csrr sm rd n) (csrCheck (.csrr sm rd n) n.toNat false) (fun x s =>
    s.writeGS x.tk rd (s.csrRead x.tk n.toNat)) s
/-- CSRW. -/
def execCsrw (sm : Bool) (rd : Reg) (ra : Reg) (n : BitVec 9) (s : State) : Host.Outcome State Fault Refusal :=
  issueCsr (.csrw sm rd ra n) rd n (fun _ a => a) s
/-- CSRS. -/
def execCsrs (sm : Bool) (rd : Reg) (ra : Reg) (n : BitVec 9) (s : State) : Host.Outcome State Fault Refusal :=
  issueCsr (.csrs sm rd ra n) rd n (fun old a => old ||| a) s
/-- CSRC. -/
def execCsrc (sm : Bool) (rd : Reg) (ra : Reg) (n : BitVec 9) (s : State) : Host.Outcome State Fault Refusal :=
  issueCsr (.csrc sm rd ra n) rd n (fun old a => old &&& ~~~a) s

/-! ### TRAP, BRK, ERET (R322, R323) -/

/-- TRAP: kind 11 with its code. -/
def execTrap (sm : Bool) (c : BitVec 7) (s : State) : Host.Outcome State Fault Refusal :=
  issue (.trap sm c) (fun _ _ => .trap 11 0 (c.zeroExtend 64)) (fun _ s => s) s
/-- BRK: kind 12. -/
def execBrk (sm : Bool) (s : State) : Host.Outcome State Fault Refusal :=
  issue (.brk sm) (fun _ _ => .trap 12 0 0) (fun _ s => s) s
/-- A slot holds a halted thread. -/
def State.isHalted (s : State) (tk : Nat) : Bool :=
  match (s.thread? tk).map Thread.run with
  | some (.halted _) => true
  | _ => false
/-- A slot is halted by a report of a halting kind, or by CTXLD. -/
def State.eretAccepts (s : State) (tk : Nat) : Bool :=
  match (s.thread? tk).map Thread.run with
  | some (.halted k) => [1, 2, 3, 5, 7, 9, 10, 11, 12, 33].contains k
  | _ => false
/-- ERET is refused on this action word. -/
def State.eretRefused (s : State) (core : Nat) (a : Word) : Bool :=
  fld a 10 54 != 0 || fld a 6 2 != 0 || fld a 8 2 == 3 || fld a 0 6 == 0 || !s.eretAccepts (64 * core + fld a 0 6)
/-- The thread to be freed has no outstanding result and no store not acknowledged. -/
def State.freeReady (s : State) (t : Nat) : Bool := s.outstanding t == 0 && (s.thread t).u == 0
/-- A halted thread resumed, with every marker of its stream queues reissued (R109, R323). -/
def State.restart (s : State) (t : Nat) (skip : Bool) : State := (s.resume t skip).reissueAll t
/-- A halted thread freed as QUIT frees it; its store-fault log is discarded. -/
def State.freeHalted (s : State) (t : Nat) : State := (s.cancelBindings t).endThread t
/-- ERET. -/
def execEret (sm : Bool) (ra : Reg) (s : State) : Host.Outcome State Fault Refusal :=
  issue (.eret sm ra) (fun x _ => supervisorOnly (.eret sm ra) x) (fun x s =>
    let a := x.val 0
    let t := 64 * x.core + fld a 0 6
    if s.eretRefused x.core a then s.setStatus x.tk 4
    else if fld a 8 2 = 2 then
      if s.freeReady t then (s.freeHalted t).setStatus x.tk 0 else s.beginWait (.eret sm ra) x none 0
    else (s.restart t (fld a 8 2 == 1)).setStatus x.tk 0) s
/-- An ERET with action 2 goes on when its slot's results have landed and its stores are acknowledged. -/
def State.eretStep (s : State) (tk : Nat) (w : Wait) : State :=
  let t := 64 * coreOf tk + fld (w.vals.getD 0 0) 0 6
  if !s.eretAccepts t then s.finishWait tk 4
  else if s.freeReady t then (s.freeHalted t).finishWait tk 0
  else s

/-! ### WFE (R324) -/

/-- The mask of a WFE that waits. -/
def Wait.evtMask (w : Wait) : BitVec 10 :=
  match w.instr with
  | .wfe _ _ _ _ => (w.vals.getD 1 0).truncate 10
  | _ => 0
/-- The bits that the WFEs waiting in lower slots of the core would take. (DEDUCED, log 39.) -/
def State.wfeAhead (s : State) (tk : Nat) : BitVec 10 :=
  (s.waitsOf (coreOf tk)).foldl (fun m e => if e.1 < tk then m ||| e.2.evtMask else m) 0
/-- The EVT bits that a WFE of a thread with a mask finds. (DEDUCED, log 39.) -/
def State.wfeFinds (s : State) (tk : Nat) (m : BitVec 10) : BitVec 10 :=
  (s.core (coreOf tk)).evtSeen s.cycle &&& m &&& ~~~s.wfeAhead tk
/-- WFE. (DEDUCED, log 39.) -/
def execWfe (sm : Bool) (rd : Reg) (ra : Reg) (e : BitVec 7) (s : State) : Host.Outcome State Fault Refusal :=
  issue (.wfe sm rd ra e)
    (fun x _ => if fld (x.val 1) 16 48 ≠ 0 then .trap 1 4 (wordReport x.pre (encode (.wfe sm rd ra e))) else .go)
    (fun x s =>
      let b := s.wfeFinds x.tk ((x.val 1).truncate 10)
      if b ≠ 0 then
        ((s.modCore x.core fun c => c.evtTake s.cycle b).writeGS x.tk rd (b.zeroExtend 64)).setStatus x.tk 0
      else s.beginWait (.wfe sm rd ra e) x (s.bound (e.toNat % 16)) 0) s
/-- WFE_WAKE (R324): a waiting WFE takes the bits it finds; the subject is the thread. -/
def execWfeWake (s : State) : Host.Outcome State Fault Refusal :=
  let tk := s.subj.n
  match (s.thread tk).wait? with
  | none => .next s
  | some w =>
    match w.instr with
    | .wfe _ rd _ _ =>
      let b := s.wfeFinds tk w.evtMask
      if b = 0 then .next s
      else .next (((s.modCore (coreOf tk) fun c => c.evtTake s.cycle b).writeGS tk rd (b.zeroExtend 64)).finishWait tk 0)
    | _ => .next s
/-- WFE_TIMEOUT (R324): the subject is the thread and its wait. -/
def execWfeTimeout (s : State) : Host.Outcome State Fault Refusal :=
  let tk := s.subj.n
  match (s.thread tk).wait? with
  | none => .next s
  | some w =>
    match w.instr with
    | .wfe _ rd _ _ => if w.id ≠ s.subj.m then .next s else .next ((s.writeGS tk rd 0).finishWait tk 1)
    | _ => .next s

/-! ### TLBI (R325) -/

/-- The L1 holds a line of a page. -/
def Team.l1Holds (t : Team) (e : TlbEntry) : Bool :=
  let base := Target.key (leafTarget e.leaf e.va)
  t.l1.any fun l => decide (base ≤ 64 * l.pa) && decide (64 * l.pa < base + e.size)
/-- The entries of a node's TLB that a test picks removed; the L1 is emptied when it holds a line of one, or a line that has been read
through a page which the second test picks, be its entry still there or not (R115, R325). -/
def State.dropTlb (s : State) (node : Nat) (p : TlbEntry → Bool) (q : PageRef → Bool) : State :=
  s.modTeam node fun t =>
    { t with
      tlb := t.tlb.filter fun e => !p e
      l1 := if (t.tlb.filter p).any t.l1Holds || (t.l1.any fun l => l.pages.any q) then [] else t.l1 }
/-- What TLBI removes for a thread. (DEDUCED, log 41.) -/
def State.tlbiDrop (s : State) (tk sel : Nat) (a : Word) : State :=
  let node := nodeOf (coreOf tk)
  let key := (s.thread tk).launch
  if sel = 1 then s.dropTlb node (fun e => decide (node < 256) || e.launch == key) fun _ => true
  else match s.launch? key with
    | none => s
    | some l => s.dropTlb node (fun e => e.serves node l key a.toNat) fun p => p.holds l.root a.toNat
/-- Walks of the node that were in progress when the TLBI with this number issued. -/
def State.walksBefore (s : State) (tk id : Nat) : Bool := (s.team (nodeOf (coreOf tk))).walks.any fun k => decide (k.id < id)
/-- TLBI. -/
def execTlbi (sm : Bool) (ra : Reg) (e : BitVec 7) (s : State) : Host.Outcome State Fault Refusal :=
  issue (.tlbi sm ra e) (fun x _ => supervisorOnly (.tlbi sm ra e) x) (fun x s =>
    let s := s.tlbiDrop x.tk e.toNat (x.val 0)
    if s.walksBefore x.tk s.nextId then s.beginWait (.tlbi sm ra e) x none 0 else s.setStatus x.tk 0) s
/-- A TLBI goes on when the walks that were in progress have finished. (DEDUCED, log 41.) -/
def State.tlbiStep (s : State) (tk : Nat) (w : Wait) : State :=
  match w.instr with
  | .tlbi _ _ e =>
    if s.walksBefore tk w.id then s else (s.tlbiDrop tk e.toNat (w.vals.getD 0 0)).finishWait tk 0
  | _ => s

/-! ### Context images (R326 to R328) -/

/-- The twelve doublewords of a stream register. -/
def Stream.image (x : Stream) : List Word :=
  let es := x.ready
  let js := List.range es.length
  let el := fun j => es.getD j { serial := 0 }
  let marked := fun j => (el j).cause != 0
  let b := x.bind.getD { next := 0, stride := 0, left := 0, size := 0, ret := 0, nc := false }
  [ word b.next,
    word (natOf 32 b.stride + at' 32 b.left + at' 48 b.size + at' 50 b.ret + at' 52 (bit b.nc) + at' 53 (bit x.bind.isSome) +
      at' 56 es.length),
    word ((js.map fun j => at' j (bit (marked j)) + at' (8 + 5 * j) (el j).cause).sum),
    word ((js.map fun j => if marked j then
      at' (6 * j) ((el j).size + 4 * (el j).ret + 16 * bit (el j).nc + 32 * bit (el j).acq) else 0).sum) ] ++
    (List.range 8).map fun j => (el j).value
/-- The context image of a slot's thread. -/
def State.image (s : State) (t : Nat) : List Word :=
  let th := s.thread t
  [ word (th.pc.toNat + at' 48 (th.w / 8)),
    th.status,
    (match th.log with | some (c, _) => word (c + at' 8 1) | none => 0),
    (match th.log with | some (_, a) => a | none => 0), 0, 0, 0, 0 ] ++
    ((List.range 8).flatMap fun k => (s.stream t k).image) ++ (List.range th.w).map fun i => s.readG t i
/-- The bytes of a context image of a window of W registers. -/
def imageBytes (w : Nat) : Nat := 832 + 8 * w
/-- An image offset lies in the scratchpad. -/
def State.imageFits (s : State) (core w : Nat) (b : Word) : Bool :=
  b.toNat % 64 == 0 && decide (b.toNat + imageBytes w ≤ s.scratchSize core)
/-- A slot can be saved: its results and stream requests have landed and its stores are acknowledged (R327). -/
def State.saveReady (s : State) (t : Nat) : Bool :=
  s.freeReady t && !s.localPending t && (List.range 8).all fun k => (s.stream t k).entries.all fun e => e.landed
/-- A slot's image written to its core's scratchpad. -/
def State.saveImage (s : State) (t : Nat) (b : Word) : State :=
  s.scratchStore (sramKey (nodeOf (coreOf t)) b.toNat) (bytesOfDwords (s.image t))
/-- CTXSV is refused. -/
def State.saveRefused (s : State) (core : Nat) (a b : Word) : Bool :=
  let t := 64 * core + fld a 0 6
  fld a 6 58 != 0 || !s.isHalted t || !s.imageFits core (s.thread t).w b
/-- CTXSV. -/
def execCtxsv (sm : Bool) (rd : Reg) (ra : Reg) (rb : Reg) (s : State) : Host.Outcome State Fault Refusal :=
  issue (.ctxsv sm rd ra rb) (fun x _ => supervisorOnly (.ctxsv sm rd ra rb) x) (fun x s =>
    let a := x.val 1
    let b := x.val 2
    let t := 64 * x.core + fld a 0 6
    if s.saveRefused x.core a b then (s.writeGS x.tk rd 0).setStatus x.tk 4
    else if s.saveReady t then
      ((s.saveImage t b).writeGS x.tk rd (word (imageBytes (s.thread t).w))).setStatus x.tk 0
    else s.beginWait (.ctxsv sm rd ra rb) x none 0) s
/-- A CTXSV goes on when its slot can be saved. -/
def State.ctxsvStep (s : State) (tk : Nat) (w : Wait) : State :=
  match w.instr with
  | .ctxsv _ rd _ _ =>
    let a := w.vals.getD 1 0
    let b := w.vals.getD 2 0
    let t := 64 * coreOf tk + fld a 0 6
    if s.saveRefused (coreOf tk) a b then (s.writeGS tk rd 0).finishWait tk 4
    else if s.saveReady t then
      ((s.saveImage t b).writeGS tk rd (word (imageBytes (s.thread t).w))).finishWait tk 0
    else s
  | _ => s
/-- The doublewords of an image; what CTXLD reads. -/
def State.readImage (s : State) (node : Nat) (b : Word) (n : Nat) : List Word :=
  dwordsOf (ofBytes (s.localBytes (sramKey node b.toNat) (8 * n))) n
/-- A stream register's part of an image is well formed. (DEDUCED, log 40.) -/
def streamImageOk (d : List Word) : Bool :=
  let n := fld (d.getD 1 0) 56 4
  let m := d.getD 2 0
  let q := d.getD 3 0
  fld (d.getD 1 0) 54 2 == 0 && fld (d.getD 1 0) 60 4 == 0 && decide (n ≤ 8) && fld m 48 16 == 0 &&
    fld q 48 16 == 0 &&
    (List.range 8).all fun j =>
      if decide (j < n) && bitAt m j then fld m (8 + 5 * j) 5 != 0
      else !bitAt m j && fld m (8 + 5 * j) 5 == 0 && fld q (6 * j) 6 == 0
/-- A stream register's part of an image as its state: landed elements, and the binding when its bound bit is 1. -/
def streamOfImage (d : List Word) : Stream :=
  let n := fld (d.getD 1 0) 56 4
  let m := d.getD 2 0
  let q := d.getD 3 0
  { entries := (List.range n).map fun j =>
      { serial := 0, landed := true, value := d.getD (4 + j) 0, cause := fld m (8 + 5 * j) 5
        size := if bitAt m j then fld q (6 * j) 2 else 0, ret := fld q (6 * j + 2) 2
        nc := bitAt q (6 * j + 4), acq := bitAt q (6 * j + 5) }
    bind := if bitAt (d.getD 1 0) 53 then bindingOf (d.getD 0 0) ((d.getD 1 0) &&& 0x001FFFFFFFFFFFFF) else none }
/-- An image is well formed: every field in its range and every reserved bit zero. (DEDUCED, log 40.) -/
def ctxImageOk (d : List Word) : Bool :=
  let h := d.getD 0 0
  let st := d.getD 1 0
  let lg := d.getD 2 0
  fld h 52 12 == 0 && decide (1 ≤ fld h 48 4) && decide (fld h 48 4 ≤ 12) && fld h 0 2 == 0 && fld st 12 20 == 0 &&
    (bitAt st 3 || fld st 32 32 == 0) && fld lg 5 3 == 0 && fld lg 9 55 == 0 &&
    ((List.range 4).all fun k => d.getD (4 + k) 0 == 0) &&
    (List.range 8).all fun k => streamImageOk ((d.drop (8 + 12 * k)).take 12)
/-- The state of a slot that holds a thread set from an image; the slot is halted by CTXLD. -/
def State.applyImage (s : State) (t : Nat) (d : List Word) : State :=
  let h := d.getD 0 0
  let lg := d.getD 2 0
  let s := s.modThread t fun th =>
    { th with
      pc := h.truncate 48, status := d.getD 1 0
      log := if bitAt lg 8 then some (fld lg 0 5, d.getD 3 0) else none
      run := .halted 33 }
  let s := (List.range 8).foldl (fun s k => s.setStream t k (streamOfImage ((d.drop (8 + 12 * k)).take 12))) s
  (List.range (s.thread t).w).foldl (fun s i => s.writeG t i (d.getD (104 + i) 0)) s
/-- CTXLD's load of an image into a slot (R328); none where it is refused. (DEDUCED, log 40.) -/
def State.loadImage (s : State) (core : Nat) (a b : Word) : Option State :=
  let z := fld a 0 6
  let t := 64 * core + z
  let node := nodeOf core
  if fld a 6 58 != 0 || !s.imageFits core 8 b then none
  else
    let w := 8 * fld ((s.readImage node b 1).getD 0 0) 48 4
    let d := s.readImage node b (104 + w)
    let task := (s.team node).task
    if !s.imageFits core w b || !ctxImageOk d || (!isChannel core && task.isNone) then none
    else if s.isHalted t then (if (s.thread t).w = w then some (s.applyImage t d) else none)
    else if s.slotFree core z && s.unheld core z then
      match task.bind fun k => (s.task? k).map fun r => (k, r), freeBase (s.takenBlocks core) (w / 8) with
      | some (k, r), some base =>
        let s := s.placeThread t { base := base, w := w, launch := r.launch, task := k, run := .halted 33 } []
        some ((s.joinTask k).applyImage t d)
      | _, _ => none
    else none
/-- CTXLD. -/
def execCtxld (sm : Bool) (rd : Reg) (ra : Reg) (rb : Reg) (s : State) : Host.Outcome State Fault Refusal :=
  issue (.ctxld sm rd ra rb) (fun x _ => supervisorOnly (.ctxld sm rd ra rb) x) (fun x s =>
    match s.loadImage x.core (x.val 1) (x.val 2) with
    | none => (s.writeGS x.tk rd 0).setStatus x.tk 4
    | some s => (s.writeGS x.tk rd (word (fld (x.val 1) 0 6))).setStatus x.tk 0) s

/-! ### The steward access path (R314, R320) -/

/-- A thread is at an instruction boundary. (DEDUCED, log 56.) -/
def Run.atBoundary : Run → Bool
  | .ready | .operand _ | .switch | .fetch => true
  | _ => false
/-- A thread is to halt at its next instruction boundary; at once when it is at one. One that a switch marker has parked
still waits for its results (R93). (DEDUCED, log 56.) -/
def State.stopThread (s : State) (t kind : Nat) : State :=
  s.modThread t fun th =>
    if th.run.atBoundary then { th with run := .halted kind, stopReq := none, switchHeld := decide (th.run = .switch) }
    else match th.run with
      | .halted _ => th
      | _ => { th with stopReq := some kind }
/-- A thread whose instruction has completed halts where a halt has been asked for. (DEDUCED, log 56.) -/
def State.settleStop (s : State) (t : Nat) : State :=
  match (s.thread t).stopReq with
  | some k => if (s.thread t).run.atBoundary then s.stopThread t k else s
  | none => s
/-- An entry pushed by firmware into a role queue, with the timing of an integer instruction's push (R246, R339). -/
def State.pushRoleAs (s : State) (core i : Nat) (v : Word) (tag : Fin 3) : State :=
  let q := (s.core core).role i
  if !q.enabled then s
  else if q.taken < 8 then s.rolePush core i v tag (s.cycle + 3)
  else s.addTimer (s.cycle + 1) (.stewardAccess (.pushRole core i v tag)) {}
/-- An entry pushed by firmware into an inbound neighbour queue, as the upstream slot would (R246). -/
def State.pushNeighbourAs (s : State) (nk : Nat) (v : Word) (tag : Fin 3) : State :=
  let t := nbrKeySlot nk
  let d := nbrKeyDir nk
  match neighbour (nodeOf (coreOf t)) d with
  | none => s
  | some _ =>
    let u := nbrSlot t d
    let o := Dir.opposite d
    if 0 < s.nbrRoom (nbrKey u o) && !(SMap.getD s.nbrSync (nbrKey u o) false) then
      (s.nbrTake u o).nbrLeave u o v tag (s.cycle + 3)
    else s.addTimer (s.cycle + 1) (.stewardAccess (.pushNeighbour nk v tag)) {}
/-- The PTROOT and partition of a core's launch changed by firmware. -/
def State.firmwareLaunch (s : State) (core : Nat) (f : Launch → Launch) : State :=
  let l := if isChannel core then some (s.core core).lastLaunch else (s.team (nodeOf core)).lastLaunch
  match l with
  | some l => s.modLaunch l f
  | none => s
/-- A CSR of a core written by firmware. -/
def State.firmwareCsr (s : State) (core n : Nat) (v : Word) : State :=
  if n = 0x008 then s.modCore core fun c => { c with feretry := v.truncate 16 }
  else if n = 0x020 then s.modCore core fun c => { c with evt := v.truncate 10, evtWas := v.truncate 10 }
  else if n = 0x030 then s.firmwareLaunch core fun l => { l with wpdie := fld v 0 8 }
  else if 0x031 ≤ n ∧ n ≤ 0x038 then s.firmwareLaunch core fun l => { l with wpnode := l.wpnode.set (n - 0x031) v.toNat }
  else if n = 0x040 then s.firmwareLaunch core fun l => { l with root := v.toNat }
  else if n = 0x048 then s.modCore core fun c => { c with spillBase := v }
  else if n = 0x049 then s.modCore core fun c => { c with paddockBase := v }
  else s
/-- A step set for a later cycle that belongs to a core alone: a result of its divider or normaliser, the end of a zeroing or of
its ungating, and what it moves between its queues. -/
def coreOwn (core : Nat) : Move → Bool
  | .ev .dividerWrite j | .ev .normaliserWrite j | .ev .slotZeroingDone j => coreOf j.n == core
  | .ev .spillRefill j | .ev .paddockMove j | .ev .ungate j => j.n == core
  | _ => false
/-- A core reset (R288): its threads and what it holds are gone, and every core drops the contexts that it has stored from that
core and that have not been released; their threads leave their tasks. (DESIGN CHOICE, log 81.) -/
def State.coreReset (s : State) (core : Nat) : State :=
  let k := s.core core
  let lost := fun (c : Ctx) => c.src == core && c.okAt.isNone
  let open' := fun (c : Ctx) => lost c && !(k.shadows.any fun h => h.serial == c.serial)
  let gone := (s.threads.filter fun e => coreOf e.1 == core).map fun e => e.2.task
  let held := ((k.arrivals ++ k.paddock).filter fun c =>
    c.okAt.isSome || (s.core c.src).shadows.any fun h => h.serial == c.serial).map fun c => c.task
  let away := s.cores.flatMap fun e => ((e.2.arrivals ++ e.2.paddock).filter open').map fun c => c.task
  let tks := (s.threads.map (·.1)).filter fun t => coreOf t == core
  let s := tks.foldl (fun s t => (s.cancelBindings t).freeThread t) s
  let s : State := { s with
    cores := (s.cores.map fun e => (e.1, e.2.dropStored lost))
    reqs := s.reqs.filter fun e => coreOf e.2.tk != core || (e.2.stage != .buffered && e.2.stage != .port)
    rf := s.rf.filter fun e => e.1 / 2048 != core, sregs := s.sregs.filter fun e => e.1 / 16 != core
    spend := s.spend.filter fun e => e.key / 16 != core
    nbr := s.nbr.filter fun e => coreOf (nbrKeySlot e.1) != core
    timers := s.timers.filter fun t => !coreOwn core t.mv }
  let s := s.modCore core fun c => { ({} : Core) with
    spillBase := c.spillBase, paddockBase := c.paddockBase
    jp := c.jp.map fun e => if e.valid && e.slot == 0 then e else {}, resv := c.resv.filter fun e => e.1 == 0 }
  (gone ++ held ++ away ++ k.shadows.map fun h => h.ctx.task).foldl State.leaveTask s
/-- STEWARD_ACCESS (R314): firmware acts on a core's slots, CSRs and queues. (DEDUCED, log 42.) -/
def execStewardAccess (op : StewardOp) (s : State) : Host.Outcome State Fault Refusal :=
  match op with
  | .halt t => .next (s.stopThread t 32)
  | .resume t => if s.isHalted t then .next (s.restart t false) else .next s
  | .free t => if s.isHalted t then .next (s.freeHalted t) else .next s
  | .writeCsr core n v => .next (s.firmwareCsr core n.toNat v)
  | .setThreshold n => .next { s with pkg := { s.pkg with threshold := n } }
  | .coreReset core => .next (s.coreReset core)
  | .setEvt core => .next (s.modCore core fun c => c.evtRaise 0x200)
  | .pushRole core i v tag => .next (s.pushRoleAs core i v tag)
  | .pushNeighbour nk v tag => .next (s.pushNeighbourAs nk v tag)
  | .zeroShared core =>
    .next ((List.range 16).foldl (fun s n =>
      { s with sregs := SMap.putD s.sregs (16 * core + n) 0 0
               spend := s.spend.filter fun e => e.key != 16 * core + n }) s)

end Sys2Proof.Machine
end

