-- ==== Sys2Proof/Machine/Host.lean ====
section
/-! DEFINITION. The host link: BAR0 and the command rings (R332), the host commands but PREEMPT and RESUME (R333, R334,
R336), the start-up of the device (R335), and package links that go down (R337). -/

namespace Sys2Proof.Machine

/-! ### Rings and commands (R332) -/

/-- A ring's record. -/
def State.hring (s : State) (r : Nat) : HRing := s.pkg.rings.getD r {}
/-- A ring's record changed. -/
def State.modRing (s : State) (r : Nat) (f : HRing → HRing) : State :=
  { s with pkg := { s.pkg with rings := s.pkg.rings.set r (f (s.hring r)) } }
/-- The entries of a ring. -/
def HRing.size (q : HRing) : Nat := 2 ^ fld q.rcfg 0 4
/-- A ring is enabled. -/
def HRing.enabled (q : HRing) : Bool := bitAt q.rcfg 8
/-- n doublewords of host memory. (DESIGN CHOICE, log 3.) -/
def State.hostWords (s : State) (ha n : Nat) : List Word := dwordsOf (s.load (hostKey ha) (8 * n)) n
/-- Bytes written to host memory. -/
def State.hostWrite (s : State) (ha : Nat) (bs : List Byte) : State := s.ownerWrite (hostKey ha) bs
/-- The command that firmware takes next from a ring: dwords d0 to d7. -/
def State.nextCommand (s : State) (r : Nat) : List Word :=
  let q := s.hring r
  s.hostWords (q.rbase.toNat + 64 * (q.head % q.size)) 8
/-- The firmware runs, or answers for a failed boot check. -/
def Package.answers (p : Package) : Bool := p.booted || p.bootFail != 0
/-- Firmware takes a command of a ring now. (DEDUCED, log 43.) -/
def State.ringReady (s : State) (r : Nat) : Bool :=
  let q := s.hring r
  s.pkg.answers && q.enabled && q.head != q.tail && q.cmd.isNone && decide (q.wakeAt ≤ s.cycle)
/-- The ring's next command taken. (DEDUCED, log 43.) -/
def State.takeCommand (s : State) (r : Nat) : State :=
  let d := s.nextCommand r
  s.modRing r fun q => { q with cmd := some d, head := (q.head + 1) % 65536, stage := 0, deadline := none }
/-- A command completed: its completion is written, CHEAD moves past it, and the ring's vector is raised.
(DEDUCED, log 43.) -/
def State.complete (s : State) (r status : Nat) (a b : Word) : State :=
  let q := s.hring r
  let d := q.cmd.getD []
  let w := word (fld (d.getD 0 0) 16 16 + at' 16 status + at' 32 (fld a 0 32))
  let s := s.hostWrite (q.cbase.toNat + 16 * (q.chead % q.size)) (bytesOfDwords [w, b])
  let (n, s) := s.delay
  let s := s.modRing r fun q =>
    { q with cmd := none, chead := (q.chead + 1) % 65536, deadline := none, wakeAt := s.cycle + 1 + n }
  { s with pkg := { s.pkg with msix := s.pkg.msix ++ [fld q.rcfg 16 4] } }
/-- A command refused. -/
def State.refuse (s : State) (r : Nat) : State := s.complete r 4 0 0
/-- A command whose header or unlisted dwords, those after d(n), are not zero (R332, R333). -/
def commandBad (d : List Word) (n : Nat) : Bool :=
  fld (d.getD 0 0) 8 8 != 0 || fld (d.getD 0 0) 32 32 != 0 || (d.drop (n + 1)).any (· != 0)
/-- A command that the device does not accept in its state: after a failed boot check all but IDENTIFY and FWSTAGE
(R335), in RETURN all (R336). (DEDUCED, log 45.) -/
def Package.rejects (p : Package) (code : Nat) : Bool := (!p.booted && code != 1 && code != 0x0A) || p.lifecycle == 3
/-- A row of the host interface: the ring's command in progress goes on, or the next one is taken, if its opcode is this
one; `mine` tells the two paths of PREEMPT and RESUME apart. A command with more than the listed dwords d1 to d(n) is
refused. -/
def hostRow (code n : Nat) (mine : List Word → Bool) (r : Nat) (run : List Word → State → State) (s : State) :
    Host.Outcome State Fault Refusal :=
  match (s.hring r).cmd with
  | some d => if fld (d.getD 0 0) 0 8 = code ∧ mine d = true then .next (run d s) else .next s
  | none =>
    let d := s.nextCommand r
    if s.ringReady r = true ∧ fld (d.getD 0 0) 0 8 = code ∧ mine d = true then
      let s := s.takeCommand r
      .next (if s.pkg.rejects code || commandBad d n then s.refuse r else run d s)
    else .next s
/-- Every command of this opcode. -/
def anyCommand (_ : List Word) : Bool := true
/-- A PTROOT operand in its range (Table SY-1). -/
def rootOk (w : Word) : Bool := w.toNat % 4096 == 0 && decide (w.toNat < 2 ^ 48)
/-- Bytes with the virtual addresses from one on. -/
def bytesAt (va : Nat) (bs : List Byte) : List (Nat × Byte) := bs.zipIdx.map fun e => (va + e.2, e.1)
/-- A launch that has not ended, by its handle. -/
def State.launchByHandle (s : State) (h : Nat) : Option (Nat × Launch) :=
  s.disp.launches.find? fun e => e.2.handle == h && !e.2.ended
/-- A launch that waits to be taken, by its handle. -/
def State.queued? (s : State) (h : Nat) : Option LaunchReq := (s.disp.hostQ ++ s.disp.devQ).find? fun q => q.handle == h
/-- A handle operand. -/
def handleOk (w : Word) : Bool := fld w 16 48 == 0

/-! ### BAR0 (R332, Table SY-7) -/

/-- RCFG written: while enable is 1 the size stays; setting enable from 0 to 1 sets TAIL, HEAD and CHEAD to 0. -/
def HRing.writeCfg (q : HRing) (v : Word) : HRing :=
  let v := v &&& 0xF010F
  if q.enabled then { q with rcfg := (v &&& 0xF0100) ||| (q.rcfg &&& 0xF) }
  else if bitAt v 8 then { q with rcfg := v, tail := 0, head := 0, chead := 0 }
  else { q with rcfg := v }
/-- TAIL written: a write that would put it more than the ring's size ahead of CHEAD is ignored. -/
def HRing.writeTail (q : HRing) (v : Word) : HRing :=
  let t := fld v 0 16
  if (t + 65536 - q.chead) % 65536 ≤ q.size then { q with tail := t } else q
/-- EVTDOOR written: EVT bit 8 of the core it names is set, if that core exists. -/
def State.evtDoor (s : State) (v : Word) : State :=
  let die := fld v 0 3
  let num := fld v 8 6
  let c := fld v 16 2
  if s.nodeExists die num && (decide (die < 4) || c == 0) then
    s.modCore (coreAt (nodeAt die num) c) fun k => k.evtRaise 0x100
  else s
/-- A BAR0 register written by the host with an aligned 8-byte write. (DEDUCED, log 44.) -/
def State.bar0Write (s : State) (off : Nat) (v : Word) : State :=
  if off = 0x100 then s.evtDoor v
  else if 0x1000 ≤ off ∧ off < 0x1200 then
    let r := (off - 0x1000) / 0x40
    match off % 0x40 with
    | 0x00 => s.modRing r fun q => if q.enabled then q else { q with rbase := v &&& ~~~(63 : Word) }
    | 0x08 => s.modRing r fun q => q.writeCfg v
    | 0x10 => s.modRing r fun q => if q.enabled then q else { q with cbase := v &&& ~~~(15 : Word) }
    | 0x18 => s.modRing r fun q => q.writeTail v
    | _ => s
  else s
/-- What the host reads from a BAR0 register with an aligned 8-byte read; anything else reads zero. -/
def State.bar0Read (s : State) (off : Nat) : Word :=
  let p := s.pkg
  if off = 0 then
    (if p.booted then word (480 + at' 16 p.clkbin + at' 24 p.lifecycle + at' 32 p.fwVersion) else 0)
  else if off = 8 then word (bit p.booted + at' 1 (bit (p.bootFail != 0)))
  else if 0x1000 ≤ off ∧ off < 0x1200 then
    let q := s.hring ((off - 0x1000) / 0x40)
    match off % 0x40 with
    | 0x00 => q.rbase
    | 0x08 => q.rcfg
    | 0x10 => q.cbase
    | 0x18 => word q.tail
    | 0x20 => word q.head
    | 0x28 => word q.chead
    | _ => 0
  else 0
/-- EVTDOOR (R332). -/
def execEvtdoor (v : Word) (s : State) : Host.Outcome State Fault Refusal := .next (s.bar0Write 0x100 v)
/-- RCFG_ENABLE (R332). -/
def execRcfgEnable (ring : Nat) (v : Word) (s : State) : Host.Outcome State Fault Refusal :=
  .next (s.bar0Write (0x1008 + 0x40 * (ring % 8)) v)
/-- TAIL (R332). -/
def execTail (ring : Nat) (v : Word) (s : State) : Host.Outcome State Fault Refusal :=
  .next (s.bar0Write (0x1018 + 0x40 * (ring % 8)) v)
/-- BAR0_REGISTER_WRITE (R332). -/
def execBar0RegisterWrite (off : Nat) (v : Word) (s : State) : Host.Outcome State Fault Refusal :=
  .next (s.bar0Write off v)

/-! ### IDENTIFY, LOAD, PATCH, LAUNCH (R333, R334) -/

/-- A dword with the low bits that a list of numbers below 64 names. -/
def maskWord (l : List Nat) : Word := word ((l.eraseDups.map fun n => 2 ^ n).sum)
/-- The identity record, as 64 doublewords (R334). -/
def State.identity (s : State) : List Word :=
  let p := s.pkg
  [ word (480 + at' 16 p.clkbin + at' 24 p.lifecycle + at' 32 p.fwVersion), word (p.bootFail + at' 8 p.bootImage) ] ++
    ((List.range 4).map fun d =>
      maskWord ((p.absent.filter fun n => n / 64 == d).map fun n => n % 64)) ++
    [ maskWord ((List.range 64).filter fun k => (s.slice k).retired),
      word (((List.range 8).map fun l => at' (8 * l) (p.links.getD l 0)).sum) ] ++
    ((List.range 48).map fun i =>
      word (((List.range 4).map fun j => at' (16 * j) (p.dram.getD (4 * i + j) 0 % 65536)).sum)) ++
    ((List.range 4).map fun i => word (ofBytes ((p.serial.drop (8 * i)).take 8))) ++ List.replicate 4 0
/-- IDENTIFY. -/
def execIdentify (ring : Nat) (s : State) : Host.Outcome State Fault Refusal :=
  hostRow 0x01 1 anyCommand ring (fun d s =>
    let a := (d.getD 1 0).toNat
    if a % 64 ≠ 0 then s.refuse ring
    else (s.hostWrite a (bytesOfDwords s.identity)).complete ring 0 512 0) s
/-- A .pattern record of an object, unless the loader refuses it (R57, R343): JPSET's conditions, with a port set that
includes m31 refused, for no entry of a .pattern names slot 0 (R264, R320). (DEDUCED, log 67.) -/
def patternOf (e : Nat × Nat × Word × Word) : Option Pattern :=
  let (core, entry, d0, d1) := e
  if core < 4 ∧ entry < 15 ∧ fld d0 32 6 ≠ 0 ∧ bitAt d0 31 = false ∧ descriptorOk d0 d1 = true then
    some { core := core, entry := entry, e := entryOf d0 d1 0 0 0 }
  else none
/-- Two .pattern records that JPSET would not load one after the other on a core that holds no thread: they name one entry,
or give one slot different W (R57, R264). -/
def Pattern.clashes (p q : Pattern) : Bool :=
  p.core == q.core && (p.entry == q.entry || (p.e.slot == q.e.slot && p.e.w != q.e.w))
/-- All records of an object, unless the loader refuses one of them (R57). -/
def patternList : List (Nat × Nat × Word × Word) → Option (List Pattern)
  | [] => some []
  | e :: rest => match patternOf e, patternList rest with
    | some p, some l => if l.any p.clashes then none else some (p :: l)
    | _, _ => none

/-! #### Relocations and the launch section (R54, R57, R271, R272, R278) -/

/-- A number with the bits from lo on, len of them, replaced. -/
def withField (lo len v old : Nat) : Nat :=
  old / 2 ^ (lo + len) * 2 ^ (lo + len) + v % 2 ^ len * 2 ^ lo + old % 2 ^ lo
/-- A little-endian number of n bytes of an image changed; none when the image does not hold all of them. -/
def patchBytes (bytes : List (Nat × Byte)) (a n : Nat) (f : Nat → Nat) : Option (List (Nat × Byte)) :=
  let old := (List.range n).filterMap fun i => (bytes.find? fun e => e.1 == a + i).map fun e => e.2
  if old.length = n then
    let new := toBytes n (f (ofBytes old))
    some (bytes.map fun e => if a ≤ e.1 ∧ e.1 < a + n then (e.1, new.getD (e.1 - a) 0) else e)
  else none
/-- The field that a value takes in len bits, signed; none when it does not fit. -/
def signedField (len : Nat) (v : Int) : Option Nat :=
  if -((2 ^ (len - 1) : Nat) : Int) ≤ v ∧ v < ((2 ^ (len - 1) : Nat) : Int) then some (v % ((2 ^ len : Nat) : Int)).toNat else none
/-- A value of 64 bits, signed or unsigned; none when it does not fit. -/
def wideField (v : Int) : Option Nat :=
  if -((2 ^ 63 : Nat) : Int) ≤ v ∧ v < ((2 ^ 64 : Nat) : Int) then some (v % ((2 ^ 64 : Nat) : Int)).toNat else none
/-- The displacement in words from a branch to its target (R52). -/
def dispOf (r : Reloc) : Option Int :=
  let d := r.value - (r.site : Int)
  if d % 4 = 0 then some (d / 4) else none
/-- The four imm18 fields of a LIX sequence (Table AS-3). -/
def lixFields (v : Nat) : List Nat :=
  [(v / 2 ^ 54 + (if v / 2 ^ 63 % 2 = 1 then 2 ^ 18 - 2 ^ 10 else 0)) % 2 ^ 18, v / 2 ^ 36 % 2 ^ 18, v / 2 ^ 18 % 2 ^ 18, v % 2 ^ 18]
/-- A relocation applied to an image (Table AS-4); none when its value does not fit its field. -/
def applyReloc (r : Reloc) (bytes : List (Nat × Byte)) : Option (List (Nat × Byte)) :=
  match r.kind with
  | .disp12 => ((dispOf r).bind (signedField 12)).bind fun v => patchBytes bytes r.site 4 (withField 0 12 v)
  | .disp25 => ((dispOf r).bind (signedField 25)).bind fun v => patchBytes bytes r.site 4 (withField 0 25 v)
  | .imm11 => (signedField 11 r.value).bind fun v => patchBytes bytes r.site 4 (withField 0 11 v)
  | .lix64 => (wideField r.value).bind fun v =>
    ((lixFields v).zipIdx).foldlM (fun bs e => patchBytes bs (r.site + 4 * e.2) 4 (withField 0 18 e.1)) bytes
  | .abs64 => (wideField r.value).bind fun v => patchBytes bytes r.site 8 fun _ => v
  | .abs32 => if 0 ≤ r.value ∧ r.value < ((2 ^ 32 : Nat) : Int) then patchBytes bytes r.site 4 fun _ => r.value.toNat else none
/-- The words of a slot-group record (R271). -/
def slotWords (r : SlotRecord) : List Word :=
  [word (r.core % 4 + at' 8 (r.count % 64) + at' 16 (r.w8 % 16)), word (r.entry / 4 % 2 ^ 46 * 4)]
/-- The parameter block: the keys' fields, the number of slot groups, and the addresses that the loader sets (R270, R272); an
object with more slot groups than nsg can count is refused (`recordFits`). (DESIGN CHOICE, log 15.) -/
def lpbWords (r : LaunchRecord) : List Word :=
  let used := !r.groups.isEmpty
  let k := fun n => r.keys.getD n 0
  [k 0, word (64 * r.sglAt), word (withField 0 5 r.slots.length (k 2).toNat), if used then word (64 * r.gtabAt) else 0,
    if used then word (64 * r.membAt) else 0, k 5, k 6, if used then word (64 * r.barsAt) else 0]
/-- The group table: the expected arrivals of each group, 0 where it is not used (R278). -/
def groupTable (r : LaunchRecord) : List Word :=
  (List.range 256).map fun g => match r.groups.find? fun e => e.index == g with
    | some e => word (e.expected % 65536)
    | none => 0
/-- The loader turns these records into their structures: every field fits, so that there are at most 31 slot groups, a task is
named in at most four groups, and no two records name one group. The manual gives the loader no rule for other records, which the
assembler rejects; their object is refused. (DESIGN CHOICE, log 15.) -/
def recordFits (r : LaunchRecord) : Bool :=
  decide (r.slots.length < 32) &&
    (r.slots.all fun e => decide (e.core < 4) && decide (e.count < 64) && decide (e.w8 < 16) && e.entry % 4 == 0 &&
      decide (e.entry < 2 ^ 48)) &&
    (r.groups.all fun e => decide (e.index < 256) && decide (e.expected < 65536) &&
      (r.groups.filter fun q => q.index == e.index).length == 1 &&
      e.members.all fun t => decide ((r.groups.filter fun q => q.members.contains t).length ≤ 4))
/-- A task's membership word: the groups that name it, at most four (R272, R278); an object with a task in more is refused
(`recordFits`). (DESIGN CHOICE, log 15.) -/
def memberWord (r : LaunchRecord) (t : Nat) : Word :=
  word ((((r.groups.filter fun e => e.members.contains t).take 4).zipIdx.map fun e =>
    at' (16 * e.2) (e.1.index % 256 + 2 ^ 15)).sum)
/-- The tasks of the launch. -/
def recordTasks (r : LaunchRecord) : Nat := fld (r.keys.getD 0 0) 0 24 * fld (r.keys.getD 0 0) 24 24
/-- The structures of the launch section, with their virtual addresses (R57, R272); the barrier area is all zero. A member of a
.group that is no task of the launch, of a number from X·Y on, has no membership word and is left out (DESIGN CHOICE, log 96). -/
def launchBytes (r : LaunchRecord) : List (Nat × Byte) :=
  bytesAt (64 * r.lpbAt) (bytesOfDwords (lpbWords r)) ++ bytesAt (64 * r.sglAt) (bytesOfDwords (r.slots.flatMap slotWords)) ++
    (if r.groups.isEmpty then []
     else bytesAt (64 * r.gtabAt) (bytesOfDwords (groupTable r)) ++
      bytesAt (64 * r.membAt) (bytesOfDwords ((List.range (recordTasks r)).map (memberWord r))) ++
      bytesAt (64 * r.barsAt) (List.replicate (256 * 64) 0))
/-- The bytes of an object as they are placed: its sections and its launch section's structures, with every relocation
applied; none when the loader refuses one. -/
def objectImage (o : ObjectFile) : Option (List (Nat × Byte)) :=
  if o.launch.all recordFits then
    o.relocs.foldlM (fun bs r => applyReloc r bs) (o.bytes ++ (match o.launch with | some r => launchBytes r | none => []))
  else none
/-- The virtual address of an object's parameter block, 0 for none. -/
def objectLpb (o : ObjectFile) : Nat := match o.launch with | some r => 64 * r.lpbAt | none => 0
/-- LOAD: the object's bytes are placed with its relocations applied, and its .pattern records kept for its launches.
(DESIGN CHOICE, log 15; DEDUCED, log 46.) -/
def execLoad (ring : Nat) (s : State) : Host.Outcome State Fault Refusal :=
  hostRow 0x02 5 anyCommand ring (fun d s =>
    let root := (d.getD 3 0).toNat
    let low := (d.getD 4 0).toNat
    let size := (d.getD 5 0).toNat
    if !rootOk (d.getD 3 0) || low % 65536 != 0 then s.refuse ring
    else match Config.loadObject (s.bytes (hostKey (d.getD 1 0).toNat) (d.getD 2 0).toNat) low size with
      | none => s.refuse ring
      | some o =>
        match objectImage o, patternList o.patterns with
        | some bytes, some ps =>
          if bytes.all fun e => decide (low ≤ e.1) && decide (e.1 < low + size) && (s.deviceKey root e.1).isSome then
            let s := s.deviceWrite root bytes
            let kept := s.pkg.objects.filter fun x => !(x.1 == root && x.2.1 == objectLpb o)
            let s := { s with pkg := { s.pkg with
              objects := if objectLpb o = 0 then s.pkg.objects else kept ++ [(root, objectLpb o, ps)] } }
            s.complete ring 0 (word o.relocs.length) (word (objectLpb o))
          else s.refuse ring
        | _, _ => s.refuse ring) s
/-- Where code at a virtual address lies, whatever its page. -/
def State.codeTarget (s : State) (root va : Nat) : Option Target :=
  if 2 ^ 48 ≤ va then none else (s.walkFrom root va).map fun leaf => leafTarget leaf va
/-- The memory of code at a virtual address. -/
def State.codeKey (s : State) (root va : Nat) : Option Nat := (s.codeTarget root va).map Target.key
/-- A virtual address can be reached (R333): it has a translation, and its package a route over a link that is up (R337). -/
def State.reaches (s : State) (root va : Nat) : Bool := (s.codeTarget root va).any fun t => s.targetCause t 1 == 0
/-- Code written by firmware at virtual addresses, byte by byte. -/
def State.codeWrite (s : State) (root : Nat) : List (Nat × Byte) → State
  | [] => s
  | (va, b) :: rest =>
    (match s.codeKey root va with
      | some k => s.ownerWrite k [b]
      | none => s).codeWrite root rest
/-- The lines that hold code at these memory keys leave every instruction cache. (DEDUCED, log 48.) -/
def State.dropCode (s : State) (keys : List Nat) : State :=
  let hits := fun (l : ILine) => match s.codeKey l.root (64 * l.va) with
    | some k => keys.contains (k / 64)
    | none => false
  { s with teams := s.teams.map fun e => (e.1, { e.2 with icache := e.2.icache.filter fun l => !hits l }) }
/-- PATCH. (DEDUCED, log 48.) -/
def execPatch (ring : Nat) (s : State) : Host.Outcome State Fault Refusal :=
  hostRow 0x03 4 anyCommand ring (fun d s =>
    let va := (d.getD 1 0).toNat
    let root := (d.getD 2 0).toNat
    let n := (d.getD 4 0).toNat
    if va % 4 ≠ 0 ∨ rootOk (d.getD 2 0) = false ∨ n = 0 ∨ 4096 < n then s.refuse ring
    else
      let bytes := bytesAt va (s.bytes (hostKey (d.getD 3 0).toNat) (4 * n))
      if bytes.all fun e => s.reaches root e.1 then
        let keys := (bytes.filterMap fun e => (s.codeKey root e.1).map (· / 64)).eraseDups
        ((s.codeWrite root bytes).dropCode keys).complete ring 0 (word n) 0
      else s.refuse ring) s
/-- LAUNCH: the launch waits for the dispatcher; its handle has bit 15 clear. An LPB that cannot be reached is refused (R333). -/
def execHostLaunch (ring : Nat) (s : State) : Host.Outcome State Fault Refusal :=
  hostRow 0x04 4 anyCommand ring (fun d s =>
    let lpb := (d.getD 1 0).toNat
    let root := (d.getD 2 0).toNat
    if !rootOk (d.getD 2 0) || !s.reaches root lpb ||
        fld (d.getD 3 0) 8 56 != 0 then s.refuse ring
    else
      let handle := s.disp.hostSeq
      let q : LaunchReq :=
        { handle := handle, lpb := lpb, root := root, wpdie := fld (d.getD 3 0) 0 8
          wpnode := (s.hostWords (d.getD 4 0).toNat 8).map BitVec.toNat, patterns := s.patternsOf root lpb }
      let s := { s with disp := { s.disp with
        hostQ := s.disp.hostQ ++ [q], hostSeq := (s.disp.hostSeq + 1) % 32768 } }
      s.complete ring 0 (word handle) 0) s

/-! ### ABORT (R332, R333) -/

/-- The request that a freed thread's wait has out is withdrawn (R148). An offer or request pending at a connector stays there
and can still fire (DESIGN CHOICE, log 91). -/
def State.dropWait (s : State) (tk : Nat) : State :=
  match (s.thread tk).wait? with
  | none => s
  | some w => match s.req? w.req with
    | none => s
    | some r => if r.stage = .port ∨ r.stage = .bounced then s.delReq r.id else s.sendWithdrawal r
/-- A thread freed without waiting; its task's count is left to the caller. (DEDUCED, log 50.) -/
def State.abortThread (s : State) (tk : Nat) : State := ((s.dropWait tk).cancelBindings tk).freeThread tk
/-- A stored context whose migration is still open at its source: its copy is dropped by a discard (R288). -/
def State.shadowed (s : State) (c : Ctx) : Bool :=
  c.okAt.isNone && (s.core c.src).shadows.any fun h => h.serial == c.serial
/-- The contexts of a launch in arrival queues, paddocks and shadow entries dropped, with their number. -/
def State.abortContexts (s : State) (key : Nat) : Nat × State :=
  let gone := fun (c : Ctx) => c.launch == key && !s.shadowed c
  let n := (s.cores.map fun e => (e.2.arrivals.filter gone).length + (e.2.paddock.filter gone).length +
    (e.2.shadows.filter fun h => h.ctx.launch == key).length).sum
  (n, { s with cores := s.cores.map fun e => (e.1, { e.2.dropStored gone with
    shadows := e.2.shadows.filter fun h => h.ctx.launch != key }) })
/-- What the allocators still hold for a launch's tasks given up. -/
def State.abortSeats (s : State) (key : Nat) : State :=
  let mine := fun (p : Placing) => match s.task? p.task with | some t => t.launch == key | none => false
  let s' := (s.disp.placing.filter mine).foldl (fun s p => p.todo.foldl (fun s q =>
    s.modCore q.core fun c => { c with holds := SMap.del c.holds q.slot }) s) s
  { s' with disp := { s'.disp with placing := s.disp.placing.filter fun p => !mine p } }
/-- The launch stopped: its seats, contexts, threads, join-pattern entries and tasks are gone. The threads freed are
counted. (DEDUCED, log 50.) -/
def State.abortLaunch (s : State) (key : Nat) (l : Launch) : Nat × State :=
  let s := s.abortSeats key
  let (n, s) := s.abortContexts key
  let tks := (s.threads.filter fun e => e.2.launch == key).map (·.1)
  let s := l.teams.foldl (fun s t => (List.range 4).foldl (fun s c => s.clearEntries (coreAt t c) key) s) s
  let s := tks.foldl (fun s tk => s.abortThread tk) s
  let ts := (s.disp.tasks.filter fun e => e.2.launch == key).map (·.1)
  let s := ts.foldl (fun s t => s.closeTask t) s
  (n + tks.length, s.modLaunch key fun l => { l with
    aborted := true, held := false, saved := [], bank := [] })
/-- ABORT: a launch that is not yet taken leaves its queue. (DEDUCED, log 50.) -/
def execAbort (ring : Nat) (s : State) : Host.Outcome State Fault Refusal :=
  hostRow 0x07 1 anyCommand ring (fun d s =>
    let h := (d.getD 1 0).toNat
    let waits := fun (q : LaunchReq) => q.handle == h
    match s.launchByHandle h with
    | some (key, l) =>
      let (n, s) := s.abortLaunch key l
      s.complete ring 0 (word n) 0
    | none =>
      if (s.disp.hostQ ++ s.disp.devQ).any waits then
        { s with disp := { s.disp with
          hostQ := s.disp.hostQ.filter fun q => !waits q, devQ := s.disp.devQ.filter fun q => !waits q } }.complete ring 0 0 0
      else s.refuse ring) s

/-! ### MAP (R332, R333) -/

/-- The table entry at a level's table for a virtual address. -/
def entryKey (table va lo len : Nat) : Nat := table + 8 * (va / 2 ^ lo % 2 ^ len)
/-- A leaf written at its level: missing tables on the way are made from firmware's pages; none when a leaf or a malformed
entry stands in the way. (DESIGN CHOICE, log 15; DEDUCED, log 47.) -/
def State.mapLeaf (s : State) (va : Nat) (leaf : Word) (size : Nat) : Nat → List (Nat × Nat × Option Nat) → Option State
  | _, [] => none
  | table, (lo, len, leafSize) :: rest =>
    let k := entryKey table va lo len
    if leafSize = some size then some (s.ownerWrite k (toBytes 8 leaf.toNat))
    else
      let e := word (s.load k 8)
      match tableOf e with
      | some t => s.mapLeaf va leaf size t rest
      | none =>
        if e ≠ 0 then none
        else
          let page := 4096 * (Config.tablePage s.pkg.tablePages % 2 ^ 28)
          let s := { s with pkg := { s.pkg with tablePages := s.pkg.tablePages + 1 } }
          let s := s.setBytes page (List.replicate 4096 0)
          let s := s.ownerWrite k (toBytes 8 (page + at' 4 3 + 1))
          s.mapLeaf va leaf size page rest
/-- Leaves written for successive pages. -/
def State.mapLeaves (s : State) (root size : Nat) : Nat → List Word → Option State
  | _, [] => some s
  | va, leaf :: rest =>
    match s.mapLeaf va leaf size root walkLevels with
    | none => none
    | some s => s.mapLeaves root size (va + pageBytes size) rest
/-- The TLB entries of a launch removed, on its teams and on every channel core (R129, R332). -/
def State.dropLaunchTlb (s : State) (key : Nat) (l : Launch) : State :=
  let s := l.teams.foldl (fun s n => s.dropTlb n (fun _ => true) fun _ => true) s
  s.teams.foldl (fun s e => if 256 ≤ e.1 then s.dropTlb e.1 (fun x => x.launch == key) fun _ => false else s) s
/-- Walks of a launch's nodes that are older than a mark are still in progress. -/
def State.walksOf (s : State) (key : Nat) (l : Launch) (mark : Nat) : Bool :=
  s.teams.any fun e => (l.teams.contains e.1 || decide (256 ≤ e.1)) &&
    e.2.walks.any fun k => decide (k.id < mark) && (decide (e.1 < 256) || k.launch == key)
/-- The invalidation of a MAP goes on once the walks that were in progress have finished. (DEDUCED, log 41.) -/
def State.mapFinish (s : State) (ring n : Nat) (h : Word) : State :=
  match s.launchByHandle h.toNat with
  | none => s.complete ring 0 (word n) 0
  | some (key, l) =>
    if s.walksOf key l (s.hring ring).mark then s else (s.dropLaunchTlb key l).complete ring 0 (word n) 0
/-- MAP: the entries are written, then the launch's TLB entries are removed as TLBI removes them. -/
def execMap (ring : Nat) (s : State) : Host.Outcome State Fault Refusal :=
  hostRow 0x08 5 anyCommand ring (fun d s =>
    let h := d.getD 1 0
    let root := (d.getD 2 0).toNat
    let va := (d.getD 3 0).toNat
    let n := (d.getD 4 0).toNat
    if (s.hring ring).stage = 1 then s.mapFinish ring n h
    else if !handleOk h || !rootOk (d.getD 2 0) || n == 0 || decide (4096 < n) then s.refuse ring
    else
      let leaves := s.hostWords (d.getD 5 0).toNat n
      let size := fld (leaves.getD 0 0) 4 2
      if size = 3 ∨ va % pageBytes size ≠ 0 ∨ 2 ^ 48 < va + n * pageBytes size ∨
          (leaves.all fun w => !bitAt w 0 || (leafOk w && fld w 4 2 == size)) = false ∨
          (h.toNat ≠ 0xFFFF ∧ (s.launchByHandle h.toNat).isNone = true ∧ (s.queued? h.toNat).isNone = true) then s.refuse ring
      else match s.mapLeaves root size va leaves with
        | none => s.refuse ring
        | some s =>
          let s := match s.launchByHandle h.toNat with
            | some (key, l) => s.dropLaunchTlb key l
            | none => s
          (s.modRing ring fun q => { q with stage := 1, mark := s.nextId }).mapFinish ring n h) s

/-! ### LIFECYCLE, FWSTAGE, LOGREAD, and unknown commands (R332, R333, R336) -/

/-- A life-cycle change that R336 allows. -/
def lifecycleOk (old new : Nat) : Bool :=
  (old == 0 && new == 1) || (old == 1 && (new == 2 || new == 3)) || (old == 2 && new == 3)
/-- A byte of this device's memory: not a peer package's, and not the host's. -/
def ownKey (key : Nat) : Bool := decide (key < 2 ^ 40) || (decide (2 ^ 48 ≤ key) && decide (key < 2 ^ 60))
/-- Every memory and register file of the device wiped (R144, R336): data zero, full/empty bits full, the spill areas empty; the
contexts of a paddock are in its memory. (DEDUCED, log 49.) -/
def State.wipe (s : State) : State :=
  { s with
    mem := s.mem.filter fun c => !ownKey c.1
    fe := s.fe.filter fun e => !ownKey (8 * e.1)
    cores := s.cores.map fun e => (e.1, { e.2 with
      spill := [], mports := e.2.mports.map fun p => { p with reserved := 0 } })
    oldBytes := [], rf := [], sregs := [], spend := []
    teams := s.teams.map fun e => (e.1, { e.2 with
      l1 := [], icache := [], tlb := [], mx := { e.2.mx with acc := [], corr := [] } })
    slices := s.slices.map fun e => (e.1, { e.2 with lines := [] }) }
/-- LIFECYCLE. (DEDUCED, log 49.) -/
def execLifecycle (ring : Nat) (s : State) : Host.Outcome State Fault Refusal :=
  hostRow 0x09 1 anyCommand ring (fun d s =>
    let v := (d.getD 1 0).toNat
    if lifecycleOk s.pkg.lifecycle v then
      let s := s.wipe
      { s with pkg := { s.pkg with lifecycle := v } }.complete ring 0 (word v) 0
    else s.refuse ring) s
/-- What the host reads of a byte in an image that PREEMPT or CTXSV has written: in DEVELOP the byte at a virtual address under
a PTROOT or at an offset of a scratchpad, in any other state nothing (R336). The manual gives no command for it.
(DESIGN CHOICE, log 49.) -/
def State.hostReadsImage (s : State) (root va : Nat) : Option Byte :=
  if s.pkg.lifecycle = 1 then (s.deviceKey root va).map s.byte else none
/-- The same for an image in a scratchpad. (DESIGN CHOICE, log 49.) -/
def State.hostReadsScratch (s : State) (core off : Nat) : Option Byte :=
  if s.pkg.lifecycle = 1 ∧ off < s.scratchSize core then some (s.byte (sramKey (nodeOf core) off)) else none
/-- FWSTAGE: the image takes the place in the flash that its kind has. (DESIGN CHOICE, log 15.) -/
def execFwstage (ring : Nat) (s : State) : Host.Outcome State Fault Refusal :=
  hostRow 0x0A 2 anyCommand ring (fun d s =>
    let img := s.bytes (hostKey (d.getD 1 0).toNat) (d.getD 2 0).toNat
    let p := if Config.isIdentityImage img then { s.pkg with idImage := img } else { s.pkg with flash := img }
    { s with pkg := p }.complete ring 0 (d.getD 2 0) 0) s
/-- LOGREAD. -/
def execLogread (ring : Nat) (s : State) : Host.Outcome State Fault Refusal :=
  hostRow 0x0B 3 anyCommand ring (fun d s =>
    let len := (d.getD 2 0).toNat
    let first := (d.getD 3 0).toNat
    if len % 16 ≠ 0 then s.refuse ring
    else
      let es := (s.pkg.logEntries.drop first).take (len / 16)
      (s.hostWrite (d.getD 1 0).toNat (bytesOfDwords (es.flatMap fun e => [word e.cycle, e.w1]))).complete ring 0
        (word es.length) (word (first + es.length))) s
/-- UNKNOWN_HOST_COMMAND (R332): REFUSED. -/
def execUnknownHostCommand (ring : Nat) (s : State) : Host.Outcome State Fault Refusal :=
  let code := fld ((s.nextCommand ring).getD 0 0) 0 8
  if s.ringReady ring = true ∧ (code = 0 ∨ 0x0B < code) then .next ((s.takeCommand ring).refuse ring) else .next s

/-! ### Reset and boot (R144, R335) -/

/-- The check of a signed image: 0 passed, 1 and 2 a signature failed, 3 its version is too low, 4 unreadable. -/
def imageCheck (img : List Byte) : Nat :=
  match Config.signatureCheck img with
  | 0 => if Config.imageVersion img < Config.fusedMinimum then 3 else 0
  | 1 => 1
  | 2 => 2
  | _ => 4
/-- W of the supervisor that the device operating system installs. -/
def bootW : Nat := 8 * (Config.supervisorW % 12 + 1)
/-- The join-pattern entry 15 of every core (R320). -/
def bootEntry : JEntry :=
  { valid := true, ports := 0x80000000, slot := 0, w := bootW, pc := Config.supervisorPc &&& ~~~3, prio := 3 }
/-- A core as firmware leaves it at boot: its entry 15 with slot 0 reserved, SPILLBASE and PADDOCKBASE. -/
def bootCore (k : Nat) : Core :=
  { jp := List.replicate 15 {} ++ [bootEntry], resv := [(0, (0, bootW))]
    spillBase := Config.spillBase k, paddockBase := Config.paddockBase k }
/-- The machine after a wipe of everything that a reset wipes: what stays is the flash, the fuses and the module's fixed
properties, host memory, peer packages' memory, and what the surroundings still have to do. (DESIGN CHOICE, log 5.) -/
def State.afterReset (s : State) : State :=
  { State.reset with
    mem := s.mem.filter fun c => !ownKey c.1
    fe := s.fe.filter fun e => !ownKey (8 * e.1)
    inputs := s.inputs, draws := s.draws, nextId := s.nextId
    pkg := { ({} : Package) with
      flash := s.pkg.flash, idImage := s.pkg.idImage, absent := s.pkg.absent, clkbin := s.pkg.clkbin
      lifecycle := s.pkg.lifecycle, threshold := s.pkg.threshold, links := s.pkg.links.map fun _ => 0, routes := s.pkg.routes
      poison := [] } }
/-- RESET (R335): the wipe, the two boot checks, and the start-up of the device, which brings the links up.
(DESIGN CHOICE, log 15.) -/
def execReset (s : State) : Host.Outcome State Fault Refusal :=
  let s := s.afterReset
  let p := s.pkg
  let f := imageCheck p.flash
  if f ≠ 0 then .next { s with pkg := { p with bootFail := f, bootImage := 0 } }
  else
    let p := { p with fwVersion := Config.imageVersion p.flash }
    let g := imageCheck p.idImage
    if g ≠ 0 then .next { s with pkg := { p with bootFail := g, bootImage := 1 } }
    else
      let p := { p with
        booted := true, links := p.links.map fun _ => 2, dram := (List.range 192).map fun c => Config.identityDram p.idImage c
        serial := (List.range 32).map fun i => Config.identitySerial p.idImage i }
      .next { s with pkg := p, cores := (List.range 1216).map fun k => (k, bootCore k) }

/-! ### Package links (R337) -/

/-- A request to a peer package over a link. (DEDUCED, log 51.) -/
def State.onLink (s : State) (link rid : Nat) : Bool :=
  match (s.req? rid).bind fun r => r.tgt with
  | some (.peer pa _) => SMap.get? s.pkg.routes (pa / 2 ^ 40) == some link
  | _ => false
/-- An answer on its way over a link that has gone down: a fault with cause 7. (DEDUCED, log 51.) -/
def State.cutPayload (s : State) (link : Nat) (p : Payload) : Payload :=
  match p with
  | .land rid _ _ _ _ => if s.onLink link rid then .land rid [] 7 false [] else p
  | .ack rid _ => if s.onLink link rid then .ack rid 7 else p
  | .old rid _ _ => if s.onLink link rid then .old rid 0 7 else p
  | .answer rid _ _ _ => if s.onLink link rid then .answer rid (16 + 7) 0 false else p
  | p => p
/-- The requests that wait at owners of a peer over a link that has gone down are answered with cause 7. (DEDUCED, log 51.) -/
def State.cutWaiters (s : State) (link : Nat) : State :=
  (s.waiting.filter fun r => s.onLink link r.id).foldl (fun s r => s.serve r (16 + 7) 0 false) s
/-- LINK_DOWN (R337): accesses that are still on their way find the link down at its end. (DEDUCED, log 51.) -/
def execLinkDown (link : Nat) (s : State) : Host.Outcome State Fault Refusal :=
  let t := s.cutWaiters link
  let t : State := { t with
    packets := t.packets.map fun e => (e.1, { e.2 with payload := s.cutPayload link e.2.payload })
    pkg := { t.pkg with links := t.pkg.links.set link 0 } }
  .next (t.logEntry 4 0 link 0)

end Sys2Proof.Machine
end

