-- ==== Sys2Proof/Machine/Preempt.lean ====
section
/-! DEFINITION. Pre-emption and resumption: the pipeline path (R329, R339, R340) and the general path with its save area
(R330, R331), and what they do to waits (R152, R210, R227, R236, R269, R292) and engines (R210, R313). -/

namespace Sys2Proof.Machine

/-! ### Loader lists (R333) -/

/-- An entry of a loader list: its two dwords, well formed, with a core that exists; `restart` allows a value in the
second. -/
def State.loaderOk (s : State) (restart : Bool) (a b : Word) : Bool :=
  let die := fld a 0 3
  let num := fld a 8 6
  fld a 3 5 == 0 && fld a 14 2 == 0 && fld a 18 6 == 0 && fld a 30 2 == 0 && fld a 39 25 == 0 && (restart || b == 0) &&
    s.nodeExists die num && (decide (die < 4) || fld a 16 2 == 0) && decide (120 ≤ fld a 32 7) &&
    (decide (124 ≤ fld a 32 7) || (neighbour (nodeAt die num) (nbrKeyDir (fld a 32 7 - 120))).isSome)
/-- The loader slot of an entry. -/
def loaderSlot (a : Word) : Nat := 64 * coreAt (nodeAt (fld a 0 3) (fld a 8 6)) (fld a 16 2) + fld a 24 6
/-- The two dwords of each of n entries. -/
def State.loaders (s : State) (ha n : Nat) : List (Word × Word) :=
  (List.range n).map fun i => let w := s.hostWords (ha + 16 * i) 2; (w.getD 0 0, w.getD 1 0)
/-- A value pushed into the queue that an entry names, as the upstream or writer slot would. -/
def State.feed (s : State) (a v : Word) (tag : Fin 3) : State :=
  let tk := loaderSlot a
  if fld a 32 7 < 124 then s.pushNeighbourAs (4 * tk + (fld a 32 7 - 120)) v tag
  else s.pushRoleAs (coreOf tk) (fld a 32 7 - 124) v tag

/-! ### PREEMPT with path 0 (R329, R339) -/

/-- A command's path is this one. -/
def pathIs (p : Nat) (d : List Word) : Bool := fld (d.getD 2 0) 0 1 == p
/-- The slots that must report: those that hold a thread of the launch, but for slots reserved by join patterns. -/
def State.stageSlots (s : State) (key : Nat) : List Nat :=
  (s.threads.filter fun e => e.2.launch == key &&
    (SMap.get? (s.core (coreOf e.1)).resv (slotOf e.1)).isNone).map (·.1)
/-- The teams that hold a task of a launch, in ascending package number. -/
def State.taskTeams (s : State) (key : Nat) : List Nat :=
  sortBy (fun a b => decide (packageNumber a ≤ packageNumber b))
    ((s.disp.tasks.filter fun e => e.2.launch == key).map fun e => e.2.team)
/-- The matrix and copy engines of the launch's tasks are idle and their queues empty, the result queues too (R210, R313). -/
def State.enginesIdle (s : State) (key : Nat) : Bool :=
  ((s.taskTeams key).all fun n =>
    let m := (s.team n).mx
    m.dq.all (·.isEmpty) && m.startQ.isEmpty && m.active.isEmpty && m.results.all (·.isEmpty) &&
      (List.range 4).all fun c => (s.core (coreAt n c)).copyQ.isEmpty) &&
    !(s.engines.any fun e => e.2.active.any fun a => a.cmd.launch == key) &&
    !(s.cores.any fun e => (e.2.bankQ.any fun c => c.launch == key) ||
      (match e.2.bankRun with | some a => a.cmd.launch == key | none => false))
/-- Every role and neighbour queue of the teams that hold a task of the launch is empty. -/
def State.queuesEmpty (s : State) (key : Nat) : Bool :=
  ((s.taskTeams key).all fun n => (List.range 4).all fun c => (s.core (coreAt n c)).roles.all fun q => q.taken == 0) &&
    !(s.nbr.any fun e => (s.taskTeams key).contains (nodeOf (coreOf (nbrKeySlot e.1))))
/-- Keys in the order of package team, core and slot. -/
def saveOrder (tks : List Nat) : List Nat :=
  sortBy (fun a b =>
    let k := fun t => (if isChannel (coreOf t) then 256 + nodeOf (coreOf t) else packageNumber (nodeOf (coreOf t))) * 256 +
      64 * coreInTeam (coreOf t) + slotOf t
    decide (k a ≤ k b)) tks
/-- The image offsets of slots, one after another on each node from an offset on. (DEDUCED, log 52.) -/
def State.imagePlaces (s : State) (offset : Nat) : List Nat → List (Nat × Nat) → List (Nat × Nat)
  | [], done => done
  | t :: rest, done =>
    let start := (done.filter fun e => nodeOf (coreOf e.1) == nodeOf (coreOf t)).foldl
      (fun m e => max m (e.2 + imageBytes (s.thread e.1).w)) ((offset + 63) / 64 * 64)
    s.imagePlaces offset rest (done ++ [(t, start)])
/-- The images of the slots lie in the scratchpads. (DEDUCED, log 52.) -/
def State.imagesFit (s : State) (places : List (Nat × Nat)) : Bool :=
  places.all fun e => decide (e.2 + imageBytes (s.thread e.1).w ≤ s.scratchSize (coreOf e.1))
/-- The cores whose s registers the pipeline path saves: those of the launch's teams that hold a task, and those of the saved
slots (R329). -/
def State.pipeCores (s : State) (key : Nat) (tks : List Nat) : List Nat :=
  (((s.disp.tasks.filter fun e => e.2.launch == key).flatMap fun e => (List.range 4).map fun c => coreAt e.2.team c) ++
    (saveOrder tks).map coreOf).eraseDups
/-- The saving of a stopped pipeline: BROKEN when a queue is not empty, else the images and the s registers.
(DEDUCED, log 52.) -/
def State.savePipe (s : State) (r key offset : Nat) (loaders : List Word) (tks : List Nat) : State :=
  if !s.queuesEmpty key then s.complete r 3 0 0
  else
    let places := s.imagePlaces offset (saveOrder tks) []
    if !s.imagesFit places then s.refuse r
    else
      let p : PipeSave :=
        { loaders := loaders, offset := offset, slots := places
          sregs := (s.pipeCores key tks).map fun k => (k, (List.range 16).map fun n => s.readS k n) }
      let s := places.foldl (fun s e => s.saveImage e.1 (word e.2)) s
      (s.modLaunch key fun l => { l with pipe := some p }).complete r 0 (word places.length) 0
/-- A pipeline has stopped: every slot has reported, and nothing of it moves any more, no write of an s register that is saved either (R340). -/
def State.pipeStopped (s : State) (key : Nat) (tks : List Nat) : Bool :=
  (tks.all fun t => (s.thread t).run == .halted 7 && s.saveReady t) && s.enginesIdle key &&
    !(s.timers.any fun t => carriesTo (s.taskTeams key) t.mv) && !(s.todo.any fun mv => carriesTo (s.taskTeams key) mv) &&
    !(s.spend.any fun e => (s.pipeCores key tks).contains (e.key / 16))
/-- The cycle in which a command's bound in units of 1,024 cycles expires. -/
def State.commandBound (s : State) (w : Word) : Option Nat := if w = 0 then none else some (s.cycle + 1024 * w.toNat)
/-- PREEMPT_PIPELINE (R329, R339): stop tokens, then the wait for every report, then the images. (DEDUCED, log 52.) -/
def execPreemptPipeline (ring : Nat) (s : State) : Host.Outcome State Fault Refusal :=
  hostRow 0x05 6 (pathIs 0) ring (fun d s =>
    let n := (d.getD 5 0).toNat
    let offset := (d.getD 4 0).toNat
    let ls := s.loaders (d.getD 6 0).toNat (min n 256)
    match s.launchByHandle (d.getD 1 0).toNat with
    | none => s.refuse ring
    | some (key, l) =>
      let tks := s.stageSlots key
      if (s.hring ring).stage = 1 then
        if s.pipeStopped key tks then s.savePipe ring key offset (ls.map (·.1)) tks else s
      else if !handleOk (d.getD 1 0) || fld (d.getD 2 0) 1 63 != 0 || n == 0 || decide (256 < n) || l.held ||
          !(ls.all fun e => s.loaderOk false e.1 e.2) || !s.imagesFit (s.imagePlaces offset (saveOrder tks) []) then
        s.refuse ring
      else
        (ls.foldl (fun s e => s.feed e.1 0 2) s).modRing ring fun q =>
          { q with stage := 1, deadline := s.commandBound (d.getD 3 0) }) s

/-! ### RESUME with path 0 (R340) -/

/-- Every saved image loaded into its slot; none when one is refused. -/
def State.loadImages (s : State) : List (Nat × Nat) → Option State
  | [] => some s
  | (t, b) :: rest =>
    match s.loadImage (coreOf t) (word (slotOf t)) (word b) with
    | none => none
    | some s => s.loadImages rest
/-- The s registers of a core restored. -/
def State.restoreS (s : State) (core : Nat) (ws : List Word) : State :=
  (List.range 16).foldl (fun s n =>
    { s with sregs := SMap.putD s.sregs (16 * core + n) (ws.getD n 0) 0
             spend := s.spend.filter fun e => e.key != 16 * core + n }) s
/-- RESUME_PIPELINE (R340): images and s registers, then the restart values, then the slots in order. -/
def execResumePipeline (ring : Nat) (s : State) : Host.Outcome State Fault Refusal :=
  hostRow 0x06 6 (pathIs 0) ring (fun d s =>
    let n := (d.getD 5 0).toNat
    let ls := s.loaders (d.getD 6 0).toNat (min n 256)
    match s.launchByHandle (d.getD 1 0).toNat with
    | none => s.refuse ring
    | some (key, l) =>
      match l.pipe with
      | none => s.refuse ring
      | some p =>
        if !handleOk (d.getD 1 0) || fld (d.getD 2 0) 1 63 != 0 || d.getD 3 0 != 0 || decide (256 < n) || l.aborted ||
            p.loaders != ls.map (·.1) || p.offset != (d.getD 4 0).toNat || !(ls.all fun e => s.loaderOk true e.1 e.2) then
          s.refuse ring
        else match s.loadImages p.slots with
          | none => s.refuse ring
          | some s =>
            let s := p.sregs.foldl (fun s e => s.restoreS e.1 e.2) s
            let s := ls.foldl (fun s e => s.feed e.1 e.2 0) s
            let s := p.slots.foldl (fun s e => s.restart e.1 false) s
            (s.modLaunch key fun l => { l with pipe := none }).complete ring 0 (word p.slots.length) 0) s
/-- PREEMPT_TIMEOUT (R329): the command's bound has expired; the subject is the ring. -/
def State.preemptExpired (s : State) (r : Nat) : Bool :=
  let q := s.hring r
  q.stage == 1 && (match q.cmd with | some d => fld (d.getD 0 0) 0 8 == 5 | none => false) &&
    match q.deadline with
    | some c => decide (c ≤ s.cycle)
    | none => false

/-! ### The general path: stopping (R152, R210, R227, R236, R269, R292, R330) -/

/-- A PUT or TAKE withdrawn (R227, R236). -/
def State.withdrawPort (s : State) (t : Nat) (w : Wait) : State :=
  if w.stage = 0 then s.haltWait t w false
  else if w.gone then s
  else
    let c := (s.core (coreOf t)).cport (waitPort w.instr)
    (s.modWait t fun w => { w with gone := true }).flitHome t w 2 c.node c.conn c.bport (waitPort w.instr) 0 [] 0
/-- A parked instruction stopped by the general path: withdrawn as its rule says, or left to complete.
(DEDUCED, log 53.) -/
def State.stopWait (s : State) (t : Nat) (w : Wait) : State :=
  let m := s.modThread t fun th => { th with stopReq := some 31 }
  match w.instr with
  | .ldfe _ _ _ _ | .ldff _ _ _ _ | .stfe _ _ _ _ | .stff _ _ _ _ | .barw _ _ _ _ | .waitw _ _ _ _ _ | .gwait _ _ _ _ =>
    (m.modWait t fun w => { w with reissue := true }).withdrawWait t w
  | .put _ _ _ _ | .take _ _ _ _ => (m.modWait t fun w => { w with reissue := true }).withdrawPort t w
  | .spawn _ _ _ _ =>
    (s.modTask (s.thread t).task fun k => { k with budget := k.budget + 1 }).haltWait t w false
  | .recv _ _ _ _ | .taga _ _ _ _ | .waitm _ _ _ _ | .mpush _ _ _ _ | .mfence _ _ | .mring _ _ _ | .fence _ _ _
  | .migrate _ _ | .launch _ _ _ | .wfe _ _ _ _ | .tlbi _ _ _ | .eret _ _ | .ctxsv _ _ _ _ | .cpys _ _ _ _
  | .bmv _ _ _ _ | .bfence _ _ => s.haltWait t w false
  | .cpyx _ _ _ _ => if w.stage = 0 then s.haltWait t w false else m
  | .quit _ | .exit _ _ => if (s.thread t).mpops = [] then m else s.haltWait t w false
  | _ => m
/-- A thread stopped by the general path. (DEDUCED, log 53.) -/
def State.stopGeneral (s : State) (t : Nat) : State :=
  match (s.thread t).wait? with
  | some w => s.stopWait t w
  | none => s.stopThread t 31
/-- A CPYX whose command is still queued: it is saved as waiting (R313, Table SY-10). -/
def State.waitsQueued (s : State) (t : Nat) : Bool :=
  match (s.thread t).wait? with
  | none => false
  | some w => match w.instr with
    | .cpyx _ _ _ _ => w.stage == 1 && (s.core (coreOf t)).copyQ.any fun c => c.wid == w.id
    | _ => false
/-- A thread is stopped. -/
def State.isStopped (s : State) (t : Nat) : Bool := s.isHalted t || s.waitsQueued t
/-- A step that will act on a thread, core or queue of one of these teams. -/
def actsOn (teams : List Nat) (mv : Move) : Bool :=
  let core := fun k => teams.contains (nodeOf k)
  match mv with
  | .ev .dividerWrite j | .ev .normaliserWrite j | .ev .slotZeroingDone j => core (coreOf j.n)
  | .ev .spillRefill j | .ev .paddockMove j => core j.n
  | .bank op | .ringOp op => core (coreOf op.tk)
  | .ev .neighbourValueArrival j | .ev .neighbourReturn j | .ev .auditSend j | .ev .auditReceipt j
  | .ev .counterResync j | .ev .resyncAnswer j => core (coreOf (nbrKeySlot j.n))
  | _ => false
/-- A core of a stopped team holds still. -/
def State.coreStill (s : State) (k : Nat) : Bool :=
  let c := s.core k
  c.zeroing.isEmpty && c.moveDone.isNone && (c.roles.all fun q => q.reserved == 0) &&
    (c.mports.all fun p => p.reserved == 0) && c.inputQ.isEmpty && c.storeBuf.isEmpty && c.inbox.isEmpty &&
    !(s.spend.any fun e => e.key / 16 == k)
/-- A stopped team holds still (R210, R313). -/
def State.teamStill (s : State) (n : Nat) : Bool :=
  let t := s.team n
  t.mx.startQ.isEmpty && t.mx.active.isEmpty && (t.vq.all (·.isEmpty)) && t.vfly.isEmpty &&
    (t.conns.all fun c => !c.stopping) && ((List.range 4).all fun c => s.coreStill (coreAt n c)) &&
    !(s.engines.any fun e => e.2.active.any fun a => cpKind a.cmd.words == 3 && cpTeam a.cmd.words == n)
/-- Something of the launch is still on its way, apart from what is saved. -/
def State.generalMoving (s : State) (key : Nat) (teams : List Nat) : Bool :=
  (s.packets.any fun e => match e.2.payload with
    | .message k _ _ _ _ _ l => l == key || teams.contains (nodeOf k)
    | .migrate _ c => c.launch == key
    | .flit _ n _ _ _ _ _ _ _ _ => teams.contains n
    | .done _ tk _ _ _ _ => teams.contains (nodeOf (coreOf tk))
    | .unbind k _ n _ => teams.contains n || teams.contains (nodeOf k)
    | _ => false) ||
    (s.timers.any fun t => actsOn teams t.mv) || (s.todo.any fun mv => actsOn teams mv) ||
    (s.reqs.any fun e => e.2.launch == key || teams.contains e.2.node) ||
    (s.engines.any fun e => e.2.active.any fun a => a.cmd.launch == key) ||
    (s.cores.any fun e => match e.2.bankRun with | some a => a.cmd.launch == key | none => false)
/-- The threads of a launch. -/
def State.launchThreads (s : State) (key : Nat) : List Nat := (s.threads.filter fun e => e.2.launch == key).map (·.1)
/-- The threads that a general pre-emption stops: those of the launch, and every other on the teams that it stops (R292, R330). -/
def State.toStop (s : State) (key : Nat) : List Nat :=
  (s.threads.filter fun e => e.2.launch == key || (s.taskTeams key).contains (nodeOf (coreOf e.1))).map (·.1)
/-- The end of a launch's pre-emption lets a thread run on: no other pre-emption holds its launch or its team. -/
def State.letsRun (s : State) (key t : Nat) : Bool :=
  let k := (s.thread t).launch
  (k == key || (match s.launch? k with | some l => !l.held | none => true)) && !(s.team (nodeOf (coreOf t))).stopped
/-- No thread of the launch is still to be placed. -/
def State.noneToPlace (s : State) (key : Nat) : Bool :=
  !(s.disp.placing.any fun p => match s.task? p.task with | some t => t.launch == key | none => false)
/-- Quiescence of the general path (R288, R330). (DEDUCED, log 53.) -/
def State.generalQuiet (s : State) (key : Nat) : Bool :=
  let teams := s.taskTeams key
  s.noneToPlace key && s.disp.inTransit == 0 && (s.toStop key).all s.isStopped && teams.all s.teamStill &&
    !s.generalMoving key teams

/-! ### The save area (R331, Tables SY-10 and SY-11) -/

/-- A list padded or cut to n doublewords. -/
def fitTo (n : Nat) (l : List Word) : List Word := (List.range n).map fun i => l.getD i 0
/-- The slots of a core that hold a thread. -/
def State.coreSlots (s : State) (k : Nat) : List Nat := (List.range 64).filter fun z => (s.thread? (64 * k + z)).isSome
/-- The doublewords of a slot's image. -/
def State.imageLen (s : State) (t : Nat) : Nat := 104 + (s.thread t).w
/-- The offset in a core block of a slot's image. -/
def State.imageOffset (s : State) (k z : Nat) : Nat :=
  8 * (152 + (((s.coreSlots k).filter fun y => decide (y < z)).map fun y => s.imageLen (64 * k + y)).sum)
/-- A slot's two doublewords in the slot map: a halt by firmware or by CTXLD is by no trap kind, and a CPYX whose command is
queued waits and is not halted (Table SY-11). (DEDUCED, log 80.) -/
def State.slotMap (s : State) (k z : Nat) : List Word :=
  let t := 64 * k + z
  let gen := SMap.getD (s.core k).gens z 0
  match s.thread? t with
  | none => [word (at' 32 gen), 0]
  | some th =>
    let halt := match th.run with | .halted n => 1 + 2 * (if n ≤ 31 then n else 0) | _ => 0
    [word (1 + at' 1 halt + at' 8 (th.w / 8) + at' 16 th.base + at' 32 gen), word (s.imageOffset k z)]
/-- A queue entry's two doublewords. -/
def entryWords (e : QEntry) : List Word := [e.v, word e.tag]
/-- An inbound neighbour queue of a slot, with the counters of its direction. -/
def State.nbrWords (s : State) (k : Nat) : List Word :=
  let q := s.nbrQueue k
  fitTo 8 (q.flatMap entryWords) ++
    [word q.length, word (s.nbrRoom k + at' 16 (SMap.getD s.nbrSent k 0) + at' 32 (SMap.getD s.nbrPops k 0))]
/-- A role queue. -/
def roleWords (q : RoleQ) : List Word := fitTo 16 (q.entries.flatMap entryWords) ++ [q.config, word q.entries.length]
/-- A message port: its owner setting as the C of MPCFG with flush 0. -/
def portWords (p : Nat) (q : MPort) : List Word :=
  fitTo 8 (q.msgs.flatMap fun m => [m.w0, m.w1]) ++
    [word q.msgs.length, word (p + at' 8 q.ownerSlot + at' 14 (bit q.owned))]
/-- A join-pattern entry: D0 and D1 of R264, and its pass count. -/
def patternWords (e : JEntry) : List Word :=
  [word (e.ports.toNat + at' 32 e.slot + at' 40 e.prio + at' 44 (e.w / 8)), e.pc.zeroExtend 64,
   word (e.pass + at' 8 (bit e.valid)), 0]
/-- A core block. -/
def State.coreBlock (s : State) (k : Nat) : List Word :=
  let c := s.core k
  ((List.range 16).map fun n => s.readS k n) ++ pad64 [c.feretry.zeroExtend 64, c.evt.zeroExtend 64] ++
    ((List.range 64).flatMap fun z => s.slotMap k z) ++ ((s.coreSlots k).flatMap fun z => s.image (64 * k + z)) ++
    ((List.range 256).flatMap fun i => s.nbrWords (256 * k + i)) ++ (c.roles.flatMap roleWords) ++
    (c.mports.zipIdx.flatMap fun e => portWords e.2 e.1) ++
    pad64 (word c.spill.length :: c.spill.flatMap fun e => [word e.1, e.2.1, e.2.2]) ++
    pad64 (word c.outq.length :: c.outq.flatMap fun m => [m.target, word m.slot, m.w0, m.w1]) ++
    (c.tags.flatMap fun p => [word (p.k + at' 16 p.a), p.mask]) ++
    pad64 ((c.jp.flatMap patternWords) ++ [word c.jptr]) ++
    pad64 (word (c.reserve.length + c.held.length) :: ((c.reserve.flatMap fun e => [e.2.1, e.2.2]) ++
      c.held.flatMap fun e => [e.w0, e.w1]))
/-- Section 2: the scratchpad and its full/empty bits. -/
def State.scratchWords (s : State) (node : Nat) : List Word :=
  let n := (s.team node).s
  ((List.range (n / 8)).map fun i => word (s.load (sramKey node (8 * i)) 8)) ++
    (List.range (n / 512)).map fun j =>
      word (((List.range 64).map fun i => at' i (bit (s.full (sramKey node (8 * (64 * j + i)))))).sum)
/-- A dispatch-queue entry. -/
def State.entryWords4 (s : State) (e : MEntry) : List Word :=
  fitTo 4 e.tcw ++ [word (e.core + at' 8 e.slot + at' 16 e.gen + at' 32 e.seq + at' 48 (bit e.fence)),
    word (bit (!s.released e.tk e.stamp)), 0, 0]
/-- A ring. -/
def ringWords (n : Nat) (g : Ring) : List Word :=
  [word (g.b + at' 28 n + at' 32 g.e + at' 48 g.n), word (g.h + at' 16 g.c + at' 32 g.t + at' 48 g.f), 0, 0]
/-- Section 4: the matrix engine. -/
def State.matrixWords (s : State) (node : Nat) : List Word :=
  let m := (s.team node).mx
  let es := m.dq.flatten
  ((List.range 4352).map fun k => (m.cell k).zeroExtend 64) ++ (m.rings.zipIdx.flatMap fun e => ringWords e.2 e.1) ++
    fitTo 3 m.tables ++ [word (bit m.checked)] ++ ((List.range 4).map fun c => word (m.seqs.getD c 0)) ++
    [word es.length] ++ (es.flatMap s.entryWords4) ++
    (List.range 4).flatMap fun c =>
      let rs := m.results.getD c []
      word rs.length :: rs.flatMap fun r => [r.w0, r.w1, word (r.slot + at' 16 r.gen)]
/-- A binding of a boundary port. -/
def bindWord (b : Option (Nat × Nat)) : Word :=
  match b with
  | none => 0
  | some (k, p) =>
    word (1 + at' 1 (coreInTeam k) + at' 8 (numOfNode (nodeOf k)) + at' 16 (dieOfNode (nodeOf k)) + at' 24 p)
/-- A connector slot. -/
def connWords (c : Conn) : List Word :=
  [word (bit c.loaded + at' 16 (8 * c.image.length))] ++ c.image ++
    ((List.range 8).map fun i => word (ofBytes ((List.range 8).map fun j => BitVec.ofNat 8 (c.ages.getD (8 * i + j) 0)))) ++
    ((List.range 8).flatMap fun i => let b := c.bufs.getD i []; word b.length :: fitTo 8 b) ++
    (List.range 16).map fun p => bindWord (c.binds.getD p none)
/-- A core port. -/
def cportWord (c : CPort) : Word :=
  word (bit c.bound + at' 8 c.slot + at' 16 c.bport + at' 20 c.conn + at' 24 (numOfNode c.node) +
    at' 32 (dieOfNode c.node) + at' 35 (bit c.sink))
/-- Section 5: the hitch engine and the ports of the team's cores. -/
def State.hitchWords (s : State) (node : Nat) : List Word :=
  ((List.range 4).flatMap fun c => connWords (s.conn node c)) ++
    (List.range 4).flatMap fun c => (List.range 16).map fun p => cportWord ((s.core (coreAt node c)).cport p)
/-- The CPYXs of a core that are saved as waiting. -/
def State.queuedX (s : State) (k : Nat) : List (Nat × Wait) :=
  (s.waitsOf k).filter fun e => s.waitsQueued e.1
/-- The queued bank commands of a launch that target a team, with their channel cores. -/
def State.bankFor (s : State) (key node : Nat) : List (Nat × Cmd) :=
  s.cores.flatMap fun e => (e.2.bankQ.filter fun c => c.launch == key && bmTeam c.words == some node).map fun c => (e.1, c)
/-- Section 6: the copy and bank engines. -/
def State.engineWords (s : State) (key node : Nat) : List Word :=
  ((List.range 4).flatMap fun c =>
    let k := coreAt node c
    let q := s.core k
    let xs := s.queuedX k
    [word q.copyQ.length] ++ (q.copyQ.flatMap fun m =>
      fitTo 4 m.words ++ [word (m.seq + at' 16 (slotOf m.tk)), word (bit (!s.released m.tk m.stamp))]) ++
      [word q.copySeq, word xs.length] ++ xs.map fun e =>
        word (slotOf e.1 + at' 16 e.2.count + at' 32 (match e.2.deadline with | some d => d - s.cycle | none => 0))) ++
    ((List.range 4).map fun i => word (((List.range 4).map fun j =>
      at' (16 * j) ((s.team node).domains.getD (4 * i + j) 0)).sum)) ++
    [0, word (s.bankFor key node).length] ++ (s.bankFor key node).flatMap fun e =>
      fitTo 4 e.2.words ++ [word (dieOfNode (nodeOf e.1) + at' 8 (numOfNode (nodeOf e.1)) + at' 16 e.2.seq)]
/-- Section 7: migration. -/
def State.migrationWords (s : State) (node : Nat) : List Word :=
  (List.range 4).flatMap fun i =>
    let k := s.core (coreAt node i)
    [word k.arrivals.length] ++ (k.arrivals.flatMap s.ctxWords) ++ [word k.paddock.length] ++
      (k.paddock.flatMap fun c => s.ctxWords (s.fromPaddock (coreAt node i) c)) ++ [word k.shadows.length] ++ k.shadows.flatMap fun h =>
        s.ctxWords h.ctx ++ [word (dieOfNode (nodeOf h.dst) + at' 8 (numOfNode (nodeOf h.dst)) + at' 16 (coreInTeam h.dst))]
/-- Section 1: the header of a team record. -/
def State.taskWords (s : State) (l : Launch) (node : Nat) : List Word :=
  match (s.team node).task.bind fun t => s.task? t with
  | none => List.replicate 8 0
  | some t => [word l.handle, word t.num, word (t.x + at' 32 t.y), word t.budget, word t.live, word t.succ,
      word (s.team node).s, word (packageNumber node)]
/-- A team record. -/
def State.teamRecord (s : State) (key : Nat) (l : Launch) (node : Nat) : List Word :=
  areaSections 1 [s.taskWords l node, s.scratchWords node, (List.range 4).flatMap fun c => s.coreBlock (coreAt node c),
    s.matrixWords node, s.hitchWords node, s.engineWords key node, s.migrationWords node]
/-- The save area of a launch. -/
def State.saveArea (s : State) (key : Nat) (l : Launch) : List Word :=
  areaOf l.handle ((s.taskTeams key).map fun n => s.teamRecord key l n)

/-! ### Saving and releasing the teams -/

/-- A thread with what is left of the bounds of its pending MPOPs (R210). -/
def Thread.boundsLeft (th : Thread) (cycle : Nat) : Thread :=
  { th with mpops := th.mpops.map fun p => { p with deadline := p.deadline.map (· - cycle) } }
/-- Those bounds from a cycle on. -/
def Thread.boundsFrom (th : Thread) (cycle : Nat) : Thread :=
  { th with mpops := th.mpops.map fun p => { p with deadline := p.deadline.map (cycle + ·) } }
/-- What firmware keeps of a team beside the save area. (DEDUCED, log 54.) -/
def State.keep (s : State) (key node : Nat) : Kept :=
  { team := node, task := ((s.team node).task).getD 0, mark := s.nextId, size := (s.team node).s
    threads := (s.threads.filter fun e => nodeOf (coreOf e.1) == node).map fun e =>
      (coreInTeam (coreOf e.1), slotOf e.1, e.2.boundsLeft s.cycle)
    cores := (List.range 4).map fun c => s.core (coreAt node c)
    mx := (s.team node).mx
    conns := (s.team node).conns.map fun c => (c.loaded, c.launch, c.fired)
    bank := s.bankFor key node, used := s.hitchUse node fun c => c.launch == key }
/-- A core without what belongs to the saved task: its entry 15 with slot 0, and firmware's CSRs, stay. -/
def Core.emptied (c : Core) : Core :=
  { turn := c.turn, spillBase := c.spillBase, paddockBase := c.paddockBase, gens := c.gens
    jp := c.jp.map fun e => if e.valid && e.slot == 0 then e else {}
    resv := c.resv.filter fun e => e.1 == 0, jptr := c.jptr }
/-- A saved team given up: its threads, streams and registers are gone, its task is off it, and its units are empty. -/
def State.releaseTeam (s : State) (key node : Nat) : State :=
  let mine := fun (tk : Nat) => nodeOf (coreOf tk) == node
  let s := { s with
    threads := s.threads.filter fun e => !mine e.1
    streams := s.streams.filter fun e => !mine (e.1 / 8)
    rf := s.rf.filter fun e => nodeOf (e.1 / 2048) != node
    sregs := s.sregs.filter fun e => nodeOf (e.1 / 16) != node
    nbr := s.nbr.filter fun e => !keyOn node e.1
    nbrPops := s.nbrPops.filter fun e => !keyOn node e.1
    nbrFree := s.nbrFree.filter fun e => !keyOn node e.1
    nbrSent := s.nbrSent.filter fun e => !keyOn node e.1
    nbrSync := s.nbrSync.filter fun e => !keyOn node e.1 }
  let s := (List.range 4).foldl (fun s c => s.modCore (coreAt node c) Core.emptied) s
  let s : State := { s with cores := s.cores.map fun e => (e.1, { e.2 with
    bankQ := e.2.bankQ.filter fun c => !(c.launch == key && bmTeam c.words == some node) }) }
  let task := (s.team node).task
  let s := s.modTeam node fun t =>
    { t with mx := {}, conns := t.conns.map fun c => if c.launch = key then {} else c, domains := List.replicate 16 0, l1 := [], stopped := false, task := none }
  match task with
  | some t => s.closeTask t
  | none => s
/-- The stop of the general path undone: the threads it halted run on. (DEDUCED, log 53.) -/
def State.unstop (s : State) (key : Nat) : State :=
  let s := (s.taskTeams key).foldl (fun s n => s.modTeam n fun t => { t with stopped := false }) s
  let s := ((s.toStop key).filter (s.letsRun key)).foldl (fun s t =>
    if (s.thread t).run = .halted 31 then s.resume t false else s.modThread t fun th => { th with stopReq := none }) s
  s.modLaunch key fun l => { l with held := false }
/-- The queued bank commands of a launch that target none of these teams, with their channel cores. -/
def State.bankElsewhere (s : State) (key : Nat) (teams : List Nat) : List (Nat × Cmd) :=
  s.cores.flatMap fun e => (e.2.bankQ.filter fun c => c.launch == key && (match bmTeam c.words with
    | some n => !teams.contains n
    | none => true)).map fun c => (e.1, c)
/-- The completions that commands of other launches, pushed by now, can still send to these teams: the room that a save area
keeps for them behind its records (R313). -/
def State.aimedAt (s : State) (teams : List Nat) : Nat :=
  let aimed := fun (c : Cmd) => cmdNotify c.words && teams.contains (nodeOf (targetCore (cmdTarget c.words)))
  (s.cores.map fun e => (e.2.copyQ.filter aimed).length + (e.2.bankQ.filter aimed).length +
      (match e.2.bankRun with | some a => bit (aimed a.cmd) | none => 0)).sum +
    (s.engines.map fun e => (e.2.active.filter fun a => aimed a.cmd).length).sum
/-- The save of the general path: the area is written, and the teams are released; REFUSED, with the stop undone, when it
cannot be reached. (DEDUCED, log 53.) -/
def State.saveGeneral (s : State) (r key : Nat) (l : Launch) (va : Nat) : State :=
  let area := s.saveArea key l
  let teams := s.taskTeams key
  match s.areaWrite l.root va area with
  | none => (s.unstop key).refuse r
  | some s' =>
    let kept := teams.map fun n => s.keep key n
    let elsewhere := s.bankElsewhere key teams
    let used := 8 * area.length + 64 * ((24 * s.aimedAt teams + 63) / 64)
    let s := teams.foldl (fun s n => s.releaseTeam key n) s'
    let s : State := { s with cores := s.cores.map fun e => (e.1, { e.2 with
      bankQ := e.2.bankQ.filter fun c => c.launch != key }) }
    (s.modLaunch key fun l =>
      { l with saved := kept, savedAt := va, preempted := true, bank := elsewhere }).complete r 0 (word used) 0
/-- A launch that has not been taken is held, or let go: it waits in its queue. -/
def State.holdQueued (s : State) (h : Nat) (on : Bool) : State :=
  let f := fun (q : LaunchReq) => if q.handle = h then { q with held := on } else q
  { s with disp := { s.disp with hostQ := s.disp.hostQ.map f, devQ := s.disp.devQ.map f } }
/-- PREEMPT with path 1 of a launch that has not been taken: it has no task, and its save area has no record.
(DEDUCED, log 53.) -/
def State.preemptQueued (s : State) (r : Nat) (q : LaunchReq) (va : Nat) : State :=
  match s.areaWrite q.root va (areaOf q.handle []) with
  | none => s.refuse r
  | some s => (s.holdQueued q.handle true).complete r 0 64 0
/-- The operands of PREEMPT with path 1 are in their ranges. -/
def generalOk (d : List Word) : Bool :=
  handleOk (d.getD 1 0) && fld (d.getD 2 0) 1 63 == 0 && d.getD 5 0 == 0 && (d.getD 4 0).toNat % 64 == 0
/-- PREEMPT_GENERAL (R330): the launch is held, its threads stop and its engines drain, and its teams are saved. -/
def execPreemptGeneral (ring : Nat) (s : State) : Host.Outcome State Fault Refusal :=
  hostRow 0x05 6 (pathIs 1) ring (fun d s =>
    let va := (d.getD 4 0).toNat
    match s.launchByHandle (d.getD 1 0).toNat with
    | none =>
      match s.queued? (d.getD 1 0).toNat with
      | some q => if generalOk d && !q.held then s.preemptQueued ring q va else s.refuse ring
      | none => s.refuse ring
    | some (key, l) =>
      if (s.hring ring).stage = 1 then
        let s := if s.noneToPlace key then
            (s.toStop key).foldl (fun s t => if s.isStopped t then s else s.stopGeneral t) s
          else s
        if s.generalQuiet key then s.saveGeneral ring key l va else s
      else if !generalOk d || (s.deviceKey l.root va).isNone || l.held || l.refused then s.refuse ring
      else
        let s := s.modLaunch key fun l => { l with held := true }
        let s := (s.taskTeams key).foldl (fun s n => s.modTeam n fun t => { t with stopped := true }) s
        s.modRing ring fun q => { q with stage := 1, deadline := s.commandBound (d.getD 3 0) }) s
/-- PREEMPT_TIMEOUT (R329): a PREEMPT ends TIMEOUT with nothing saved; the general path's stop is undone. The subject is
the ring. -/
def execPreemptTimeout (s : State) : Host.Outcome State Fault Refusal :=
  let r := s.subj.n
  if s.preemptExpired r then
    let d := ((s.hring r).cmd).getD []
    match s.launchByHandle (d.getD 1 0).toNat with
    | some (key, _) => .next ((if pathIs 1 d then s.unstop key else s).complete r 1 0 0)
    | none => .next (s.complete r 1 0 0)
  else .next s

/-! ### Restoring (R330, R331) -/

/-- Section 2 restored to a team's scratchpad. -/
def State.restoreScratch (s : State) (node size : Nat) (b : List Word) : State :=
  let s := s.setBytes (sramKey node 0) (bytesOfDwords (b.take (size / 8)))
  let fs := b.drop (size / 8)
  (List.range (size / 8)).foldl (fun s i => s.setFull (sramKey node (8 * i)) (bitAt (dw fs (i / 64)) (i % 64))) s
/-- Queue entries restored. -/
def queueOf (cycle n : Nat) (l : List Word) : List QEntry :=
  (List.range n).map fun i => { v := dw l (2 * i), tag := fld (dw l (2 * i + 1)) 0 2, since := cycle - 1 }
/-- A slot's thread restored from its slot map entry and image, over the record that firmware kept: its launch and task are those
it had, another task's as well (R292). -/
def State.restoreSlot (s : State) (core z : Nat) (key task : Nat) (kept : Thread) (m : Word) (img : List Word) : State :=
  let t := 64 * core + z
  let kind := fld m 2 5
  let run := match kept.run with
    | .wait w => Run.wait w
    | .halted k => if kind = 0 then .halted k else .halted kind
    | r => if kind = 0 then r else .halted kind
  let th : Thread := { kept.boundsFrom s.cycle with
    launch := if kept.launch = 0 then key else kept.launch, task := if kept.launch = 0 then task else kept.task
    base := fld m 16 8, w := 8 * fld m 8 4, run := run, stopReq := none }
  let s := { s with threads := SMap.put s.threads t th }
  let s := s.applyImage t img
  s.modThread t fun x => { x with run := run }
/-- A neighbour queue and its counters restored. -/
def State.restoreNbr (s : State) (k : Nat) (l : List Word) : State :=
  let n := fld (dw l 8) 0 3
  { s with
    nbr := SMap.putD s.nbr k (queueOf s.cycle n l) []
    nbrFree := SMap.put s.nbrFree k (fld (dw l 9) 0 3)
    nbrSent := SMap.put s.nbrSent k (fld (dw l 9) 16 16)
    nbrPops := SMap.put s.nbrPops k (fld (dw l 9) 32 16) }
/-- A role queue restored. -/
def roleOf (cycle key : Nat) (l : List Word) : RoleQ :=
  { entries := queueOf cycle (fld (dw l 17) 0 4) l, writer := fld (dw l 16) 0 6, reader := fld (dw l 16) 8 6
    enabled := bitAt (dw l 16) 16, owner := key }
/-- A message port restored. -/
def portOf (cycle key : Nat) (l : List Word) : MPort :=
  { msgs := (List.range (fld (dw l 8) 0 3)).map fun i => { w0 := dw l (2 * i), w1 := dw l (2 * i + 1), since := cycle - 1 }
    owned := bitAt (dw l 9) 14, ownerSlot := fld (dw l 9) 8 6, owner := key }
/-- A join-pattern entry restored over the kept one. -/
def patternRestored (cycle key task : Nat) (kept : JEntry) (l : List Word) : JEntry :=
  { kept with
    valid := bitAt (dw l 2) 8, ports := (dw l 0).truncate 32, slot := fld (dw l 0) 32 6, prio := fld (dw l 0) 40 2
    w := 8 * fld (dw l 0) 44 4, pc := (dw l 1).truncate 48, pass := fld (dw l 2) 0 5
    owner := if kept.slot = 0 then kept.owner else key, task := task, since := cycle - 1 }
/-- Reports that wait: the first of each slot in the reserve, the others behind it. -/
def splitReports : List (Nat × Word × Word) → List (Nat × Word × Word) × List (Nat × Word × Word)
  | [] => ([], [])
  | e :: rest =>
    let (a, b) := splitReports rest
    (e :: a.filter fun x => x.1 != e.1, (a.filter fun x => x.1 == e.1) ++ b)
/-- A core block restored; the doublewords after it are given. -/
def State.restoreCore (s : State) (core key task : Nat) (kept : Core) (threads : List (Nat × Thread)) (b : List Word) :
    State × List Word :=
  let present := (List.range 64).filter fun z => bitAt (dw b (24 + 2 * z)) 0
  let width := fun z => 8 * fld (dw b (24 + 2 * z)) 8 4
  let s := s.restoreS core (b.take 16)
  let s := present.foldl (fun s z =>
    let img := (b.drop (dn b (25 + 2 * z) / 8)).take (104 + width z)
    s.restoreSlot core z key task (((threads.find? fun e => e.1 == z).map (·.2)).getD {}) (dw b (24 + 2 * z)) img) s
  let b1 := b.drop (152 + (present.map fun z => 104 + width z).sum)
  let s := (chunks 10 256 b1).zipIdx.foldl (fun s e => s.restoreNbr (256 * core + e.2) e.1) s
  let b2 := b1.drop 2560
  let b3 := b2.drop 72
  let b4 := b3.drop 320
  let nSpill := dn b4 0
  let b5 := b4.drop (padLen (1 + 3 * nSpill))
  let nOut := dn b5 0
  let b6 := b5.drop (padLen (1 + 4 * nOut))
  let b7 := b6.drop 8
  let b8 := b7.drop 72
  let nRep := dn b8 0
  let (reserve, held) := splitReports ((chunks 2 nRep (b8.drop 1)).map fun l => (fld (dw l 0) 48 6, dw l 0, dw l 1))
  let gens := (List.range 64).foldl (fun m z => SMap.put m z (fld (dw b (24 + 2 * z)) 32 16)) ([] : SMap Nat)
  let s := s.modCore core fun c =>
    { c with
      feretry := (dw b 16).truncate 16, evt := (dw b 17).truncate 10, gens := gens
      roles := (chunks 18 4 b2).map (roleOf s.cycle key)
      mports := (chunks 10 32 b3).map (portOf s.cycle key)
      spill := (chunks 3 nSpill (b4.drop 1)).map fun l => (fld (dw l 0) 0 5, dw l 1, dw l 2)
      outq := ((chunks 4 nOut (b5.drop 1)).zip kept.outq).map fun e =>
        { e.2 with target := dw e.1 0, slot := fld (dw e.1 1) 0 6, w0 := dw e.1 2, w1 := dw e.1 3 }
      tags := (chunks 2 4 b6).map fun l => { k := fld (dw l 0) 0 7, a := fld (dw l 0) 16 7, mask := dw l 1, owner := key }
      jp := ((chunks 4 16 b7).zip kept.jp).map fun e => patternRestored s.cycle key task e.2 e.1
      jptr := dn b7 64, resv := kept.resv, overflow := kept.overflow, reserve := reserve
      held := held.map fun e => { id := 0, slot := e.1, w0 := e.2.1, w1 := e.2.2 } }
  (s, b8.drop (padLen (1 + 2 * nRep)))
/-- Core blocks restored for the four cores of a team. -/
def State.restoreCores (s : State) (node key task : Nat) (k : Kept) : List Nat → List Word → State
  | [], _ => s
  | c :: cs, b =>
    let (s, b) := s.restoreCore (coreAt node c) key task (k.cores.getD c {})
      ((k.threads.filter fun e => e.1 == c).map (·.2)) b
    s.restoreCores node key task k cs b
/-- A ring restored. -/
def ringRestored (l : List Word) : Ring :=
  { b := fld (dw l 0) 0 21, e := fld (dw l 0) 32 16, n := fld (dw l 0) 48 8, h := fld (dw l 1) 0 16, c := fld (dw l 1) 16 16
    t := fld (dw l 1) 32 16, f := fld (dw l 1) 48 16 }
/-- A dispatch-queue entry restored over the kept one. -/
def mentryRestored (node : Nat) (kept : MEntry) (l : List Word) : MEntry :=
  let w := dw l 4
  { kept with
    tcw := l.take 4, core := fld w 0 2, slot := fld w 8 6, gen := fld w 16 16, seq := fld w 32 16, fence := bitAt w 48
    tk := 64 * coreAt node (fld w 0 2) + fld w 8 6 }
/-- Result queues restored over the kept ones, for the cores that are left. -/
def resultsRestored : List (List MRec) → List Word → List (List MRec)
  | [], _ => []
  | kept :: rest, l =>
    let n := dn l 0
    (((chunks 3 n (l.drop 1)).zip kept).map fun e =>
      { e.2 with w0 := dw e.1 0, w1 := dw e.1 1, slot := fld (dw e.1 2) 0 6, gen := fld (dw e.1 2) 16 16 }) ::
      resultsRestored rest (l.drop (1 + 3 * n))
/-- Section 4 restored. -/
def matrixRestored (node : Nat) (kept : Matrix) (b : List Word) : Matrix :=
  let r := b.drop 4352
  let q := r.drop 40
  let n := dn q 0
  let es := ((chunks 8 n (q.drop 1)).zip kept.dq.flatten).map fun e => mentryRestored node e.2 e.1
  let m : Matrix :=
    { kept with
      acc := [], corr := [], startQ := [], active := []
      rings := (chunks 4 8 r).map ringRestored, tables := (List.range 3).map fun i => dw r (32 + i)
      checked := bitAt (dw r 35) 0
      seqs := (List.range 4).map fun c => dn r (36 + c)
      dq := (List.range 4).map fun c => es.filter fun e => e.core == c
      results := resultsRestored (fitResults kept.results) (q.drop (1 + 8 * n)) }
  (List.range 4352).foldl (fun m k => m.setCell k ((dw b k).truncate 36)) m
where
  fitResults (l : List (List MRec)) : List (List MRec) := (List.range 4).map fun c => l.getD c []
/-- A core number as it is now: cores of teams that have moved are renamed. -/
def movedCore (moves : List (Nat × Nat)) (k : Nat) : Nat :=
  match moves.find? fun e => e.1 == nodeOf k with
  | some e => if isChannel k then k else coreAt e.2 (coreInTeam k)
  | none => k
/-- A node number as it is now. -/
def movedNode (moves : List (Nat × Nat)) (n : Nat) : Nat :=
  match moves.find? fun e => e.1 == n with
  | some e => e.2
  | none => n
/-- A binding of a boundary port restored. -/
def bindRestored (moves : List (Nat × Nat)) (w : Word) : Option (Nat × Nat) :=
  if bitAt w 0 then some (movedCore moves (coreAt (nodeAt (fld w 16 3) (fld w 8 6)) (fld w 1 2)), fld w 24 4) else none
/-- A connector slot restored, with its launch and firings; the doublewords after it are given. No operation is pending there: what
other launches' threads had pending when it was saved is dropped without an answer (R236; DESIGN CHOICE, log 100). -/
def connRestored (moves : List (Nat × Nat)) (key fired : Nat) (b : List Word) : Conn × List Word :=
  let n := fld (dw b 0) 16 16 / 8
  let loaded := bitAt (dw b 0) 0
  let r := b.drop (1 + n)
  let image := (b.drop 1).take n
  let rest := r.drop (8 + 72 + 16)
  if loaded then
    ({ loaded := true, image := image, launch := key, fired := fired
       ages := (List.range (imT image)).map fun i => fld (dw r (i / 8)) (8 * (i % 8)) 8
       bufs := (chunks 9 8 (r.drop 8)).map fun l => (l.drop 1).take (dn l 0)
       binds := (List.range 16).map fun i => bindRestored moves (dw r (80 + i)) }, rest)
  else ({}, rest)
/-- The connectors that move with the saved teams: the launch's own, each with its team's node at the save. A connector of
another launch stays at its home. -/
def ownConns (key : Nat) (saved : List Kept) : List (Nat × Nat) :=
  saved.flatMap fun k => ((List.range 4).filter fun c =>
    let x := k.conns.getD c (false, 0, 0)
    x.1 && x.2.1 == key).map fun c => (k.team, c)
/-- The home of a connector as it is now. -/
def movedHome (own moves : List (Nat × Nat)) (n c : Nat) : Nat := if own.contains (n, c) then movedNode moves n else n
/-- A core port restored. -/
def cportRestored (own moves : List (Nat × Nat)) (key : Nat) (w : Word) : CPort :=
  if bitAt w 0 then
    { bound := true, slot := fld w 8 6, bport := fld w 16 4, conn := fld w 20 2
      node := movedHome own moves (nodeAt (fld w 32 3) (fld w 24 6)) (fld w 20 2), sink := bitAt w 35, owner := key }
  else {}
/-- Connector slots restored for those that are left: the launch's own; any other stays where it is. -/
def State.restoreConns (s : State) (node key : Nat) (moves : List (Nat × Nat)) :
    List (Nat × Bool × Nat × Nat) → List Word → State × List Word
  | [], b => (s, b)
  | (c, _, launch, fired) :: rest, b =>
    let (x, b) := connRestored moves key fired b
    (if x.loaded && launch == key then s.setConn node c x else s).restoreConns node key moves rest b
/-- Section 5 restored. -/
def State.restoreHitch (s : State) (node key : Nat) (own moves : List (Nat × Nat)) (k : Kept) (b : List Word) : State :=
  let (s, b) := s.restoreConns node key moves ((List.range 4).map fun c => (c, k.conns.getD c (false, 0, 0))) b
  (chunks 16 4 b).zipIdx.foldl (fun s e =>
    s.modCore (coreAt node e.2) fun c =>
      { c with cports := (List.range 16).map fun p => cportRestored own moves key (dw e.1 p) }) s
/-- The copy FIFO of a core and its waiting CPYXs restored; the doublewords after them are given. -/
def State.restoreCopy (s : State) (core : Nat) (kept : Core) (b : List Word) : State × List Word :=
  let n := dn b 0
  let cmds := ((chunks 6 n (b.drop 1)).zip kept.copyQ).map fun e =>
    { e.2 with words := e.1.take 4, seq := fld (dw e.1 4) 0 16, tk := 64 * core + fld (dw e.1 4) 16 6 }
  let r := b.drop (1 + 6 * n)
  let m := dn r 1
  let s := s.modCore core fun c => { c with copyQ := cmds, copySeq := fld (dw r 0) 0 16 }
  let s := ((r.drop 2).take m).foldl (fun s w =>
    s.modWait (64 * core + fld w 0 6) fun x =>
      { x with deadline := x.deadline.map fun _ => s.cycle + fld w 32 32 }) s
  (s, r.drop (2 + m))
/-- The copy state of the cores that are left restored. -/
def State.restoreCopies (s : State) (node : Nat) (k : Kept) : List Nat → List Word → State × List Word
  | [], b => (s, b)
  | c :: cs, b =>
    let (s, b) := s.restoreCopy (coreAt node c) (k.cores.getD c {}) b
    s.restoreCopies node k cs b
/-- Bank commands that target a team, with its number as it is now. -/
def retarget (node : Nat) (ws : List Word) : List Word :=
  let w := dw ws 2
  let keepBits := w.toNat - at' 39 (fld w 39 9)
  ws.set 2 (word (keepBits + at' 39 (numOfNode node) + at' 45 (dieOfNode node)))
/-- A completion of the image placed in its port, or waiting at the core's input ahead of every message that arrives later
(R255, R313). -/
def State.returnCompletion (s : State) (key core port : Nat) (w0 w1 : Word) : State :=
  match (if (s.core core).inputQ.isEmpty then s.placeMessage core port w0 w1 false key else none) with
  | some s => s
  | none =>
    let (id, s) := s.fresh
    let p : Packet := { id := id, src := 4096 + core, dst := core, chan := 2, payload := .message core port w0 w1 false 0 key }
    (({ s with packets := SMap.put s.packets id p }).messageWaits core port id false).retryMove (.ev .messageArrival { n := id })
/-- Section 6 restored: FIFOs, counters, and bank commands ahead of any new push (R313). -/
def State.restoreEngines (s : State) (key node : Nat) (k : Kept) (b : List Word) : State :=
  let (s, b) := s.restoreCopies node k [0, 1, 2, 3] b
  let s := s.modTeam node fun t => { t with domains := (List.range 16).map fun i => fld (dw b (i / 4)) (16 * (i % 4)) 16 }
  let nMsg := dn b 4
  let msgs := chunks 3 nMsg (b.drop 5)
  let s := msgs.foldl (fun s l =>
    s.returnCompletion key (coreAt node (fld (dw l 0) 8 2)) (fld (dw l 0) 0 5) (dw l 1) (dw l 2)) s
  let b := b.drop (5 + 3 * nMsg)
  let n := dn b 0
  (((chunks 5 n (b.drop 1)).zip k.bank).reverse).foldl (fun s e =>
    let core := channelCore (fld (dw e.1 4) 0 3) (fld (dw e.1 4) 8 6)
    s.modCore core fun c => { c with
      bankQ := { e.2.2 with words := retarget node (e.1.take 4), seq := fld (dw e.1 4) 16 16 } :: c.bankQ }) s
/-- A context restored over the kept one: its launch and task are those it had, another task's as well (R292). -/
def ctxRestored (cycle : Nat) (kept : Ctx) (l : List Word) : Ctx :=
  { kept with
    regs := l.take 10, status := dw l 10, pc := (dw l 11).truncate 48, stamp := dn l 13
    inAt := cycle, okAt := kept.okAt.map fun _ => cycle + 1 }
/-- Section 7 restored, for the cores that are left: ahead of any context that has come to be stored there since (R295). -/
def State.restoreMigration (s : State) (node : Nat) (k : Kept) : List Nat → List Word → State
  | [], _ => s
  | c :: cs, b =>
    let kept := k.cores.getD c {}
    let n := dn b 0
    let b1 := b.drop (1 + 16 * n)
    let m := dn b1 0
    let b2 := b1.drop (1 + 16 * m)
    let j := dn b2 0
    let s := s.modCore (coreAt node c) fun x =>
      { x with
        arrivals := (((chunks 16 n (b.drop 1)).zip kept.arrivals).map fun e => ctxRestored s.cycle e.2 e.1) ++ x.arrivals
        shadows := (((chunks 17 j (b2.drop 1)).zip kept.shadows).map fun e =>
          { e.2 with ctx := ctxRestored s.cycle e.2.ctx e.1 }) ++ x.shadows }
    let s := ((chunks 16 m (b1.drop 1)).zip kept.paddock).foldl (fun s e =>
      s.intoPaddock (coreAt node c) (ctxRestored s.cycle e.2 e.1)) s
    s.restoreMigration node k cs (b2.drop (1 + 17 * j))
/-- A team that can take a saved team (R274): as for a task, with every slot but slot 0 free, with the connector slots free that
the saved connectors had, and with room for them in its hitch engine (R221). (DEDUCED, log 55.) -/
def State.canRestore (s : State) (key : Nat) (l : Launch) (k : Kept) (node : Nat) : Bool :=
  let t := s.team node
  !s.absent node && l.inPartition (dieOfNode node) (numOfNode node) && t.task.isNone && !t.stopped &&
    ((List.range 4).all fun c =>
      let x := k.conns.getD c (false, 0, 0)
      !(x.1 && x.2.1 == key && (s.conn node c).loaded)) &&
    hitchRoom (s.hitchUse node fun _ => true) k.used &&
    (List.range 4).all fun c =>
      let k := s.core (coreAt node c)
      k.zeroing.isEmpty && k.holds.isEmpty && k.gated.isNone && !(s.threads.any fun e => coreOf e.1 == coreAt node c)
/-- Teams for the saved teams, in the order of R274 after the last placement, beside those already chosen; none when there are
too few. (DEDUCED, log 55.) -/
def State.restoreTeams (s : State) (key : Nat) (l : Launch) : List Kept → List Nat → Option (List Nat)
  | [], done => some done
  | k :: rest, done =>
    match (teamOrder s.disp.lastTeam).find? fun n => !done.contains n && s.canRestore key l k n with
    | none => none
    | some n => s.restoreTeams key l rest (done ++ [n])
/-- A team record restored on a team. (DEDUCED, log 54.) -/
def State.restoreTeam (s : State) (key : Nat) (l : Launch) (moves : List (Nat × Nat)) (k : Kept) (node : Nat)
    (rec' : List Word) : State :=
  let bs := sectionBodies 7 rec'
  let body := fun i => bs.getD i []
  let h := body 0
  let task := k.task
  let s := s.launchStart node key l task
  let s := s.modTeam node fun t => { t with s := dn h 6 }
  let num := fld (dw h 1) 0 32
  let t : Task :=
    { launch := key, num := num, x := fld (dw h 2) 0 32, y := fld (dw h 2) 32 32, team := node, budget := fld (dw h 3) 0 16
      live := dn h 4, succ := dn h 5, member := memberGroups (l.members.getD num 0), ended := dn h 4 == 0 && dn h 5 != 0 }
  let s := { s with disp := { s.disp with tasks := SMap.put s.disp.tasks task t, lastTeam := packageNumber node } }
  let s := s.modLaunch key fun l => { l with
    liveTasks := l.liveTasks + 1, teams := if l.teams.contains node then l.teams else l.teams ++ [node] }
  let s := s.restoreScratch node (dn h 6) (body 1)
  let s := s.restoreCores node key task k [0, 1, 2, 3] (body 2)
  let s := s.modMx node fun _ => matrixRestored node k.mx (body 3)
  let s := s.restoreHitch node key (ownConns key l.saved) moves k (body 4)
  let s := s.restoreEngines key node k (body 5)
  s.restoreMigration node k [0, 1, 2, 3] (body 6)
/-- Team records restored one after another, at the offsets of the directory. -/
def State.restoreAll (s : State) (key : Nat) (l : Launch) (moves : List (Nat × Nat)) (area : List Word) :
    List (Kept × Nat × Word) → State
  | [] => s
  | (k, node, off) :: rest =>
    (s.restoreTeam key l moves k node (area.drop (off.toNat / 8))).restoreAll key l moves area rest
/-- Core ports of any launch that are bound to a connector that has moved name its new home: those that the restored
connector names, unless the connector now at the old place names the port too (R236). -/
def State.renamePorts (s : State) (own moves : List (Nat × Nat)) : State :=
  own.foldl (fun s o => (List.range 16).foldl (fun s b =>
    let home := movedNode moves o.1
    match (s.conn home o.2).binds.getD b none with
    | none => s
    | some (core, p) =>
      let q := (s.core core).cport p
      if q.bound && q.node == o.1 && q.conn == o.2 && q.bport == b && (s.conn o.1 o.2).binds.getD b none != some (core, p) then
        s.setCport core p { q with node := home }
      else s) s) s
/-- The boundary ports of connectors elsewhere that name core ports of teams that have moved: each restored core port that is
bound is named by its connector as it is now (R236). -/
def State.renameBinds (s : State) (key : Nat) (moves : List (Nat × Nat)) : State :=
  moves.foldl (fun s m => (List.range 4).foldl (fun s c => (List.range 16).foldl (fun s p =>
    let x := (s.core (coreAt m.2 c)).cport p
    if x.bound && x.owner == key then
      let y := s.conn x.node x.conn
      if y.binds.getD x.bport none = some (coreAt m.1 c, p) then
        s.setConn x.node x.conn { y with binds := y.binds.set x.bport (some (coreAt m.2 c, p)) }
      else s
    else s) s) s) s
/-- The queued bank commands of a resumed launch re-enter their FIFOs, all in the order in which they were pushed (R313). -/
def State.returnBank (s : State) (bank : List (Nat × Cmd)) : State :=
  let s := bank.foldl (fun s e => s.modCore e.1 fun c => { c with bankQ := e.2 :: c.bankQ }) s
  { s with cores := s.cores.map fun e => (e.1, { e.2 with bankQ := sortBy (fun a b => decide (a.id ≤ b.id)) e.2.bankQ }) }
/-- The area's header and directory match the launch. -/
def areaMatches (l : Launch) (head : List Word) : Bool :=
  dw head 0 == word (0x45564153 + at' 32 1) && dw head 1 == word l.handle && dw head 2 == word l.saved.length &&
    decide (8 * (8 + padLen l.saved.length) ≤ dn head 3)
/-- Each record's header names the team that was saved. -/
def directoryMatches (l : Launch) (area : List Word) : Bool :=
  (l.saved.zipIdx).all fun e =>
    let off := dn area (8 + e.2)
    off % 64 == 0 && decide (off < 8 * area.length) && dw (area.drop (off / 8 + 8)) 0 == word l.handle &&
      fld (dw (area.drop (off / 8 + 8)) 7) 0 8 == packageNumber e.1.team
/-- The resumption of a saved launch on teams: every section, then the threads that the pre-emption halted. -/
def State.resumeGeneral (s : State) (r key : Nat) (l : Launch) (area : List Word) (teams : List Nat) : State :=
  let moves := (l.saved.map fun k => k.team).zip teams
  let offs := (area.drop 8).take l.saved.length
  let s := s.restoreAll key l moves area (l.saved.zip (teams.zip offs))
  let s := ((s.renamePorts (ownConns key l.saved) moves).renameBinds key moves).returnBank l.bank
  let ts := saveOrder ((s.toStop key).filter fun t =>
    s.letsRun key t && ((s.thread t).run == .halted 31 || s.waitsQueued t))
  let s := ts.foldl (fun s t => if s.isHalted t then s.resume t false else s.modThread t fun th =>
    { th with stopReq := none, notBefore := s.cycle + 1 }) s
  (s.modLaunch key fun l => { l with held := false, saved := [], preempted := false, bank := [] }).complete r 0 (word ts.length) 0
/-- RESUME_GENERAL (R330, R331): it waits for enough teams. (DEDUCED, log 55.) -/
def execResumeGeneral (ring : Nat) (s : State) : Host.Outcome State Fault Refusal :=
  hostRow 0x06 6 (pathIs 1) ring (fun d s =>
    let va := (d.getD 4 0).toNat
    match s.launchByHandle (d.getD 1 0).toNat with
    | none =>
      match s.queued? (d.getD 1 0).toNat with
      | some q =>
        if generalOk d && d.getD 3 0 == 0 && q.held && s.areaRead q.root va 8 == some (areaOf q.handle []) then
          (s.holdQueued q.handle false).complete ring 0 0 0
        else s.refuse ring
      | none => s.refuse ring
    | some (key, l) =>
      if !generalOk d || d.getD 3 0 != 0 || !l.held || !l.preempted then s.refuse ring
      else match s.areaRead l.root va 8 with
        | none => s.refuse ring
        | some head =>
          if !areaMatches l head then s.refuse ring
          else match s.areaRead l.root va (dn head 3 / 8) with
            | none => s.refuse ring
            | some area =>
              if !directoryMatches l area then s.refuse ring
              else match s.restoreTeams key l l.saved [] with
                | none => s
                | some teams => s.resumeGeneral ring key l area teams) s

end Sys2Proof.Machine
end

