-- ==== Sys2Proof/Machine/Dispatch.lean ====
section
/-! DEFINITION. The meaning of every instruction and of every step of the hardware: one arm per constructor. -/

namespace Sys2Proof.Machine

def exec (i : Instr) (s : State) : Host.Outcome State Fault Refusal :=
  match i with
  | .add sm rd ra rb => Sys2Proof.Machine.execAdd sm rd ra rb s
  | .sub sm rd ra rb => Sys2Proof.Machine.execSub sm rd ra rb s
  | .and sm rd ra rb => Sys2Proof.Machine.execAnd sm rd ra rb s
  | .or sm rd ra rb => Sys2Proof.Machine.execOr sm rd ra rb s
  | .xor sm rd ra rb => Sys2Proof.Machine.execXor sm rd ra rb s
  | .andn sm rd ra rb => Sys2Proof.Machine.execAndn sm rd ra rb s
  | .min sm rd ra rb => Sys2Proof.Machine.execMin sm rd ra rb s
  | .max sm rd ra rb => Sys2Proof.Machine.execMax sm rd ra rb s
  | .minu sm rd ra rb => Sys2Proof.Machine.execMinu sm rd ra rb s
  | .maxu sm rd ra rb => Sys2Proof.Machine.execMaxu sm rd ra rb s
  | .mul sm rd ra rb => Sys2Proof.Machine.execMul sm rd ra rb s
  | .mulh sm rd ra rb => Sys2Proof.Machine.execMulh sm rd ra rb s
  | .mulhu sm rd ra rb => Sys2Proof.Machine.execMulhu sm rd ra rb s
  | .div sm rd ra rb => Sys2Proof.Machine.execDiv sm rd ra rb s
  | .divu sm rd ra rb => Sys2Proof.Machine.execDivu sm rd ra rb s
  | .rem sm rd ra rb => Sys2Proof.Machine.execRem sm rd ra rb s
  | .remu sm rd ra rb => Sys2Proof.Machine.execRemu sm rd ra rb s
  | .sll sm rd ra rb => Sys2Proof.Machine.execSll sm rd ra rb s
  | .srl sm rd ra rb => Sys2Proof.Machine.execSrl sm rd ra rb s
  | .sra sm rd ra rb => Sys2Proof.Machine.execSra sm rd ra rb s
  | .rol sm rd ra rb => Sys2Proof.Machine.execRol sm rd ra rb s
  | .ror sm rd ra rb => Sys2Proof.Machine.execRor sm rd ra rb s
  | .clz sm rd ra => Sys2Proof.Machine.execClz sm rd ra s
  | .ctz sm rd ra => Sys2Proof.Machine.execCtz sm rd ra s
  | .popc sm rd ra => Sys2Proof.Machine.execPopc sm rd ra s
  | .bset sm rd ra rb => Sys2Proof.Machine.execBset sm rd ra rb s
  | .bclr sm rd ra rb => Sys2Proof.Machine.execBclr sm rd ra rb s
  | .btgl sm rd ra rb => Sys2Proof.Machine.execBtgl sm rd ra rb s
  | .bfx sm rd ra rb => Sys2Proof.Machine.execBfx sm rd ra rb s
  | .bfxu sm rd ra rb => Sys2Proof.Machine.execBfxu sm rd ra rb s
  | .bfi sm rd ra rb => Sys2Proof.Machine.execBfi sm rd ra rb s
  | .cmpeq sm rd ra rb => Sys2Proof.Machine.execCmpeq sm rd ra rb s
  | .cmpne sm rd ra rb => Sys2Proof.Machine.execCmpne sm rd ra rb s
  | .cmplt sm rd ra rb => Sys2Proof.Machine.execCmplt sm rd ra rb s
  | .cmpltu sm rd ra rb => Sys2Proof.Machine.execCmpltu sm rd ra rb s
  | .cmple sm rd ra rb => Sys2Proof.Machine.execCmple sm rd ra rb s
  | .cmpleu sm rd ra rb => Sys2Proof.Machine.execCmpleu sm rd ra rb s
  | .addi sm rd ra imm => Sys2Proof.Machine.execAddi sm rd ra imm s
  | .andi sm rd ra imm => Sys2Proof.Machine.execAndi sm rd ra imm s
  | .ori sm rd ra imm => Sys2Proof.Machine.execOri sm rd ra imm s
  | .xori sm rd ra imm => Sys2Proof.Machine.execXori sm rd ra imm s
  | .slli sm rd ra n => Sys2Proof.Machine.execSlli sm rd ra n s
  | .srli sm rd ra n => Sys2Proof.Machine.execSrli sm rd ra n s
  | .srai sm rd ra n => Sys2Proof.Machine.execSrai sm rd ra n s
  | .roli sm rd ra n => Sys2Proof.Machine.execRoli sm rd ra n s
  | .rori sm rd ra n => Sys2Proof.Machine.execRori sm rd ra n s
  | .bseti sm rd ra n => Sys2Proof.Machine.execBseti sm rd ra n s
  | .bclri sm rd ra n => Sys2Proof.Machine.execBclri sm rd ra n s
  | .btgli sm rd ra n => Sys2Proof.Machine.execBtgli sm rd ra n s
  | .cmpeqi sm rd ra v => Sys2Proof.Machine.execCmpeqi sm rd ra v s
  | .cmpnei sm rd ra v => Sys2Proof.Machine.execCmpnei sm rd ra v s
  | .cmplti sm rd ra v => Sys2Proof.Machine.execCmplti sm rd ra v s
  | .cmpltui sm rd ra v => Sys2Proof.Machine.execCmpltui sm rd ra v s
  | .cmplei sm rd ra v => Sys2Proof.Machine.execCmplei sm rd ra v s
  | .cmpleui sm rd ra v => Sys2Proof.Machine.execCmpleui sm rd ra v s
  | .li sm rd imm => Sys2Proof.Machine.execLi sm rd imm s
  | .lis sm rd imm => Sys2Proof.Machine.execLis sm rd imm s
  | .mov sm rd rb => Sys2Proof.Machine.execMov sm rd rb s
  | .sel sm rd ra rb => Sys2Proof.Machine.execSel sm rd ra rb s
  | .gadr sm rd ra rb => Sys2Proof.Machine.execGadr sm rd ra rb s
  | .j sm imm => Sys2Proof.Machine.execJ sm imm s
  | .jl sm imm => Sys2Proof.Machine.execJl sm imm s
  | .jr sm ra => Sys2Proof.Machine.execJr sm ra s
  | .jlr sm rd ra => Sys2Proof.Machine.execJlr sm rd ra s
  | .bbs sm ra b imm => Sys2Proof.Machine.execBbs sm ra b imm s
  | .bbc sm ra b imm => Sys2Proof.Machine.execBbc sm ra b imm s
  | .bz sm ra imm => Sys2Proof.Machine.execBz sm ra imm s
  | .bnz sm ra imm => Sys2Proof.Machine.execBnz sm ra imm s
  | .bloop sm ra imm => Sys2Proof.Machine.execBloop sm ra imm s
  | .pre sm g b e n f x o => Sys2Proof.Machine.execPre sm g b e n f x o s
  | .nop sm => Sys2Proof.Machine.execNop sm s
  | .yield sm => Sys2Proof.Machine.execYield sm s
  | .ldb sm rd ra r t => Sys2Proof.Machine.execLdb sm rd ra r t s
  | .ldh sm rd ra r t => Sys2Proof.Machine.execLdh sm rd ra r t s
  | .ldw sm rd ra r t => Sys2Proof.Machine.execLdw sm rd ra r t s
  | .ldd sm rd ra r t => Sys2Proof.Machine.execLdd sm rd ra r t s
  | .ldbu sm rd ra r t => Sys2Proof.Machine.execLdbu sm rd ra r t s
  | .ldhu sm rd ra r t => Sys2Proof.Machine.execLdhu sm rd ra r t s
  | .ldwu sm rd ra r t => Sys2Proof.Machine.execLdwu sm rd ra r t s
  | .stb sm rd ra r t => Sys2Proof.Machine.execStb sm rd ra r t s
  | .sth sm rd ra r t => Sys2Proof.Machine.execSth sm rd ra r t s
  | .stw sm rd ra r t => Sys2Proof.Machine.execStw sm rd ra r t s
  | .std sm rd ra r t => Sys2Proof.Machine.execStd sm rd ra r t s
  | .ldv sm rd ra r t => Sys2Proof.Machine.execLdv sm rd ra r t s
  | .stv sm rd ra r t => Sys2Proof.Machine.execStv sm rd ra r t s
  | .gld sm rd ra r z n q o => Sys2Proof.Machine.execGld sm rd ra r z n q o s
  | .gst sm rd ra r z q o => Sys2Proof.Machine.execGst sm rd ra r z q o s
  | .gldv sm rd ra r n q o => Sys2Proof.Machine.execGldv sm rd ra r n q o s
  | .gstv sm rd ra r q o => Sys2Proof.Machine.execGstv sm rd ra r q o s
  | .sbind sm rd ra => Sys2Proof.Machine.execSbind sm rd ra s
  | .scnt sm rd ra => Sys2Proof.Machine.execScnt sm rd ra s
  | .ginv sm ra => Sys2Proof.Machine.execGinv sm ra s
  | .gprf sm ra r => Sys2Proof.Machine.execGprf sm ra r s
  | .lclean sm ra => Sys2Proof.Machine.execLclean sm ra s
  | .lflush sm ra => Sys2Proof.Machine.execLflush sm ra s
  | .amoadd sm rd ra rb => Sys2Proof.Machine.execAmoadd sm rd ra rb s
  | .amoand sm rd ra rb => Sys2Proof.Machine.execAmoand sm rd ra rb s
  | .amoor sm rd ra rb => Sys2Proof.Machine.execAmoor sm rd ra rb s
  | .amoxor sm rd ra rb => Sys2Proof.Machine.execAmoxor sm rd ra rb s
  | .amomin sm rd ra rb => Sys2Proof.Machine.execAmomin sm rd ra rb s
  | .amomax sm rd ra rb => Sys2Proof.Machine.execAmomax sm rd ra rb s
  | .amominu sm rd ra rb => Sys2Proof.Machine.execAmominu sm rd ra rb s
  | .amomaxu sm rd ra rb => Sys2Proof.Machine.execAmomaxu sm rd ra rb s
  | .amoswp sm rd ra rb => Sys2Proof.Machine.execAmoswp sm rd ra rb s
  | .acas sm rd ra rb => Sys2Proof.Machine.execAcas sm rd ra rb s
  | .redadd sm ra rb => Sys2Proof.Machine.execRedadd sm ra rb s
  | .redand sm ra rb => Sys2Proof.Machine.execRedand sm ra rb s
  | .redor sm ra rb => Sys2Proof.Machine.execRedor sm ra rb s
  | .redxor sm ra rb => Sys2Proof.Machine.execRedxor sm ra rb s
  | .redmin sm ra rb => Sys2Proof.Machine.execRedmin sm ra rb s
  | .redmax sm ra rb => Sys2Proof.Machine.execRedmax sm ra rb s
  | .redminu sm ra rb => Sys2Proof.Machine.execRedminu sm ra rb s
  | .redmaxu sm ra rb => Sys2Proof.Machine.execRedmaxu sm ra rb s
  | .ldfe sm rd ra t => Sys2Proof.Machine.execLdfe sm rd ra t s
  | .ldff sm rd ra t => Sys2Proof.Machine.execLdff sm rd ra t s
  | .stfe sm rd ra t => Sys2Proof.Machine.execStfe sm rd ra t s
  | .stff sm rd ra t => Sys2Proof.Machine.execStff sm rd ra t s
  | .feq sm rd ra => Sys2Proof.Machine.execFeq sm rd ra s
  | .feset sm ra v => Sys2Proof.Machine.execFeset sm ra v s
  | .bari sm rd ra => Sys2Proof.Machine.execBari sm rd ra s
  | .bara sm rd ra => Sys2Proof.Machine.execBara sm rd ra s
  | .barw sm rd ra t => Sys2Proof.Machine.execBarw sm rd ra t s
  | .waitw sm rd ra t m => Sys2Proof.Machine.execWaitw sm rd ra t m s
  | .fence sm t c => Sys2Proof.Machine.execFence sm t c s
  | .fadd sm rd ra rb => Sys2Proof.Machine.execFadd sm rd ra rb s
  | .fsub sm rd ra rb => Sys2Proof.Machine.execFsub sm rd ra rb s
  | .fmul sm rd ra rb => Sys2Proof.Machine.execFmul sm rd ra rb s
  | .fmin sm rd ra rb => Sys2Proof.Machine.execFmin sm rd ra rb s
  | .fmax sm rd ra rb => Sys2Proof.Machine.execFmax sm rd ra rb s
  | .fabs sm rd ra => Sys2Proof.Machine.execFabs sm rd ra s
  | .fneg sm rd ra => Sys2Proof.Machine.execFneg sm rd ra s
  | .fcmpeq sm rd ra rb => Sys2Proof.Machine.execFcmpeq sm rd ra rb s
  | .fcmplt sm rd ra rb => Sys2Proof.Machine.execFcmplt sm rd ra rb s
  | .fcmple sm rd ra rb => Sys2Proof.Machine.execFcmple sm rd ra rb s
  | .fcls sm rd ra => Sys2Proof.Machine.execFcls sm rd ra s
  | .ffma sm rd ra rb => Sys2Proof.Machine.execFfma sm rd ra rb s
  | .fcvt sm rd ra => Sys2Proof.Machine.execFcvt sm rd ra s
  | .vadd sm rd ra rb => Sys2Proof.Machine.execVadd sm rd ra rb s
  | .vsub sm rd ra rb => Sys2Proof.Machine.execVsub sm rd ra rb s
  | .vmul sm rd ra rb => Sys2Proof.Machine.execVmul sm rd ra rb s
  | .vfma sm rd ra rb => Sys2Proof.Machine.execVfma sm rd ra rb s
  | .vmin sm rd ra rb => Sys2Proof.Machine.execVmin sm rd ra rb s
  | .vmax sm rd ra rb => Sys2Proof.Machine.execVmax sm rd ra rb s
  | .vabs sm rd ra => Sys2Proof.Machine.execVabs sm rd ra s
  | .vneg sm rd ra => Sys2Proof.Machine.execVneg sm rd ra s
  | .vrcp sm rd ra => Sys2Proof.Machine.execVrcp sm rd ra s
  | .vrsq sm rd ra => Sys2Proof.Machine.execVrsq sm rd ra s
  | .vexp2 sm rd ra => Sys2Proof.Machine.execVexp2 sm rd ra s
  | .vand sm rd ra rb => Sys2Proof.Machine.execVand sm rd ra rb s
  | .vor sm rd ra rb => Sys2Proof.Machine.execVor sm rd ra rb s
  | .vxor sm rd ra rb => Sys2Proof.Machine.execVxor sm rd ra rb s
  | .vshl sm rd ra rb => Sys2Proof.Machine.execVshl sm rd ra rb s
  | .vshr sm rd ra rb => Sys2Proof.Machine.execVshr sm rd ra rb s
  | .vsar sm rd ra rb => Sys2Proof.Machine.execVsar sm rd ra rb s
  | .vcmpeq sm rd ra rb => Sys2Proof.Machine.execVcmpeq sm rd ra rb s
  | .vcmplt sm rd ra rb => Sys2Proof.Machine.execVcmplt sm rd ra rb s
  | .vcmple sm rd ra rb => Sys2Proof.Machine.execVcmple sm rd ra rb s
  | .vsel sm rd ra rb => Sys2Proof.Machine.execVsel sm rd ra rb s
  | .vcvt sm rd ra => Sys2Proof.Machine.execVcvt sm rd ra s
  | .vred sm rd ra o => Sys2Proof.Machine.execVred sm rd ra o s
  | .vdot sm rd ra rb => Sys2Proof.Machine.execVdot sm rd ra rb s
  | .vqnt sm rd ra rb => Sys2Proof.Machine.execVqnt sm rd ra rb s
  | .vshuf sm rd ra rb => Sys2Proof.Machine.execVshuf sm rd ra rb s
  | .vbcast sm rd ra => Sys2Proof.Machine.execVbcast sm rd ra s
  | .vext sm rd ra rb => Sys2Proof.Machine.execVext sm rd ra rb s
  | .vins sm rd ra rb => Sys2Proof.Machine.execVins sm rd ra rb s
  | .vmov sm rd ra => Sys2Proof.Machine.execVmov sm rd ra s
  | .mpush sm rd ra e => Sys2Proof.Machine.execMpush sm rd ra e s
  | .mpop sm rd e => Sys2Proof.Machine.execMpop sm rd e s
  | .mfence sm e => Sys2Proof.Machine.execMfence sm e s
  | .mring sm ra e => Sys2Proof.Machine.execMring sm ra e s
  | .mradv sm rd ra => Sys2Proof.Machine.execMradv sm rd ra s
  | .mrstat sm rd ra => Sys2Proof.Machine.execMrstat sm rd ra s
  | .put sm rd p t => Sys2Proof.Machine.execPut sm rd p t s
  | .take sm rd p t => Sys2Proof.Machine.execTake sm rd p t s
  | .pbind sm rd p => Sys2Proof.Machine.execPbind sm rd p s
  | .pfree sm p => Sys2Proof.Machine.execPfree sm p s
  | .hload sm rd ra rb => Sys2Proof.Machine.execHload sm rd ra rb s
  | .hstop sm rd ra => Sys2Proof.Machine.execHstop sm rd ra s
  | .hstat sm rd ra => Sys2Proof.Machine.execHstat sm rd ra s
  | .qcfg sm rd ra x => Sys2Proof.Machine.execQcfg sm rd ra x s
  | .qstat sm rd x => Sys2Proof.Machine.execQstat sm rd x s
  | .taga sm rd t x => Sys2Proof.Machine.execTaga sm rd t x s
  | .tagf sm rd x => Sys2Proof.Machine.execTagf sm rd x s
  | .send sm rd ra => Sys2Proof.Machine.execSend sm rd ra s
  | .sendi sm rd ra v => Sys2Proof.Machine.execSendi sm rd ra v s
  | .waitm sm rd ra t => Sys2Proof.Machine.execWaitm sm rd ra t s
  | .recv sm rd ra t => Sys2Proof.Machine.execRecv sm rd ra t s
  | .mpcfg sm rd ra => Sys2Proof.Machine.execMpcfg sm rd ra s
  | .jpset sm ra e => Sys2Proof.Machine.execJpset sm ra e s
  | .jpclr sm e => Sys2Proof.Machine.execJpclr sm e s
  | .jpstat sm rd e => Sys2Proof.Machine.execJpstat sm rd e s
  | .spawn sm rd ra t => Sys2Proof.Machine.execSpawn sm rd ra t s
  | .quit sm => Sys2Proof.Machine.execQuit sm s
  | .exit sm ra => Sys2Proof.Machine.execExit sm ra s
  | .migrate sm ra => Sys2Proof.Machine.execMigrate sm ra s
  | .launch sm rd ra => Sys2Proof.Machine.execLaunch sm rd ra s
  | .garr sm rd ra => Sys2Proof.Machine.execGarr sm rd ra s
  | .gwait sm rd ra t => Sys2Proof.Machine.execGwait sm rd ra t s
  | .slots sm rd x => Sys2Proof.Machine.execSlots sm rd x s
  | .cpy sm rd ra => Sys2Proof.Machine.execCpy sm rd ra s
  | .cpys sm rd ra t => Sys2Proof.Machine.execCpys sm rd ra t s
  | .cpyx sm rd ra t => Sys2Proof.Machine.execCpyx sm rd ra t s
  | .bmv sm rd ra t => Sys2Proof.Machine.execBmv sm rd ra t s
  | .bfence sm t => Sys2Proof.Machine.execBfence sm t s
  | .bstat sm rd x => Sys2Proof.Machine.execBstat sm rd x s
  | .csrr sm rd n => Sys2Proof.Machine.execCsrr sm rd n s
  | .csrw sm rd ra n => Sys2Proof.Machine.execCsrw sm rd ra n s
  | .csrs sm rd ra n => Sys2Proof.Machine.execCsrs sm rd ra n s
  | .csrc sm rd ra n => Sys2Proof.Machine.execCsrc sm rd ra n s
  | .trap sm c => Sys2Proof.Machine.execTrap sm c s
  | .eret sm ra => Sys2Proof.Machine.execEret sm ra s
  | .brk sm => Sys2Proof.Machine.execBrk sm s
  | .wfe sm rd ra e => Sys2Proof.Machine.execWfe sm rd ra e s
  | .tlbi sm ra e => Sys2Proof.Machine.execTlbi sm ra e s
  | .ctxsv sm rd ra rb => Sys2Proof.Machine.execCtxsv sm rd ra rb s
  | .ctxld sm rd ra rb => Sys2Proof.Machine.execCtxld sm rd ra rb s
  | .sliceRetire slice => Sys2Proof.Machine.execSliceRetire slice s
  | .powerGate core => Sys2Proof.Machine.execPowerGate core s
  | .evtdoor v => Sys2Proof.Machine.execEvtdoor v s
  | .rcfgEnable ring v => Sys2Proof.Machine.execRcfgEnable ring v s
  | .tail ring v => Sys2Proof.Machine.execTail ring v s
  | .bar0RegisterWrite off v => Sys2Proof.Machine.execBar0RegisterWrite off v s
  | .identify ring => Sys2Proof.Machine.execIdentify ring s
  | .load ring => Sys2Proof.Machine.execLoad ring s
  | .patch ring => Sys2Proof.Machine.execPatch ring s
  | .hostLaunch ring => Sys2Proof.Machine.execHostLaunch ring s
  | .preemptPipeline ring => Sys2Proof.Machine.execPreemptPipeline ring s
  | .preemptGeneral ring => Sys2Proof.Machine.execPreemptGeneral ring s
  | .resumePipeline ring => Sys2Proof.Machine.execResumePipeline ring s
  | .resumeGeneral ring => Sys2Proof.Machine.execResumeGeneral ring s
  | .abort ring => Sys2Proof.Machine.execAbort ring s
  | .map ring => Sys2Proof.Machine.execMap ring s
  | .lifecycle ring => Sys2Proof.Machine.execLifecycle ring s
  | .fwstage ring => Sys2Proof.Machine.execFwstage ring s
  | .logread ring => Sys2Proof.Machine.execLogread ring s
  | .unknownHostCommand ring => Sys2Proof.Machine.execUnknownHostCommand ring s
  | .linkDown link => Sys2Proof.Machine.execLinkDown link s
  | .wordNotAnInstruction reason word => Sys2Proof.Machine.execWordNotAnInstruction reason word s
  | .stewardAccess op => Sys2Proof.Machine.execStewardAccess op s
  | .correctedError slice => Sys2Proof.Machine.execCorrectedError slice s
  | .dividerWrite => Sys2Proof.Machine.execDividerWrite s
  | .bindingRequestIssue => Sys2Proof.Machine.execBindingRequestIssue s
  | .streamElementLand => Sys2Proof.Machine.execStreamElementLand s
  | .storeBufferLeave => Sys2Proof.Machine.execStoreBufferLeave s
  | .ownerStore => Sys2Proof.Machine.execOwnerStore s
  | .storeAcknowledge => Sys2Proof.Machine.execStoreAcknowledge s
  | .sliceAccept => Sys2Proof.Machine.execSliceAccept s
  | .sliceLookup => Sys2Proof.Machine.execSliceLookup s
  | .dramFill => Sys2Proof.Machine.execDramFill s
  | .mapInstall => Sys2Proof.Machine.execMapInstall s
  | .pageWalkDone => Sys2Proof.Machine.execPageWalkDone s
  | .iCacheFill => Sys2Proof.Machine.execICacheFill s
  | .slotZeroingDone => Sys2Proof.Machine.execSlotZeroingDone s
  | .atomicAtOwner => Sys2Proof.Machine.execAtomicAtOwner s
  | .amoReply => Sys2Proof.Machine.execAmoReply s
  | .feRequestAtOwner => Sys2Proof.Machine.execFeRequestAtOwner s
  | .feResend => Sys2Proof.Machine.execFeResend s
  | .feAnswer => Sys2Proof.Machine.execFeAnswer s
  | .barrierArrival => Sys2Proof.Machine.execBarrierArrival s
  | .ownerWaitTimeout => Sys2Proof.Machine.execOwnerWaitTimeout s
  | .withdrawalSettle => Sys2Proof.Machine.execWithdrawalSettle s
  | .fenceComplete => Sys2Proof.Machine.execFenceComplete s
  | .fenceTimeout => Sys2Proof.Machine.execFenceTimeout s
  | .fenceHostReadDone => Sys2Proof.Machine.execFenceHostReadDone s
  | .normaliserWrite => Sys2Proof.Machine.execNormaliserWrite s
  | .vectorGrant => Sys2Proof.Machine.execVectorGrant s
  | .vectorReturn => Sys2Proof.Machine.execVectorReturn s
  | .matrixGrant => Sys2Proof.Machine.execMatrixGrant s
  | .matrixOpStart => Sys2Proof.Machine.execMatrixOpStart s
  | .matrixOpComplete => Sys2Proof.Machine.execMatrixOpComplete s
  | .mpopRecordLand => Sys2Proof.Machine.execMpopRecordLand s
  | .matrixQueueTimeout => Sys2Proof.Machine.execMatrixQueueTimeout s
  | .mpopTimeout => Sys2Proof.Machine.execMpopTimeout s
  | .offerSend => Sys2Proof.Machine.execOfferSend s
  | .hitchFlitArrival => Sys2Proof.Machine.execHitchFlitArrival s
  | .connectorDecision => Sys2Proof.Machine.execConnectorDecision s
  | .portCompletion => Sys2Proof.Machine.execPortCompletion s
  | .portOpTimeout => Sys2Proof.Machine.execPortOpTimeout s
  | .withdrawn => Sys2Proof.Machine.execWithdrawn s
  | .bindingAnswer => Sys2Proof.Machine.execBindingAnswer s
  | .stop => Sys2Proof.Machine.execStop s
  | .neighbourValueArrival => Sys2Proof.Machine.execNeighbourValueArrival s
  | .neighbourReturn => Sys2Proof.Machine.execNeighbourReturn s
  | .auditSend => Sys2Proof.Machine.execAuditSend s
  | .auditReceipt => Sys2Proof.Machine.execAuditReceipt s
  | .counterResync => Sys2Proof.Machine.execCounterResync s
  | .resyncAnswer => Sys2Proof.Machine.execResyncAnswer s
  | .messageDepart => Sys2Proof.Machine.execMessageDepart s
  | .messageArrival => Sys2Proof.Machine.execMessageArrival s
  | .spillRefill => Sys2Proof.Machine.execSpillRefill s
  | .queueWaitTimeout => Sys2Proof.Machine.execQueueWaitTimeout s
  | .joinDecision => Sys2Proof.Machine.execJoinDecision s
  | .ungate => Sys2Proof.Machine.execUngate s
  | .threadEnd => Sys2Proof.Machine.execThreadEnd s
  | .spawnPlacement => Sys2Proof.Machine.execSpawnPlacement s
  | .spawnTimeout => Sys2Proof.Machine.execSpawnTimeout s
  | .departure => Sys2Proof.Machine.execDeparture s
  | .migrationArrival => Sys2Proof.Machine.execMigrationArrival s
  | .migrationAck => Sys2Proof.Machine.execMigrationAck s
  | .migrationRelease => Sys2Proof.Machine.execMigrationRelease s
  | .lost => Sys2Proof.Machine.execLost s
  | .paddockMove => Sys2Proof.Machine.execPaddockMove s
  | .admission => Sys2Proof.Machine.execAdmission s
  | .launchTake => Sys2Proof.Machine.execLaunchTake s
  | .taskPlacement => Sys2Proof.Machine.execTaskPlacement s
  | .successor => Sys2Proof.Machine.execSuccessor s
  | .launchEnd => Sys2Proof.Machine.execLaunchEnd s
  | .copyGrant => Sys2Proof.Machine.execCopyGrant s
  | .domainAnswer => Sys2Proof.Machine.execDomainAnswer s
  | .reduceUpdate => Sys2Proof.Machine.execReduceUpdate s
  | .copyComplete => Sys2Proof.Machine.execCopyComplete s
  | .enginePushTimeout => Sys2Proof.Machine.execEnginePushTimeout s
  | .bankCommandStart => Sys2Proof.Machine.execBankCommandStart s
  | .bankComplete => Sys2Proof.Machine.execBankComplete s
  | .bfenceTimeout => Sys2Proof.Machine.execBfenceTimeout s
  | .wfeWake => Sys2Proof.Machine.execWfeWake s
  | .wfeTimeout => Sys2Proof.Machine.execWfeTimeout s
  | .reset => Sys2Proof.Machine.execReset s
  | .barrierWordRequest => Sys2Proof.Machine.execBarrierWordRequest s
  | .barrierAnswer => Sys2Proof.Machine.execBarrierAnswer s
  | .hitchAnswer => Sys2Proof.Machine.execHitchAnswer s
  | .connectorUnbinding => Sys2Proof.Machine.execConnectorUnbinding s
  | .migrationDiscard => Sys2Proof.Machine.execMigrationDiscard s
  | .preemptTimeout => Sys2Proof.Machine.execPreemptTimeout s

end Sys2Proof.Machine
end

