-- ==== Sys2Proof/Machine/Schedule.lean ====
section
/-! DEFINITION. One cycle of the machine as a sequence of steps: the issue of each core's post (R59 to R61, R92, R93), the
steps that are due, what each unit does in the cycle, and the passage to the next cycle. In which order the steps of one
cycle are taken is the model's choice where the manual gives none. -/

namespace Sys2Proof.Machine

/-! ### Issue (R59 to R61, R81) -/

/-- The slots of a core's post in the present cycle, in the order of R60 after the post's turn pointer. -/
def State.postOrder (s : State) (core : Nat) : List Nat :=
  let p := s.cycle % 8
  (List.range 8).map fun j => 8 * p + ((s.core core).turn.getD p (8 * p + 7) + 1 + j) % 8
/-- A thread stands at an instruction that it may issue in the present cycle (R61, R93); one that is parked in the operand
state tries again. -/
def Thread.mayIssue (th : Thread) (cycle : Nat) : Bool :=
  (match th.run with | .ready | .operand _ => true | _ => false) && decide (th.notBefore ≤ cycle)
/-- The first of these slots that may issue and has not been tried in the cycle. A turn that a slot forfeits falls to the
next (R63, R92). (DEDUCED, log 10.) -/
def State.pickSlot (s : State) (core : Nat) : List Nat → State
  | [] => s
  | z :: zs =>
    let tk := 64 * core + z
    match s.thread? tk with
    | none => s.pickSlot core zs
    | some th =>
      if !th.mayIssue s.cycle || s.tried.contains tk then s.pickSlot core zs
      else if 0 < th.forfeit then
        State.pickSlot { s.modThread tk (fun th => { th with forfeit := th.forfeit - 1 }) with tried := tk :: s.tried } core zs
      else { s with cur := some tk }
/-- The next core chooses the slot that issues. -/
def State.issuePhase (s : State) : State :=
  match s.issueQ with
  | [] => { s with phase := .timers }
  | core :: rest => State.pickSlot { s with issueQ := rest } core (s.postOrder core)
/-- An instruction-cache miss parks the thread until the line arrives (R81); its post may issue a sibling.
(DESIGN CHOICE, log 6.) -/
def State.fetchMiss (s : State) (tk : Nat) : State :=
  let (d, s) := s.delay
  { (s.modThread tk fun th => { th with run := .fetch }).addTimer (s.cycle + 1 + d) .iCacheFill { n := tk } with
    tried := tk :: s.tried, issueQ := coreOf tk :: s.issueQ, cur := none }
/-- The instruction that a fetched word stands for on a core: a word that is none has a row of its own (R41). -/
def wordInstr (channel : Bool) (w : BitVec 32) : Instr :=
  match decodeOn channel w with
  | .ok i => i
  | .error r => .wordNotAnInstruction r w
/-- The chosen thread's word is fetched and has its meaning. -/
def State.issueStep (s : State) (tk : Nat) : Host.Outcome State Fault Refusal :=
  match s.thread? tk with
  | none => .next { s with cur := none }
  | some _ =>
    match (s.cached tk).bind wordOfBytes with
    | none => .next (s.fetchMiss tk)
    | some w => exec (wordInstr (isChannel (coreOf tk)) w) s

/-! ### Parked instructions that go on (Table CF-5) -/

/-- An instruction that waits as FENCE does: FENCE itself, and the fences of QUIT, EXIT, MIGRATE and LAUNCH. -/
def fenceLike (i : Instr) : Bool :=
  match i with
  | .fence _ _ _ | .quit _ | .exit _ _ | .migrate _ _ | .launch _ _ _ => true
  | _ => false
/-- Such an instruction has its host stores drained, and its zero-length read is to be issued (R153). -/
def State.readDue (s : State) (tk : Nat) (w : Wait) : Bool :=
  fenceLike w.instr && w.stage == 0 && s.drained tk (fenceScope w.instr) && s.needsHostRead tk (fenceScope w.instr)
/-- A parked thread's instruction goes on, if it can. -/
def State.resumeStep (s : State) (tk : Nat) : State :=
  match (s.thread tk).wait? with
  | none => s
  | some w =>
    if s.readDue tk w then s.fenceRead tk w
    else match w.instr with
      | .mpush _ _ _ _ | .mfence _ _ | .mring _ _ _ => s.matrixResume tk w
      | .hload _ _ _ _ => s.hloadStep tk w
      | .tlbi _ _ _ => s.tlbiStep tk w
      | .eret _ _ => s.eretStep tk w
      | .ctxsv _ _ _ _ => s.ctxsvStep tk w
      | .launch _ _ _ => s.launchStep tk w
      | .waitm _ _ _ _ => s.waitmStep tk w
      | .cpys _ _ _ _ | .cpyx _ _ _ _ | .bmv _ _ _ _ | .bfence _ _ => s.engineStep tk w
      | _ => s
/-- What is to happen in this cycle for a thread that waits. -/
def State.waitMoves (s : State) (tk : Nat) (w : Wait) : List Move :=
  if s.readDue tk w then [.resume tk]
  else match w.instr with
    | .fence _ _ _ => if s.fenceReady tk w then [.ev .fenceComplete { n := tk }] else []
    | .quit _ | .exit _ _ => if s.endReady tk w then [.ev .threadEnd { n := tk }] else []
    | .migrate _ _ => if s.migrateReady tk w then [.ev .departure { n := tk }] else []
    | .put _ _ _ _ => if s.offerReady tk w then [.ev .offerSend { n := tk }] else []
    | .wfe _ _ _ _ => if s.wfeFinds tk w.evtMask ≠ 0 then [.ev .wfeWake { n := tk }] else []
    | .stop => if s.tokenReady tk then [.ev .stop { n := tk }] else []
    | .mpush _ _ _ _ | .mfence _ _ | .mring _ _ _ | .hload _ _ _ _ | .tlbi _ _ _ | .eret _ _ | .ctxsv _ _ _ _
    | .launch _ _ _ | .waitm _ _ _ _ | .cpys _ _ _ _ | .cpyx _ _ _ _ | .bmv _ _ _ _ | .bfence _ _ => [.resume tk]
    | _ => []
/-- The row by which a wait ends at its bound. -/
def timeoutRow (i : Instr) : Option Instr :=
  match i with
  | .ldfe _ _ _ _ | .ldff _ _ _ _ | .stfe _ _ _ _ | .stff _ _ _ _ | .barw _ _ _ _ | .waitw _ _ _ _ _ | .gwait _ _ _ _ =>
    some .ownerWaitTimeout
  | .fence _ _ _ => some .fenceTimeout
  | .mpush _ _ _ _ | .mfence _ _ | .mring _ _ _ => some .matrixQueueTimeout
  | .put _ _ _ _ | .take _ _ _ _ => some .portOpTimeout
  | .taga _ _ _ _ | .waitm _ _ _ _ | .recv _ _ _ _ => some .queueWaitTimeout
  | .spawn _ _ _ _ => some .spawnTimeout
  | .cpys _ _ _ _ | .cpyx _ _ _ _ | .bmv _ _ _ _ => some .enginePushTimeout
  | .bfence _ _ => some .bfenceTimeout
  | .wfe _ _ _ _ => some .wfeTimeout
  | _ => none
/-- A bound has expired. -/
def expired (deadline : Option Nat) (cycle : Nat) : Bool :=
  match deadline with
  | some d => decide (d ≤ cycle)
  | none => false
/-- The bounds of a thread's wait and of its pending MPOPs that have expired. -/
def State.timeoutMoves (s : State) (tk : Nat) (th : Thread) : List Move :=
  (match th.wait? with
    | none => []
    | some w => if expired w.deadline s.cycle then (match timeoutRow w.instr with
        | some i => [.ev i { n := tk, m := w.id }]
        | none => []) else []) ++
    (th.mpops.filter fun p => expired p.deadline s.cycle).map fun p => .ev .mpopTimeout { n := tk, m := p.id }
/-- The waiting threads, oldest wait first. -/
def State.waits (s : State) : List (Nat × Wait) :=
  sortBy (fun a b => decide (a.2.id ≤ b.2.id)) (s.threads.filterMap fun e => e.2.wait?.map fun w => (e.1, w))

/-! ### The units of a cycle -/

/-- A row with a numbered subject, where a condition holds. -/
def evIf (c : Bool) (i : Instr) (n : Nat) (m : Nat := 0) : List Move := if c then [.ev i { n := n, m := m }] else []
/-- The node's stream binding that issues a request in this cycle, by the cycle's number among those that may.
(DESIGN CHOICE, log 2.) -/
def State.bindingTurn (s : State) (node : Nat) : List Move :=
  let l := (s.streams.map (·.1)).filter fun k => nodeOf (coreOf (k / 8)) == node && s.bindingReady (k / 8) (k % 8)
  match l[s.cycle % l.length]? with
  | some k => [.ev .bindingRequestIssue { n := k }]
  | none => []
/-- The requests that wait at stream ports and the heads of the store buffers, in the order of their issue (R132). -/
def State.portMoves (s : State) : List Move :=
  let ports := (s.reqs.filter fun e => e.2.stage == .port).map fun e => (e.1, Move.port e.1)
  let heads := s.cores.filterMap fun e => e.2.storeBuf.head?.map fun rid => (rid, Move.ev .storeBufferLeave { n := e.1 })
  (sortBy (fun a b => decide (a.1 ≤ b.1)) (ports ++ heads)).map fun e => e.2
/-- The memory system: stream ports, bindings and slices. -/
def State.memoryMoves (s : State) : List Move :=
  s.portMoves ++ (((s.streams.map fun e => nodeOf (coreOf (e.1 / 8))).eraseDups).flatMap s.bindingTurn) ++
    (s.slices.flatMap fun e => evIf (s.nextLookup e.1).isSome .sliceLookup e.1)
/-- The matrix engines: operands that wait for their banks are read, the operations that are due complete, in the order in which
they became due, then grants and starts (R186 to R188). -/
def State.arrayMoves (s : State) : List Move :=
  s.teams.flatMap fun e =>
    ((e.2.mx.active.filter fun o => o.reading).map fun o => Move.matrixRead e.1 o.e.id) ++
      (e.2.mx.dueOps s.cycle).flatMap (fun o => evIf true .matrixOpComplete e.1 o.e.id) ++
      evIf (e.2.mx.dq.any fun q => !q.isEmpty) .matrixGrant e.1 ++ evIf (!e.2.mx.startQ.isEmpty) .matrixOpStart e.1
/-- The units of the nodes: vector units and hitch engines. -/
def State.nodeMoves (s : State) : List Move :=
  s.teams.flatMap fun e =>
    evIf (s.vectorNext e.1).isSome .vectorGrant e.1 ++
      (List.range 4).flatMap fun c =>
        let x := s.conn e.1 c
        evIf (x.loaded && !x.stopping && s.cycle % 2 == c % 2) .connectorDecision e.1 c
/-- Matrix records that land in pending MPOPs: one step for each record of the slot that a pending MPOP takes (R206). -/
def State.recordMoves (s : State) : List Move :=
  s.threads.flatMap fun e =>
    let records := ((s.mResults (coreOf e.1)).filter fun r => r.slot == slotOf e.1).length
    List.replicate (min e.2.mpops.length records) (.ev .mpopRecordLand { n := e.1 })
/-- The copy engines and bank engines. -/
def State.engineMoves (s : State) : List Move :=
  (s.cores.flatMap fun e => evIf (s.domainReady e.1) .domainAnswer e.1) ++
    ((s.cores.filter fun e => !e.2.copyQ.isEmpty).map fun e => engineOf e.1).eraseDups.flatMap
      (fun e => evIf (s.copyNext e).isSome .copyGrant e) ++
    (s.engines.flatMap fun e =>
      (match s.copyTurn e.1 with | some cid => [.beat e.1 cid] | none => []) ++
        (e.2.active.filter fun a => s.copyDone e.1 a).flatMap fun a => evIf true .copyComplete e.1 a.cmd.id) ++
    s.cores.flatMap fun e =>
      evIf (s.bankOver e.1) .bankComplete e.1 ++ evIf (s.bankStarts e.1) .bankCommandStart e.1 ++
        (if e.2.bankRun.isSome then [.beat e.1 0] else [])
/-- The cores: outbound queues, inboxes, join patterns, slot allocators and lost migrations. -/
def State.coreMoves (s : State) : List Move :=
  s.cores.flatMap fun e =>
    evIf (s.messageReady e.1) .messageDepart e.1 ++
      (if e.2.gated.isNone && !e.2.inbox.isEmpty then [.drain e.1] else []) ++
      evIf (!(s.candidates e.1).isEmpty) .joinDecision e.1 ++ (s.allocate e.1).toList ++
      (e.2.shadows.filter s.overdue).flatMap fun h => evIf true .lost e.1 h.serial
/-- The dispatcher. -/
def State.dispatchMoves (s : State) : List Move :=
  (s.disp.tasks.flatMap fun e => evIf e.2.ended .successor e.1) ++ evIf s.canTake .launchTake 0 ++
    evIf s.nextPlacement.isSome .taskPlacement 0 ++ s.disp.launches.flatMap fun e => evIf (s.launchOver e.1) .launchEnd e.1
/-- The pop counts that the audited queues send every 4,096 cycles (R243). -/
def State.auditMoves (s : State) : List Move :=
  if s.cycle % 4096 ≠ 0 then []
  else ((s.nbrPops.map (·.1)) ++ s.nbrSent.map fun e => senderKey e.1).eraseDups.flatMap fun k =>
    evIf (crossesDie k) .auditSend k
/-- The row of a host command. -/
def commandRow (ring : Nat) (d : List Word) : Instr :=
  match fld (d.getD 0 0) 0 8 with
  | 0x01 => .identify ring
  | 0x02 => .load ring
  | 0x03 => .patch ring
  | 0x04 => .hostLaunch ring
  | 0x05 => if pathIs 0 d then .preemptPipeline ring else .preemptGeneral ring
  | 0x06 => if pathIs 0 d then .resumePipeline ring else .resumeGeneral ring
  | 0x07 => .abort ring
  | 0x08 => .map ring
  | 0x09 => .lifecycle ring
  | 0x0A => .fwstage ring
  | 0x0B => .logread ring
  | _ => .unknownHostCommand ring
/-- Firmware at the host rings: a command in progress goes on, or the next one is taken (R332). -/
def State.hostMoves (s : State) : List Move :=
  (List.range 8).flatMap fun r =>
    (match (s.hring r).cmd with
      | some d => [.ev (commandRow r d) {}]
      | none => evIf (s.ringReady r) (commandRow r (s.nextCommand r)) 0) ++ evIf (s.preemptExpired r) .preemptTimeout r
/-- A wait for messages, which sees all that take effect in the cycle (R257). -/
def Wait.isWaitm (w : Wait) : Bool := match w.instr with | .waitm _ _ _ _ => true | _ => false
/-- Everything that the units do in the present cycle. (DESIGN CHOICE, log 2.) -/
def State.unitMoves (s : State) : List Move :=
  s.memoryMoves ++ s.nodeMoves ++ s.recordMoves ++
    ((s.waits.filter fun e => !e.2.isWaitm).flatMap fun e => s.waitMoves e.1 e.2) ++ s.engineMoves ++ s.coreMoves ++
    s.dispatchMoves ++ s.auditMoves ++ s.hostMoves ++
    ((s.waits.filter fun e => e.2.isWaitm).flatMap fun e => s.waitMoves e.1 e.2) ++
    (s.threads.flatMap fun e => s.timeoutMoves e.1 e.2)

/-! ### The passage of time -/

/-- The idle count of a core (R267). -/
def State.countIdle (s : State) (core : Nat) (c : Core) : Core :=
  { c with idle := if s.quiet core && c.inbox.isEmpty then c.idle + 1 else 0 }
/-- The cores that hold threads, each once. -/
def State.busyCores (s : State) : List Nat := (s.threads.map fun e => coreOf e.1).eraseDups
/-- Threads that have come to an instruction boundary halt where a halt has been asked for, and moves from paddocks
begin. -/
def State.settleCycle (s : State) : State :=
  let s := (s.threads.map (·.1)).foldl State.settleStop s
  (s.cores.map (·.1)).foldl State.beginMove s
/-- The end of a window's zeroing, which frees its slot before the issue of its cycle (R65). -/
def Move.isZeroing : Move → Bool
  | .ev .slotZeroingDone _ => true
  | _ => false
/-- A step that is due at the start of cycle c. -/
def Timer.early (t : Timer) (c : Nat) : Bool :=
  (match t.mv with | .bank _ => true | _ => t.mv.isZeroing) && decide (t.due ≤ c)
/-- The next cycle begins: the local stores of the last cycle are the memory's, the windows whose zeroing has ended are free
(R65), and the local accesses that are due reach their banks (R95). (DEDUCED, log 8.) -/
def State.nextCycle (s : State) : State :=
  let s := s.settleCycle
  let c := s.cycle + 1
  let s : State := { s with cores := s.cores.map fun e => (e.1, s.countIdle e.1 e.2) }
  { s with
    cycle := c, phase := .bank, tried := [], oldBytes := [], portsUsed := [], banksUsed := []
    portAsks := s.portAsks.filter fun a => decide (c ≤ a.asked + 4)
    todo := ((s.timers.filter fun t => t.mv.isZeroing && decide (t.due ≤ c)).map fun t => t.mv) ++ s.bankMoves c
    timers := s.timers.filter fun t => !t.early c }
/-- A ring instruction that takes effect. -/
def Move.isRingOp : Move → Bool
  | .ringOp _ => true
  | _ => false
/-- The banks have been accessed by the cores: what the matrix engines do in the cycle, and after it the ring instructions
that are due (R208, R209). (DEDUCED, log 8.) -/
def State.bankPhase (s : State) : State :=
  let now := fun (t : Timer) => decide (t.due ≤ s.cycle) && t.mv.isRingOp
  { s with
    todo := s.arrayMoves ++ (s.timers.filter now).map fun t => t.mv
    timers := s.timers.filter fun t => !now t, phase := .arrays }
/-- The banks have been accessed: writes of s registers become visible (R66), the cores that hold threads are to issue, and
the inputs that are due are taken. (DESIGN CHOICE, log 2; DEDUCED, log 60.) -/
def State.arraysPhase (s : State) : State :=
  let c := s.cycle
  let s := s.settleS c
  { s with
    phase := .issue, issueQ := s.busyCores
    todo := (s.inputs.filter fun t => decide (t.due ≤ c)).map fun t => t.mv
    inputs := s.inputs.filter fun t => !decide (t.due ≤ c) }
/-- The steps that are due in the present cycle, those that are tried again first. (DESIGN CHOICE, log 2.) -/
def State.timersPhase (s : State) : State :=
  let now := fun (t : Timer) => decide (t.due ≤ s.cycle)
  let due := s.timers.filter now
  { s with
    todo := ((due.filter fun t => t.retry) ++ due.filter fun t => !t.retry).map fun t => t.mv
    timers := s.timers.filter fun t => !now t, phase := .units }
/-- What the units do in the present cycle. -/
def State.unitsPhase (s : State) : State := { s with todo := s.unitMoves, phase := .tick }
/-- One thing that is to happen. -/
def State.runMove (s : State) (mv : Move) : Host.Outcome State Fault Refusal :=
  match mv with
  | .ev i subj => exec i { s with subj := subj }
  | .port rid => .next (s.portStep rid)
  | .ownerRead rid => .next (s.ownerReadStep rid)
  | .withdraw rid => .next (s.withdrawStep rid)
  | .resume tk => .next (s.resumeStep tk)
  | .beat e cid => .next (if e < 1024 then s.copyBeat e cid else s.bankBeat e)
  | .drain core => .next (s.drainInbox core)
  | .place core => .next (s.placeSeat core)
  | .bank op => .next (s.bankStep op)
  | .ringOp op => .next (s.ringStep op)
  | .l1Fill node line => .next (s.l1Fill node line)
  | .matrixRead node id => .next (s.readAgain node id)
/-- A step of the machine while no thread is about to issue. (DESIGN CHOICE, log 2.) -/
def State.hardwareStep (s : State) : Host.Outcome State Fault Refusal :=
  if !s.pkg.answers then exec .reset s
  else match s.todo with
    | mv :: rest => State.runMove { s with todo := rest } mv
    | [] => match s.phase with
      | .bank => .next s.bankPhase
      | .arrays => .next s.arraysPhase
      | .issue => .next s.issuePhase
      | .timers => .next s.timersPhase
      | .units => .next s.unitsPhase
      | .tick => .next s.nextCycle
/-- A step of the machine. -/
def State.oneStep (s : State) : Host.Outcome State Fault Refusal :=
  match s.cur with
  | some tk => s.issueStep tk
  | none => s.hardwareStep

/-! ### Placing a word for the next step -/

/-- A word entered at a thread's pc in its instruction cache. (DESIGN CHOICE, log 7.) -/
def State.enterWord (s : State) (tk : Nat) (w : BitVec 32) : State :=
  let pc := (s.thread tk).pc.toNat
  let old := match (s.team (nodeOf (coreOf tk))).icache.find? fun l => l.root == s.rootOf tk && l.va == pc / 64 with
    | some l => l.bytes
    | none => List.replicate 64 0
  s.modTeam (nodeOf (coreOf tk)) fun t => { t with
    icache := { root := s.rootOf tk, va := pc / 64, bytes := old.take (pc % 64) ++ bytesOfWord w ++ old.drop (pc % 64 + 4) } ::
      t.icache }
/-- The thread that the next step issues: the one chosen already, else slot 0 of core 0 of team 0, or for a word that only
channel cores have, of the first channel core. (DESIGN CHOICE, log 7.) -/
def State.fetcher (s : State) (w : BitVec 32) : Nat :=
  match s.cur with
  | some tk => tk
  | none => match decode w with
    | .ok i => if i.absentOnCompute then 64 * 1024 else 0
    | .error _ => 0
/-- A word placed where the next step fetches, with a thread of 96 registers there when the slot has none.
(DESIGN CHOICE, log 7.) -/
def State.placeWord (s : State) (w : BitVec 32) : State :=
  let tk := s.fetcher w
  let s := match s.thread? tk with
    | some _ => s
    | none => { s with threads := SMap.put s.threads tk { w := 96 } }
  State.enterWord { s with cur := some tk } tk w

end Sys2Proof.Machine
end

