-- ==== Sys2Proof/Machine/Step.lean ====
section
/-! DEFINITION. The step of the machine, and the placing of a word that the next step runs. -/

namespace Sys2Proof.Machine

/-- One step of the machine: the chosen thread's word has its meaning, or one action of the hardware is taken. -/
def step (s : State) : Host.Outcome State Fault Refusal := s.oneStep

/-- The state with an instruction placed where the next step fetches its word. (DESIGN CHOICE, log 7.) -/
def State.withFetchWord (s : State) (nbits w : Nat) : State := s.placeWord (BitVec.ofNat 32 (w % 2 ^ nbits))

end Sys2Proof.Machine
end

