-- ==== Sys2Proof/Safety.lean ====
section
/-! DEFINITION. What claims about the machine are stated in: a safe run, the invariant of every step, when a word has its
own effect, and what an instruction leaves as it was. -/

namespace Sys2Proof

open Sys2Proof.Machine

/-- A machine never stops within n steps. -/
def SafeFor : Nat → State → Prop
  | 0, _ => True
  | n + 1, s => ∃ t, step s = .next t ∧ SafeFor n t

/-- Memory is in its canonical form: addresses rise strictly and no entry is 0, what an unlisted address reads as; and the
register files, the stream registers, the full/empty bits and the cells of the matrix engines are maps with rising keys. -/
def Canonical (s : State) : Prop :=
  Memory.wf s.mem = true ∧ SMap.sortedFrom 0 s.rf = true ∧ SMap.sortedFrom 0 s.sregs = true ∧
    SMap.sortedFrom 0 s.streams = true ∧ SMap.sortedFrom 0 s.fe = true ∧
    ∀ e ∈ s.teams, SMap.sortedFrom 0 e.2.mx.acc = true ∧ SMap.sortedFrom 0 e.2.mx.corr = true

/-- The lists of a core, of a matrix engine, of a connector and of a node that stand for a fixed number of things have that
number, and priorities are 0 to 3. -/
def Machine.Core.sized (c : Machine.Core) : Bool :=
  c.turn.length == 8 && c.roles.length == 4 && c.tags.length == 4 && c.mports.length == 32 && c.jp.length == 16 &&
    c.cports.length == 16 && c.bankTables.length == 3 && c.jp.all fun e => decide (e.prio < 4)
def Machine.Matrix.sized (m : Matrix) : Bool :=
  m.rings.length == 8 && m.tables.length == 3 && m.dq.length == 4 && m.results.length == 4 && m.seqs.length == 4
def Machine.Conn.sized (c : Conn) : Bool := c.bufs.length == 8 && c.binds.length == 16 && c.pend.length == 16
def Machine.Team.sized (t : Team) : Bool :=
  t.maps.length == 4 && t.mapGens.length == 4 && t.vq.length == 4 && t.mx.sized && t.conns.length == 4 &&
    t.domains.length == 16 && t.conns.all Machine.Conn.sized

/-- Every list that stands for a fixed number of things has that number, in what firmware keeps of a saved team too; and a
thread that is about to issue is ready, or parked in the operand state. -/
def Sized (s : State) : Prop :=
  (∀ e ∈ s.cores, e.2.sized = true) ∧ (∀ e ∈ s.teams, e.2.sized = true) ∧
    (∀ e ∈ s.disp.launches, ∀ k ∈ e.2.saved, k.mx.sized = true ∧ ∀ c ∈ k.cores, c.sized = true) ∧
    s.pkg.rings.length = 8 ∧ s.pkg.links.length = 8 ∧ s.pkg.bucketMaps.length = 4 ∧ s.pkg.mapGens.length = 4 ∧
    ∀ tk th, s.cur = some tk → s.thread? tk = some th → th.run = .ready ∨ ∃ i, th.run = .operand i

/-- The thread tk is about to issue, and is th. -/
def Issuing (s : State) (tk : Nat) (th : Thread) : Prop := s.cur = some tk ∧ s.thread? tk = some th

/-- The prefix that is pending for a thread, with every field 0 when there is none (R87). -/
def prefixOf (th : Thread) : BitVec 32 := (pending th.status).getD 0

/-- The fmt, aux and ord of a thread's pending prefix are ones that an instruction accepts (R29). -/
def prefixOk (i : Instr) (th : Thread) : Bool :=
  accepts i (preFmt (prefixOf th)) (preAux (prefixOf th)) (preOrd (prefixOf th))

/-- The conditions under which a word that a thread issues has its own effect, apart from checks of its own: the checks
of R29 and R30, of R23 (window), R241 and R244 (queue names), R246 and R293 (tokens), R24 (operands and room) and R109
(fault markers). -/
structure Ready (i : Instr) (s : State) (tk : Nat) (th : Thread) : Prop where
  /-- the thread is about to issue -/
  issuing : Issuing s tk th
  /-- the pending prefix has no field that the instruction refuses -/
  pre : prefixOk i th = true
  /-- every window register it names lies below W -/
  window : inWindow i th.w = true
  /-- it is not guarded off -/
  guard : s.guardOk tk (prefixOf th) = true
  /-- no queue name faults -/
  names : s.queueFault tk i = none
  /-- no source holds a stop token at its head -/
  noStop : s.headToken tk i 2 = none
  /-- no source holds an end-of-stream token at its head, where that would end the thread -/
  noEnd : s.compat tk = true → s.headToken tk i 1 = none
  /-- every popping source has an element -/
  pops : s.popsReady tk i = true
  /-- every pushing destination has room -/
  room : s.roomReady tk i = true
  /-- no popped element is a fault marker -/
  noMarker : s.popMarker tk i = none

/-- A word that has issued with an effect: the sources are popped, the pc steps to the next word and the prefix is consumed,
then comes the effect, then the switch marker, and the post's turn pointer moves to the slot. -/
def issued (i : Instr) (s : State) (tk : Nat) (eff : State → State) : State :=
  State.takeTurn ((eff ((s.popAll tk (popList i)).advance tk)).settleSwitch i tk) tk

/-- Whenever it is ready, an instruction answers the next state of this effect; the effect may depend on the state at
issue. -/
def Does (i : Instr) (eff : State → Nat → State → State) : Prop :=
  ∀ s tk th, Ready i s tk th → Machine.exec i s = .next (issued i s tk (eff s tk))

/-- Whenever it is ready, an instruction writes one result to rd: a function of the values that its second and third
register fields read. -/
def Writes (i : Instr) (rd : Reg) (f : Word → Word → Word) : Prop :=
  Does i fun s tk u => u.writeReg tk rd (f (s.operand tk i 1) (s.operand tk i 2))

/-- The instruction completes: it answers a next state in which no thread is about to issue and of which P holds with the
issuing thread as it then is. -/
def Completes (i : Instr) (s : State) (tk : Nat) (P : State → Thread → Prop) : Prop :=
  ∃ t u, Machine.exec i s = .next t ∧ t.thread? tk = some u ∧ t.cur = none ∧ P t u

/-- A row of the hardware answers a next state of which P holds. -/
def Answers (i : Instr) (s : State) (P : State → Prop) : Prop := ∃ t, Machine.exec i s = .next t ∧ P t

/-- Between two states one request has been made, of the thread tk for the instruction i, and its number is new; P holds
of it. -/
def OneRequest (i : Instr) (s t : State) (tk : Nat) (P : Req → Prop) : Prop :=
  ∃ r, t.reqs = SMap.put s.reqs r.id r ∧ s.nextId ≤ r.id ∧ r.id < t.nextId ∧ r.tk = tk ∧ r.node = nodeOf (coreOf tk) ∧
    r.instr = i ∧ r.launch = (s.thread tk).launch ∧ P r

/-- The thread waits at its own address for the instruction i, with the operand values it read at issue and the cycle in
which its bound expires. -/
def Waits (s : State) (tk : Nat) (th u : Thread) (i : Instr) (deadline : Option Nat) (P : Wait → Prop) : Prop :=
  ∃ w, u.run = .wait w ∧ u.pc = th.pc ∧ w.instr = i ∧ w.deadline = deadline ∧
    (∀ n, n < i.fields.length → w.vals[n]? = some (s.operand tk i n)) ∧ P w

/-- The cycle in which a bound of 64·2^e expires, none for e = 15 (R36, Table FM-2). -/
def boundOf (s : State) (e : BitVec 4) : Option Nat := if e = 15 then none else some (s.cycle + 64 * 2 ^ e.toNat)

/-! ### Values that statements name -/

/-- The quotient and remainder of R70. -/
def divideSigned (x y : Int) : Int × Int :=
  if y = 0 then (-1, x)
  else if x = -(2 ^ 63) ∧ y = -1 then (-(2 ^ 63), 0)
  else (Int.tdiv x y, x - Int.tdiv x y * y)

/-- The address that a displacement of n words from pc names, modulo 2^48 (R21, R80). -/
def displaced (pc : BitVec 48) {n : Nat} (disp : BitVec n) : BitVec 48 := BitVec.ofInt 48 (pc.toInt + 4 * disp.toInt)

/-- A number of n bits as two's complement. -/
def toSigned (bits v : Nat) : Int := if 2 ^ bits ≤ 2 * v then (v : Int) - 2 ^ bits else v

/-- The little-endian number of the n bytes of memory from a key on (R3). -/
def bytesAt (s : State) (key n : Nat) : Nat := ((List.range n).map fun k => (s.byte (key + k)).toNat * 256 ^ k).sum

/-- Every byte outside n bytes from a key on reads as before. -/
def OnlyBytes (s t : State) (key n : Nat) : Prop := ∀ a, a < key ∨ key + n ≤ a → t.byte a = s.byte a

/-- The value that an atomic update with operand b leaves (R140); ACAS leaves a value that differs from `exp`. -/
def atomicResult (i : Instr) (bits old b exp : Nat) : Nat :=
  match i with
  | .amoadd _ _ _ _ | .redadd _ _ _ => (old + b) % 2 ^ bits
  | .amoand _ _ _ _ | .redand _ _ _ => old &&& b
  | .amoor _ _ _ _ | .redor _ _ _ => old ||| b
  | .amoxor _ _ _ _ | .redxor _ _ _ => old ^^^ b
  | .amomin _ _ _ _ | .redmin _ _ _ => if toSigned bits old < toSigned bits b then old else b
  | .amomax _ _ _ _ | .redmax _ _ _ => if toSigned bits b < toSigned bits old then old else b
  | .amominu _ _ _ _ | .redminu _ _ _ => if old < b then old else b
  | .amomaxu _ _ _ _ | .redmaxu _ _ _ => if b < old then old else b
  | .acas _ _ _ _ => if old = exp then b else old
  | _ => b

/-- The turn of a request has come at its owner: it has arrived and is not yet performed or in a waiter, no request that must come
first is unperformed (R116 to R118), no earlier request to its line is in its slice's queue (R125) or, at another owner, none of
its path sent before it is unperformed (R130) and none is ahead of its die's order at its bytes (R117), no bank it reads or writes
has its engine port taken or asked for by another access (R95), and it is not redirected to a saved image (R313). -/
def Turn (s : State) (r : Req) : Prop :=
  r.stage ≠ .performed ∧ r.stage ≠ .port ∧ r.stage ≠ .waiter ∧ s.redirected r = r ∧
    (∀ b ∈ r.banks, b ∉ s.banksUsed) ∧ (∀ a ∈ s.portAsks, a.isOf .fabric r.id = false ∧ ∀ b ∈ r.banks, b ∉ a.left) ∧
    s.mustWait r = false ∧ match r.tgt with
    | some (.line _ _ _ _) => s.lineBusy r = false
    | _ => s.earlierSent r = false ∧ s.meetsAhead r = false

/-- The turn of a request has come at its owner, and the owner finds no fault. -/
def TurnOf (s : State) (r : Req) : Prop := Turn s r ∧ s.ownerCause r = 0

/-- A packet has been sent between two states: to a node, with a payload. -/
def Sent (s t : State) (dst : Nat) (p : Payload) : Prop :=
  ∃ pid q, SMap.get? t.packets pid = some q ∧ s.nextId ≤ pid ∧ q.dst = dst ∧ q.payload = p

/-- A packet arrives: it is the step's subject, and no earlier packet of its path is still on the fabric (R130). -/
def Arrives (s : State) (p : Payload) : Prop :=
  ∃ q, SMap.get? s.packets s.subj.n = some q ∧ q.id = s.subj.n ∧ q.payload = p ∧ s.behind q = false

/-- The thread of a request still waits for it. -/
def WaitsFor (s : State) (r : Req) (th : Thread) (w : Wait) : Prop :=
  s.thread? r.tk = some th ∧ th.run = .wait w ∧ w.req = r.id

/-- A waiting instruction ends with a status (R93): the status is written, the pc moves past the word, and the thread is ready
from the next cycle, or stays parked by the word's switch marker while results are outstanding. -/
def EndsWith (s t : State) (tk : Nat) (th : Thread) (code : BitVec 3) : Prop :=
  ∃ u, t.thread? tk = some u ∧ u.pc = th.pc + 4 ∧ u.status.extractLsb' 0 3 = code ∧ u.notBefore = s.cycle + 1 ∧
    (u.run = .ready ∨ u.run = .switch)

/-- A result stands in its register: a window register reads it, and for a core-shared register the write is on its way
with this cycle as its write cycle, by an instruction later than those before (R66). -/
def Puts (s t : State) (tk : Nat) (rd : Reg) (v : Word) : Prop :=
  (∀ k, rd = .g k → t.readG tk k.val = v) ∧
    (∀ k, rd = .s k → ∃ n, s.nextId ≤ n ∧ t.spend = (s.writeSAt (coreOf tk) k.val v (slotOf tk) s.cycle n).spend)

/-- A result for which a place is reserved is written between two states: a window register reads it; a core-shared register has
c as write cycle, by the instruction at that place in program order (R66); to a neighbour port it leaves `late` cycles from now (R242);
and the place reserved in a role queue becomes its last entry, which takes effect `late` cycles from now (R247). -/
def WritesAt (s t : State) (tk : Nat) (r : Reg) (v : Word) (c place late : Nat) : Prop :=
  (∀ k, r = .g k → t = s.writeG tk k.val v) ∧
    (∀ k, r = .s k → t = s.writeSAt (coreOf tk) k.val v (slotOf tk) c place) ∧
    (∀ d, r = .nb d →
      let away := if dieOfNode (nodeOf (coreOf tk)) = dieOfNode (nodeOf (coreOf (nbrSlot tk d))) then 4 else 16
      let subj : Subj := { n := nbrKey (nbrSlot tk d) (Dir.opposite d), k := (s.thread tk).launch, v := v }
      t = { s with timers := s.timers ++ [{ due := s.cycle + late + away, mv := .ev .neighbourValueArrival subj }] }) ∧
    (∀ k, r = .q k → t.mem = s.mem ∧ t.rf = s.rf ∧ let q := (s.core (coreOf tk)).role k.val
      (t.core (coreOf tk)).role k.val = { q with
        reserved := q.reserved - 1, entries := q.entries ++ [{ v := v, tag := 0, since := s.cycle + late }] })

/-- A late result of a thread is written between two states, with the present cycle as its write cycle (R63, R165). -/
def WritesLate (s t : State) (tk : Nat) (r : Reg) (v : Word) : Prop := WritesAt s t tk r v s.cycle s.nextId 0

/-- The status code of a thread (Table FM-2). -/
def codeOf (u : Thread) : BitVec 3 := u.status.extractLsb' 0 3

/-- Lane j of a group in lanes of w bits, lane 0 lowest (R171). -/
def laneOf (w v j : Nat) : Nat := v / 2 ^ (w * j) % 2 ^ w

/-! ### The host link -/

/-- The key of the completion entry that a ring writes next (R332). -/
def completionKey (s : State) (r : Nat) : Nat :=
  let q := s.hring r
  hostKey (q.cbase.toNat + 16 * (q.chead % 2 ^ (q.rcfg.toNat % 16)))

/-- A ring holds no command that firmware has taken, and firmware takes its next command, d, now; it has this opcode. -/
def HostTakes (s : State) (r code : Nat) (d : List Word) : Prop :=
  r < 8 ∧ (s.hring r).cmd = none ∧ s.ringReady r = true ∧ s.nextCommand r = d ∧ (d.getD 0 0).toNat % 256 = code

/-- The device accepts a command in its state (R335, R336), and the header and every dword that Table SY-8 does not list,
those after d(n), are as R332 and R333 ask. -/
def HostAccepts (s : State) (code n : Nat) (d : List Word) : Prop :=
  (s.pkg.booted = true ∨ code = 0x01 ∨ code = 0x0A) ∧ s.pkg.lifecycle ≠ 3 ∧ (d.getD 0 0).toNat / 2 ^ 8 % 2 ^ 8 = 0 ∧
    (d.getD 0 0).toNat / 2 ^ 32 = 0 ∧ ∀ i, n < i → d.getD i 0 = 0

/-- The command d of a ring has completed with a status and two results: its completion stands in its entry, CHEAD has
moved past it, and the ring's vector has been raised (R332). -/
def HostDone (s t : State) (r : Nat) (d : List Word) (status : Nat) (a b : Word) : Prop :=
  bytesAt t (completionKey s r) 8 =
      (d.getD 0 0).toNat / 2 ^ 16 % 2 ^ 16 + 2 ^ 16 * status + 2 ^ 32 * (a.toNat % 2 ^ 32) ∧
    bytesAt t (completionKey s r + 8) 8 = b.toNat ∧ (t.hring r).cmd = none ∧
    (t.hring r).chead = ((s.hring r).chead + 1) % 2 ^ 16 ∧
    t.pkg.msix = s.pkg.msix ++ [(s.hring r).rcfg.toNat / 2 ^ 16 % 16]

/-- A command is refused, with no effect (R333). -/
def HostRefused (s t : State) (r : Nat) (d : List Word) : Prop :=
  HostDone s t r d 4 0 0 ∧ OnlyBytes s t (completionKey s r) 16 ∧ t.threads = s.threads ∧ t.disp = s.disp ∧
    t.cores = s.cores ∧ t.teams = s.teams

/-- n bytes of virtual addresses from va on lie at successive keys of device memory, and the tables that say so lie
elsewhere. -/
def MapsTo (s : State) (root va key n : Nat) : Prop :=
  key + n ≤ 2 ^ 60 ∧ ∀ m, (∀ a, a < key ∨ key + n ≤ a → State.byte { s with mem := m } a = s.byte a) →
    ∀ j, j < n → State.deviceKey { s with mem := m } root (va + j) = some (key + j)

/-- Every byte is as before but for those of two ranges. -/
def OnlyTwo (s t : State) (k1 n1 k2 n2 : Nat) : Prop :=
  ∀ a, (a < k1 ∨ k1 + n1 ≤ a) → (a < k2 ∨ k2 + n2 ≤ a) → t.byte a = s.byte a

/-! ### What instructions leave as it was -/

/-- The register that an instruction of opcodes 0x01 to 0x17 writes, if any: rd, g1 for JL, and ra for BLOOP. -/
def resultReg (i : Instr) : Option Reg :=
  match i with
  | .jl _ _ => some (.g 1)
  | .bloop _ ra _ => some ra
  | _ => (i.fields.find? fun f => f.1 == .dst || f.1 == .upd).map (·.2)

/-- The instructions that act on registers alone: opcodes 0x01 to 0x17 but for PRE (R67, R80 to R84, R92). -/
def registerOnly (i : Instr) : Bool :=
  i.isWord && decide (((encode i).extractLsb' 25 6).toNat ≤ 0x17) && !(match i with | .pre _ _ _ _ _ _ _ _ => true | _ => false)

/-- Everything outside a core's registers, queues and threads is as it was: memory with its full/empty bits, requests,
packets, the units of the teams, the engines, the slices, the dispatcher and the package. -/
structure Untouched (s t : State) : Prop where
  /-- every byte -/
  mem : t.mem = s.mem
  /-- every full/empty bit -/
  fe : t.fe = s.fe
  /-- what local accesses of this cycle read -/
  oldBytes : t.oldBytes = s.oldBytes
  /-- the s registers, as reads of this cycle see them -/
  sregs : t.sregs = s.sregs
  /-- the teams: matrix engine, vector unit, connectors, caches, TLB -/
  teams : t.teams = s.teams
  /-- the copy engines -/
  engines : t.engines = s.engines
  /-- the L2 slices -/
  slices : t.slices = s.slices
  /-- global accesses -/
  reqs : t.reqs = s.reqs
  /-- waiters at owners -/
  waiters : t.waiters = s.waiters
  /-- packets -/
  packets : t.packets = s.packets
  /-- the dispatcher -/
  disp : t.disp = s.disp
  /-- the package -/
  pkg : t.pkg = s.pkg
  /-- the time -/
  cycle : t.cycle = s.cycle

/-- A thread but for its pc, its status word, its run state, the turns it forfeits and what a pre-emption left of a wait
is as it was. -/
structure SameThread (a b : Thread) : Prop where
  born : b.born = a.born
  base : b.base = a.base
  w : b.w = a.w
  amos : b.amos = a.amos
  mpops : b.mpops = a.mpops
  u : b.u = a.u
  log : b.log = a.log
  bankCount : b.bankCount = a.bankCount
  bankFault : b.bankFault = a.bankFault
  hostStore : b.hostStore = a.hostStore
  launch : b.launch = a.launch
  task : b.task = a.task
  stopReq : b.stopReq = a.stopReq
  notBefore : b.notBefore = a.notBefore
  tokens : b.tokens = a.tokens

end Sys2Proof
end

