-- ==== Sys2Proof/Certificates/Slice0/Obligations.lean ====
section
/-! DEFINITION. The statements for the provers. -/

open Sys2Proof Sys2Proof.Machine

/-! ### Encoding (R19 to R41) -/

/-- Every well-formed instruction is what the word that the encoder gives for it decodes to. -/
def Obligations.RoundTrip : Prop := ∀ i : Instr, i.wellFormed = true → decode (encode i) = .ok i

/-- A word that decodes to an instruction is that instruction's encoding, and the instruction is well-formed: no bit of a word is
ignored (R20, R41). -/
def Obligations.DecodedWordsEncode : Prop :=
  ∀ (w : BitVec 32) (i : Instr), decode w = .ok i → i.wellFormed = true ∧ encode i = w

/-- Words that the manual writes out decode to the instructions they stand for. A word with a reserved major opcode of Table FM-7
is no instruction, with reason 1 of Table FM-12 (R31, R41). -/
def Obligations.SampleWordsAndReservedOpcodes : Prop :=
  (decode 0x020C2050 = .ok (.add false (.g 3) (.g 4) (.g 5)) ∧
  decode 0x8A1C3FFD = .ok (.addi true (.g 7) (.g 7) (-3)) ∧
  decode 0x26305FFD = .ok (.bbs false (.g 12) 5 (-3)) ∧
  decode 0x2C080880 = .ok (.pre false (.g 2) 0 1 0 2 0 0) ∧
  decode 0x300C217E = .ok (.ldw false (.g 3) (.g 4) 0 (-2)) ∧
  decode 0x41C855C2 = .ok (.gld false (.st 2) (.g 10) 2 3 1 0 2) ∧
  decode 0x482048A9 = .ok (.acas false (.g 8) (.g 9) (.g 10)) ∧
  decode 0x4C105400 = .ok (.ldfe false (.g 4) (.g 10) 8) ∧
  decode 0xCE000334 = .ok (.fence true 6 3) ∧
  decode 0x5010286B = .ok (.ffma false (.g 4) (.g 5) (.g 6)) ∧
  decode 0x5840C203 = .ok (.vfma false (.g 16) (.g 24) (.g 32)) ∧
  decode 0x640C40F0 = .ok (.mpush false (.g 3) (.g 8) 15) ∧
  decode 0 = .error 1) ∧
  (∀ w : BitVec 32, (w.extractLsb' 25 6).toNat ∈
      [0x00, 0x0E, 0x0F, 0x1D, 0x1E, 0x1F, 0x29, 0x2A, 0x2B, 0x31, 0x33, 0x39, 0x3D, 0x3E, 0x3F] →
    decode w = .error 1)

/-! ### The machine as a whole -/

/-- A step runs the decoded instruction: when a thread has been chosen to issue and the four bytes at its pc are in its team's
instruction cache, the step is the meaning of the instruction that the word decodes to on that core; a word that is no
instruction has the row of R41; with no line for the pc in the cache, the thread parks for it (R81). A step of the hardware
runs the row that is next, on its subject. Where the manual is silent or is read by inference it is the model's choice: log 2. -/
def Obligations.StepRunsTheDecodedInstruction : Prop :=
  (∀ (s : State) (tk : Nat) (th : Thread), Issuing s tk th →
    (∀ (bs : List Byte) (w : BitVec 32) (i : Instr), s.cached tk = some bs → wordOfBytes bs = some w →
      decodeOn (isChannel (coreOf tk)) w = .ok i → Machine.step s = Machine.exec i s) ∧
    (∀ (bs : List Byte) (w : BitVec 32) (r : Nat), s.cached tk = some bs → wordOfBytes bs = some w →
      decodeOn (isChannel (coreOf tk)) w = .error r →
      Machine.step s = Machine.exec (.wordNotAnInstruction r w) s) ∧
    (s.cached tk = none → Machine.step s = .next (s.fetchMiss tk))) ∧
  (∀ (s : State) (i : Instr) (subj : Subj) (rest : List Move),
    s.cur = none → s.pkg.answers = true → s.todo = .ev i subj :: rest →
    Machine.step s = Machine.exec i { s with todo := rest, subj := subj })

/-- At reset memory, the register files and the full/empty bits are in their canonical form, and every list that stands for a
fixed number of things has that number. -/
def Obligations.ResetHasTheInvariants : Prop := Canonical State.reset ∧ Sized State.reset

/-- Every step keeps the canonical form of memory, of the register files and of the full/empty bits. -/
def Obligations.StepKeepsCanonical : Prop :=
  ∀ s t : State, Canonical s → Machine.step s = .next t → Canonical t

/-- Every step keeps the sizes: every list that stands for a fixed number of things (turn pointers, role queues, tag pools,
message ports, join-pattern entries, core ports, the rings, tables and queues of the matrix engine, connectors, order domains,
host rings, links, bucket maps) has that number, and the thread that is about to issue is ready or in the operand state. -/
def Obligations.StepKeepsSized : Prop :=
  ∀ s t : State, Sized s → Machine.step s = .next t → Sized t

/-- What the manual gives for reset: every byte of the device's memory (the keys below 2^40, and of the SRAMs those from 2^48 to
2^60; the others are peer packages' and the host's) is zero and every word full (R144), every s register is zero (R66), every
turn pointer holds its post's highest slot (R60), FERETRY is 0x0404 (R146), and no slot holds a thread. -/
def Obligations.ResetValues : Prop :=
  (∀ key, (key < 2 ^ 40 ∨ (2 ^ 48 ≤ key ∧ key < 2 ^ 60)) → State.reset.byte key = 0 ∧ State.reset.full key = true) ∧
  (∀ core n, State.reset.readS core n = 0) ∧ (∀ core p, p < 8 → (State.reset.core core).turn[p]? = some (8 * p + 7)) ∧
  (∀ core, (State.reset.core core).feretry = 0x0404) ∧ (∀ tk, State.reset.thread? tk = none)

/-- A prefixed instruction whose guard is false has no effect: it performs no pop, no push, no register write, no memory access
and no status write. Its S marker still takes effect, and the prefix is consumed (R29). The checks before the guard, in the
order of R30: an instruction whose prefix has an fmt, aux or ord that it does not accept traps with kind 1 and reason 6 and
its prefix is consumed (R29); else one that names a window register at or above W raises the window trap, kind 2, at itself
(R23). Word 1 of the report is the pending prefix and the word (R42). -/
def Obligations.ChecksBeforeTheEffect : Prop :=
  (∀ (i : Instr) (s : State) (tk : Nat) (th : Thread),
    i.isWord = true → (∀ sm g b e n f x o, i ≠ .pre sm g b e n f x o) →
    Issuing s tk th → prefixOk i th = true → inWindow i th.w = true → s.guardOk tk (prefixOf th) = false →
    Machine.exec i s = .next (((s.advance tk).settleSwitch i tk).takeTurn tk)) ∧
  (∀ (i : Instr) (s : State) (tk : Nat) (th : Thread),
    i.isWord = true → (∀ sm g b e n f x o, i ≠ .pre sm g b e n f x o) → Issuing s tk th →
    (prefixOk i th = false →
      Machine.exec i s = .next (((s.trap tk 1 6 (prefixOf th ++ encode i)).modThread tk fun u =>
        { u with status := u.status &&& 0x00000000FFFFFFF7 }).takeTurn tk)) ∧
    (prefixOk i th = true → inWindow i th.w = false →
      Machine.exec i s = .next ((s.trap tk 2 0 (prefixOf th ++ encode i)).takeTurn tk)))

/-- All-or-nothing at issue (R24): an instruction that passes the checks before readiness and lacks an element or room parks in
the operand state at itself, with nothing popped or pushed: registers, queues, streams and memory are as they were. Where the
manual is silent or is read by inference it is the model's choice: log 9. -/
def Obligations.ParksForOperands : Prop :=
  ∀ (i : Instr) (s : State) (tk : Nat) (th : Thread),
    i.isWord = true → (∀ sm g b e n f x o, i ≠ .pre sm g b e n f x o) →
    Issuing s tk th → prefixOk i th = true → inWindow i th.w = true → s.guardOk tk (prefixOf th) = true →
    s.queueFault tk i = none → s.headToken tk i 2 = none → (s.compat tk = true → s.headToken tk i 1 = none) →
    (s.popsReady tk i && s.roomReady tk i) = false →
    ∃ t, Machine.exec i s = .next t ∧ t.thread? tk = some { th with run := .operand i } ∧ t.cur = none ∧
      t.rf = s.rf ∧ t.spend = s.spend ∧ t.streams = s.streams ∧ t.nbr = s.nbr ∧ t.nbrFree = s.nbrFree ∧ t.cores = s.cores ∧
      t.timers = s.timers ∧ Untouched s t

/-- Taking a trap of a halting kind (R319, R320): the slot halts at the trapping word, with its pc, its status word and its
registers as they were, but for a RECV of slot 0 that the report ends; from a slot other than 0 that has no earlier report on
its way, word 0 of the report, with kind in [63:59], cause in [58:54], slot in [53:48] and pc in [47:0], goes to the core's
trap port; from slot 0 the report goes to steward firmware. Where the manual is silent or is read by inference it is the
model's choice: log 14. -/
def Obligations.TakingATrap : Prop :=
  ∀ (s : State) (tk kind cause : Nat) (w1 : Word) (th : Thread),
    s.thread? tk = some th → kind < 32 → cause < 32 →
    (s.trap tk kind cause w1).thread? tk = some { th with run := .halted kind, tokens := none } ∧
    (slotOf tk = 0 ∨ s.recvWaiter (coreOf tk) 31 = none → (s.trap tk kind cause w1).rf = s.rf) ∧
    (s.trap tk kind cause w1).mem = s.mem ∧
    (slotOf tk = 0 → (s.trap tk kind cause w1).pkg.fwReports =
      s.pkg.fwReports ++ [(coreOf tk, BitVec.ofNat 5 kind ++ BitVec.ofNat 5 cause ++ (0 : BitVec 6) ++ th.pc, w1)]) ∧
    (slotOf tk ≠ 0 → s.reportOnWay (coreOf tk) (slotOf tk) = false → (s.core (coreOf tk)).held = [] →
      s.recvWaiter (coreOf tk) 31 = none → (s.core (coreOf tk)).spill = [] → (s.core (coreOf tk)).reserve = [] →
      (s.core (coreOf tk)).mports.length = 32 →
      ((s.core (coreOf tk)).mport 31).msgs.length + ((s.core (coreOf tk)).mport 31).reserved < 4 →
      (((s.trap tk kind cause w1).core (coreOf tk)).mport 31).msgs = ((s.core (coreOf tk)).mport 31).msgs ++
        [{ w0 := BitVec.ofNat 5 kind ++ BitVec.ofNat 5 cause ++ BitVec.ofNat 6 (slotOf tk) ++ th.pc,
            w1 := w1, since := s.cycle }])

/-! ### Operands, integer and address instructions (R22, R63 to R78) -/

/-- What a register field reads: a window register gi is file entry 8B + i of its core (R64); an s register is the core's, as the
writes of write cycle c − 3 or earlier left it (R66); a field that is read and written and that names a neighbour port or a
role queue reads as zero (R68). A write to a window register of a thread is what a later read of it gives, and no other file
entry changes (R64). A write to sN by an instruction issued in cycle c is seen by every read of sN issued in cycle c + 3 or
later, and by no read issued in cycles c + 1 or c + 2 (R66); of two writes of one write cycle the one of the lower slot
remains, and of one slot that of the instruction later in program order; every other s register keeps its writes. Queue names
(R22, R24, R242, R244, R247): a source field that names a stream, a neighbour port or a role queue gives its head, and where
an earlier field of the instruction names it too the element after it; a pop takes the head; that of a neighbour port is
counted, and its place returns to the sender 4 cycles later, or 16 across a die edge. An rd that is read as data is popped
after ra and rb, which is the model's choice (log 64). A result written to a neighbour port takes a free place at issue and
reaches the opposite queue of the neighbour slot that long after the result; one written to a role queue is its last entry,
with tag 0, from the third cycle after issue. Where the manual is silent or is read by inference it is the model's choice: log
64. -/
def Obligations.RegistersReadAndWritten : Prop :=
  (∀ (s : State) (tk : Nat) (i : Instr) (n : Nat) (role : Role), role ≠ .dst → role ≠ .dstGS →
    (∀ k, i.fields[n]? = some (role, .g k) →
      s.operand tk i n = SMap.getD s.rf (2048 * coreOf tk + (8 * (s.thread tk).base + k.val)) 0) ∧
    (∀ k, i.fields[n]? = some (role, .s k) → s.operand tk i n = SMap.getD s.sregs (16 * coreOf tk + k.val) 0) ∧
    (∀ d, i.fields[n]? = some (.upd, .nb d) → s.operand tk i n = 0) ∧
    (∀ k, i.fields[n]? = some (.upd, .q k) → s.operand tk i n = 0) ∧
    (∀ k, i.fields[n]? = some (.src, .st k) → (∀ m, m < n → i.fields[m]? ≠ some (.src, .st k)) →
      s.operand tk i n = ((s.stream tk k.val).entries.head?.map (·.value)).getD 0)) ∧
  (∀ (s : State) (tk : Nat) (k : Fin 96) (v : Word), Canonical s →
    (s.writeReg tk (.g k) v).readG tk k.val = v ∧
    ∀ key, key ≠ 2048 * coreOf tk + (8 * (s.thread tk).base + k.val) →
      SMap.getD (s.writeReg tk (.g k) v).rf key 0 = SMap.getD s.rf key 0) ∧
  (∀ (s : State) (tk : Nat) (k : Fin 16) (v : Word), Canonical s →
    (∀ c, c < s.cycle + 3 → ((s.writeReg tk (.s k) v).settleS c).readS (coreOf tk) k.val =
      (s.settleS c).readS (coreOf tk) k.val) ∧
    ((∀ e ∈ s.spend, e.key = 16 * coreOf tk + k.val → e.cycle = s.cycle → slotOf tk < e.slot ∨
        (slotOf tk = e.slot ∧ e.stamp ≤ s.nextId)) →
      ((s.writeReg tk (.s k) v).settleS (s.cycle + 3)).readS (coreOf tk) k.val = v) ∧
    (∀ tk' v', coreOf tk' = coreOf tk → slotOf tk' < slotOf tk →
      ((((s.writeReg tk' (.s k) v').writeReg tk (.s k) v)).settleS (s.cycle + 3)).readS (coreOf tk) k.val =
        ((s.writeReg tk' (.s k) v').settleS (s.cycle + 3)).readS (coreOf tk) k.val) ∧
    (∀ c key, key ≠ 16 * coreOf tk + k.val →
      SMap.getD ((s.writeReg tk (.s k) v).settleS c).sregs key 0 = SMap.getD (s.settleS c).sregs key 0)) ∧
  (∀ (s : State) (tk : Nat) (v : Word), Canonical s → Sized s → SMap.sortedFrom 0 s.nbr = true →
    let core := coreOf tk
    let element := fun (r : Reg) (n : Nat) => match r with
      | .st k => (((s.stream tk k.val).entries[n]?).map (·.value)).getD 0
      | .nb d => (((s.nbrQueue (nbrKey tk d))[n]?).map (·.v)).getD 0
      | .q k => ((((s.core core).role k.val).entries[n]?).map (·.v)).getD 0
      | _ => 0
    let away := fun (d : Dir) => if dieOfNode (nodeOf core) = dieOfNode (nodeOf (coreOf (nbrSlot tk d))) then 4 else 16
    let other := fun (d : Dir) => nbrKey (nbrSlot tk d) (Dir.opposite d)
    (∀ (i : Instr) (n m : Nat) (r : Reg), i.fields[n]? = some (.src, r) → isQueueName r = true →
      ((∀ k, k < n → i.fields[k]? ≠ some (.src, r)) → s.operand tk i n = element r 0) ∧
      (m < n → i.fields[m]? = some (.src, r) → (∀ k, k < n → k ≠ m → i.fields[k]? ≠ some (.src, r)) →
        s.operand tk i n = element r 1)) ∧
    (∀ (i : Instr) (n m : Nat) (r : Reg), i.fields[n]? = some (.data, r) → isQueueName r = true →
      ((∀ k : Nat, i.fields[k]? ≠ some (Role.src, r)) → s.operand tk i n = element r 0) ∧
      (i.fields[m]? = some (.src, r) → (∀ k : Nat, k ≠ m → i.fields[k]? ≠ some (.src, r)) → s.operand tk i n = element r 1)) ∧
    (∀ k : Fin 8, ((s.popAll tk [.st k]).stream tk k.val).entries = (s.stream tk k.val).entries.drop 1 ∧
      ((s.popAll tk [.st k, .st k]).stream tk k.val).entries = (s.stream tk k.val).entries.drop 2) ∧
    (∀ d : Dir, let t := s.popAll tk [.nb d]
      t.nbrQueue (nbrKey tk d) = (s.nbrQueue (nbrKey tk d)).drop 1 ∧
      SMap.getD t.nbrPops (nbrKey tk d) 0 = (SMap.getD s.nbrPops (nbrKey tk d) 0 + 1) % 2 ^ 16 ∧
      t.timers = s.timers ++ [{ due := s.cycle + away d, mv := .ev .neighbourReturn { n := other d, k := (s.thread tk).launch } }]) ∧
    (∀ k : Fin 4, ((s.popAll tk [.q k]).core core).role k.val =
      { (s.core core).role k.val with entries := ((s.core core).role k.val).entries.drop 1 }) ∧
    (∀ d : Dir, let t := s.writeReg tk (.nb d) v
      t.nbrRoom (nbrKey tk d) = s.nbrRoom (nbrKey tk d) - 1 ∧
      SMap.getD t.nbrSent (nbrKey tk d) 0 = (SMap.getD s.nbrSent (nbrKey tk d) 0 + 1) % 2 ^ 16 ∧
      (let subj : Subj := { n := other d, k := (s.thread tk).launch, v := v }
       t.timers = s.timers ++ [{ due := s.cycle + 3 + away d, mv := .ev .neighbourValueArrival subj }])) ∧
    (∀ k : Fin 4, ((s.writeReg tk (.q k) v).core core).role k.val = { (s.core core).role k.val with
      entries := ((s.core core).role k.val).entries ++ [{ v := v, tag := 0, since := s.cycle + 3 }] }))

/-- The instructions of op 0x01 (R69, Table IN-4): their R form and func, and the result that each writes, a function of the
values read from ra and rb, with no other effect; func 10 to 15 raise reason 3. -/
def Obligations.IntegerArithmetic : Prop :=
  (∀ w : BitVec 32, w.extractLsb' 25 6 = 0x01 → 10 ≤ (w.extractLsb' 0 4).toNat → decode w = .error 3) ∧
  ∀ (sm : Bool) (rd ra rb : Reg),
    (∀ x ∈ [(Instr.add sm rd ra rb, 0), (.sub sm rd ra rb, 1), (.and sm rd ra rb, 2), (.or sm rd ra rb, 3), (.xor sm rd ra rb, 4),
        (.andn sm rd ra rb, 5), (.min sm rd ra rb, 6), (.max sm rd ra rb, 7), (.minu sm rd ra rb, 8), (.maxu sm rd ra rb, 9)],
      let w := encode x.1
      w.getLsbD 31 = sm ∧ w.extractLsb' 25 6 = 0x01 ∧ w.extractLsb' 18 7 = rd.bits ∧ w.extractLsb' 11 7 = ra.bits ∧
        w.extractLsb' 4 7 = rb.bits ∧ (w.extractLsb' 0 4).toNat = x.2) ∧
    Writes (.add sm rd ra rb) rd (fun a b => BitVec.ofInt 64 (a.toInt + b.toInt)) ∧
    Writes (.sub sm rd ra rb) rd (fun a b => BitVec.ofInt 64 (a.toInt - b.toInt)) ∧
    Writes (.and sm rd ra rb) rd (fun a b => a &&& b) ∧
    Writes (.or sm rd ra rb) rd (fun a b => a ||| b) ∧
    Writes (.xor sm rd ra rb) rd (fun a b => a ^^^ b) ∧
    Writes (.andn sm rd ra rb) rd (fun a b => a &&& ~~~b) ∧
    Writes (.min sm rd ra rb) rd (fun a b => BitVec.ofInt 64 (min a.toInt b.toInt)) ∧
    Writes (.max sm rd ra rb) rd (fun a b => BitVec.ofInt 64 (max a.toInt b.toInt)) ∧
    Writes (.minu sm rd ra rb) rd (fun a b => BitVec.ofNat 64 (min a.toNat b.toNat)) ∧
    Writes (.maxu sm rd ra rb) rd (fun a b => BitVec.ofNat 64 (max a.toNat b.toNat))

/-- The products of op 0x02 (R70). The divides of op 0x02 (R70, R63): at issue in cycle c the thread forfeits its next seven
turns, and a step of the divider is set for cycle c + 56, with the quotient or the remainder, for rd. The divider writes rd
with the present cycle as write cycle (R63): a push to a neighbour port leaves with it, and one to a role queue takes effect
in it, in the place that was reserved; a thread that is no longer in its slot receives nothing. -/
def Obligations.ProductsAndDivides : Prop :=
  (∀ (sm : Bool) (rd ra rb : Reg),
    Writes (.mul sm rd ra rb) rd (fun a b => BitVec.ofInt 64 (a.toInt * b.toInt)) ∧
    Writes (.mulh sm rd ra rb) rd (fun a b => BitVec.ofInt 64 ((a.toInt * b.toInt) / 2 ^ 64)) ∧
    Writes (.mulhu sm rd ra rb) rd (fun a b => BitVec.ofNat 64 (a.toNat * b.toNat / 2 ^ 64))) ∧
  (∀ (sm : Bool) (rd ra rb : Reg) (i : Instr) (f : Word → Word → Word),
    (i, f) ∈ [(Instr.div sm rd ra rb, fun a b => BitVec.ofInt 64 (divideSigned a.toInt b.toInt).1),
      (Instr.rem sm rd ra rb, fun a b => BitVec.ofInt 64 (divideSigned a.toInt b.toInt).2),
      (Instr.divu sm rd ra rb, fun a b => if b = 0 then BitVec.allOnes 64 else BitVec.ofNat 64 (a.toNat / b.toNat)),
      (Instr.remu sm rd ra rb, fun a b => if b = 0 then a else BitVec.ofNat 64 (a.toNat % b.toNat))] →
    Does i fun s tk u =>
      let r := (u.reserveReg tk rd).modThread tk fun th => { th with forfeit := th.forfeit + 7 }
      let subj : Subj := { n := tk, m := (s.thread tk).born, v := f (s.operand tk i 1) (s.operand tk i 2), r := rd }
      { r with timers := r.timers ++ [{ due := s.cycle + 56, mv := .ev .dividerWrite subj }] }) ∧
  (∀ (s : State), Sized s →
    (∀ th, s.thread? s.subj.n = some th → th.born = s.subj.m →
      Answers .dividerWrite s fun t => WritesLate s t s.subj.n s.subj.r s.subj.v) ∧
    ((∀ th, s.thread? s.subj.n = some th → th.born ≠ s.subj.m) → Machine.exec .dividerWrite s = .next s))

/-- Shifts, rotates and single bits (R71): n is B[5:0]; bit counts read A alone. Bit fields (R72): of the bits top down to pos,
with top = min(pos + w, 64) − 1. BFX and BFXU read the field of A; BFI writes the low bits of A into the old value of rd,
which is the value of the first field. -/
def Obligations.ShiftsBitsAndFields : Prop :=
  (∀ (sm : Bool) (rd ra rb : Reg),
    Writes (.sll sm rd ra rb) rd (fun a b => BitVec.ofNat 64 (a.toNat * 2 ^ (b.toNat % 64))) ∧
    Writes (.srl sm rd ra rb) rd (fun a b => BitVec.ofNat 64 (a.toNat / 2 ^ (b.toNat % 64))) ∧
    Writes (.sra sm rd ra rb) rd (fun a b => BitVec.ofInt 64 (a.toInt / 2 ^ (b.toNat % 64))) ∧
    Writes (.rol sm rd ra rb) rd (fun a b => a <<< (b.toNat % 64) ||| a >>> ((64 - b.toNat % 64) % 64)) ∧
    Writes (.ror sm rd ra rb) rd (fun a b => a >>> (b.toNat % 64) ||| a <<< ((64 - b.toNat % 64) % 64)) ∧
    Writes (.bset sm rd ra rb) rd (fun a b => a ||| BitVec.twoPow 64 (b.toNat % 64)) ∧
    Writes (.bclr sm rd ra rb) rd (fun a b => a &&& ~~~(BitVec.twoPow 64 (b.toNat % 64))) ∧
    Writes (.btgl sm rd ra rb) rd (fun a b => a ^^^ BitVec.twoPow 64 (b.toNat % 64)) ∧
    Does (.clz sm rd ra) (fun s tk u => u.writeReg tk rd
      (BitVec.ofNat 64 ((List.range 64).reverse.findIdx fun n => (s.operand tk (.clz sm rd ra) 1).getLsbD n))) ∧
    Does (.ctz sm rd ra) (fun s tk u => u.writeReg tk rd
      (BitVec.ofNat 64 ((List.range 64).findIdx fun n => (s.operand tk (.ctz sm rd ra) 1).getLsbD n))) ∧
    Does (.popc sm rd ra) (fun s tk u => u.writeReg tk rd
      (BitVec.ofNat 64 ((List.range 64).countP fun n => (s.operand tk (.popc sm rd ra) 1).getLsbD n)))) ∧
  (∀ (sm : Bool) (rd ra rb : Reg) (s : State) (tk : Nat) (th : Thread),
    let pos := fun (b : Word) => (b.extractLsb' 0 6).toNat
    let top := fun (b : Word) => min (pos b + (b.extractLsb' 8 6).toNat) 64 - 1
    (Ready (.bfx sm rd ra rb) s tk th → ∃ v : Word,
      Machine.exec (.bfx sm rd ra rb) s = .next (issued (.bfx sm rd ra rb) s tk fun u => u.writeReg tk rd v) ∧
      ∀ n, n < 64 → v.getLsbD n =
        let a := s.operand tk (.bfx sm rd ra rb) 1
        let b := s.operand tk (.bfx sm rd ra rb) 2
        (decide ((b.extractLsb' 8 6).toNat ≠ 0) && a.getLsbD (min (pos b + n) (top b)))) ∧
    (Ready (.bfxu sm rd ra rb) s tk th → ∃ v : Word,
      Machine.exec (.bfxu sm rd ra rb) s = .next (issued (.bfxu sm rd ra rb) s tk fun u => u.writeReg tk rd v) ∧
      ∀ n, n < 64 → v.getLsbD n =
        let a := s.operand tk (.bfxu sm rd ra rb) 1
        let b := s.operand tk (.bfxu sm rd ra rb) 2
        (decide ((b.extractLsb' 8 6).toNat ≠ 0 ∧ pos b + n ≤ top b) && a.getLsbD (pos b + n))) ∧
    (Ready (.bfi sm rd ra rb) s tk th → ∃ v : Word,
      Machine.exec (.bfi sm rd ra rb) s = .next (issued (.bfi sm rd ra rb) s tk fun u => u.writeReg tk rd v) ∧
      ∀ n, n < 64 → v.getLsbD n =
        let old := s.operand tk (.bfi sm rd ra rb) 0
        let a := s.operand tk (.bfi sm rd ra rb) 1
        let b := s.operand tk (.bfi sm rd ra rb) 2
        if (b.extractLsb' 8 6).toNat ≠ 0 ∧ pos b ≤ n ∧ n ≤ top b then a.getLsbD (n - pos b) else old.getLsbD n))

/-- Compares (R73, R76): rd := 1 if the relation holds and 0 otherwise; the immediate forms compare with v sign-extended, or
zero-extended for CMPLTUI and CMPLEUI. Their forms are R with op 0x04 and I with op 0x0A; func 6 to 15 and sub-codes 6 and 7
raise reason 3. -/
def Obligations.Compares : Prop :=
  (∀ w : BitVec 32, w.extractLsb' 25 6 = 0x04 → 6 ≤ (w.extractLsb' 0 4).toNat → decode w = .error 3) ∧
  (∀ w : BitVec 32, w.extractLsb' 25 6 = 0x0A → 6 ≤ (w.extractLsb' 8 3).toNat → decode w = .error 3) ∧
  ∀ (sm : Bool) (rd ra rb : Reg) (v : BitVec 8),
    (∀ x ∈ [(Instr.cmpeq sm rd ra rb, 0), (.cmpne sm rd ra rb, 1), (.cmplt sm rd ra rb, 2), (.cmpltu sm rd ra rb, 3),
        (.cmple sm rd ra rb, 4), (.cmpleu sm rd ra rb, 5)],
      let w := encode x.1
      w.getLsbD 31 = sm ∧ w.extractLsb' 25 6 = 0x04 ∧ w.extractLsb' 18 7 = rd.bits ∧ w.extractLsb' 11 7 = ra.bits ∧
        w.extractLsb' 4 7 = rb.bits ∧ (w.extractLsb' 0 4).toNat = x.2) ∧
    (∀ x ∈ [(Instr.cmpeqi sm rd ra v, 0), (.cmpnei sm rd ra v, 1), (.cmplti sm rd ra v, 2), (.cmpltui sm rd ra v, 3),
        (.cmplei sm rd ra v, 4), (.cmpleui sm rd ra v, 5)],
      let w := encode x.1
      w.getLsbD 31 = sm ∧ w.extractLsb' 25 6 = 0x0A ∧ w.extractLsb' 18 7 = rd.bits ∧ w.extractLsb' 11 7 = ra.bits ∧
        (w.extractLsb' 8 3).toNat = x.2 ∧ w.extractLsb' 0 8 = v) ∧
    let flag := fun (p : Bool) => if p then (1 : Word) else 0
    Writes (.cmpeq sm rd ra rb) rd (fun a b => flag (decide (a = b))) ∧
    Writes (.cmpne sm rd ra rb) rd (fun a b => flag (decide (a ≠ b))) ∧
    Writes (.cmplt sm rd ra rb) rd (fun a b => flag (decide (a.toInt < b.toInt))) ∧
    Writes (.cmpltu sm rd ra rb) rd (fun a b => flag (decide (a.toNat < b.toNat))) ∧
    Writes (.cmple sm rd ra rb) rd (fun a b => flag (decide (a.toInt ≤ b.toInt))) ∧
    Writes (.cmpleu sm rd ra rb) rd (fun a b => flag (decide (a.toNat ≤ b.toNat))) ∧
    Writes (.cmpeqi sm rd ra v) rd (fun a _ => flag (decide (a.toInt = v.toInt))) ∧
    Writes (.cmpnei sm rd ra v) rd (fun a _ => flag (decide (a.toInt ≠ v.toInt))) ∧
    Writes (.cmplti sm rd ra v) rd (fun a _ => flag (decide (a.toInt < v.toInt))) ∧
    Writes (.cmpltui sm rd ra v) rd (fun a _ => flag (decide (a.toNat < v.toNat))) ∧
    Writes (.cmplei sm rd ra v) rd (fun a _ => flag (decide (a.toInt ≤ v.toInt))) ∧
    Writes (.cmpleui sm rd ra v) rd (fun a _ => flag (decide (a.toNat ≤ v.toNat)))

/-- Immediate forms (R74, R75, R77): imm11 and LI's imm18 are sign-extended; LIS shifts the old value of rd up by 18 bits and adds
its imm18. MOV, SEL and GADR (R78): GADR composes a window address with status OK, or writes 0 with status REFUSED when a
coordinate or the offset is out of range. -/
def Obligations.ImmediatesMovesAndAddresses : Prop :=
  (∀ (sm : Bool) (rd ra : Reg) (m : BitVec 11) (n : BitVec 6) (l : BitVec 18),
    Writes (.addi sm rd ra m) rd (fun a _ => BitVec.ofInt 64 (a.toInt + m.toInt)) ∧
    Writes (.andi sm rd ra m) rd (fun a _ => a &&& BitVec.ofInt 64 m.toInt) ∧
    Writes (.ori sm rd ra m) rd (fun a _ => a ||| BitVec.ofInt 64 m.toInt) ∧
    Writes (.xori sm rd ra m) rd (fun a _ => a ^^^ BitVec.ofInt 64 m.toInt) ∧
    Writes (.slli sm rd ra n) rd (fun a _ => BitVec.ofNat 64 (a.toNat * 2 ^ n.toNat)) ∧
    Writes (.srli sm rd ra n) rd (fun a _ => BitVec.ofNat 64 (a.toNat / 2 ^ n.toNat)) ∧
    Writes (.srai sm rd ra n) rd (fun a _ => BitVec.ofInt 64 (a.toInt / 2 ^ n.toNat)) ∧
    Writes (.roli sm rd ra n) rd (fun a _ => a <<< n.toNat ||| a >>> ((64 - n.toNat) % 64)) ∧
    Writes (.rori sm rd ra n) rd (fun a _ => a >>> n.toNat ||| a <<< ((64 - n.toNat) % 64)) ∧
    Writes (.bseti sm rd ra n) rd (fun a _ => a ||| BitVec.twoPow 64 n.toNat) ∧
    Writes (.bclri sm rd ra n) rd (fun a _ => a &&& ~~~(BitVec.twoPow 64 n.toNat)) ∧
    Writes (.btgli sm rd ra n) rd (fun a _ => a ^^^ BitVec.twoPow 64 n.toNat) ∧
    Writes (.li sm rd l) rd (fun _ _ => BitVec.ofInt 64 l.toInt) ∧
    Does (.lis sm rd l) (fun s tk u => u.writeReg tk rd
      (BitVec.ofNat 64 ((s.operand tk (.lis sm rd l) 0).toNat * 2 ^ 18 + l.toNat)))) ∧
  (∀ (sm : Bool) (rd ra rb : Reg),
    Does (.mov sm rd rb) (fun s tk u => u.writeReg tk rd (s.operand tk (.mov sm rd rb) 1)) ∧
    Does (.sel sm rd ra rb) (fun s tk u => u.writeReg tk rd
      (if (s.operand tk (.sel sm rd ra rb) 0).getLsbD 0 then s.operand tk (.sel sm rd ra rb) 1
        else s.operand tk (.sel sm rd ra rb) 2)) ∧
    Does (.gadr sm rd ra rb) (fun s tk u =>
      let a := (s.operand tk (.gadr sm rd ra rb) 1).toNat
      let b := (s.operand tk (.gadr sm rd ra rb) 2).toNat
      let die := a % 8
      let node := a / 2 ^ 8 % 2 ^ 6
      if a / 2 ^ 14 ≠ 0 ∨ a / 8 % 32 ≠ 0 ∨ b / 2 ^ 21 ≠ 0 ∨ (4 ≤ die ∧ (47 < node ∨ b / 2 ^ 19 % 4 ≠ 0)) then
        (u.writeReg tk rd 0).setStatus tk 4
      else (u.writeReg tk rd (BitVec.ofNat 64 (0xE1 * 2 ^ 56 + die * 2 ^ 53 + node * 2 ^ 47 + b % 2 ^ 21))).setStatus tk 0))

/-- The frame of the instructions that act on registers alone (R67): memory, requests, packets, teams, engines, slices, dispatcher
and package are as they were; the only file entry that may change is that of the destination register (one that names a window
register); s registers change only through a write that becomes visible later, and the writes that every s register but the
destination awaits are as they were; other threads are as they were, and of the issuing thread everything but its pc, its
status word, its run state and the turns it forfeits; and of the status word all bits above the status and the consumed
prefix. -/
def Obligations.RegisterOnlyFrame : Prop :=
  ∀ (i : Instr) (s : State) (tk : Nat) (th : Thread), registerOnly i = true → Canonical s → Ready i s tk th →
    ∃ t u, Machine.exec i s = .next t ∧ t.thread? tk = some u ∧ Untouched s t ∧ SameThread th u ∧
      (u.status.extractLsb' 4 8 = th.status.extractLsb' 4 8 ∧ u.status.getLsbD 3 = false) ∧
      ((∀ sm rd ra rb, i ≠ .gadr sm rd ra rb) →
        u.status.extractLsb' 0 3 = th.status.extractLsb' 0 3) ∧
      (∀ key, (∀ k, resultReg i = some (.g k) → key ≠ 2048 * coreOf tk + (8 * th.base + k.val)) →
        SMap.getD t.rf key 0 = SMap.getD s.rf key 0) ∧
      ((∀ k, resultReg i ≠ some (.s k)) → t.spend = s.spend) ∧
      (∀ k, resultReg i = some (.s k) → t.spend.filter (fun e => e.key != 16 * coreOf tk + k.val) =
        s.spend.filter fun e => e.key != 16 * coreOf tk + k.val) ∧
      (∀ other, other ≠ tk → t.thread? other = s.thread? other)

/-! ### Control (R80 to R92, R322) -/

/-- Jumps (R82): the target is the word's own address plus 4 times the displacement, or A[47:2] × 4; the link is the word's own
address plus 4, in g1 for JL and in rd for JLR. Branches (R83, R84): BBS and BBC on a bit, BZ and BNZ on zero; BLOOP counts ra
down and branches while it is not 0, and with a count of 0 writes nothing and does not branch. A branch not taken goes on at
the next word. -/
def Obligations.JumpsAndBranches : Prop :=
  (∀ (sm : Bool) (rd ra : Reg) (disp : BitVec 25),
    let link := fun (th : Thread) => (th.pc + 4).zeroExtend 64
    let goto := fun (u : State) (tk : Nat) (pc : BitVec 48) => u.modThread tk fun th => { th with pc := pc }
    Does (.j sm disp) (fun s tk u => goto u tk (displaced (s.thread tk).pc disp)) ∧
    Does (.jl sm disp) (fun s tk u =>
      goto (u.writeReg tk (.g 1) (link (s.thread tk))) tk (displaced (s.thread tk).pc disp)) ∧
    Does (.jr sm ra) (fun s tk u =>
      goto u tk (BitVec.ofNat 48 ((s.operand tk (.jr sm ra) 0).toNat % 2 ^ 48 / 4 * 4))) ∧
    Does (.jlr sm rd ra) (fun s tk u =>
      goto (u.writeReg tk rd (link (s.thread tk))) tk
        (BitVec.ofNat 48 ((s.operand tk (.jlr sm rd ra) 1).toNat % 2 ^ 48 / 4 * 4)))) ∧
  (∀ (sm : Bool) (ra : Reg) (b : BitVec 6) (disp : BitVec 12),
    let branch := fun (c : Bool) (s : State) (tk : Nat) (u : State) =>
      if c then u.modThread tk fun th => { th with pc := displaced (s.thread tk).pc disp } else u
    Does (.bbs sm ra b disp) (fun s tk u => branch ((s.operand tk (.bbs sm ra b disp) 0).getLsbD b.toNat) s tk u) ∧
    Does (.bbc sm ra b disp) (fun s tk u => branch (!(s.operand tk (.bbc sm ra b disp) 0).getLsbD b.toNat) s tk u) ∧
    Does (.bz sm ra disp) (fun s tk u => branch (decide (s.operand tk (.bz sm ra disp) 0 = 0)) s tk u) ∧
    Does (.bnz sm ra disp) (fun s tk u => branch (decide (s.operand tk (.bnz sm ra disp) 0 ≠ 0)) s tk u) ∧
    Does (.bloop sm ra disp) (fun s tk u =>
      let a := s.operand tk (.bloop sm ra disp) 0
      if a = 0 then u else branch (decide (a ≠ 1)) s tk (u.writeReg tk ra (BitVec.ofInt 64 (a.toNat - 1)))))

/-- PRE (R29, R85, R87): with no prefix pending, a PRE that names no window register at or above W issues: the pending bit and the
word stand in the status word, the pc steps on, and nothing else of the thread's registers changes. Under a pending prefix it
traps with reason 7, and the first stays pending. NOP does nothing, and YIELD forfeits the thread's next issue turn (R92). -/
def Obligations.PrefixNopAndYield : Prop :=
  (∀ (sm : Bool) (g : Reg) (b : BitVec 6) (e n : BitVec 1) (f x : BitVec 4) (o : BitVec 2) (s : State) (tk : Nat)
    (th : Thread), Issuing s tk th →
    let i := Instr.pre sm g b e n f x o
    (pending th.status = none → inWindow i th.w = true → Machine.exec i s = .next (issued i s tk fun u =>
      u.modThread tk fun v => { v with status := encode i ++ ((v.status.extractLsb' 0 32) ||| 8) })) ∧
    (pending th.status = none → inWindow i th.w = false → Machine.exec i s =
      .next ((s.trap tk 2 0 ((0 : BitVec 32) ++ encode i)).takeTurn tk)) ∧
    (∀ p, pending th.status = some p → Machine.exec i s = .next ((s.trap tk 1 7 (p ++ encode i)).takeTurn tk))) ∧
  (∀ sm : Bool,
    Does (.nop sm) (fun _ _ u => u) ∧
    Does (.yield sm) (fun _ tk u => u.modThread tk fun th => { th with forfeit := th.forfeit + 1 }))

/-- A word that is not an instruction raises the precise illegal-instruction trap (kind 1) with its reason (R41), and a prefix
pending before it is consumed by reason 6 alone (R29, R87); TRAP and BRK raise kinds 11 and 12, with the code in word 1 for
TRAP and 0 for BRK (R322), pop nothing and leave the status word, a pending prefix in it, as it was. -/
def Obligations.TrapInstructions : Prop :=
  ∀ (s : State) (tk : Nat) (th : Thread), Issuing s tk th →
    (∀ reason w, reason ≠ 6 → Machine.exec (.wordNotAnInstruction reason w) s =
      .next ((s.trap tk 1 reason (prefixOf th ++ w)).takeTurn tk)) ∧
    (∀ w, Machine.exec (.wordNotAnInstruction 6 w) s = .next (((s.trap tk 1 6 (prefixOf th ++ w)).modThread tk fun u =>
      { u with status := u.status &&& 0x00000000FFFFFFF7 }).takeTurn tk)) ∧
    (∀ sm c, Ready (.trap sm c) s tk th →
      Machine.exec (.trap sm c) s = .next ((s.trap tk 11 0 (c.zeroExtend 64)).takeTurn tk) ∧
        (s.trap tk 11 0 (c.zeroExtend 64)).thread? tk = some { th with run := .halted 11, tokens := none }) ∧
    (∀ sm, Ready (.brk sm) s tk th → Machine.exec (.brk sm) s = .next ((s.trap tk 12 0 0).takeTurn tk) ∧
        (s.trap tk 12 0 0).thread? tk = some { th with run := .halted 12, tokens := none })

/-! ### Local memory (R95 to R100) -/

/-- A local access that is out of range or misaligned (R100): the memory-fault trap, kind 3, with cause 1 for ea ≥ S, else cause
2, and ea in word 1; nothing is popped or stored, and the thread, its pc with it, is as it was but for its run state. S is
0x8_0000 on a channel core. -/
def Obligations.LocalFaults : Prop :=
  ∀ (sm : Bool) (rd ra : Reg) (r : BitVec 2) (t : BitVec 7) (s : State) (tk : Nat) (th : Thread) (i : Instr) (unit : Nat),
    (i, unit) ∈ [(Instr.ldb sm rd ra r t, 1), (Instr.ldh sm rd ra r t, 2), (Instr.ldw sm rd ra r t, 4),
      (Instr.ldd sm rd ra r t, 8), (Instr.ldbu sm rd ra r t, 1), (Instr.ldhu sm rd ra r t, 2), (Instr.ldwu sm rd ra r t, 4),
      (Instr.stb sm rd ra r t, 1), (Instr.sth sm rd ra r t, 2), (Instr.stw sm rd ra r t, 4), (Instr.std sm rd ra r t, 8),
      (Instr.ldv sm rd ra r t, 64), (Instr.stv sm rd ra r t, 64)] →
    Ready i s tk th →
    let ea := BitVec.ofInt 64 ((s.operand tk i 1).toInt + t.toInt * unit)
    let size := if isChannel (coreOf tk) then 0x80000 else (s.team (nodeOf (coreOf tk))).s
    (size ≤ ea.toNat → Machine.exec i s = .next ((s.trap tk 3 1 ea).takeTurn tk)) ∧
    (ea.toNat < size → ea.toNat % unit ≠ 0 → Machine.exec i s = .next ((s.trap tk 3 2 ea).takeTurn tk)) ∧
    ∀ cause, cause < 32 → (s.trap tk 3 cause ea).thread? tk = some { th with run := .halted 3, tokens := none } ∧
      (s.trap tk 3 cause ea).mem = s.mem ∧ (s.trap tk 3 cause ea).streams = s.streams ∧ (s.trap tk 3 cause ea).nbr = s.nbr

/-- A local access at issue in cycle c (R95 to R99): when ea = U64(A + SignExtend(tail) × unit) lies below the scratchpad size S
of the core and is a multiple of the unit, the access is set for its bank in cycle c + 3; a load that pushes reserves its
place, and a store carries the low bytes of the value read from rd, or the eight doublewords of the group. A local access in
its bank cycle (R95, R97 to R99): a load writes rd with the bytes as they stood before the cycle's stores, sign- or
zero-extended, to an s register with the issue cycle as write cycle and to a queue name from two cycles later on; a group load
the doublewords lowest first; a store writes its bytes, lowest first, every byte outside them reads as before, and the cycle's
other reads still see what stood before it. Where the manual is silent or is read by inference it is the model's choice: log
8. -/
def Obligations.LocalAccesses : Prop :=
  (∀ (sm : Bool) (rd ra : Reg) (r : BitVec 2) (t : BitVec 7) (s : State) (tk : Nat) (th : Thread),
    let ea := fun (i : Instr) (unit : Nat) => BitVec.ofInt 64 ((s.operand tk i 1).toInt + t.toInt * unit)
    let fits := fun (a : Word) (unit : Nat) => a.toNat < s.scratchSize (coreOf tk) ∧ a.toNat % unit = 0
    let toBank := fun (u : State) (kind : LocalKind) =>
      { u with timers := u.timers ++ [{ due := s.cycle + 3, mv := .bank { tk := tk, born := th.born, issued := s.cycle, stamp := u.nextId, kind := kind } }] }
    let key := fun (a : Word) => sramKey (nodeOf (coreOf tk)) a.toNat
    (∀ i n signed, (i, n, signed) ∈ [(Instr.ldb sm rd ra r t, 1, true), (Instr.ldh sm rd ra r t, 2, true),
        (Instr.ldw sm rd ra r t, 4, true), (Instr.ldd sm rd ra r t, 8, true), (Instr.ldbu sm rd ra r t, 1, false),
        (Instr.ldhu sm rd ra r t, 2, false), (Instr.ldwu sm rd ra r t, 4, false)] →
      Ready i s tk th → fits (ea i n) n → Machine.exec i s = .next (issued i s tk fun u =>
        toBank (u.reserveReg tk rd) (.load (key (ea i n)) n signed rd))) ∧
    (∀ i n, (i, n) ∈ [(Instr.stb sm rd ra r t, 1), (Instr.sth sm rd ra r t, 2), (Instr.stw sm rd ra r t, 4),
        (Instr.std sm rd ra r t, 8)] →
      Ready i s tk th → fits (ea i n) n → Machine.exec i s = .next (issued i s tk fun u =>
        toBank u (.store (key (ea i n)) (toBytes n (s.operand tk i 0).toNat)))) ∧
    (∀ i, i = Instr.ldv sm rd ra r t → Ready i s tk th → fits (ea i 64) 64 → Machine.exec i s =
      .next (issued i s tk fun u => toBank u (.loadGroup (key (ea i 64)) rd))) ∧
    (∀ i, i = Instr.stv sm rd ra r t → Ready i s tk th → fits (ea i 64) 64 → Machine.exec i s =
      .next (issued i s tk fun u => toBank u (.store (key (ea i 64))
        ((s.readGroup tk rd).flatMap fun v => toBytes 8 v.toNat))))) ∧
  (∀ (s : State) (tk born issued stamp : Nat) (th : Thread) (key n : Nat) (rest : List Move),
    Canonical s → Sized s → s.cur = none → s.pkg.answers = true →
    let op := fun (kind : LocalKind) => Move.bank { tk := tk, born := born, issued := issued, stamp := stamp, kind := kind }
    (∀ rd signed, s.thread? tk = some th → th.born = born →
      s.todo = op (.load key n signed rd) :: rest →
      let v := ((List.range n).map fun k => (s.localByte (key + k)).toNat * 256 ^ k).sum
      let x : Word := if signed ∧ 2 ^ (8 * n) ≤ 2 * v then BitVec.ofInt 64 ((v : Int) - 2 ^ (8 * n)) else BitVec.ofNat 64 v
      ∃ t, Machine.step s = .next t ∧ t.mem = s.mem ∧ (∀ k, rd = .g k → t.readG tk k.val = x) ∧
        WritesAt { s with todo := rest } t tk rd x issued stamp 2) ∧
    (∀ k, s.thread? tk = some th → th.born = born → k.val % 8 = 0 → k.val ≤ 88 →
      s.todo = op (.loadGroup key (.g k)) :: rest →
      ∃ t, Machine.step s = .next t ∧ t.mem = s.mem ∧ ∀ j, j < 8 → t.readG tk (k.val + j) =
        BitVec.ofNat 64 ((List.range 8).map fun b => (s.localByte (key + 8 * j + b)).toNat * 256 ^ b).sum) ∧
    (∀ bs, s.todo = op (.store key bs) :: rest →
      ∃ t, Machine.step s = .next t ∧
        (∀ j b, bs[j]? = some b → t.byte (key + j) = b) ∧
        (∀ a, (a < key ∨ key + bs.length ≤ a) → t.byte a = s.byte a) ∧
        (∀ a, t.localByte a = s.localByte a)))

/-! ### Global memory, atomics and fences (R104 to R153) -/

/-- GLD and GLDV (R105, R106): with free entries in stK, 1 or 8, and no binding of it that has requests left, one load is
requested at ea = U64(A + SignExtend(tail) × unit) with the word's retention hint, nc and acquire, and its entries are claimed
at the end of the queue; a misaligned ea makes no request, and marks the entries with cause 2 and their addresses. SBIND
(R107): a reserved bit of ra + 1 refuses it with the binding unchanged, else stK is bound to the generator that ra and ra + 1
describe, or unbound for a count of 0, with status OK. SCNT (R108): the count word. A binding's next request (R107): with a
free entry and no fence of its thread, it is requested at the next address, the next address moves on by the stride, and the
binding ends with its last request. Where the manual is silent or is read by inference it is the model's choice: log 2, 12. -/
def Obligations.StreamLoads : Prop :=
  (∀ (sm : Bool) (k : Fin 8) (ra : Reg) (r z : BitVec 2) (n q : BitVec 1) (o : BitVec 5) (i : Instr) (unit m : Nat) (s : State)
    (tk : Nat) (th : Thread),
    (i, unit, m) ∈ [(Instr.gld sm (.st k) ra r z n q o, 2 ^ z.toNat, 1), (Instr.gldv sm (.st k) ra r n q o, 64, 8)] →
    Ready i s tk th → (s.stream tk k.val).entries.length + m ≤ 8 → (s.stream tk k.val).bind = none →
    let ea := (BitVec.ofInt 64 ((s.operand tk i 1).toInt + o.toInt * unit)).toNat
    let before := ((s.popAll tk (popList i)).stream tk k.val).entries
    Completes i s tk fun t u => u.pc = th.pc + 4 ∧ t.mem = s.mem ∧ t.rf = s.rf ∧
      (ea % unit = 0 → OneRequest i s t tk fun w =>
        w.ea = ea ∧ w.bytes = unit ∧ w.stage = .port ∧ w.ret = r.toNat ∧ w.nc = (n == 1) ∧ w.acq = (q == 1) ∧
        ∃ e : Elem, e.landed = false ∧ e.serial = w.id ∧ (t.stream tk k.val).entries = before ++ List.replicate m e) ∧
      (ea % unit ≠ 0 → t.reqs = s.reqs ∧ ∃ es : List Elem, (t.stream tk k.val).entries = before ++ es ∧ es.length = m ∧
        ∀ j e, es[j]? = some e → e.landed = true ∧ e.cause = 2 ∧ e.value = BitVec.ofNat 64 (ea + 8 * j))) ∧
  ((∀ (sm : Bool) (k : Fin 8) (a : Fin 96) (s : State) (tk : Nat) (th : Thread),
    let i := Instr.sbind sm (.st k) (.g a)
    let d := s.readG tk (a.val + 1)
    Canonical s → Ready i s tk th → Completes i s tk fun t u =>
      u.pc = th.pc + 4 ∧ t.mem = s.mem ∧ t.reqs = s.reqs ∧ t.rf = s.rf ∧
      (d.toNat / 2 ^ 53 ≠ 0 → t.stream tk k.val = s.stream tk k.val ∧ u.status.extractLsb' 0 3 = 4) ∧
      (d.toNat / 2 ^ 53 = 0 → u.status.extractLsb' 0 3 = 0 ∧ ((t.stream tk k.val).bind =
        if (d.extractLsb' 32 16) = 0 then none else some
          { next := (s.readG tk a.val).toNat, stride := (d.extractLsb' 0 32).toInt, left := (d.extractLsb' 32 16).toNat,
            size := (d.extractLsb' 48 2).toNat, ret := (d.extractLsb' 50 2).toNat, nc := d.getLsbD 52 }))) ∧
  (∀ (sm : Bool) (rd : Reg) (k : Fin 8), Does (.scnt sm rd (.st k)) fun _ tk u =>
    let x := u.stream tk k.val
    let landed := (x.entries.filter fun e => e.landed).length
    u.writeReg tk rd (BitVec.ofNat 64 (landed + (x.entries.length - landed) * 16 +
      (match x.bind with | some b => b.left | none => 0) * 256))) ∧
  (∀ (s : State) (tk k : Nat) (b : Binding), Canonical s → s.subj.n = 8 * tk + k → k < 8 → (s.stream tk k).bind = some b →
    s.bindingReady tk k = true → Answers .bindingRequestIssue s fun t =>
      (b.next % 2 ^ b.size = 0 → ∃ r, t.reqs = SMap.put s.reqs r.id r ∧ r.tk = tk ∧ r.ea = b.next ∧ r.bytes = 2 ^ b.size ∧
        (t.stream tk k).entries.length = (s.stream tk k).entries.length + 1) ∧
      (t.stream tk k).bind = (if b.left ≤ 1 then none else
        some { b with next := ((b.next + b.stride) % 2 ^ 64).toNat, left := b.left - 1 })))

/-- GST and GSTV (R110 to R112): with a free entry of the store buffer and U below 255, the store enters the buffer with the low
bytes of the value read from rd, or with the group, and U increases by 1; memory is as it was. A misaligned store enters too,
and the fault goes to the store-fault log unless that holds one already (R113). -/
def Obligations.GlobalStores : Prop :=
  ∀ (sm : Bool) (rd ra : Reg) (r z : BitVec 2) (q : BitVec 1) (o : BitVec 5) (i : Instr) (unit data : Nat) (s : State) (tk : Nat)
    (th : Thread),
    (i, unit, data) ∈ [(Instr.gst sm rd ra r z q o, 2 ^ z.toNat,
        (s.operand tk (.gst sm rd ra r z q o) 0).toNat % 2 ^ (8 * 2 ^ z.toNat)),
      (Instr.gstv sm rd ra r q o, 64, ((s.readGroup tk rd).zipIdx.map fun v => v.1.toNat * 2 ^ (64 * v.2)).sum)] →
    Ready i s tk th → (s.core (coreOf tk)).storeBuf.length < 32 → th.u < 255 →
    let ea := (BitVec.ofInt 64 ((s.operand tk i 1).toInt + o.toInt * unit)).toNat
    Completes i s tk fun t u => u.pc = th.pc + 4 ∧ t.mem = s.mem ∧ t.rf = s.rf ∧ u.u = th.u + 1 ∧
      (OneRequest i s t tk fun w => w.ea = ea ∧ w.bytes = unit ∧ w.data = data ∧ w.stage = .buffered ∧ w.ret = r.toNat ∧
        w.rel = (q == 1) ∧ w.fault = (if ea % unit = 0 then 0 else 2) ∧
        (t.core (coreOf tk)).storeBuf = (s.core (coreOf tk)).storeBuf ++ [w.id]) ∧
      u.log = (if ea % unit = 0 then th.log else some (th.log.getD (2, BitVec.ofNat 64 ea)))

/-- The line-control instructions (R114): each acts on the 64-byte line of address A; on an address with no ordinary page, by the
TLB's entry or else by the tables at issue, it does nothing. GINV invalidates the line, or for all ones every line, in the
team's L1; GPRF requests the line and claims nothing; LCLEAN and LFLUSH request it and count in U, and issue with U below 255.
Memory and registers are as they were. Where the manual is silent or is read by inference it is the model's choice: log 63,
94. -/
def Obligations.LineControl : Prop :=
  ∀ (sm : Bool) (ra : Reg) (r : BitVec 2) (s : State) (tk : Nat) (th : Thread),
    let node := nodeOf (coreOf tk)
    let line := fun (a : Word) => match s.lineXlat node th.launch a.toNat with
      | .miss => (match (s.launch? th.launch).bind fun l => s.walkFrom l.root a.toNat with
        | some leaf => leafLine leaf a.toNat
        | none => .fault 4)
      | x => x
    (Ready (.ginv sm ra) s tk th → Completes (.ginv sm ra) s tk fun t u =>
      let a := s.operand tk (.ginv sm ra) 0
      u.pc = th.pc + 4 ∧ t.mem = s.mem ∧ t.rf = s.rf ∧
      (a = BitVec.allOnes 64 → (t.team node).l1 = []) ∧
      (∀ x, a ≠ BitVec.allOnes 64 → line a = .ok x →
        (t.team node).l1 = (s.team node).l1.filter fun l => l.pa != Target.key x / 64) ∧
      (∀ c, a ≠ BitVec.allOnes 64 → line a = .fault c → (t.team node).l1 = (s.team node).l1 ∧ t.reqs = s.reqs)) ∧
    (Ready (.gprf sm ra r) s tk th → Completes (.gprf sm ra r) s tk fun t u =>
      let a := s.operand tk (.gprf sm ra r) 0
      u.pc = th.pc + 4 ∧ t.mem = s.mem ∧ t.rf = s.rf ∧ u.u = th.u ∧
      t.streams = (s.popAll tk (popList (.gprf sm ra r))).streams ∧
      (∀ x, line a = .ok x → OneRequest (.gprf sm ra r) s t tk fun w =>
        w.ea = a.toNat / 64 * 64 ∧ w.bytes = 64 ∧ w.ret = r.toNat) ∧
      (∀ c, line a = .fault c → t.reqs = s.reqs)) ∧
    (∀ i, i = .lclean sm ra ∨ i = .lflush sm ra → Ready i s tk th → th.u < 255 → Completes i s tk fun t u =>
      let a := s.operand tk i 0
      u.pc = th.pc + 4 ∧ t.mem = s.mem ∧ t.rf = s.rf ∧
      (∀ x, line a = .ok x → u.u = th.u + 1 ∧ OneRequest i s t tk fun w => w.ea = a.toNat / 64 * 64 ∧ w.bytes = 64) ∧
      (∀ c, line a = .fault c → u.u = th.u ∧ t.reqs = s.reqs))

/-- AMO, ACAS and RED at issue (R110, R138, R140, R143): with a free entry of the store buffer and U below 255, the access enters
the buffer with the operand of 8 bytes, or 4 under fmt INT32, ACAS with the old value of rd as what it expects, and U
increases by 1; an AMO or ACAS makes its old value an outstanding result. Acquire is ord bit 0, release ord bit 1. -/
def Obligations.AtomicsIssue : Prop :=
  ∀ (sm : Bool) (rd ra rb : Reg) (i : Instr) (av : Nat) (lands : Bool) (s : State) (tk : Nat) (th : Thread),
    (i, av, lands) ∈ [(Instr.amoadd sm rd ra rb, 1, true), (Instr.amoand sm rd ra rb, 1, true),
      (Instr.amoor sm rd ra rb, 1, true), (Instr.amoxor sm rd ra rb, 1, true), (Instr.amomin sm rd ra rb, 1, true),
      (Instr.amomax sm rd ra rb, 1, true), (Instr.amominu sm rd ra rb, 1, true), (Instr.amomaxu sm rd ra rb, 1, true),
      (Instr.amoswp sm rd ra rb, 1, true), (Instr.acas sm rd ra rb, 1, true), (Instr.redadd sm ra rb, 0, false),
      (Instr.redand sm ra rb, 0, false), (Instr.redor sm ra rb, 0, false), (Instr.redxor sm ra rb, 0, false),
      (Instr.redmin sm ra rb, 0, false), (Instr.redmax sm ra rb, 0, false), (Instr.redminu sm ra rb, 0, false),
      (Instr.redmaxu sm ra rb, 0, false)] →
    Ready i s tk th → (s.core (coreOf tk)).storeBuf.length < 32 → th.u < 255 →
    let n := if preFmt (prefixOf th) = 8 then 4 else 8
    let ea := (s.operand tk i av).toNat
    Completes i s tk fun t u => u.pc = th.pc + 4 ∧ t.mem = s.mem ∧ t.rf = s.rf ∧ u.u = th.u + 1 ∧
      u.amos = (if lands then th.amos + 1 else th.amos) ∧
      OneRequest i s t tk fun w => w.ea = ea ∧ w.bytes = n ∧ w.data = (s.operand tk i (av + 1)).toNat % 2 ^ (8 * n) ∧
        w.exp = (s.operand tk i 0).toNat % 2 ^ (8 * n) ∧ w.stage = .buffered ∧
        w.acq = (preOrd (prefixOf th) % 2 == 1) ∧ w.rel = (preOrd (prefixOf th) / 2 == 1) ∧
        w.fault = (if ea % n = 0 then 0 else 2) ∧
        (t.core (coreOf tk)).storeBuf = (s.core (coreOf tk)).storeBuf ++ [w.id]

/-- AMO, ACAS and RED at the owner (R137, R140, R143): when its turn has come, the access reads its bytes and leaves the result in
one step; every other byte and every full/empty bit is as it was; an AMO or ACAS is answered with the old value,
sign-extended, a RED with an acknowledgement. The reply (R140): rd := the old value, U and the outstanding results decrease by
1, and the request is over. -/
def Obligations.AtomicsAtOwner : Prop :=
  (∀ (s : State) (r : Req), Canonical s → s.req? s.subj.n = some r → r.id = s.subj.n → TurnOf s r →
    (r.bytes = 4 ∨ r.bytes = 8) → r.data < 2 ^ (8 * r.bytes) → (isAmo r.instr = true ∨ isRed r.instr = true) →
    Answers .atomicAtOwner s fun t =>
      let old := bytesAt s r.key r.bytes
      bytesAt t r.key r.bytes = atomicResult r.instr (8 * r.bytes) old r.data r.exp ∧ OnlyBytes s t r.key r.bytes ∧
      t.fe = s.fe ∧ (t.req? r.id).map (·.stage) = some .performed ∧
      (isAmo r.instr = true → Sent s t r.node (.old r.id (BitVec.ofInt 64 (toSigned (8 * r.bytes) old)) 0)) ∧
      (isRed r.instr = true → Sent s t r.node (.ack r.id 0))) ∧
  (∀ (s : State) (r : Req) (v : Word) (th : Thread), Canonical s → Arrives s (.old r.id v 0) → s.req? r.id = some r →
    s.thread? r.tk = some th → th.born < r.id → Answers .amoReply s fun t =>
      t.reqs = SMap.del s.reqs r.id ∧ (∃ u, t.thread? r.tk = some u ∧ u.u = th.u - 1 ∧ u.amos = th.amos - 1 ∧
        u.status = th.status ∧ u.pc = th.pc) ∧ t.mem = s.mem ∧
      (∀ k, amoRd r.instr = .g k → t.readG r.tk k.val = v) ∧
      (∀ k, amoRd r.instr = .s k →
        t.spend = (s.writeSAt (coreOf r.tk) k.val v (slotOf r.tk) s.cycle r.stamp).spend))

/-- The instructions that wait for an owner, at issue (R145, R150): with an address that is a multiple of 8 the thread parks in
the wait state at the instruction, with the bound of its to field, and one request of 8 bytes is made; a store carries the
value of rd, WAITW what its word must differ from; a full/empty request is a waiting one only with a retry count of 0. A
misaligned address raises the memory-fault trap with cause 2. BARI with an operand out of range is refused at once. -/
def Obligations.OwnerWaitsIssue : Prop :=
  ∀ (sm : Bool) (rd ra : Reg) (e : BitVec 4) (m : BitVec 3) (v : BitVec 1) (s : State) (tk : Nat) (th : Thread) (i : Instr)
    (av : Nat) (bound : Option (BitVec 4)) (data exp : Nat),
    (i, av, bound, data, exp) ∈ [(Instr.ldfe sm rd ra e, 1, some e, 0, 0), (Instr.ldff sm rd ra e, 1, some e, 0, 0),
      (Instr.stfe sm rd ra e, 1, some e, (s.operand tk (.stfe sm rd ra e) 0).toNat, 0),
      (Instr.stff sm rd ra e, 1, some e, (s.operand tk (.stff sm rd ra e) 0).toNat, 0),
      (Instr.feq sm rd ra, 1, none, 0, 0), (Instr.feset sm ra v, 0, none, 0, 0), (Instr.bara sm rd ra, 1, none, 0, 0),
      (Instr.barw sm rd ra e, 1, some e, 0, 0),
      (Instr.waitw sm rd ra e m, 1, some e, 0, (s.operand tk (.waitw sm rd ra e m) 0).toNat),
      (Instr.bari sm rd ra, 1, none, (s.operand tk (.bari sm rd ra) 0).toNat, 0)] →
    Ready i s tk th → th.carry = none →
    let ea := (s.operand tk i av).toNat
    let refused := (∃ sm rd ra, i = .bari sm rd ra) ∧ (data / 2 ^ 16 ≠ 0 ∨ data % 2 ^ 16 = 0)
    (ea % 8 = 0 → ¬ refused → Completes i s tk fun t u => t.mem = s.mem ∧ t.fe = s.fe ∧ t.rf = s.rf ∧
      Waits s tk th u i (bound.bind fun e => boundOf s e) fun w =>
        OneRequest i s t tk fun r => r.id = w.req ∧ r.ea = ea ∧ r.bytes = 8 ∧ r.stage = .port ∧ r.data = data ∧ r.exp = exp ∧
          (r.isFe = true → r.waiting = decide ((s.core (coreOf tk)).feretry.toNat % 256 = 0)) ∧ (r.isFe = false → r.waiting = true)) ∧
    (ea % 8 = 0 → refused → Completes i s tk fun t u =>
      u.pc = th.pc + 4 ∧ u.status.extractLsb' 0 3 = 4 ∧ t.reqs = s.reqs ∧ t.mem = s.mem) ∧
    (ea % 8 ≠ 0 → Machine.exec i s = .next ((s.trap tk 3 2 (s.operand tk i av)).takeTurn tk))

/-- Full/empty operations at the owner (Table AT-6, R146): LDFE and LDFF wait for full, STFE for empty, STFF for full; when the
condition holds the operation has its effect on the word and its bit and is answered OK; when it does not, a waiting request
takes a waiter where one is free, and any other is answered not-ready, with no effect. A host page refuses it (Table AT-2); a
page of a peer package is served there (R337). With no waiter of the word, every other bit and byte is as it was. An operation
that changes the bit serves the word's waiters once each, oldest first: those whose condition holds, by the bit that the one
before left, complete, and the others keep their places. Barrier words at the owner (R149, R150, R290): an arrival with
expected = 0 is refused; else it adds 1 to count, or, when count + 1 reaches expected, sets count to 0, moves phase on modulo
2^16 and answers OK every barrier waiter of the old phase; a BARA or GARR is answered with the old word, and a BARW that did
not complete the phase waits where a waiter is free. BARI moves phase on, sets expected, clears count and ends the barrier
waiters of its word with BROKEN. WAITW and GWAIT are answered once their masked word differs, and wait until then. Table AT-2:
a barrier word on a bank, host or window address is refused, a watched word on a bank or host address. Where the manual is
silent or is read by inference it is the model's choice: log 58, 76. -/
def Obligations.FullEmptyAndBarriersAtOwner : Prop :=
  (∀ (s : State) (r : Req), Canonical s → s.req? s.subj.n = some r → r.id = s.subj.n → TurnOf s r →
    let w := BitVec.ofNat 64 (bytesAt s r.key 8)
    let here := ∀ ha, r.tgt ≠ some (.host ha)
    let quiet := fun (t : State) => t.mem = s.mem ∧ t.fe = s.fe
    (s.waiters = [] → r.isFe = true → here → r.feReady (s.full r.key) = true → Answers .feRequestAtOwner s fun t =>
      (∀ a, a / 8 ≠ r.key / 8 → t.full a = s.full a) ∧ OnlyBytes s t r.key 8 ∧
      (t.req? r.id).map (·.stage) = some .performed ∧
      match r.instr with
      | .ldfe _ _ _ _ => s.full r.key = true ∧ t.full r.key = false ∧ t.mem = s.mem ∧ Sent s t r.node (.answer r.id 0 w true)
      | .ldff _ _ _ _ => s.full r.key = true ∧ quiet t ∧ Sent s t r.node (.answer r.id 0 w true)
      | .stfe _ _ _ _ => s.full r.key = false ∧ t.full r.key = true ∧ bytesAt t r.key 8 = r.data % 2 ^ 64 ∧
          Sent s t r.node (.answer r.id 0 0 false)
      | .stff _ _ _ _ => s.full r.key = true ∧ t.full r.key = true ∧ bytesAt t r.key 8 = r.data % 2 ^ 64 ∧
          Sent s t r.node (.answer r.id 0 0 false)
      | .feq _ _ _ => quiet t ∧ Sent s t r.node (.answer r.id 0 (if s.full r.key then 1 else 0) true)
      | .feset _ _ v => t.full r.key = (v == 1) ∧ t.mem = s.mem ∧ Sent s t r.node (.answer r.id 0 0 false)
      | _ => True) ∧
    (r.isFe = true → here → r.feReady (s.full r.key) = false → Answers .feRequestAtOwner s fun t => quiet t ∧
      (r.waiting = true ∧ s.waiterFree r = true → t.waiters = s.waiters ++ [r.id] ∧
        (t.req? r.id).map (·.stage) = some .waiter) ∧
      (r.waiting = false ∨ s.waiterFree r = false → t.waiters = s.waiters ∧ Sent s t r.node (.answer r.id 8 0 false))) ∧
    (r.isFe = true → ¬ here → Answers .feRequestAtOwner s fun t => quiet t ∧ Sent s t r.node (.answer r.id 4 0 false)) ∧
    (∀ p q a rd e, (∃ d x m, r.instr = .stfe d x m e) → s.full r.key = false → here → s.waiters = [p.id, q.id] →
      [r.id, p.id, q.id].Nodup → s.req? p.id = some p → s.req? q.id = some q → p.key = r.key → q.key = r.key →
      q.instr = .ldfe false rd a e →
      (p.instr = .ldfe false rd a e → Answers .feRequestAtOwner s fun t => t.full r.key = false ∧ t.waiters = [q.id] ∧
        Sent s t p.node (.answer p.id 0 (BitVec.ofNat 64 r.data) true)) ∧
      (p.instr = .ldff false rd a e → Answers .feRequestAtOwner s fun t => t.full r.key = false ∧ t.waiters = [] ∧
        Sent s t p.node (.answer p.id 0 (BitVec.ofNat 64 r.data) true) ∧
        Sent s t q.node (.answer q.id 0 (BitVec.ofNat 64 r.data) true)))) ∧
  (∀ (s : State) (r : Req) (x : Target), Canonical s → s.req? s.subj.n = some r → r.id = s.subj.n → TurnOf s r →
    r.tgt = some x →
    let ordinary := (∃ pa die comp ret, x = .line pa die comp ret) ∨ ∃ pa ret, x = .peer pa ret
    let window := ∃ node off, x = .window node off
    let w := bytesAt s r.key 8
    let phase := w / 2 ^ 48
    let expected := w / 2 ^ 32 % 2 ^ 16
    let count := w % 2 ^ 32
    let arrives := (∃ sm rd ra e, r.instr = .barw sm rd ra e) ∨ (∃ sm rd ra, r.instr = .bara sm rd ra) ∨
      (∃ sm rd ra, r.instr = .garr sm rd ra)
    let watches := (∃ sm rd ra e m, r.instr = .waitw sm rd ra e m) ∨ (∃ sm rd ra e, r.instr = .gwait sm rd ra e)
    let quiet := fun (t : State) => t.mem = s.mem ∧ t.fe = s.fe
    let refused := fun (t : State) => quiet t ∧ t.waiters = s.waiters ∧ Sent s t r.node (.answer r.id 4 0 false)
    let waits := fun (t : State) => r.id ∈ t.waiters ∧ (t.req? r.id).map (·.stage) = some .waiter
    (arrives → r.waitOnly = false → ordinary → expected = 0 → Answers .barrierArrival s refused) ∧
    (arrives → ¬ ordinary → Answers .barrierArrival s refused) ∧
    (arrives → r.waitOnly = false → ordinary → expected ≠ 0 → Answers .barrierArrival s fun t => OnlyBytes s t r.key 8 ∧
      t.fe = s.fe ∧
      bytesAt t r.key 8 = (if expected ≤ count + 1 then (phase + 1) % 2 ^ 16 * 2 ^ 48 + expected * 2 ^ 32
        else phase * 2 ^ 48 + expected * 2 ^ 32 + (count + 1)) ∧
      (expected ≤ count + 1 ∨ r.isBarrier = false → Sent s t r.node (.answer r.id 0 (BitVec.ofNat 64 w) true)) ∧
      (count + 1 < expected → r.isBarrier = true → s.waiterFree r = true → waits t) ∧
      (expected ≤ count + 1 → ∀ q ∈ s.waiting, q.isBarrier = true → q.key = r.key → q.exp = phase →
        Sent s t q.node (.answer q.id 0 (BitVec.ofNat 64 q.data) true))) ∧
    (arrives → r.waitOnly = true → ordinary → Answers .barrierArrival s fun t => quiet t ∧
      (phase ≠ r.exp → Sent s t r.node (.answer r.id 0 (BitVec.ofNat 64 r.data) true)) ∧
      (phase = r.exp → s.waiterFree r = true → waits t)) ∧
    (∀ sm rd ra, r.instr = .bari sm rd ra → (¬ ordinary → Answers .barrierWordRequest s refused) ∧
      (ordinary → Answers .barrierWordRequest s fun t => OnlyBytes s t r.key 8 ∧ t.fe = s.fe ∧
        bytesAt t r.key 8 = (phase + 1) % 2 ^ 16 * 2 ^ 48 + r.data % 2 ^ 16 * 2 ^ 32 ∧
        Sent s t r.node (.answer r.id 0 0 false) ∧
        ∀ q ∈ s.waiting, q.isBarrier = true → q.key = r.key → Sent s t q.node (.answer q.id 3 (BitVec.ofNat 64 q.data) true))) ∧
    (watches →
      let mask : Word := match r.instr with
        | .waitw _ _ _ _ m => (match m.toNat with
          | 0 => 0xFFFFFFFFFFFFFFFF | 1 => 0xFFFF000000000000 | 2 => 0xFFFFFFFF | _ => 0xFFFFFFFF00000000)
        | _ => 0xFFFF000000000000
      (¬ (ordinary ∨ window) → Answers .barrierWordRequest s refused) ∧
      (ordinary ∨ window → Answers .barrierWordRequest s fun t => quiet t ∧
        (BitVec.ofNat 64 w &&& mask ≠ BitVec.ofNat 64 r.exp &&& mask →
          Sent s t r.node (.answer r.id 0 (BitVec.ofNat 64 w) true)) ∧
        (BitVec.ofNat 64 w &&& mask = BitVec.ofNat 64 r.exp &&& mask → s.waiterFree r = true → waits t))))

/-- An owner's answer reaches the thread that waits for it (R145, R146, R148, R150), whichever row carries it: a status below 8
ends the wait with it, with rd := the value where the answer says so; a fault is taken at the instruction; on not-ready the
request is sent again after the core's back-off; withdrawn ends the wait with TIMEOUT. A resend makes one request more for the
same address. At the bound of a wait whose operation has no request on its way or at the owner, the wait ends with TIMEOUT in
that cycle; else the withdrawal goes behind the request. That an s-register rd has the cycle of the completion as its write
cycle is read by inference (log 65). What a thread between retries does (R146, R148): the resend makes one request; the first
c resends, with c the retry count of FERETRY, are plain, and those after the not-ready answer of the c-th, in which more than
c have come, are waiting requests; at the bound the wait ends with TIMEOUT in the expiry cycle, and a BARW whose arrival was
counted keeps the old word in rd. Where the manual is silent or is read by inference it is the model's choice: log 65. -/
def Obligations.OwnerAnswersAndBounds : Prop :=
  (∀ (s : State) (r : Req) (th : Thread) (w : Wait) (v : Word) (writes : Bool), Canonical s → s.req? r.id = some r →
    WaitsFor s r th w → th.stopReq = none → w.gone = false → r.withdrawn = false →
    (∀ ev st, ev ∈ [Instr.feAnswer, .barrierAnswer, .withdrawalSettle] → Arrives s (.answer r.id st v writes) →
      (∀ code : BitVec 3, st = code.toNat → Answers ev s fun t => EndsWith s t r.tk th code ∧ t.mem = s.mem ∧
        t.reqs = SMap.del s.reqs r.id ∧ (writes = false → t.rf = s.rf) ∧
        (writes = true → Puts s t r.tk (waitRd w.instr) v)) ∧
      (st = 9 → Answers ev s fun t => EndsWith s t r.tk th 1 ∧ (writes = false → t.rf = s.rf) ∧
        (writes = true → Puts s t r.tk (waitRd w.instr) v)) ∧
      (st = 8 → Answers ev s fun t => t.rf = s.rf ∧ (∃ u, t.thread? r.tk = some { th with run := .wait u } ∧
          u.id = w.id ∧ u.instr = w.instr ∧ u.req = 0 ∧ u.count = w.count + 1 ∧ u.deadline = w.deadline) ∧
        (let later := s.cycle + 8 * ((s.core (coreOf r.tk)).feretry.toNat / 256)
         t.timers = s.timers ++ [{ due := later, mv := .ev .feResend { n := r.tk, m := w.id } }])) ∧
      (∀ cause, st = 16 + cause → cause < 32 → Machine.exec ev s =
        .next (State.trap { s with packets := SMap.del s.packets s.subj.n, reqs := SMap.del s.reqs r.id } r.tk 3 cause
          (BitVec.ofNat 64 r.ea)))) ∧
    (s.subj.n = r.tk → s.subj.m = w.id → (r.stage = .sent ∨ r.stage = .queued ∨ r.stage = .filling ∨ r.stage = .waiter) →
      Answers .ownerWaitTimeout s fun t => (t.req? r.id).map (·.withdrawn) = some true ∧
        ∃ u, t.thread? r.tk = some { th with run := .wait u } ∧ u.gone = true ∧ u.id = w.id)) ∧
  (∀ (s : State) (tk : Nat) (th : Thread) (w : Wait), Canonical s → s.subj.n = tk → s.subj.m = w.id →
    s.thread? tk = some th → th.run = .wait w → th.stopReq = none →
    (w.req = 0 → w.stage = 0 → Answers .feResend s fun t => OneRequest w.instr s t tk fun r =>
      r.bytes = 8 ∧ r.stage = .port ∧ r.ea = (match w.instr with
        | .feset _ _ _ => (w.vals.getD 0 0).toNat
        | _ => (w.vals.getD 1 0).toNat) ∧
      (isFeInstr w.instr = true → 0 < w.count → r.waiting = decide ((s.core (coreOf tk)).feretry.toNat % 256 < w.count)) ∧
      (isFeInstr w.instr = false → r.waiting = true) ∧ r.data = (w.vals.getD 0 0).toNat ∧
      ∃ u, t.thread? tk = some { th with run := .wait u } ∧ u.req = r.id ∧ u.id = w.id) ∧
    (s.req? w.req = none → Answers .ownerWaitTimeout s fun t => EndsWith s t tk th 1 ∧
      (w.stage ≠ 1 → t.rf = s.rf) ∧
      (∀ sm rd ra e, w.stage = 1 → w.instr = .barw sm rd ra e → Puts s t tk rd (w.vals.getD 0 0))))

/-- FENCE (R153): it parks its thread with its bound. Once every load of the thread has landed and, for scope 1 to 5, U is 0 or,
for scope 0, no store of it is in the buffer, and for scope 5 no store to a host page is to be made visible, it ends OK, or
raises the memory-fault trap of a store-fault log that holds a fault and clears it. The endpoint's read makes the host stores
visible. At its bound it ends TIMEOUT with the log as it is. That scope 0 takes the trap and clears the log with no condition
on U is the model's choice (log 69). Where the manual is silent or is read by inference it is the model's choice: log 69. -/
def Obligations.Fences : Prop :=
  ∀ (sm : Bool) (e : BitVec 4) (c : BitVec 3) (s : State) (tk : Nat) (th : Thread),
    let i := Instr.fence sm e c
    (Ready i s tk th → th.carry = none → Completes i s tk fun t u => t.mem = s.mem ∧ t.rf = s.rf ∧ t.reqs = s.reqs ∧
      Waits s tk th u i (boundOf s e) fun _ => True) ∧
    (∀ w, s.subj.n = tk → s.thread? tk = some th → th.run = .wait w → w.instr = i →
      ((∀ q ∈ s.reqs, q.2.tk = tk → isLoad q.2.instr = false) → (c ≠ 0 → th.u = 0) →
        (c = 0 → ∀ q ∈ s.reqs, q.2.tk = tk → q.2.stage ≠ .buffered) → (c = 5 → th.hostStore = false) →
        (th.log = none → Answers .fenceComplete s fun t => EndsWith s t tk th 0 ∧ t.mem = s.mem ∧ t.rf = s.rf) ∧
        (∀ cause a, th.log = some (cause, a) → Machine.exec .fenceComplete s =
          .next ((s.modThread tk fun u => { u with log := none }).trap tk 3 cause a))) ∧
      (s.subj.m = w.id → Answers .fenceTimeout s fun t => EndsWith s t tk th 1 ∧ t.mem = s.mem ∧
        ∃ u, t.thread? tk = some u ∧ u.log = th.log) ∧
      (s.subj.m = w.id → Answers .fenceHostReadDone s fun t =>
        ∃ u, t.thread? tk = some { th with run := .wait u, hostStore := false } ∧ u.id = w.id))

/-- A global access between its core and its owner (R104, R110, R113, R116, R132): the head of a core's store buffer leaves it,
when nothing before it holds it, its address is translated, its team's stream port is free and no earlier request has still to
be sent there, and is sent to its owner. The checks of an address come in their order: cause 3 for one that is not canonical,
and in a window for nonzero bits [46:21], then 6 outside the partition of the launch, which is empty for a channel core's
supervisor alone there, and 7 for a node that is not there; for a page in the TLB cause 5 without permission, and a miss asks
for a walk. A store that faults leaves with its cause in an empty log and is acknowledged; a load's entries become markers of
its cause. At the owner a window offset that ends past S has cause 8, and a fault there writes nothing; a store at its owner
writes its bytes and no other, leaves every full/empty bit, and is acknowledged; the acknowledgement takes 1 from U, and one
with a fault enters a log that is empty; the response to a load lands in the entries that were claimed for it, in request
order. Where the manual is silent or is read by inference it is the model's choice: log 1, 2, 16, 77, 78, 86. -/
def Obligations.AccessesOnTheWay : Prop :=
  ∀ (s : State) (r : Req), Canonical s → s.req? r.id = some r →
    (∀ core rest t, s.subj.n = core → (s.core core).storeBuf = r.id :: rest → s.leaveBlocked r = false → r.fault = 0 →
      s.translateFor r.tk r.node r.launch r.ea true = .ok t → s.moved r t = false → s.portFree r.node = true → s.portBehind r = false →
      Answers .storeBufferLeave s fun u =>
        (u.core core).storeBuf = rest ∧ u.mem = s.mem ∧ ∃ q, u.req? r.id = some q ∧ q.stage = .sent ∧ q.tgt = some t ∧
          q.data = r.data ∧ q.ea = r.ea) ∧
    (s.subj.n = r.id → TurnOf s r → isStore r.instr = true → Answers .ownerStore s fun u =>
      OnlyBytes s u r.key r.bytes ∧ bytesAt u r.key r.bytes = r.data % 2 ^ (8 * r.bytes) ∧ u.fe = s.fe ∧
      Sent s u r.node (.ack r.id 0)) ∧
    (∀ tk node key ea write l, s.launch? key = some l →
      let x := s.translateFor tk node key ea write
      let top := ea / 2 ^ 48 % 2 ^ 16
      let page := (s.team node).tlb.find? fun e => e.root == l.root && (decide (node < 256) || e.launch == key) &&
        decide (e.va ≤ ea) && decide (ea < e.va + e.size)
      let die := ea / 2 ^ 53 % 8
      let num := ea / 2 ^ 47 % 2 ^ 6
      let alone := isChannel (coreOf tk) = true ∧ slotOf tk = 0 ∧
        ∀ j u, (j, u) ∈ s.threads → coreOf j = coreOf tk → slotOf j ≠ 0 → u.launch = 0
      let inside := ¬ alone ∧ l.wpdie.testBit die = true ∧ (l.wpnode.getD die 0).testBit num = true
      let there := if die < 4 then s.absent (nodeAt die num) = false else num < 48
      (top ≠ 0 → top / 2 ^ 8 ≠ 0xE1 → x = .fault 3) ∧
      (top = 0 → page = none → x = .miss) ∧
      (∀ e, top = 0 → page = some e →
        ((bitAt e.leaf 2 = false ∨ write = true ∧ bitAt e.leaf 1 = false) → x = .fault 5) ∧
        (bitAt e.leaf 2 = true → (write = true → bitAt e.leaf 1 = true) → x = .ok (leafTarget e.leaf ea))) ∧
      (top / 2 ^ 8 = 0xE1 → (ea / 2 ^ 21 % 2 ^ 26 ≠ 0 → x = .fault 3) ∧ (ea / 2 ^ 21 % 2 ^ 26 = 0 →
        (¬ inside → x = .fault 6) ∧ (inside → ¬ there → x = .fault 7) ∧
        (inside → there → x = .ok (.window (nodeAt die num) (ea % 2 ^ 21)))))) ∧
    (∀ core rest c th, s.subj.n = core → (s.core core).storeBuf = r.id :: rest → s.leaveBlocked r = false →
      (r.fault = c ∧ c ≠ 0 ∨ r.fault = 0 ∧ s.translateFor r.tk r.node r.launch r.ea true = .fault c) → isAmo r.instr = false →
      s.thread? r.tk = some th → th.born < r.id → Answers .storeBufferLeave s fun u =>
        (u.core core).storeBuf = rest ∧ u.mem = s.mem ∧ u.reqs = SMap.del s.reqs r.id ∧ u.packets = s.packets ∧
        u.thread? r.tk = some { th with u := th.u - 1, log := some (th.log.getD (c, BitVec.ofNat 64 r.ea)) }) ∧
    (∀ c rest pre post es, s.cur = none → s.pkg.answers = true → s.waiters = [] → s.todo = .port r.id :: rest → r.stage = .port →
      isLoad r.instr = true → s.portBlocked r = false →
      (r.fault = c ∧ c ≠ 0 ∨ r.fault = 0 ∧ s.translateFor r.tk r.node r.launch r.ea false = .fault c) →
      (s.stream r.tk r.streamOf).entries = pre ++ es ++ post → (∀ e ∈ es, e.serial = r.id ∧ e.landed = false) →
      (∀ e ∈ pre ++ post, e.serial ≠ r.id) → es ≠ [] → ∃ u, Machine.step s = .next u ∧ u.mem = s.mem ∧
        u.reqs = SMap.del s.reqs r.id ∧ u.packets = s.packets ∧ ∃ fs, (u.stream r.tk r.streamOf).entries = pre ++ fs ++ post ∧
          fs.length = es.length ∧ ∀ e ∈ fs, e.landed = true ∧ e.cause = c) ∧
    (∀ c, s.subj.n = r.id → Turn s r → s.ownerCause r = c → c ≠ 0 → (isStore r.instr = true → Answers .ownerStore s fun u =>
      u.mem = s.mem ∧ Sent s u r.node (.ack r.id c))) ∧
    (∀ node off, r.tgt = some (.window node off) → (s.team node).s < off + r.bytes → s.ownerCause r = 8) ∧
    (∀ cause th, Arrives s (.ack r.id cause) → s.thread? r.tk = some th → th.born < r.id → isLineOp r.instr = false →
      Answers .storeAcknowledge s fun u => u.reqs = SMap.del s.reqs r.id ∧ u.mem = s.mem ∧
        ∃ v, u.thread? r.tk = some { th with u := th.u - 1, log := v } ∧
          v = if cause = 0 then th.log else some (th.log.getD (cause, BitVec.ofNat 64 r.ea))) ∧
    (∀ vals fill bytes es pre post, Arrives s (.land r.id vals 0 fill bytes) →
      (s.stream r.tk r.streamOf).entries = pre ++ es ++ post → es.length = vals.length →
      (∀ e ∈ es, e.serial = r.id ∧ e.landed = false) → (∀ e ∈ pre ++ post, e.serial ≠ r.id) → es ≠ [] →
      Answers .streamElementLand s fun u => u.mem = s.mem ∧ u.rf = s.rf ∧ u.reqs = SMap.del s.reqs r.id ∧
        ∃ fs, (u.stream r.tk r.streamOf).entries = pre ++ fs ++ post ∧ fs.map (·.value) = vals ∧
          ∀ e ∈ fs, e.landed = true ∧ e.cause = 0)

/-- The L2 slices (R121, R125 to R127): a request that arrives is accepted into its slice's queue, one a cycle and 16 at most, or
sent back with the map of the die when the slice is retired; the next request is looked up, and a hit is performed 8 cycles
later while a miss waits for its DRAM fill; the fill lets it be performed. A corrected error raises the slice's count; a slice
that is retired with an empty queue gives up its lines and hands its buckets to a live slice; a map that arrives is the stream
port's from then on, and a bounced request goes back to its port. Where the manual is silent or is read by inference it is the
model's choice: log 1, 6, 70, 71, 77. -/
def Obligations.Slices : Prop :=
  ∀ (s : State) (r : Req),
    (∀ k, s.req? s.subj.n = some r → r.id = s.subj.n → r.stage = .sent → k = sliceOf r.dest → s.earlierSent r = false →
      ((s.slice k).retired = false → s.unaccepted r = false → s.meetsAhead r = false → (s.slice k).draining = false →
        (s.slice k).queue.length < 16 → (s.slice k).accepted ≠ some s.cycle → Answers .sliceAccept s fun t => (t.slice k).queue = (s.slice k).queue ++ [r.id] ∧
        (t.slice k).accepted = some s.cycle ∧ t.req? r.id = some { r with stage := .queued } ∧ t.mem = s.mem) ∧
      ((s.slice k).retired = true → Answers .sliceAccept s fun t => t.req? r.id = some { r with stage := .bounced } ∧
        Sent s t r.node (.map (k / 16) (s.pkg.bucketMaps.getD (k / 16) []) (s.pkg.mapGens.getD (k / 16) 0) (some r.id)))) ∧
    (s.nextLookup s.subj.n = some r → Answers .sliceLookup s fun t => t.req? r.id = some { r with stage := .filling } ∧
      ((∃ l ∈ (s.slice s.subj.n).lines, l.pa = r.key / 64) → t.timers = s.timers ++ [{ due := s.cycle + 8, mv := performMove r }]) ∧
      ((∀ l ∈ (s.slice s.subj.n).lines, l.pa ≠ r.key / 64) → ∃ due, s.cycle < due ∧
        t.timers = s.timers ++ [{ due := due, mv := .ev .dramFill { n := r.id } }])) ∧
    (s.req? s.subj.n = some r → Machine.exec .dramFill s = .next { s with todo := performMove r :: s.todo }) ∧
    (∀ k, k < 64 → Answers (.correctedError k) s fun t => (t.slice k).errors = (s.slice k).errors + 1 ∧
      (t.slice k).lines = (s.slice k).lines ∧ t.mem = s.mem) ∧
    (∀ k, k < 64 → (s.slice k).retired = false → (s.slice k).queue = [] → Answers (.sliceRetire k) s fun t =>
      (t.slice k).retired = true ∧ (t.slice k).lines = [] ∧ t.mem = s.mem ∧ t.fe = s.fe ∧
      t.pkg.bucketMaps = s.pkg.bucketMaps.set (k / 16) ((s.pkg.bucketMaps.getD (k / 16) []).map fun b =>
        if b = k % 16 then s.nextLive (k / 16) 15 (k % 16) else b)) ∧
    (∀ q die entries gen rid, SMap.get? s.packets s.subj.n = some q → q.payload = .map die entries gen rid →
      s.behind q = false → (s.team q.dst).maps.length = 4 → (s.team q.dst).mapGens.length = 4 → die < 4 →
      (s.team q.dst).mapGens.getD die 0 ≠ gen → Answers .mapInstall s fun t =>
        (t.team q.dst).maps = (s.team q.dst).maps.set die entries ∧ (t.team q.dst).mapGens.getD die 0 = gen ∧
        ∀ id b, rid = some id → s.req? id = some b → b.id = id → b.stage = .bounced → t.req? id = some { b with stage := .port })

/-- Table walks, instruction fetch and freed windows (R65, R81, R128, R129, R318): a walk goes through four levels, a leaf with
the size of its level, no invalid or reserved field set and no combination that is not allowed ends it at the second to the
fourth, and anything else but a table entry gives none; a leaf maps its page to host memory, a peer package, a bank or L2
lines; a fetch line needs the thread bit, a package that can be reached and no data error; a walk that finds a leaf enters it
in the node's TLB, and one that finds none faults the page's requests with cause 4; a fetch whose page is not in the TLB waits
for its walk; an instruction-cache line that arrives makes the parked thread ready from the next cycle with the line in the
cache, or a fetch that faults raises the fetch trap at the pc; a window whose zeroing has ended is free. Where the manual is
silent or is read by inference it is the model's choice: log 1, 6, 13, 66, 85, 88. -/
def Obligations.WalksAndFetch : Prop :=
  ∀ (s : State) (tk : Nat) (th : Thread),
    (∀ w, w ∈ (s.team s.subj.n).walks → w.id = s.subj.m → (∀ v ∈ (s.team s.subj.n).walks, v.id = w.id → v = w) →
      Answers .pageWalkDone s fun t => t.mem = s.mem ∧
      (∀ v ∈ (t.team s.subj.n).walks, v.id ≠ w.id) ∧
      (∀ leaf, s.walkFrom w.root w.va = some leaf → ∃ e ∈ (t.team s.subj.n).tlb, e.root = w.root ∧ e.leaf = leaf) ∧
      (s.walkFrom w.root w.va = none → ∀ id q, (id, q) ∈ s.reqs → q.node = s.subj.n → q.launch = w.launch →
        (q.stage = .port ∨ q.stage = .buffered) → q.fault = 0 → addrClass q.ea = .virtual → q.ea / 65536 = w.va / 65536 →
        (id, { q with fault := 4 }) ∈ t.reqs)) ∧
    (∀ root va,
      let entry := fun (table lo len : Nat) => bytesAt s (table + 8 * (va / 2 ^ lo % 2 ^ len)) 8
      let next := fun (e : Nat) => e / 2 ^ 12 % 2 ^ 36 * 2 ^ 12
      let table := fun (e : Nat) => decide (e % 16 = 1 ∧ e / 2 ^ 4 % 2 ^ 8 = 3 ∧ e / 2 ^ 48 = 0)
      let leaf := fun (e z low : Nat) => decide (e % 2 = 1 ∧ e / 2 ^ 4 % 4 = z ∧ e / 2 ^ 52 = 0 ∧ e / 2 ^ 19 % 2 = 0 ∧
        e / 2 ^ 20 % 2 ^ low = 0 ∧ (e / 2 ^ 3 % 2 = 1 → e / 2 ^ 6 % 2 ^ 13 = 0) ∧
        (e / 2 ^ 12 % 2 = 1 → z ≠ 2 ∧ e / 2 ^ 13 % 2 ^ 6 ≤ 47))
      let e1 := entry root 39 9
      let e2 := entry (next e1) 30 9
      let e3 := entry (next e2) 21 9
      let e4 := entry (next e3) 16 5
      s.walkFrom root va = if table e1 then if leaf e2 2 14 then some (BitVec.ofNat 64 e2)
          else if table e2 then if leaf e3 1 5 then some (BitVec.ofNat 64 e3)
            else if table e3 then if leaf e4 0 0 then some (BitVec.ofNat 64 e4) else none else none
          else none
        else none) ∧
    (∀ (leaf : Word) (va : Nat),
      let f := fun (lo len : Nat) => leaf.toNat / 2 ^ lo % 2 ^ len
      let pa := f 20 32 * 2 ^ 16 + va % 2 ^ (if f 4 2 = 0 then 16 else if f 4 2 = 1 then 21 else 30)
      let t := leafTarget leaf va
      let reach := ∀ x ret, t = .peer x ret → ∃ l, SMap.get? s.pkg.routes (x / 2 ^ 40) = some l ∧ s.pkg.links.getD l 0 = 2
      t = (if f 3 1 = 1 then .host pa else if 2 ^ 40 ≤ pa then .peer pa (f 9 2)
        else if f 12 1 = 1 then .bank pa (4 + f 7 2) (f 13 6)
        else .line pa (if f 6 1 = 1 then some (4 + f 7 2) else none) (f 11 1 == 1) (f 9 2)) ∧
      (f 2 1 = 0 → s.fetchLine leaf va = .error 5) ∧
      (f 2 1 = 1 → (¬ reach → s.fetchLine leaf va = .error 7) ∧ (reach → (s.poisoned t 64 = true → s.fetchLine leaf va = .error 9) ∧
        (s.poisoned t 64 = false → s.fetchLine leaf va = .ok ((List.range 64).map fun i => s.byte (Target.key t + i)))))) ∧
    (∀ l, s.subj.n = tk → s.thread? tk = some th → th.run = .fetch → s.launch? th.launch = some l →
      let va := 64 * (th.pc.toNat / 64)
      (∀ e, s.tlbFind (nodeOf (coreOf tk)) th.launch l va = some e →
        (∀ bs, s.fetchLine e.leaf va = .ok bs → Answers .iCacheFill s fun t =>
          t.thread? tk = some { th with run := .ready, notBefore := s.cycle + 1 } ∧ t.mem = s.mem ∧
          t.cached tk = some ((bs.drop (th.pc.toNat % 64)).take 4)) ∧
        (∀ c, c ≠ 9 → s.fetchLine e.leaf va = .error c → Machine.exec .iCacheFill s =
          .next (s.trap tk 10 c (th.pc.zeroExtend 64)))) ∧
      (s.tlbFind (nodeOf (coreOf tk)) th.launch l va = none → Answers .iCacheFill s fun t => t.thread? tk = some th ∧
        t.mem = s.mem ∧ ∃ w ∈ (t.team (nodeOf (coreOf tk))).walks, w.launch = th.launch ∧ w.va / 65536 = va / 65536)) ∧
    (∀ z, Canonical s → s.subj.n = tk → (s.core (coreOf tk)).zeroing.find? (fun y => y.slot == slotOf tk && decide (y.till < s.cycle)) = some z →
      Answers .slotZeroingDone s fun t => t.mem = s.mem ∧ (t.core (coreOf tk)).zeroing = (s.core (coreOf tk)).zeroing.erase z ∧
        ∀ key, SMap.getD t.rf key 0 =
          if 2048 * coreOf tk + 8 * z.base ≤ key ∧ key < 2048 * coreOf tk + 8 * z.base + z.w then 0 else SMap.getD s.rf key 0)

/-! ### Float, vectors and the matrix engine (R154 to R209) -/

/-- Scalar float (R164 to R170), in the format of the prefix, FP32 where there is none: sums, products and the fused sum with the
old rd are exact and rounded once; compares are 1 or 0; FABS and FNEG change the sign bit alone; FCVT converts from the format
of aux. An operand or result that is subnormal goes to the normaliser (R165): the thread forfeits three turns and a step 24
cycles later writes rd with its own cycle as write cycle, in which a push to a neighbour port leaves and one to a role queue
takes effect; all else is written as an integer result is. -/
def Obligations.ScalarFloat : Prop :=
  (∀ (sm : Bool) (rd ra rb : Reg) (s : State) (tk : Nat) (th : Thread) (i : Instr) (v : Word) (slow : Bool),
    let code := preFmt (prefixOf th)
    let fmt := match code with | 2 => fp16 | 3 => bf16 | 4 => zf8 | _ => fp32
    let width := match code with | 2 | 3 => 16 | 4 => 8 | _ => 32
    let raw := fun (j : Instr) (n : Nat) => (s.operand tk j n).toNat % 2 ^ width
    let val := fun (j : Instr) (n : Nat) => fmt.value (raw j n)
    let sub := fun (j : Instr) (n : Nat) => fmt.subnormal (raw j n)
    let arith := fun (j : Instr) (ns : List Nat) (x : Val) =>
      (j, BitVec.ofNat 64 (fmt.round x), ns.any (sub j) || fmt.tiny x)
    let flag := fun (p : Bool) => if p then (1 : Word) else 0
    let a := Instr.fadd sm rd ra rb
    let b := Instr.fsub sm rd ra rb
    let m := Instr.fmul sm rd ra rb
    let f := Instr.ffma sm rd ra rb
    let lo := Instr.fmin sm rd ra rb
    let hi := Instr.fmax sm rd ra rb
    let eq := Instr.fcmpeq sm rd ra rb
    let lt := Instr.fcmplt sm rd ra rb
    let le := Instr.fcmple sm rd ra rb
    (i, v, slow) ∈ [arith a [1, 2] ((val a 1).add (val a 2)), arith b [1, 2] ((val b 1).add (val b 2).neg),
      arith m [1, 2] ((val m 1).mul (val m 2)), arith f [0, 1, 2] (((val f 1).mul (val f 2)).add (val f 0)),
      (lo, BitVec.ofNat 64 (pickFloat fmt false (raw lo 1) (raw lo 2)), sub lo 1 || sub lo 2),
      (hi, BitVec.ofNat 64 (pickFloat fmt true (raw hi 1) (raw hi 2)), sub hi 1 || sub hi 2),
      (eq, flag ((val eq 1).eq (val eq 2)), sub eq 1 || sub eq 2), (lt, flag ((val lt 1).lt (val lt 2)), sub lt 1 || sub lt 2),
      (le, flag ((val le 1).lt (val le 2) || (val le 1).eq (val le 2)), sub le 1 || sub le 2),
      (.fabs sm rd ra, BitVec.ofNat 64 (raw (.fabs sm rd ra) 1 % 2 ^ (width - 1)), false),
      (.fneg sm rd ra, BitVec.ofNat 64 ((raw (.fneg sm rd ra) 1 + 2 ^ (width - 1)) % 2 ^ width), false),
      (.fcls sm rd ra, BitVec.ofNat 64 (classOf fmt (raw (.fcls sm rd ra) 1)), false),
      (let x := (s.operand tk (.fcvt sm rd ra) 1).toNat
       (.fcvt sm rd ra, scalarOf code (convert (valueOf (preAux (prefixOf th)) x) code),
         cvtSlow (preAux (prefixOf th)) code x))] →
    Ready i s tk th → Machine.exec i s = .next (issued i s tk fun u =>
      if slow then
        let r := (u.reserveReg tk rd).modThread tk fun th => { th with forfeit := th.forfeit + 3 }
        let subj : Subj := { n := tk, m := th.born, v := v, r := rd }
        { r with timers := r.timers ++ [{ due := s.cycle + 24, mv := .ev .normaliserWrite subj }] }
      else u.writeReg tk rd v)) ∧
  (∀ (s : State) (th : Thread), Sized s → s.thread? s.subj.n = some th →
    (th.born = s.subj.m → Answers .normaliserWrite s fun t => WritesLate s t s.subj.n s.subj.r s.subj.v) ∧
    (th.born ≠ s.subj.m → Machine.exec .normaliserWrite s = .next s))

/-- The vector unit (R171 to R173, Table VE-7): a vector instruction issues when its core's dispatch queue has one of its two
entries free, and its thread is handed over; the unit grants the first core after the last served whose head was issued in an
earlier cycle, and reads the groups then; the result returns after the instruction's latency, is written to its group or to
rd, of which an s register has the return cycle as its write cycle (R66), and the thread is ready from the cycle after. What
the vector instructions compute (R176 to R182), lane by lane in the format's width: sums, differences and products are exact
and rounded once in a floating-point format and wrap in an integer format; minima, maxima and compares go by value; shifts by
B modulo the width; the bitwise ones act on the whole group; VSHUF picks bytes; VBCAST, VINS and VEXT name a lane. The
conversions and dot products lane by lane (R158, R180, R181), and the latencies of Table VE-7. VCVT and VQNT convert the 64 /
max(w_dst, w_src) lanes from aux to fmt, and the bytes above are zero; VQNT scales by the FP32 in B[31:0] exactly, and in an
integer format adds the signed B[47:32] to the rounded product and clamps, where a NaN gives the zero point and an infinity
its limit. VDOT adds to each 32-bit lane the exact sum of its products, rounded once to FP32 or modulo 2^32. Where the manual
is silent or is read by inference it is the model's choice: log 18. -/
def Obligations.VectorUnitAndLanes : Prop :=
  ((∀ (i : Instr) (s : State) (tk : Nat) (th : Thread),
    (i.isWord = true ∧ ∃ op : BitVec 6, (encode i).extractLsb' 25 6 = op ∧ 0x2C ≤ op.toNat ∧ op.toNat ≤ 0x30) →
    Ready i s tk th → (s.vqueue (coreOf tk)).length < 2 → (s.team (nodeOf (coreOf tk))).vq.length = 4 →
    Completes i s tk fun t u => u.run = .handed ∧ u.pc = th.pc + 4 ∧ t.mem = s.mem ∧ t.rf = s.rf ∧
      ∃ j : VJob, t.vqueue (coreOf tk) = s.vqueue (coreOf tk) ++ [j] ∧ j.tk = tk ∧ j.instr = i ∧ j.issued = s.cycle ∧
        j.fmt = preFmt (prefixOf th) ∧ j.aux = preAux (prefixOf th)) ∧
  (∀ (s : State) (d : Nat) (j : VJob) (rest : List VJob),
    let c := ((s.team s.subj.n).vlast + 1 + d) % 4
    let waits := fun (k : Nat) => ∀ v vs, (s.team s.subj.n).vq.getD (((s.team s.subj.n).vlast + 1 + k) % 4) [] = v :: vs →
      s.cycle ≤ v.issued
    ((∀ k, k < 4 → waits k) → Machine.exec .vectorGrant s = .next s) ∧ (d < 4 → (∀ k, k < d → waits k) →
    (s.team s.subj.n).vq.length = 4 → (s.team s.subj.n).vq.getD c [] = j :: rest → j.issued < s.cycle →
    let grp := fun (n : Nat) =>
      ((s.readGroup j.tk (j.instr.fields.getD n (.dst, .g 0)).2).zipIdx.map fun v => v.1.toNat * 2 ^ (64 * v.2)).sum
    let sc := fun (n : Nat) => (j.scal.getD n none).getD (s.readG j.tk (Reg.gnum (j.instr.fields.getD n (.dst, .g 0)).2))
    Answers .vectorGrant s fun t => t.mem = s.mem ∧ t.rf = s.rf ∧ (t.team s.subj.n).vq.getD c [] = rest ∧
      (t.team s.subj.n).vlast = c ∧
      t.timers = s.timers ++ [{ due := s.cycle + vectorLatency j.instr, mv := .ev .vectorReturn { n := s.subj.n, m := j.id } }] ∧
      ∃ k ∈ (t.team s.subj.n).vfly, k.id = j.id ∧ k.tk = j.tk ∧ k.instr = j.instr ∧
        k.result = vectorResult j.instr j.fmt j.aux (grp 0) (grp 1) (grp 2) sc)) ∧
  (∀ (s : State) (j : VJob) (th : Thread), Canonical s →
    (s.team s.subj.n).vfly.find? (fun k => k.id == s.subj.m) = some j → s.thread? j.tk = some th → th.run = .handed →
    Answers .vectorReturn s fun t => t.mem = s.mem ∧
      (∃ u, t.thread? j.tk = some u ∧ (u.run = .ready ∨ u.run = .switch) ∧ u.notBefore = s.cycle + 1 ∧ u.pc = th.pc) ∧
      (∀ v, j.result = [v] → Puts s t j.tk (j.instr.fields.getD 0 (.dst, .g 0)).2 v) ∧
      (∀ k n, j.result.length = 8 → (j.instr.fields.getD 0 (.dst, .g 0)).2 = .g k → n < 8 →
        t.readG j.tk (k.val + n) = j.result.getD n 0))) ∧
  (∀ (sm : Bool) (rd ra rb : Reg) (code aux o a b j : Nat) (sc : Nat → Word),
    code ≤ 9 → o < 2 ^ 512 → a < 2 ^ 512 → b < 2 ^ 512 →
    let w := widthOf code
    let group := fun (i : Instr) => ((vectorResult i code aux o a b sc).zipIdx.map fun v => v.1.toNat * 2 ^ (64 * v.2)).sum
    let lane := fun (i : Instr) => laneOf w (group i) j
    let x := laneOf w a j
    let y := laneOf w b j
    let z := laneOf w o j
    let arith := fun (f : Val → Val → Val) (g : Int) => match floatOf code with
      | some m => m.round (f (m.value x) (m.value y)) % 2 ^ w
      | none => (g % (2 ^ w : Nat)).toNat
    let mask := fun (p : Bool) => if p then 2 ^ w - 1 else 0
    (j * w < 512 →
      lane (.vadd sm rd ra rb) = arith Val.add (x + y) ∧ lane (.vsub sm rd ra rb) = arith (fun p q => p.add q.neg) (x - y) ∧
      lane (.vmul sm rd ra rb) = arith Val.mul (x * y) ∧
      (∀ m, floatOf code = some m → lane (.vfma sm rd ra rb) =
        m.round (((m.value x).mul (m.value y)).add (m.value z)) % 2 ^ w) ∧
      lane (.vmin sm rd ra rb) = pickOf code false x y % 2 ^ w ∧ lane (.vmax sm rd ra rb) = pickOf code true x y % 2 ^ w ∧
      (∀ m, floatOf code = some m → lane (.vabs sm rd ra) = x % 2 ^ (w - 1) ∧
        lane (.vneg sm rd ra) = (x + 2 ^ (w - 1)) % 2 ^ w ∧ lane (.vrcp sm rd ra) = m.round (recip (m.value x)) % 2 ^ w ∧
        lane (.vrsq sm rd ra) = m.round (rsqrt (m.value x)) % 2 ^ w ∧
        lane (.vexp2 sm rd ra) = m.round (exp2 (m.value x)) % 2 ^ w) ∧
      (floatOf code = none → lane (.vneg sm rd ra) = (2 ^ w - x) % 2 ^ w ∧
        lane (.vabs sm rd ra) = (if code = 6 then x else (toSigned w x).natAbs % 2 ^ w)) ∧
      lane (.vshl sm rd ra rb) = x * 2 ^ (y % w) % 2 ^ w ∧ lane (.vshr sm rd ra rb) = x / 2 ^ (y % w) ∧
      lane (.vsar sm rd ra rb) = ((toSigned w x / (2 ^ (y % w) : Nat)) % (2 ^ w : Nat)).toNat ∧
      lane (.vcmpeq sm rd ra rb) = mask ((valueOf code x).eq (valueOf code y)) ∧
      lane (.vcmplt sm rd ra rb) = mask ((valueOf code x).lt (valueOf code y)) ∧
      lane (.vcmple sm rd ra rb) = mask ((valueOf code x).lt (valueOf code y) || (valueOf code x).eq (valueOf code y)) ∧
      lane (.vbcast sm rd ra) = (sc 1).toNat % 2 ^ w ∧
      lane (.vins sm rd ra rb) = (if j = (sc 2).toNat % (512 / w) then (sc 1).toNat % 2 ^ w else z)) ∧
    vectorResult (.vext sm rd ra rb) code aux o a b sc = [scalarOf code (laneOf w a ((sc 2).toNat % (512 / w)))] ∧
    group (.vand sm rd ra rb) = a &&& b ∧ group (.vor sm rd ra rb) = a ||| b ∧ group (.vxor sm rd ra rb) = a ^^^ b ∧
    group (.vmov sm rd ra) = a ∧
    (∀ n, n < 512 → (group (.vsel sm rd ra rb)).testBit n = if o.testBit n then a.testBit n else b.testBit n) ∧
    (∀ n, n < 64 → laneOf 8 (group (.vshuf sm rd ra rb)) n =
      if 128 ≤ laneOf 8 b n then 0 else laneOf 8 a (laneOf 8 b n % 64)) ∧
    (∀ op : BitVec 7, vectorResult (.vred sm rd ra op) code aux o a b sc =
      (let xs := (List.range (512 / w)).map (laneOf w a)
       if op = 0 then (match floatOf code with
         | some m => [BitVec.ofNat 64 (m.round (sumVals (xs.map m.value)))]
         | none => [BitVec.ofInt 64 ((xs.map (intValue code)).sum)])
       else [scalarOf code (xs.tail.foldl (pickOf code (op == 2)) (xs.headD 0))]))) ∧
  ((∀ (sm : Bool) (rd ra rb : Reg) (code aux o a b j : Nat) (sc : Nat → Word),
    code ≤ 9 → aux ≤ 9 → o < 2 ^ 512 → a < 2 ^ 512 → b < 2 ^ 512 →
    let w := widthOf code
    let group := fun (i : Instr) => ((vectorResult i code aux o a b sc).zipIdx.map fun v => v.1.toNat * 2 ^ (64 * v.2)).sum
    let count := 512 / max (widthOf code) (widthOf aux)
    let x := laneOf (widthOf aux) a j
    let p := (valueOf aux x).mul (fp32.value ((sc 2).toNat % 2 ^ 32))
    let z := toSigned 16 ((sc 2).toNat / 2 ^ 32 % 2 ^ 16)
    let clamp := fun (v : Int) => (show Int from match code with
      | 5 => max (-128) (min 127 v)
      | 6 => max 0 (min 255 v)
      | _ => max (-32768) (min 32767 v))
    let quantised := fun (v : Val) => match floatOf code with
      | some m => m.round v % 2 ^ w
      | none => ((show Int from match v with
        | .nan => clamp z
        | .inf true => clamp (-2 ^ 64)
        | .inf false => clamp (2 ^ 64)
        | v => clamp (v.toInt + z)) % (2 ^ w : Nat)).toNat
    (j * w < 512 → laneOf w (group (.vcvt sm rd ra)) j =
      if j < count then convert (valueOf aux x) code % 2 ^ w else 0) ∧
    (2 ≤ code → code ≤ 7 → aux ≤ 3 → j * w < 512 → laneOf w (group (.vqnt sm rd ra rb)) j =
      if j < count then quantised p else 0) ∧
    ((code ≤ 3 ∨ 5 ≤ code ∧ code ≤ 7) → j < 16 → laneOf 32 (group (.vdot sm rd ra rb)) j =
      (let ks := (List.range (32 / w)).map fun i => (laneOf w a (32 / w * j + i), laneOf w b (32 / w * j + i))
       match floatOf code with
       | some m => fp32.round (sumVals (fp32.value (laneOf 32 o j) :: ks.map fun k => (m.value k.1).mul (m.value k.2)))
       | none => (((laneOf 32 o j : Nat) + (ks.map fun k => intValue code k.1 * intValue code k.2).sum : Int) %
         (2 ^ 32 : Nat)).toNat))) ∧
  (∀ (sm : Bool) (rd ra rb : Reg) (op : BitVec 7),
    (∀ i ∈ [Instr.vand sm rd ra rb, .vor sm rd ra rb, .vxor sm rd ra rb, .vshl sm rd ra rb, .vshr sm rd ra rb,
      .vsar sm rd ra rb, .vcmpeq sm rd ra rb, .vcmplt sm rd ra rb, .vcmple sm rd ra rb, .vsel sm rd ra rb, .vshuf sm rd ra rb,
      .vbcast sm rd ra, .vext sm rd ra rb, .vins sm rd ra rb, .vmov sm rd ra], vectorLatency i = 4) ∧
    (∀ i ∈ [Instr.vadd sm rd ra rb, .vsub sm rd ra rb, .vmul sm rd ra rb, .vfma sm rd ra rb, .vmin sm rd ra rb,
      .vmax sm rd ra rb, .vabs sm rd ra, .vneg sm rd ra, .vcvt sm rd ra, .vqnt sm rd ra rb], vectorLatency i = 8) ∧
    vectorLatency (.vdot sm rd ra rb) = 10 ∧ vectorLatency (.vred sm rd ra op) = 12 ∧
    (∀ i ∈ [Instr.vrcp sm rd ra, .vrsq sm rd ra, .vexp2 sm rd ra], vectorLatency i = 16)))

/-- The instructions of the engine at issue. MPUSH traps with reason 16 + n for a command whose word n is the first that R196
refuses; else, with room in the core's dispatch queue, it enters a copy of its four registers there and rd gets its sequence
number; MFENCE enters a fence (R204, R205). MRING with a refused descriptor writes REFUSED, and on an idle ring sets it with
all pointers 0 (R207). With no room, or a ring in use, they wait under their bound. MPOP leaves a pending pop and goes on;
MRADV and MRSTAT take effect in the bank cycle of a store issued with them (R206, R208, R209). MRADV and MRSTAT in their bank
cycle (R208, R209): a refused operand leaves the ring as it is with status REFUSED; else the tail end moves T and F, and the
head end H and C, by n modulo 2N, and rd gets the occupancy after it. MRSTAT reads the pointers and N of a ring, or the core's
unfinished entries, the slot's records and the checked mode, with every other bit zero. What MRING and MPUSH refuse (R195,
R196, R207, Table MX-7): the conditions on a ring descriptor, and on each word of a command, of which the first that fails
names the reason. Where the manual is silent or is read by inference it is the model's choice: log 8. -/
def Obligations.MatrixInstructions : Prop :=
  (∀ (sm : Bool) (rd : Reg) (a : Fin 96) (e : BitVec 7) (f : BitVec 4) (s : State) (tk : Nat) (th : Thread),
    let core := coreOf tk
    let m := (s.team (nodeOf core)).mx
    let size := (s.team (nodeOf core)).s
    let q := m.dq.getD (coreInTeam core) []
    let seq := m.seqs.getD (coreInTeam core) 0
    let cmd := (List.range 4).map fun k => s.readG tk (a.val + k)
    let queue := fun (t : State) => (t.team (nodeOf core)).mx.dq.getD (coreInTeam core) []
    let entered := fun (t : State) (fence : Bool) (ws : List Word) => ∃ x : MEntry, queue t = q ++ [x] ∧ x.tcw = ws ∧
      x.fence = fence ∧ x.slot = slotOf tk ∧ x.tk = tk ∧ x.seq = seq ∧ x.pc = th.pc ∧ x.cycle = s.cycle
    let push := Instr.mpush sm rd (.g a) e
    let fence := Instr.mfence sm e
    let ring := Instr.mring sm (.g a) f
    let d0 := s.readG tk a.val
    let n := d0.toNat / 2 ^ 28 % 8
    Canonical s → Sized s →
    (∀ k, Ready push s tk th → tcwFault m.rings size cmd = some k → Machine.exec push s =
      .next ((s.trap tk 1 (16 + k) (prefixOf th ++ encode push)).takeTurn tk)) ∧
    (Ready push s tk th → tcwFault m.rings size cmd = none →
      (q.length < 2 → Completes push s tk fun t u => u.pc = th.pc + 4 ∧ codeOf u = 0 ∧ t.mem = s.mem ∧
        entered t false cmd ∧ (t.team (nodeOf core)).mx.seqs = m.seqs.set (coreInTeam core) ((seq + 1) % 65536) ∧
        Puts s t tk rd (BitVec.ofNat 64 seq)) ∧
      (2 ≤ q.length → th.carry = none → Completes push s tk fun t u => t.mem = s.mem ∧ t.rf = s.rf ∧ t.teams = s.teams ∧
        ∃ w, u.run = .wait w ∧ u.pc = th.pc ∧ w.instr = push ∧ w.vals = cmd ∧
          w.deadline = if e.toNat = 15 then none else some (s.cycle + 64 * 2 ^ e.toNat))) ∧
    (Ready fence s tk th →
      (q.length < 2 → Completes fence s tk fun t u => u.pc = th.pc + 4 ∧ codeOf u = 0 ∧ t.mem = s.mem ∧ t.rf = s.rf ∧
        entered t true [] ∧ (t.team (nodeOf core)).mx.seqs = m.seqs) ∧
      (2 ≤ q.length → th.carry = none → Completes fence s tk fun t u => t.teams = s.teams ∧
        ∃ w, u.run = .wait w ∧ u.pc = th.pc ∧ w.instr = fence)) ∧
    (Ready ring s tk th →
      (ringBad size d0 (s.readG tk (a.val + 1)) = true → Completes ring s tk fun t u =>
        u.pc = th.pc + 4 ∧ codeOf u = 4 ∧ t.teams = s.teams ∧ t.rf = s.rf) ∧
      (ringBad size d0 (s.readG tk (a.val + 1)) = false → s.ringIdle (nodeOf core) n = true → Completes ring s tk fun t u =>
        u.pc = th.pc + 4 ∧ codeOf u = 0 ∧ t.mem = s.mem ∧ t.rf = s.rf ∧ (t.team (nodeOf core)).mx.rings = m.rings.set n
          { b := d0.toNat % 2 ^ 21, e := d0.toNat / 2 ^ 32 % 2 ^ 16, n := d0.toNat / 2 ^ 48 % 2 ^ 8 }) ∧
      (ringBad size d0 (s.readG tk (a.val + 1)) = false → s.ringIdle (nodeOf core) n = false → th.carry = none →
        Completes ring s tk fun t u => t.teams = s.teams ∧ Waits s tk th u ring (boundOf s f) fun _ => True)) ∧
    (Ready (.mpop sm (.g a) e) s tk th → th.mpops.length < 4 → Completes (.mpop sm (.g a) e) s tk fun t u =>
      u.pc = th.pc + 4 ∧ t.mem = s.mem ∧ t.rf = s.rf ∧ ∃ p : MPop, u.mpops = th.mpops ++ [p] ∧ p.rd = a.val ∧ s.nextId ≤ p.id ∧
        p.deadline = if e.toNat = 15 then none else some (s.cycle + 64 * 2 ^ e.toNat)) ∧
    (∀ ra,
      let later := fun (u : State) (k : LocalKind) =>
        { u with timers := u.timers ++ [{ due := s.cycle + 3, mv := .ringOp { tk := tk, born := th.born, issued := s.cycle, stamp := u.nextId, kind := k } }] }
      (Ready (.mradv sm rd ra) s tk th → Machine.exec (.mradv sm rd ra) s = .next (issued (.mradv sm rd ra) s tk fun u =>
        later (u.reserveReg tk rd) (.ringAdvance rd (s.operand tk (.mradv sm rd ra) 1)))) ∧
      (Ready (.mrstat sm rd ra) s tk th → Machine.exec (.mrstat sm rd ra) s = .next (issued (.mrstat sm rd ra) s tk fun u =>
        later (u.reserveReg tk rd) (.ringStatus rd (s.operand tk (.mrstat sm rd ra) 1)))))) ∧
  (∀ (s : State) (tk : Nat) (th : Thread) (issued stamp : Nat) (a : Word) (k : Fin 96) (rest : List Move),
    Canonical s → Sized s → s.cur = none → s.pkg.answers = true → s.thread? tk = some th →
    let m := (s.team (nodeOf (coreOf tk))).mx
    let r := a.toNat % 8
    let g := m.rings.getD r {}
    let n := a.toNat / 2 ^ 16 % 256
    let fill := if g.n = 0 then 0 else (g.t + 2 * g.n - g.h % (2 * g.n)) % (2 * g.n)
    let bad := a.toNat / 2 ^ 24 ≠ 0 ∨ a.toNat / 2 ^ 9 % 2 ^ 7 ≠ 0 ∨ a.toNat / 8 % 2 ^ 5 ≠ 0 ∨ n = 0 ∨ g.n = 0 ∨
      (a.getLsbD 8 = false ∧ (g.f ≠ g.t ∨ g.n < fill + n)) ∨ (a.getLsbD 8 = true ∧ (g.c ≠ g.h ∨ fill < n))
    let op := fun (kind : LocalKind) => Move.ringOp { tk := tk, born := th.born, issued := issued, stamp := stamp, kind := kind }
    (s.todo = op (.ringAdvance (.g k) a) :: rest → ∃ t u, Machine.step s = .next t ∧ t.thread? tk = some u ∧ t.mem = s.mem ∧
      (bad → codeOf u = 4 ∧ (t.team (nodeOf (coreOf tk))).mx.rings = m.rings ∧ t.readG tk k.val = BitVec.ofNat 64 fill) ∧
      (¬ bad → codeOf u = 0 ∧ (t.team (nodeOf (coreOf tk))).mx.rings = m.rings.set r (if a.getLsbD 8 then
          { g with h := (g.h + n) % (2 * g.n), c := (g.c + n) % (2 * g.n) }
        else { g with t := (g.t + n) % (2 * g.n), f := (g.f + n) % (2 * g.n) }) ∧
        t.readG tk k.val = BitVec.ofNat 64 (if a.getLsbD 8 then fill - n else fill + n))) ∧
    (s.todo = op (.ringStatus (.g k) a) :: rest → ∃ t u, Machine.step s = .next t ∧ t.thread? tk = some u ∧ t.mem = s.mem ∧
      t.teams = s.teams ∧
      (a.toNat / 2 ^ 9 ≠ 0 ∨ a.toNat / 8 % 2 ^ 5 ≠ 0 → codeOf u = 4 ∧ t.readG tk k.val = 0) ∧
      (a.toNat / 2 ^ 9 = 0 → a.toNat / 8 % 2 ^ 5 = 0 → codeOf u = 0 ∧
        (a.getLsbD 8 = false → t.readG tk k.val =
          BitVec.ofNat 64 (g.h + 2 ^ 9 * g.c + 2 ^ 18 * g.t + 2 ^ 27 * g.f + 2 ^ 36 * g.n)) ∧
        (a.getLsbD 8 = true →
          let mine := coreInTeam (coreOf tk)
          let unfinished := (m.dq.getD mine []).length + (m.startQ.filter fun e => e.core == mine && !e.fence).length +
            (m.active.filter fun o => o.e.core == mine).length
          let records := ((m.results.getD mine []).filter fun r => r.slot == slotOf tk).length
          t.readG tk k.val = BitVec.ofNat 64 (unfinished % 2 ^ 8 + 2 ^ 8 * records + 2 ^ 16 * if m.checked then 1 else 0))))) ∧
  ((∀ (size : Nat) (d0 d1 : Word),
    let b := d0.toNat % 2 ^ 21
    let e := d0.toNat / 2 ^ 32 % 2 ^ 16
    let n := d0.toNat / 2 ^ 48 % 2 ^ 8
    ringBad size d0 d1 = true ↔ d1 ≠ 0 ∨ d0.toNat / 2 ^ 56 ≠ 0 ∨ d0.getLsbD 31 = true ∨ d0.toNat / 2 ^ 21 % 2 ^ 7 ≠ 0 ∨
      (n = 0 ∧ (b ≠ 0 ∨ e ≠ 0)) ∨
      (n ≠ 0 ∧ (b % 16 ≠ 0 ∨ e % 16 ≠ 0 ∨ e < 16 ∨ 4096 < e ∨ size < b + e * n))) ∧
  (∀ (rings : List Ring) (size : Nat) (w0 w1 w2 w3 : Word),
    let f := fun (w : Word) (lo len : Nat) => w.toNat / 2 ^ lo % 2 ^ len
    let kind := f w0 58 6
    let a := f w0 44 4
    let b := f w0 40 4
    let m := f w0 36 4
    let sat := w0.getLsbD 33 = true
    let fp := fun (c : Nat) => c = 2 ∨ c = 3 ∨ c = 4
    let int := fun (c : Nat) => c = 5 ∨ c = 6
    let bytes := fun (c : Nat) => if c = 1 ∨ c = 8 then 4 else if c = 2 ∨ c = 3 then 2 else 1
    let tile := fun (c : Nat) => if c = 4 then 272 else 256 * bytes c
    let ring := fun (lo need : Nat) =>
      let g := rings.getD (f w0 lo 3) {}
      if need = 0 then f w0 lo 3 = 0 else g.n ≠ 0 ∧ need ≤ g.e
    let all := fun (lo : Nat) => f w1 lo 16 = 0xFFFF
    let ok0 := f w0 0 32 = 0 ∧ (w0.getLsbD 35 = true ↔ a = 5) ∧ (w0.getLsbD 34 = true ↔ b = 5) ∧
      ((kind = 1 ∧ ((fp a ∧ fp b ∧ ¬ sat) ∨ (int a ∧ int b)) ∧ m ≤ 1 ∧ ring 51 (tile a) ∧ ring 48 (tile b)) ∨
        (kind = 2 ∧ int a ∧ int b ∧ m ≤ 3 ∧ ring 51 (if m < 2 then 384 else 576) ∧ ring 48 256) ∨
        (kind = 3 ∧ a = 4 ∧ b = 4 ∧ m = 0 ∧ ¬ sat ∧ ring 51 144 ∧ ring 48 272) ∨
        (kind = 3 ∧ a = 4 ∧ b = 0 ∧ m = 1 ∧ ¬ sat ∧ ring 51 8 ∧ ring 48 0) ∨
        (kind = 4 ∧ a = 0 ∧ b = 0 ∧ m ≤ 1 ∧ ¬ sat ∧ ring 51 0 ∧ ring 48 0) ∨
        (kind = 5 ∧ (a = 1 ∨ a = 8) ∧ b = 0 ∧ m = 0 ∧ ¬ sat ∧ ring 51 1024 ∧ ring 48 0) ∨
        (kind = 6 ∧ a = 0 ∧ int b ∧ m ≤ 1 ∧ ¬ sat ∧ ring 51 0 ∧ ring 48 256) ∨
        ((kind = 7 ∨ kind = 8) ∧ a = 0 ∧ b ∈ [1, 2, 3, 5, 6, 8] ∧ m ≤ 2 ∧ (m = 2 → b ∈ [5, 6, 8]) ∧ ¬ sat ∧
          ring 51 (if m = 2 then 80 else 0) ∧ ring 48 (if kind = 7 then 256 * bytes b else 0)))
    let ok1 := f w1 0 16 = 0 ∧ (kind = 1 ∨ (kind ∈ [2, 4, 5, 8] ∧ all 16) ∨ (kind = 6 ∧ all 48) ∨
      (kind ∈ [3, 7] ∧ all 48 ∧ all 32 ∧ all 16))
    let ok2 := (kind ≤ 2 → f w2 0 62 = 0) ∧
      (kind = 3 → f w2 0 61 = 0 ∧ f w2 61 2 ≠ 3 ∧ (m = 0 → f w2 61 2 = 0)) ∧ (kind = 4 → w2 = 0) ∧
      (kind = 5 → f w2 0 63 = 0) ∧ (kind = 6 → f w2 0 62 = 0 ∧ f w2 63 1 = 0) ∧
      (kind = 7 → f w2 0 16 = 0 ∧ f w2 48 14 = 0 ∧ (m ≠ 2 → f w2 16 32 = 0)) ∧
      (kind = 8 → f w2 53 10 ≠ 0 ∧ (m ≠ 2 → f w2 0 32 = 0) ∧ f w2 32 21 % bytes b = 0 ∧
        f w2 32 21 + 240 * f w2 53 10 + 16 * bytes b ≤ size)
    let fault := tcwFault rings size [w0, w1, w2, w3]
    (¬ ok0 → fault = some 0) ∧ (ok0 → ¬ ok1 → fault = some 1) ∧ (ok0 → ok1 → ¬ ok2 → fault = some 2) ∧
      (ok0 → ok1 → ok2 → f w3 32 31 ≠ 0 → fault = some 3) ∧ (ok0 → ok1 → ok2 → f w3 32 31 = 0 → fault = none)))

/-- The matrix engine (R186 to R188, R197, R206). A grant takes the head of the first queue after the last granted core's that was
entered in an earlier cycle, and no more than two grants go in a cycle. The head of the start queue starts when it can: its
operation is under way until its latency is over, C moves past what it pops and F past what it will write. Its operands are
read then, or later when the ports of their banks serve other accesses or, in checked mode, an earlier operation of its tile
has still to read; in checked mode every cell that it touches is read and takes its new value with them, for an integer MMA
that overwrites the sum of products over the depth mask modulo 2^36, and every other cell is as it was; a fence passes. A
completing operation, whose operands are read and which no unfinished one of its shape and tile was started before, leaves the
engine, moves H and T on and, with notify, posts its record; in unchecked mode its cells take their values now, the first
operation on a cell since the last fence from what the cell held; MDRN writes one converted element for each cell, row by row.
A record goes to the slot's oldest pending MPOP, which writes rd, rd + 1 and OK; a bound that expires ends with TIMEOUT. What
the kinds of command compute (R163, R185, R197, R198, R200 to R202, Table MX-2): the value of a cell after an operation by the
value it read and the operand bytes, MMA in FP mode with one rounding and in integer mode, MMAS over its kept values, MZERO,
MLDA, MCSUM, and the clear of MDRN; and the element that a drain makes of a cell in each amode. Where the manual is silent or
is read by inference it is the model's choice: log 17, 73, 74, 78. -/
def Obligations.MatrixEngine : Prop :=
  (∀ (s : State), Canonical s → Sized s →
    let node := s.subj.n
    let m := (s.team node).mx
    let mx := fun (t : State) => (t.team node).mx
    let served := fun (id : Nat) (banks : List Nat) => (s.askPorts .matrix id banks).1
    let reads := fun (t : List Word) => readBanks node m t (opPlaces m t).1 (opPlaces m t).2.1
    let inTurn := fun (t : List Word) => m.checked = true → ∀ p ∈ m.active, p.reading = true → tAcc p.e.tcw ≠ tAcc t
    (∀ id banks, s.portAsks = [] → (served id banks = true ↔ banks.Nodup ∧ ∀ b ∈ banks, b ∉ s.banksUsed)) ∧
    (∀ d e rest, d < 4 → (s.team node).stopped = false → m.startQ.length < 8 →
      (∀ j, j < d → m.dq.getD ((m.grant + 1 + j) % 4) [] = []) → m.dq.getD ((m.grant + 1 + d) % 4) [] = e :: rest →
      e.cycle < s.cycle → Answers .matrixGrant s fun t => t.mem = s.mem ∧ ∃ more, more.length ≤ 1 ∧
        (mx t).startQ = m.startQ ++ { e with cycle := s.cycle } :: more ∧ (mx t).active = m.active) ∧
    (∀ e, m.startQ = [e] → s.canStart node e = true → Answers .matrixOpStart s fun t => t.mem = s.mem ∧ t.rf = s.rf ∧
      (mx t).startQ = [] ∧
      (e.fence = true → (mx t).hist = [] ∧ (mx t).active = m.active ∧ (mx t).acc = m.acc ∧ (mx t).corr = m.corr) ∧
      (e.fence = false → (∃ o : MOp, (mx t).active = m.active ++ [o] ∧ o.e = e ∧ o.startAt = s.cycle ∧
          o.doneAt = s.cycle + (match tKind e.tcw with
            | 1 => 12 | 2 => 14 | 3 => 40 | 4 => 2 | 5 => 4 | 6 => 6 | _ => 8) ∧
          (o.reading = false ↔ inTurn e.tcw ∧ served (2 * e.id) (reads e.tcw) = true) ∧
          ((m.checked = false ∨ o.reading = true) → ∀ k, (mx t).cell k = m.cell k) ∧
          (m.checked = true → o.reading = false → ∀ k, (k ∉ cellsOf e.tcw → (mx t).cell k = m.cell k) ∧ (k ∈ cellsOf e.tcw →
            SMap.getD o.held k 0 = m.cell k ∧ (mx t).cell k = (newCell o k (m.cell k)).getD (m.cell k)))) ∧
        (let ga := m.rings.getD (tRingA e.tcw) {}
         let gb := m.rings.getD (tRingB e.tcw) {}
         tRingA e.tcw ≠ tRingB e.tcw →
          (needA e.tcw ≠ 0 → tKeepA e.tcw = false → 0 < ga.n → ((mx t).rings.getD (tRingA e.tcw) {}).c = (ga.c + 1) % (2 * ga.n)) ∧
          (needB e.tcw ≠ 0 → tKeepB e.tcw = false → 0 < gb.n →
            ((mx t).rings.getD (tRingB e.tcw) {}).c = (gb.c + if tKind e.tcw = 2 then 3 else 1) % (2 * gb.n)) ∧
          (needW e.tcw ≠ 0 → 0 < gb.n → ((mx t).rings.getD (tRingB e.tcw) {}).f = (gb.f + 1) % (2 * gb.n))) ∧
        (m.checked = true → inTurn e.tcw → served (2 * e.id) (reads e.tcw) = true → tKind e.tcw = 1 → isInt8 (tTypeA e.tcw) = true →
          isInt8 (tTypeB e.tcw) = true → tMode e.tcw = 1 → tSat e.tcw = false → tRingA e.tcw ≠ tRingB e.tcw →
          let ga := m.rings.getD (tRingA e.tcw) {}
          let gb := m.rings.getD (tRingB e.tcw) {}
          let el := fun (g : Ring) (code n : Nat) =>
            let b := (s.localByte (sramKey node (g.b + g.e * (g.c % g.n)) + n)).toNat
            if code = 5 then toSigned 8 b else (b : Int)
          (∀ i j, i < 16 → j < 16 → (mx t).cell (256 * tAcc e.tcw + 16 * i + j) =
            if tRow e.tcw i && tCol e.tcw j then BitVec.ofInt 36 ((List.range 16).map fun k =>
              if tDepth e.tcw k then el ga (tTypeA e.tcw) (16 * i + k) * el gb (tTypeB e.tcw) (16 * k + j) else 0).sum
            else m.cell (256 * tAcc e.tcw + 16 * i + j)) ∧
          (∀ k, k / 256 ≠ tAcc e.tcw → (mx t).cell k = m.cell k)))) ∧
    (∀ o rest, s.cur = none → s.pkg.answers = true → s.waiters = [] → s.todo = .matrixRead node o.e.id :: rest →
      m.active.find? (fun p => p.e.id == o.e.id) = some o → o.reading = true →
      (m.checked = true → ∀ p ∈ m.active.takeWhile (fun p => p.e.id != o.e.id), p.reading = true → tAcc p.e.tcw ≠ tAcc o.e.tcw) →
      served (2 * o.e.id) (readBanks node m o.e.tcw o.atA o.atB) = true → ∃ t p, Machine.step s = .next t ∧ t.mem = s.mem ∧ t.rf = s.rf ∧
        (mx t).active.find? (fun p => p.e.id == o.e.id) = some p ∧ p.e = o.e ∧ p.reading = false ∧ p.doneAt = o.doneAt ∧
        (m.checked = false → ∀ k, (mx t).cell k = m.cell k) ∧
        (m.checked = true → ∀ k, (k ∉ cellsOf o.e.tcw → (mx t).cell k = m.cell k) ∧ (k ∈ cellsOf o.e.tcw →
          SMap.getD p.held k 0 = m.cell k ∧ (mx t).cell k = (newCell p k (m.cell k)).getD (m.cell k)))) ∧
    (∀ o, m.active.find? (fun p => p.e.id == s.subj.m) = some o → (o.reading = true ∨
        ∃ p ∈ m.active.takeWhile (fun p => p.e.id != o.e.id), (shapeOf p.e.tcw = shapeOf o.e.tcw ∧ tAcc p.e.tcw = tAcc o.e.tcw) ∨
          (tKind p.e.tcw = 3 ∧ tKind o.e.tcw = 3)) → Machine.exec .matrixOpComplete s = .next s) ∧
    (∀ o, m.active.find? (fun p => p.e.id == s.subj.m) = some o →
      served (2 * o.e.id + 1) (writeBanks node (m.rings.getD (tRingB o.e.tcw) {}) o) = false →
      Answers .matrixOpComplete s fun t => t.mem = s.mem ∧ t.rf = s.rf ∧ t.teams = s.teams) ∧
    (∀ o, m.active.find? (fun p => p.e.id == s.subj.m) = some o → m.stalled s.cycle = false → o.reading = false →
      (∀ p ∈ m.active.takeWhile (fun p => p.e.id != o.e.id), ¬ (shapeOf p.e.tcw = shapeOf o.e.tcw ∧ tAcc p.e.tcw = tAcc o.e.tcw) ∧
        ¬ (tKind p.e.tcw = 3 ∧ tKind o.e.tcw = 3)) →
      served (2 * o.e.id + 1) (writeBanks node (m.rings.getD (tRingB o.e.tcw) {}) o) = true → o.e.core < 4 → s.waiters = [] → Answers .matrixOpComplete s fun t =>
      (∀ p ∈ (mx t).active, p.e.id ≠ o.e.id) ∧
      (m.checked = true → ∀ k, (mx t).cell k = m.cell k) ∧
      (m.checked = false → ∀ k, (k ∉ cellsOf o.e.tcw → (mx t).cell k = m.cell k) ∧ (k ∈ cellsOf o.e.tcw →
        (SMap.get? m.hist k = none → (mx t).cell k = (newCell o k (m.cell k)).getD (m.cell k)) ∧
        ∃ e ∈ m.history k, (mx t).cell k = m.cell k ∨ newCell o k e.value = some ((mx t).cell k))) ∧
      (let ga := m.rings.getD (tRingA o.e.tcw) {}
       let gb := m.rings.getD (tRingB o.e.tcw) {}
       m.passed = [] → m.active = [o] → tRingA o.e.tcw ≠ tRingB o.e.tcw →
        (o.popA ≠ 0 → ga.h = o.atA → ga.h ≠ ga.c →
          ((mx t).rings.getD (tRingA o.e.tcw) {}).h = (ga.h + 1) % (2 * ga.n)) ∧
        (needW o.e.tcw ≠ 0 → gb.t = o.atW → gb.t ≠ gb.f →
          ((mx t).rings.getD (tRingB o.e.tcw) {}).t = (gb.t + 1) % (2 * gb.n))) ∧
      (∀ th, tNotify o.e.tcw = true → opCause m o = 0 → needW o.e.tcw = 0 → node < 256 → o.e.slot < 64 →
        s.thread? (64 * (4 * node + o.e.core) + o.e.slot) = some th →
        s.slotGen (64 * (4 * node + o.e.core) + o.e.slot) = o.e.gen →
        ∃ r : MRec, (mx t).results.getD o.e.core [] = m.results.getD o.e.core [] ++ [r] ∧ r.slot = o.e.slot ∧ r.w1 = 0 ∧
          r.w0 = BitVec.ofNat 64 (2 ^ 58 * tKind o.e.tcw + 2 ^ 54 * tAcc o.e.tcw + 2 ^ 32 * o.e.seq +
            (tw o.e.tcw 3).toNat % 2 ^ 32)) ∧
      (m.checked = true → tKind o.e.tcw = 7 → (∀ i, i < 16 → tRow o.e.tcw i = true ∧ tCol o.e.tcw i = true) → tMode o.e.tcw = 1 →
        let g := m.rings.getD (tRingB o.e.tcw) {}
        let b := widthOf (tTypeB o.e.tcw) / 8
        let dst := sramKey node (g.b + g.e * (o.atW % g.n))
        OnlyBytes s t dst (256 * b) ∧ ∀ i j, i < 16 → j < 16 → bytesAt t (dst + b * (16 * i + j)) b =
          convert (Val.ofInt (SMap.getD o.held (256 * tAcc o.e.tcw + 16 * i + j) 0).toInt) (tTypeB o.e.tcw) % 2 ^ (8 * b))) ∧
    (∀ th p ps pre r post, s.thread? node = some th → th.mpops = p :: ps →
      s.mResults (coreOf node) = pre ++ r :: post → (∀ q ∈ pre, q.slot ≠ slotOf node) → r.slot = slotOf node →
      Answers .mpopRecordLand s fun t => t.mem = s.mem ∧ t.readG node p.rd = r.w0 ∧ t.readG node (p.rd + 1) = r.w1 ∧
        t.mResults (coreOf node) = pre ++ post ∧ ∃ u, t.thread? node = some u ∧ u.mpops = ps ∧ codeOf u = 0 ∧ u.pc = th.pc) ∧
    (∀ th p, s.thread? node = some th → p ∈ th.mpops → p.id = s.subj.m → Answers .mpopTimeout s fun t => t.mem = s.mem ∧
      t.rf = s.rf ∧ t.teams = s.teams ∧ ∃ u, t.thread? node = some u ∧ codeOf u = 1 ∧ u.pc = th.pc ∧
        u.mpops = th.mpops.filter fun q => q.id != s.subj.m) ∧
    (∀ th w, s.thread? node = some th → th.run = .wait w → w.id = s.subj.m → Answers .matrixQueueTimeout s fun t =>
      t.mem = s.mem ∧ t.rf = s.rf ∧ t.teams = s.teams ∧ EndsWith s t node th 1)) ∧
  (∀ (o : MOp) (acc i j : Nat) (old corr : BitVec 36), acc < 16 → i < 16 → j < 16 →
    let t := o.e.tcw
    let k := 256 * acc + 16 * i + j
    let num := fun (bs : List Byte) (off n : Nat) => ((List.range n).map fun x => (bs.getD (off + x) 0).toNat * 256 ^ x).sum
    let int := fun (code : Nat) (bs : List Byte) (n : Nat) => if code = 5 then toSigned 8 (num bs n 1) else (num bs n 1 : Int)
    let fp := fun (code : Nat) (bs : List Byte) (n : Nat) => match code with
      | 2 => fp16.value (num bs (2 * n) 2)
      | 3 => bf16.value (num bs (2 * n) 2)
      | _ => (zf8.value (num bs n 1)).mul (.fin false 1 ((num bs 256 1 : Int) - 127))
    let depth := (List.range 16).filter fun d => tDepth t d
    let from' := fun (replace : Bool) => if replace then (0 : BitVec 36) else old
    let int36 := fun (c : BitVec 36) (x : Int) =>
      BitVec.ofInt 36 (if tSat t then max (-2 ^ 31) (min (c.toInt + x) (2 ^ 31 - 1)) else c.toInt + x)
    (tKind t = 1 → isFpOp (tTypeA t) = true → isFpOp (tTypeB t) = true → newCell o k old = some (BitVec.ofNat 36 (a36.round
      (sumVals (a36.value (from' (tMode t == 1)).toNat :: depth.map fun d =>
        (fp (tTypeA t) o.opA (16 * i + d)).mul (fp (tTypeB t) o.opB (16 * d + j))))))) ∧
    (tKind t = 1 → isInt8 (tTypeA t) = true → isInt8 (tTypeB t) = true → newCell o k old = some (int36 (from' (tMode t == 1))
      (depth.map fun d => int (tTypeA t) o.opA (16 * i + d) * int (tTypeB t) o.opB (16 * d + j)).sum)) ∧
    (tKind t = 2 → isInt8 (tTypeA t) = true → isInt8 (tTypeB t) = true →
      let n := if tMode t / 2 % 2 = 1 then 6 else 4
      newCell o k old = some (int36 (from' (tMode t % 2 == 1)) ((List.range (4 * n)).map fun x =>
        let nibble := num o.opA (64 * n + 2 * n * i + x / 2) 1 / 16 ^ (x % 2) % 16
        let d := 12 * (x / n) + nibble
        if nibble ≤ 11 then int (tTypeA t) o.opA (4 * n * i + x) * int (tTypeB t) o.opB (256 * (d / 16) + 16 * (d % 16) + j)
        else 0).sum)) ∧
    (tKind t = 4 → newCell o k old = some 0) ∧
    (tKind t = 5 → newCell o k old = some (
      let x := num o.opA (4 * (16 * i + j)) 4
      if tTypeA t = 1 then BitVec.ofNat 36 (a36.round (fp32.value x)) else BitVec.ofInt 36 (toSigned 32 x))) ∧
    (tKind t = 6 → isInt8 (tTypeB t) = true → newCell o (4096 + 16 * acc + j) old = some (BitVec.ofInt 36
      ((from' (tMode t == 1)).toInt + (depth.map fun d => int (tTypeB t) o.opB (16 * d + j)).sum))) ∧
    (tKind t = 7 → ∀ x ∈ [k, 4096 + 16 * acc + j], newCell o x old = if tKeepB t then some 0 else none) ∧ (tKind t = 8 → newCell o k old = none) ∧
    (tMode t = 0 → drainElem o old corr j = convert (a36.value old.toNat) (tTypeB t)) ∧
    (tMode t = 1 → drainElem o old corr j = convert (Val.ofInt old.toInt) (tTypeB t)) ∧
    (tMode t = 2 → tKind t = 7 ∨ tKind t = 8 → tTypeB t ∈ [5, 6, 8] →
      let z := if tKind t = 7 then 16 else 0
      let w2 := (t.getD 2 0).toNat
      let v := old.toInt - toSigned 16 (w2 / 2 ^ (z + 16) % 2 ^ 16) * corr.toInt
      let p := v * toSigned 32 (num o.opA (4 * j) 4)
      let one : Int := 2 ^ (num o.opA (64 + j) 1 % 64)
      let q := p / one
      let r := 2 * (p - q * one)
      let rounded := (if r < one ∨ (r = one ∧ q % 2 = 0) then q else q + 1) + toSigned 16 (w2 / 2 ^ z % 2 ^ 16)
      let range : Int × Int := if tTypeB t = 5 then (-128, 127) else if tTypeB t = 6 then (0, 255) else (-2 ^ 31, 2 ^ 31 - 1)
      let bits := if tTypeB t = 8 then 32 else 8
      drainElem o old corr j = (max range.1 (min rounded range.2) % 2 ^ bits).toNat))

/-! ### Ports, queues, messages and join patterns (R212 to R268) -/

/-- The port instructions at issue (R228 to R235). PUT and TAKE through a port that is bound to the slot as a source, or as a
sink, park their thread in the wait state with their bound; TAKE sends its request to the home of its connector. PBIND of an
unbound port with an accepted name, and PFREE of a bound port with no operation pending, park and ask the home. HLOAD, HSTOP
and HSTAT of an accepted name park, the last two with a question to the home. Anything else is refused at once, with rd := 0
where there is an rd. -/
def Obligations.PortInstructions : Prop :=
  ∀ (sm : Bool) (rd ra rb : Reg) (p : BitVec 7) (e : BitVec 4) (s : State) (tk : Nat) (th : Thread),
    let c := (s.core (coreOf tk)).cport p.toNat
    let mine := fun (sink : Bool) => c.bound = true ∧ c.slot = slotOf tk ∧ c.sink = sink
    let put := Instr.put sm rd p e
    let take := Instr.take sm rd p e
    let bind := Instr.pbind sm rd p
    let free := Instr.pfree sm p
    let load := Instr.hload sm rd ra rb
    let name := s.operand tk bind 0
    let calm := fun (t : State) => t.mem = s.mem ∧ t.teams = s.teams
    let refused := fun (t : State) (u : Thread) => u.pc = th.pc + 4 ∧ codeOf u = 4 ∧ t.packets = s.packets ∧ calm t
    let asks := fun (t : State) (w : Wait) (kind home conn bport : Nat) (v : Word) (slot : Nat) =>
      Sent s t home (.flit kind home conn bport tk w.id p.toNat v [] slot)
    Canonical s → th.carry = none →
    (Ready put s tk th → (mine false → Completes put s tk fun t u => calm t ∧ t.packets = s.packets ∧
        Waits s tk th u put (boundOf s e) fun w => w.stage = 0) ∧
      (¬ mine false → Completes put s tk refused)) ∧
    (Ready take s tk th → (mine true → Completes take s tk fun t u => calm t ∧
        Waits s tk th u take (boundOf s e) fun w => w.stage = 1 ∧ asks t w 1 c.node c.conn c.bport 0 0) ∧
      (¬ mine true → Completes take s tk refused)) ∧
    (Ready bind s tk th → (c.bound = false → s.nameRefused tk name true = false → Completes bind s tk fun t u => calm t ∧
        Waits s tk th u bind none fun w => asks t w 3 (nameNode name) (nameConn name) (name.toNat / 2 ^ 8 % 16) name
          (name.toNat % 64)) ∧
      (c.bound = true ∨ s.nameRefused tk name true = true → Completes bind s tk refused)) ∧
    (Ready free s tk th → (c.bound = true → s.portBusy (coreOf tk) p.toNat = false → Completes free s tk fun t u => calm t ∧
        Waits s tk th u free none fun w => asks t w 4 c.node c.conn c.bport 0 0) ∧
      (c.bound = false ∨ s.portBusy (coreOf tk) p.toNat = true → Completes free s tk refused)) ∧
    (Ready load s tk th →
      let n := s.operand tk load 2
      let bad := s.nameRefused tk n false = true ∨ (s.conn (nameNode n) (nameConn n)).loaded = true ∨
        (s.operand tk load 1).toNat % 32 ≠ 0
      (bad → Completes load s tk fun t u => refused t u ∧ Puts s t tk rd 0) ∧
      (¬ bad → Completes load s tk fun t u => calm t ∧ t.packets = s.packets ∧ Waits s tk th u load none fun w => w.stage = 0)) ∧
    (∀ i kind, (i, kind) ∈ [(Instr.hstop sm rd ra, 6), (Instr.hstat sm rd ra, 7)] → Ready i s tk th →
      let n := s.operand tk i 1
      (s.nameRefused tk n false = true → Completes i s tk fun t u => refused t u ∧ Puts s t tk rd 0) ∧
      (s.nameRefused tk n false = false → Completes i s tk fun t u => calm t ∧ Waits s tk th u i none fun w =>
        Sent s t (nameNode n) (.flit kind (nameNode n) (nameConn n) 0 tk w.id 0 0 [] 0)))

/-- What reaches the thread of a port instruction (R225, R227, R228, R231 to R235): a PUT whose earlier accesses are done sends
its offer; a completion ends the wait with its status, and a TAKE that completes OK writes the value; at its bound a PUT not
yet sent ends with TIMEOUT and any other sends its withdrawal, whose answer ends it with TIMEOUT; the answer to PBIND sets the
port, that to PFREE frees it; HLOAD with an accepted image sends it, and the home's answer writes rd. That an s-register rd
has the cycle of the completion as its write cycle is read by inference (log 65). Where the manual is silent or is read by
inference it is the model's choice: log 19, 65, 93. -/
def Obligations.PortAnswers : Prop :=
  ∀ (s : State) (tk : Nat) (th : Thread) (w : Wait), Canonical s → Sized s → s.thread? tk = some th → th.run = .wait w →
    th.stopReq = none →
    let c := fun (p : BitVec 7) => (s.core (coreOf tk)).cport p.toNat
    let waits := fun (t : State) (P : Wait → Prop) => ∃ x, t.thread? tk = some { th with run := .wait x } ∧ x.id = w.id ∧ P x
    let done := fun (kind st : Nat) (v : Word) => Payload.done kind tk w.id (waitPort w.instr) st v
    (∀ sm rd p e, w.instr = .put sm rd p e → s.subj.n = tk → w.stage = 0 → s.released tk w.id = true →
      Answers .offerSend s fun t => waits t (fun x => x.stage = 1) ∧
        Sent s t (c p).node (.flit 0 (c p).node (c p).conn (c p).bport tk w.id p.toNat (w.vals.getD 0 0) [] 0)) ∧
    (∀ (code : BitVec 3) v sm rd p e,
      (w.instr = .put sm rd p e → Arrives s (done 0 code.toNat v) → Answers .portCompletion s fun t =>
        EndsWith s t tk th code ∧ t.rf = s.rf ∧ t.mem = s.mem) ∧
      (w.instr = .take sm rd p e → Arrives s (done 0 code.toNat v) → Answers .portCompletion s fun t =>
        EndsWith s t tk th code ∧ t.mem = s.mem ∧ (code = 0 → Puts s t tk rd v) ∧ (code ≠ 0 → t.rf = s.rf))) ∧
    (∀ sm rd p e, (w.instr = .put sm rd p e ∨ w.instr = .take sm rd p e) → s.subj.n = tk → s.subj.m = w.id →
      (w.stage = 0 → Answers .portOpTimeout s fun t => EndsWith s t tk th 1 ∧ t.rf = s.rf) ∧
      (w.stage ≠ 0 → w.gone = false → Answers .portOpTimeout s fun t => waits t (fun x => x.gone = true) ∧
        Sent s t (c p).node (.flit 2 (c p).node (c p).conn (c p).bport tk w.id p.toNat 0 [] 0))) ∧
    (∀ v, Arrives s (done 1 1 v) → Answers .withdrawn s fun t => EndsWith s t tk th 1 ∧ t.rf = s.rf ∧ t.mem = s.mem) ∧
    (∀ sm rd p v, w.instr = .pbind sm rd p → p.toNat < 16 →
      let n := w.vals.getD 0 0
      (Arrives s (done 2 0 v) → Answers .bindingAnswer s fun t => EndsWith s t tk th 0 ∧
        (t.core (coreOf tk)).cport p.toNat =
          { bound := true, slot := n.toNat % 64, bport := n.toNat / 2 ^ 8 % 16, conn := nameConn n, node := nameNode n,
            sink := v == 1, owner := th.launch }) ∧
      (Arrives s (done 2 4 v) → Answers .bindingAnswer s fun t => EndsWith s t tk th 4 ∧ t.cores = s.cores)) ∧
    (∀ sm p v, w.instr = .pfree sm p → p.toNat < 16 → Arrives s (done 3 0 v) → Answers .bindingAnswer s fun t =>
      EndsWith s t tk th 0 ∧ ((t.core (coreOf tk)).cport p.toNat).bound = false) ∧
    (∀ (code : BitVec 3) v kind i rd, (∃ sm ra rb, i = .hload sm rd ra rb ∨ i = .hstop sm rd ra ∨ i = .hstat sm rd ra) →
      w.instr = i → Arrives s (.done kind tk w.id 0 code.toNat v) → Answers .hitchAnswer s fun t =>
        EndsWith s t tk th code ∧ Puts s t tk rd v ∧ t.mem = s.mem) ∧
    (∀ sm rd ra rb rest h l, w.instr = .hload sm rd ra rb → w.stage = 0 → s.released tk w.id = true → s.cur = none →
      s.pkg.answers = true → s.todo = .resume tk :: rest → s.readDwords th.launch (w.vals.getD 1 0).toNat 4 = .ok h →
      headerOk h = true →
      s.readDwords th.launch ((w.vals.getD 1 0).toNat + 32) (4 * (imT h + imP h)) = .ok l → ∃ t, Machine.step s = .next t ∧
      (imageOk (h ++ l) = false → EndsWith s t tk th 4 ∧ Puts s t tk rd 0) ∧
      (imageOk (h ++ l) = true → waits t (fun x => x.stage = 1) ∧
        let n := w.vals.getD 2 0
        Sent s t (nameNode n) (.flit 5 (nameNode n) (nameConn n) 0 tk w.id 0 0 (h ++ l) th.launch)))

/-- The hitch engine (R221 to R226, R231 to R235). At a connector that is loaded and not being stopped, an offer or request from
the port bound there becomes pending, and any other is answered BROKEN; a binding of a used free boundary port, an image that
fits and a count of HSTAT are answered OK. A decision fires, of the enabled transitions, the oldest, the lowest of equals:
buffers give their heads and take the routed values, the pending operations of its ports end, a sink's with the value routed
to it and a dropped source with DROPPED; with none enabled nothing changes. A stop that arrives in a cycle of a decision acts
after it: pending operations are answered BROKEN and every bound core port is sent an unbinding, which frees it and is
acknowledged; with the last acknowledgement the connector is free and the stop is answered OK with the values that it held.
That an offer or request of a live connector is answered BROKEN at a port not bound there, and that a stop which finds it
stopping waits with it and discards nothing, are the model's choices (log 92, 98). Where the manual is silent or is read by
inference it is the model's choice: log 92, 98. -/
def Obligations.HitchEngine : Prop :=
  ∀ (s : State) (home c tk wid port bport slot : Nat) (v : Word) (image : List Word), Canonical s → Sized s → c < 4 →
    bport < 16 →
    let x := s.conn home c
    let flit := fun (kind : Nat) => Arrives s (.flit kind home c bport tk wid port v image slot)
    let back := fun (t : State) (kind st : Nat) (r : Word) => Sent s t (nodeOf (coreOf tk)) (.done kind tk wid port st r)
    let live := x.loaded = true ∧ x.stopping = false
    let same := fun (t : State) => t.conn home c = x ∧ t.mem = s.mem
    let held := (x.bufs.map List.length).sum
    let bound := (x.binds.filterMap id).length
    let stops := fun (t : State) => t.mem = s.mem ∧
      (∀ p, some p ∈ x.pend → Sent s t (nodeOf (coreOf p.tk)) (.done 0 p.tk p.wid p.port 3 0)) ∧
      (∀ q, some q ∈ x.binds → Sent s t (nodeOf q.1) (.unbind q.1 q.2 home c)) ∧
      (0 < bound → t.conn home c = { x with
        pend := List.replicate 16 none, withdraw := [], stops := [], stopping := true, unacked := bound
        answerTo := x.answerTo ++ [(tk, wid, held)] }) ∧
      (bound = 0 → t.conn home c = {} ∧ back t 5 0 (BitVec.ofNat 64 held))
    let bits := fun (l : List Bool) => (l.zipIdx.map fun e => if e.1 then 2 ^ e.2 else 0).sum
    let word := fun (n : Nat) => x.image.getD n 0
    let field := fun (n lo len : Nat) => (word n).toNat / 2 ^ lo % 2 ^ len
    (x.stat = if x.loaded then BitVec.ofNat 64 (bits (x.binds.map (·.isSome)) + 2 ^ 16 * bits (x.pend.map (·.isSome)) +
      2 ^ 32 * field 0 32 8 + 2 ^ 38 + 2 ^ 40 * held + 2 ^ 48 * (x.fired % 2 ^ 16)) else 0) ∧
    (∀ sel, x.selected sel = if sel < 16 then (match x.pend.getD sel none with | some p => p.offer.getD 0 | none => 0)
      else (x.bufs.getD (sel - 16) []).headD 0) ∧
    (∀ n i, x.enabled n i = true ↔
      (∀ b, b < 16 → field (4 * (1 + i)) b 1 = 1 → ∃ p, x.pend.getD b none = some p ∧ p.since < n ∧
        (p.offer.isSome = true ↔ field 0 (16 + b) 1 = 0)) ∧
      (∀ b, b < 8 → (field (4 * (1 + i)) (16 + b) 1 = 1 → x.bufs.getD b [] ≠ []) ∧
        (field (4 * (1 + i)) (24 + b) 1 = 1 → (x.bufs.getD b []).length < field 1 (4 * b) 4)) ∧
      ∀ k, k < 4 → field (4 * (1 + i) + 3) (12 * k + 11) 1 = 1 →
        let d := 4 * (1 + field 0 32 8 + field (4 * (1 + i) + 3) (12 * k + 7) 3)
        let w := 8 * 2 ^ field d 0 2
        let v := (x.selected (field (4 * (1 + i) + 3) (12 * k) 5)).toNat % 2 ^ w
        let low := word (d + 1)
        let high := word (d + 2)
        let holds := if field d 2 1 = 1 then low.toInt ≤ toSigned w v ∧ toSigned w v ≤ high.toInt
          else v &&& low.toNat = high.toNat
        (field (4 * (1 + i) + 3) (12 * k + 10) 1 = 1 ↔ holds)) ∧
    (∀ kind, (kind = 0 ∨ kind = 1) → flit kind →
      (live → x.binds.getD bport none = some (coreOf tk, port) → Answers .hitchFlitArrival s fun t => t.mem = s.mem ∧
        t.conn home c = { x with pend := x.pend.set bport (some
          { tk := tk, wid := wid, port := port, offer := if kind = 0 then some v else none, since := s.cycle }) }) ∧
      (¬ live ∨ x.binds.getD bport none ≠ some (coreOf tk, port) → Answers .hitchFlitArrival s fun t =>
        same t ∧ back t 0 3 0)) ∧
    (flit 3 →
      let ok := live ∧ imUsed x.image bport = true ∧ x.binds.getD bport none = none
      (ok → Answers .hitchFlitArrival s fun t =>
        t.conn home c = { x with binds := x.binds.set bport (some (coreOf tk, port)) } ∧
          back t 2 0 (if imSink x.image bport then 1 else 0)) ∧
      (¬ ok → Answers .hitchFlitArrival s fun t => same t ∧ back t 2 4 (BitVec.ofNat 64 slot))) ∧
    (flit 4 → Answers .hitchFlitArrival s fun t => back t 3 0 0 ∧
      (live → x.binds.getD bport none = some (coreOf tk, port) → (t.conn home c).binds = x.binds.set bport none)) ∧
    (port = 0 → flit 5 →
      (x.loaded = false → s.hitchFits home image = true → Answers .hitchFlitArrival s fun t =>
        (t.conn home c).loaded = true ∧ (t.conn home c).image = image ∧ (t.conn home c).launch = slot ∧ back t 5 0 (BitVec.ofNat 64 (imT image))) ∧
      (x.loaded = true ∨ s.hitchFits home image = false → Answers .hitchFlitArrival s fun t => same t ∧ back t 5 4 0)) ∧
    (port = 0 → flit 6 →
      (x.loaded = false → Answers .hitchFlitArrival s fun t => same t ∧ back t 6 4 0) ∧
      (live → s.cycle % 2 = c % 2 → Answers .hitchFlitArrival s fun t => t.mem = s.mem ∧
        t.conn home c = { x with stops := x.stops ++ [(tk, wid)] }) ∧
      (x.loaded = true → x.stopping = true → Answers .hitchFlitArrival s fun t => t.mem = s.mem ∧
        t.conn home c = { x with answerTo := x.answerTo ++ [(tk, wid, 0)] }) ∧
      (live → s.cycle % 2 ≠ c % 2 → x.stops = [] → Answers .hitchFlitArrival s stops)) ∧
    (flit 8 → x.stopping = true → Answers .hitchFlitArrival s fun t => t.mem = s.mem ∧
      (1 < x.unacked → t.conn home c = { x with unacked := x.unacked - 1 } ∧ t.packets = SMap.del s.packets s.subj.n) ∧
      (x.unacked ≤ 1 → t.conn home c = {} ∧
        ∀ a ∈ x.answerTo, Sent s t (nodeOf (coreOf a.1)) (.done 5 a.1 a.2.1 0 0 (BitVec.ofNat 64 a.2.2)))) ∧
    (port = 0 → flit 7 → Answers .hitchFlitArrival s fun t => same t ∧ back t 7 0 x.stat) ∧
    (∀ i, s.subj.n = home → s.subj.m = c → live → s.cycle % 2 = c % 2 → x.withdraw = [] → x.stops = [] → i < imT x.image →
      x.enabled s.cycle i = true →
      (∀ j, j < imT x.image → x.enabled s.cycle j = true → x.ages.getD j 0 < x.ages.getD i 0 ∨
        (x.ages.getD j 0 = x.ages.getD i 0 ∧ i ≤ j)) → Answers .connectorDecision s fun t =>
      let y := t.conn home c
      t.mem = s.mem ∧ y.fired = x.fired + 1 ∧ y.binds = x.binds ∧ y.image = x.image ∧
      (∀ j, j < imT x.image → y.ages.getD j 0 = if j = i then 0 else if x.enabled s.cycle j
        then min 63 (x.ages.getD j 0 + 1) else x.ages.getD j 0) ∧
      (∀ b, b < 8 → y.bufs.getD b [] = (if trDeq x.image i b then (x.bufs.getD b []).tail else x.bufs.getD b []) ++
        (if trEnq x.image i b then [x.selected (trRoute x.image i (16 + b))] else [])) ∧
      (∀ b, b < 16 → y.pend.getD b none = if trPort x.image i b then none else x.pend.getD b none) ∧
      ∀ b p, b < 16 → trPort x.image i b = true → x.pend.getD b none = some p →
        Sent s t (nodeOf (coreOf p.tk)) (if imSink x.image b
          then .done 0 p.tk p.wid p.port 0 (x.selected (trRoute x.image i b))
          else .done 0 p.tk p.wid p.port (if trDrop x.image i b then 5 else 0) 0)) ∧
    (s.subj.n = home → s.subj.m = c → live → x.withdraw = [] → (∀ i, i < imT x.image → x.enabled s.cycle i = false) →
      (x.stops = [] → Answers .connectorDecision s same) ∧
      (port = 0 → s.cycle % 2 = c % 2 → x.stops = [(tk, wid)] → Answers .connectorDecision s stops)) ∧
    (∀ core p, p < 16 → Arrives s (.unbind core p home c) → ((s.core core).cport p).bound = true →
      ((s.core core).cport p).node = home → ((s.core core).cport p).conn = c → Answers .connectorUnbinding s fun t =>
        ((t.core core).cport p).bound = false ∧ Sent s t home (.flit 8 home c 0 (64 * core) 0 p 0 [] 0))

/-- QCFG, QSTAT, TAGA and TAGF (R249 to R251). A configuration word with a reserved bit, of a queue that is not empty or has a
thread parked on it, or of a pool with tags in flight or waiters, is refused with rd := 0 and nothing changed; else the
queue's writer, reader and enable bit, the thread's forward mask, or the pool's size are set and rd gets the old setting.
QSTAT writes the snapshot of a queue. TAGA takes the next tag of its pool when that is not in flight and no earlier TAGA
waits, and waits else; TAGF frees a tag that is in flight and serves the oldest waiter. That an s-register rd has the cycle of
the completion as its write cycle is read by inference (log 65). Where the manual is silent or is read by inference it is the
model's choice: log 32, 65. -/
def Obligations.QueuesAndTags : Prop :=
  ∀ (sm : Bool) (rd ra : Reg) (x : BitVec 3) (e : BitVec 4) (s : State) (tk : Nat) (th : Thread), Canonical s → Sized s →
    let core := coreOf tk
    let cfg := Instr.qcfg sm rd ra x
    let stat := Instr.qstat sm rd x
    let get := Instr.taga sm rd e x
    let put := Instr.tagf sm rd x
    let p := (s.popAll tk (popList cfg)).advance tk
    let c := (s.operand tk cfg 1).toNat
    let q := (p.core core).role x.toNat
    let n := c / 2 ^ 16 % 4
    let pool := (s.core core).pool x.toNat
    let old := (s.core core).pool n
    let b := fun (v : Bool) => if v then 1 else 0
    let refused := fun (t : State) (u : Thread) => u.pc = th.pc + 4 ∧ codeOf u = 4 ∧ t.cores = (p.takeTurn tk).cores ∧ t.mem = s.mem ∧ Puts s t tk rd 0
    let done := fun (t : State) (u : Thread) (v : Nat) => u.pc = th.pc + 4 ∧ codeOf u = 0 ∧ t.mem = s.mem ∧ Puts s t tk rd (BitVec.ofNat 64 v)
    (cfg.wellFormed = true → Ready cfg s tk th →
      let badRole := c / 2 ^ 6 % 4 ≠ 0 ∨ c / 2 ^ 14 % 4 ≠ 0 ∨ c / 2 ^ 17 ≠ 0 ∨ q.entries.length + q.reserved ≠ 0 ∨
        p.parkedOn core x.toNat = true
      let badPool := c / 2 ^ 7 % 2 ^ 9 ≠ 0 ∨ c / 2 ^ 18 ≠ 0 ∨ 64 < c % 2 ^ 7 ∨ old.mask ≠ 0 ∨ s.tagWaiters core n ≠ []
      (x.toNat < 4 → (badRole → Completes cfg s tk refused) ∧
        (¬ badRole → Completes cfg s tk fun t u => done t u (q.writer + 2 ^ 8 * q.reader + 2 ^ 16 * b q.enabled) ∧
          (t.core core).role x.toNat = { q with
            writer := c % 2 ^ 6, reader := c / 2 ^ 8 % 2 ^ 6, enabled := decide (c / 2 ^ 16 % 2 = 1), owner := th.launch })) ∧
      (x.toNat = 4 → (c / 2 ^ 8 ≠ 0 → Completes cfg s tk refused) ∧
        (c / 2 ^ 8 = 0 → Completes cfg s tk fun t u => done t u (th.status.extractLsb' 4 8).toNat ∧
          u.status.extractLsb' 4 8 = BitVec.ofNat 8 c)) ∧
      (x.toNat = 5 → (badPool → Completes cfg s tk refused) ∧
        (¬ badPool → Completes cfg s tk fun t u => done t u old.k ∧
          (t.core core).pool n = { k := c % 2 ^ 7, mask := old.mask, a := 0, owner := th.launch }))) ∧
    (Ready stat s tk th →
      (x.toNat < 4 → isChannel core = false → Completes stat s tk fun t u =>
        let k := 4 * tk + x.toNat
        let d := nbrKeyDir x.toNat
        let l := s.nbrQueue k
        t.nbr = s.nbr ∧ done t u (l.length + 2 ^ 3 * (match l with | y :: _ => y.tag | [] => 0) +
          2 ^ 8 * (s.nbrRoom k % 8) + 2 ^ 11 * b (SMap.getD s.nbrSync k false) + 2 ^ 12 * b (s.nbrCause tk d != 0))) ∧
      (4 ≤ x.toNat → Completes stat s tk fun t u =>
        let l := (s.core core).role (x.toNat - 4)
        let here := (l.entries.filter fun y => decide (y.since < s.cycle)).length
        done t u (here + 2 ^ 4 * (l.entries.length + l.reserved - here) +
          2 ^ 8 * (match l.entries with | y :: _ => if y.since < s.cycle then y.tag else 0 | [] => 0) +
          2 ^ 16 * l.writer + 2 ^ 24 * l.reader + 2 ^ 31 * b l.enabled))) ∧
    (get.wellFormed = true → Ready get s tk th → th.carry = none →
      (pool.k = 0 → Completes get s tk fun t u => u.pc = th.pc + 4 ∧ codeOf u = 4 ∧ t.rf = s.rf) ∧
      (pool.k ≠ 0 → pool.mask.getLsbD pool.a = false → s.tagWaiters core x.toNat = [] → Completes get s tk fun t u =>
        done t u pool.a ∧ (t.core core).pool x.toNat = { pool with mask := setBit pool.mask pool.a, a := (pool.a + 1) % pool.k }) ∧
      (pool.k ≠ 0 → (pool.mask.getLsbD pool.a = true ∨ s.tagWaiters core x.toNat ≠ []) → Completes get s tk fun t u =>
        t.rf = s.rf ∧ Waits s tk th u get (boundOf s e) fun _ => True)) ∧
    (put.wellFormed = true → Ready put s tk th →
      let v := (s.operand tk put 0).toNat
      let freed := { pool with mask := clearBit pool.mask v }
      (pool.k ≤ v ∨ pool.mask.getLsbD v = false → Completes put s tk fun t u =>
        u.pc = th.pc + 4 ∧ codeOf u = 4 ∧ (t.core core).pool x.toNat = pool) ∧
      (v < pool.k → pool.mask.getLsbD v = true →
        (s.tagWaiters core x.toNat = [] → Completes put s tk fun t u => u.pc = th.pc + 4 ∧ codeOf u = 0 ∧
          (t.core core).pool x.toNat = freed) ∧
        (∀ tk2 th2 w sm2 rd2 e2 x2, s.tagWaiters core x.toNat = [(tk2, w)] → s.thread? tk2 = some th2 → th2.run = .wait w →
          w.instr = .taga sm2 rd2 e2 x2 → freed.mask.getLsbD freed.a = false → Completes put s tk fun t u =>
            codeOf u = 0 ∧ EndsWith s t tk2 th2 0 ∧ Puts s t tk2 rd2 (BitVec.ofNat 64 freed.a) ∧
            (t.core core).pool x.toNat = { freed with mask := setBit freed.mask freed.a, a := (freed.a + 1) % freed.k })))

/-- SEND, SENDI, WAITM, RECV and MPCFG (R253, R254, R257 to R259). A target that R253 refuses gives REFUSED; with room in the
outbound queue the message enters it with status OK, and without room the thread parks in the operand state. WAITM with a port
of its mask that holds a message writes the ports that do, and waits else, or is refused. RECV pops the oldest message of its
port into rd and rd + 1, waits for one, or is refused for a join port or one that another slot owns. MPCFG sets a port's
owner, may drain it, and writes the old setting; a RECV of another slot that waits there ends with REFUSED. The targets and
connector names that are refused to a thread (R229, R253, R317): a reserved bit that is set, a node that does not exist, one
that is absent, or one outside the partition of the thread's launch, which is empty on a channel core for a supervisor where
no launch's thread runs. Where the manual is silent or is read by inference it is the model's choice: log 33. -/
def Obligations.Messages : Prop :=
  (∀ (sm : Bool) (rd ra : Reg) (a : Fin 96) (v : BitVec 7) (e : BitVec 4) (s : State) (tk : Nat) (th : Thread),
    Canonical s → Sized s →
    let core := coreOf tk
    let k := s.core core
    (∀ i w0 w1, (i, w0, w1) ∈ [(Instr.send sm (.g a) ra, s.readG tk a.val, s.readG tk (a.val + 1)),
        (Instr.sendi sm rd ra v, s.operand tk (.sendi sm rd ra v) 0, v.zeroExtend 64)] → Ready i s tk th →
      let target := s.operand tk i 1
      (s.targetRefused tk target = true → Completes i s tk fun t u => u.pc = th.pc + 4 ∧ codeOf u = 4 ∧
        (t.core core).outq = k.outq ∧ t.mem = s.mem ∧ t.rf = s.rf) ∧
      (s.targetRefused tk target = false → k.outq.length < 8 → Completes i s tk fun t u => u.pc = th.pc + 4 ∧ codeOf u = 0 ∧
        t.mem = s.mem ∧ t.rf = s.rf ∧ ∃ m : OutMsg, (t.core core).outq = k.outq ++ [m] ∧ m.target = target ∧ m.w0 = w0 ∧
          m.w1 = w1 ∧ m.slot = slotOf tk ∧ m.launch = th.launch) ∧
      (s.targetRefused tk target = false → 8 ≤ k.outq.length → Machine.exec i s = .next (s.parkOperand tk i))) ∧
    (let i := Instr.waitm sm rd ra e
     let c := s.operand tk i 1
     let m := k.waitMask c (slotOf tk)
     let bad := c.toNat / 2 ^ 32 ≠ 0 ∨ (m = 0 ∧ e = 15)
     Ready i s tk th →
      (bad → Completes i s tk fun t u => u.pc = th.pc + 4 ∧ codeOf u = 4 ∧ Puts s t tk rd 0) ∧
      (¬ bad → k.holding m s.cycle ≠ 0 → Completes i s tk fun t u => u.pc = th.pc + 4 ∧ codeOf u = 0 ∧
        (t.core core).mports = k.mports ∧ Puts s t tk rd (k.holding m s.cycle)) ∧
      (¬ bad → k.holding m s.cycle = 0 → th.carry = none → Completes i s tk fun t u => t.rf = s.rf ∧
        ∃ w, u.run = .wait w ∧ u.pc = th.pc ∧ w.instr = i ∧ w.vals = [0, m] ∧ w.deadline = boundOf s e)) ∧
    (let i := Instr.recv sm (.g a) ra e
     let c := s.operand tk i 1
     let n := c.toNat % 32
     let bad := c.toNat / 32 ≠ 0 ∨ k.isJoin n = true ∨ k.foreign n (slotOf tk) = true
     Ready i s tk th →
      (bad → Completes i s tk fun t u => u.pc = th.pc + 4 ∧ codeOf u = 4 ∧ t.rf = s.rf ∧ (t.core core).mports = k.mports) ∧
      (∀ m rest, ¬ bad → (k.mport n).msgs = m :: rest → k.held = [] → a.val + 1 < 96 → Completes i s tk fun t u =>
        u.pc = th.pc + 4 ∧ codeOf u = 0 ∧ t.mem = s.mem ∧ t.readG tk a.val = m.w0 ∧ t.readG tk (a.val + 1) = m.w1 ∧
        ((t.core core).mport n).msgs = rest) ∧
      (¬ bad → (k.mport n).msgs = [] → th.carry = none → Completes i s tk fun t u => t.rf = s.rf ∧
        Waits s tk th u i (boundOf s e) fun _ => True)) ∧
    (let i := Instr.mpcfg sm rd ra
     let c := (s.operand tk i 1).toNat
     let n := c % 32
     let old := k.mport n
     let bad := c / 2 ^ 5 % 2 ^ 3 ≠ 0 ∨ c / 2 ^ 16 ≠ 0
     let drains := c / 2 ^ 15 % 2 = 1
     let gone := if drains then old.msgs.length + (k.spill.filter fun y => y.1 == n).length else 0
     Ready i s tk th →
      (bad → Completes i s tk fun t u => u.pc = th.pc + 4 ∧ codeOf u = 4 ∧ (t.core core).mports = k.mports ∧ Puts s t tk rd 0) ∧
      (¬ bad → k.held = [] → s.waitsOf core = [] → Completes i s tk fun t u => u.pc = th.pc + 4 ∧ codeOf u = 0 ∧ t.mem = s.mem ∧
        Puts s t tk rd (BitVec.ofNat 64 (n + 2 ^ 8 * (old.ownerSlot + if old.owned then 64 else 0) + 2 ^ 16 * (gone % 512))) ∧
        ((t.core core).mport n).owned = decide (c / 2 ^ 14 % 2 = 1) ∧ ((t.core core).mport n).ownerSlot = c / 2 ^ 8 % 64 ∧
        ((t.core core).mport n).owner = th.launch ∧
        ((t.core core).mport n).msgs = if drains then [] else old.msgs) ∧
      (∀ tk2 th2 w, ¬ bad → k.held = [] → s.waitsOf core = [(tk2, w)] → s.thread? tk2 = some th2 → th2.run = .wait w →
        recvsOn n w = true → c / 2 ^ 14 % 2 = 1 → slotOf tk2 ≠ c / 2 ^ 8 % 64 → Completes i s tk fun t u =>
          codeOf u = 0 ∧ EndsWith s t tk2 th2 4))) ∧
  (∀ (s : State) (tk : Nat) (v : Word),
    let f := fun (lo len : Nat) => v.toNat / 2 ^ lo % 2 ^ len
    let gone := fun (die num : Nat) => die < 4 ∧ 64 * die + num ∈ s.pkg.absent
    let inside := fun (die num : Nat) => ∃ l, s.launch? (s.thread tk).launch = some l ∧ l.wpdie.testBit die = true ∧
      (l.wpnode.getD die 0).testBit num = true ∧
      ((coreOf tk < 1024 ∨ slotOf tk ≠ 0) ∨ ∃ e ∈ s.threads, coreOf e.1 = coreOf tk ∧ slotOf e.1 ≠ 0 ∧ e.2.launch ≠ 0)
    (s.targetRefused tk v = true ↔ f 29 35 ≠ 0 ∨ f 18 6 ≠ 0 ∨ f 14 2 ≠ 0 ∨ f 3 5 ≠ 0 ∨
      (4 ≤ f 0 3 ∧ (f 16 2 ≠ 0 ∨ 48 ≤ f 8 6)) ∨ gone (f 0 3) (f 8 6) ∨ ¬ inside (f 0 3) (f 8 6)) ∧
    (∀ bind, s.nameRefused tk v bind = true ↔ f 30 34 ≠ 0 ∨ f 19 5 ≠ 0 ∨ f 14 2 ≠ 0 ∨ f 6 2 ≠ 0 ∨ 4 ≤ f 16 3 ∨
      (bind = false ∧ (f 8 4 ≠ 0 ∨ f 0 6 ≠ 0)) ∨ gone (f 16 3) (f 24 6) ∨ ¬ inside (f 16 3) (f 24 6)))

/-- What carries messages and neighbour values (R242, R243, R246, R251, R254 to R258). The head of an outbound queue leaves once
the accesses before it are done. A message that arrives at a core which takes it is given to the RECV that waits on its port,
takes a free place of the port, or goes to the spill area; a spilled message is written into the place reserved for it. A
neighbour value enters its inbound queue, a return frees a place, an audit sets the sender's counter, and a resynchronisation
suspends the queue until the receiver has answered with what it holds, counting its pops from 0. At its bound a wait for a tag
or message ends with TIMEOUT. A thread that has pushed its stop tokens halts with kind 7. That an s-register rd has the cycle
of the completion as its write cycle is read by inference (log 65) The spill clauses rest on log 38. Where the manual is
silent or is read by inference it is the model's choice: log 34, 38, 65. -/
def Obligations.MessagesOnTheWay : Prop :=
  ∀ (s : State), Canonical s → Sized s →
    let n := s.subj.n
    let k := s.core n
    (∀ m rest, k.outq = m :: rest → s.released (64 * n + m.slot) m.stamp = true → Answers .messageDepart s fun t =>
      (t.core n).outq = rest ∧ t.mem = s.mem ∧
      Sent s t (targetCore m.target) (.message (targetCore m.target) (targetPort m.target) m.w0 m.w1 false m.slot m.launch)) ∧
    (∀ core p w0 w1 report slot launch, Arrives s (.message core p w0 w1 report slot launch) → p < 32 →
      let c := s.core core
      c.takes = true → c.inputQ = [] → c.held = [] →
      let free := (c.mport p).msgs.length + (c.mport p).reserved < 4 ∧ (c.spill.all fun y => y.1 != p) = true ∧
        (p = 31 → c.reserve = [])
      (free → s.recvWaiter core p = none → Answers .messageArrival s fun t => t.packets = SMap.del s.packets n ∧
        ((t.core core).mport p).msgs = (c.mport p).msgs ++ [{ w0 := w0, w1 := w1, since := s.cycle }] ∧ t.rf = s.rf) ∧
      (∀ tk th w sm a ra e, free → s.recvWaiter core p = some (tk, w) → s.thread? tk = some th → th.run = .wait w →
        w.instr = .recv sm (.g a) ra e → Answers .messageArrival s fun t => EndsWith s t tk th 0 ∧ t.readG tk a.val = w0 ∧
          t.readG tk (a.val + 1) = w1 ∧ ((t.core core).mport p).msgs = (c.mport p).msgs) ∧
      (¬ free → c.spill.length < 256 → Answers .messageArrival s fun t => (t.core core).spill = c.spill ++ [(p, w0, w1)] ∧
        t.packets = SMap.del s.packets n ∧ (t.core core).mports = c.mports)) ∧
    (∀ p y, s.subj.m = p → p < 31 → 0 < (k.mport p).reserved → k.held = [] → s.recvWaiter n p = none →
      k.spill.find? (fun z => z.1 == p) = some y → Answers .spillRefill s fun t =>
        ((t.core n).mport p).msgs = (k.mport p).msgs ++ [{ w0 := y.2.1, w1 := y.2.2, since := s.cycle }] ∧
        (t.core n).spill = k.spill.erase y) ∧
    (∀ th w, s.thread? n = some th → th.run = .wait w → w.id = s.subj.m → Answers .queueWaitTimeout s fun t =>
      EndsWith s t n th 1 ∧ t.mem = s.mem ∧ ((∀ sm rd ra e, w.instr ≠ .waitm sm rd ra e) → t.rf = s.rf) ∧
      ∀ sm rd ra e, w.instr = .waitm sm rd ra e → Puts s t n rd 0) ∧
    (∀ th w sm rd ra e rest m, s.cur = none → s.pkg.answers = true → s.todo = .resume n :: rest → s.thread? n = some th →
      th.run = .wait w → w.instr = .waitm sm rd ra e → m = (s.core (coreOf n)).holding (w.vals.getD 1 0) (s.cycle + 1) →
      m ≠ 0 → ∃ t, Machine.step s = .next t ∧ EndsWith s t n th 0 ∧ Puts s t n rd m) ∧
    ((s.core (coreOf (n / 4))).takes = true →
      (Answers .neighbourValueArrival s fun t => t.nbrQueue n = s.nbrQueue n ++
        [{ v := s.subj.v, tag := s.subj.m, since := s.cycle }] ∧ t.rf = s.rf ∧ t.mem = s.mem) ∧
      (Answers .neighbourReturn s fun t => t.nbrRoom n = s.nbrRoom n + 1 ∧ t.nbr = s.nbr) ∧
      (SMap.getD s.nbrSync n false = false → Answers .auditReceipt s fun t => t.nbr = s.nbr ∧
        t.nbrRoom n = 4 - (SMap.getD s.nbrSent n 0 + 65536 - s.subj.m) % 65536) ∧
      (s.subj.k = 1 → Answers .resyncAnswer s fun t => SMap.getD t.nbrSync n false = false ∧ t.nbr = s.nbr ∧
        t.nbrRoom n = 4 - s.subj.m)) ∧
    ((s.core (coreOf (senderKey n / 4))).takes = true → crossesDie n = true → s.subj.k ≠ 1 → s.nbrInFlight n = false →
      Answers .resyncAnswer s fun t => t.nbr = s.nbr ∧ t.nbrFree = s.nbrFree ∧ SMap.getD t.nbrPops (senderKey n) 0 = 0 ∧
        let held := (s.nbrQueue (senderKey n)).length
        t.timers = s.timers ++ [{ due := s.cycle + 16, mv := .ev .resyncAnswer { n := n, k := 1, m := held } }]) ∧
    (crossesDie n = true → Answers .auditSend s fun t => t.nbr = s.nbr ∧ t.timers = s.timers ++
      [{ due := s.cycle + 16, mv := .ev .auditReceipt { n := senderKey n, m := SMap.getD s.nbrPops n 0 } }]) ∧
    (crossesDie n = true → SMap.getD s.nbrSync n false = false → Answers .counterResync s fun t =>
      SMap.getD t.nbrSync n false = true ∧ t.nbr = s.nbr ∧
      t.timers = s.timers ++ [{ due := s.cycle + 16, mv := .ev .resyncAnswer { n := n } }]) ∧
    (∀ th tag j skipped field, s.thread? n = some th → th.tokens = some (tag, j, skipped, field) →
      ((∀ b, j ≤ b → b < 8 → th.status.getLsbD (4 + b) = false) → tag = 2 → Machine.exec .stop s =
        .next (s.trap n 7 0 (BitVec.ofNat 64 (field + 2 ^ 8 * skipped)))) ∧
      ((∀ b, j ≤ b → b < 8 → th.status.getLsbD (4 + b) = false) → tag = 1 → Answers .stop s fun t =>
        ∃ u w, t.thread? n = some u ∧ u.run = .wait w ∧ w.instr = .quit false ∧ u.pc = th.pc) ∧
      (∀ i : Fin 4, j = 4 + i.val → th.status.getLsbD (4 + j) = true → s.roleCause n i.val true = 0 →
        (∀ b, j < b → b < 8 → th.status.getLsbD (4 + b) = false) → ((s.core (coreOf n)).role i.val).taken < 8 →
        Answers .stop s fun t => ((t.core (coreOf n)).role i.val).entries =
          ((s.core (coreOf n)).role i.val).entries ++ [{ v := 0, tag := tag, since := s.cycle + 3 }]))

/-- JPSET, JPCLR, JPSTAT and the join unit, and the power gate (R260 to R268). At thread level an instruction that names an entry
of slot 0 raises the privilege trap with cause 1. JPSET loads its entry when the descriptor is in range, the entry is empty,
no port of it is owned, and its window can be reserved, and is REFUSED else; JPCLR empties the entry; JPSTAT writes the
snapshot. A decision starts, of the candidates, one with pass count 16 first, then the highest priority, then the next after
the last started: the head messages of its ports are popped and fill the new thread's registers, lowest port first, and the
rest are zero. A core that has been quiet for 1,024 cycles commits its gate, and ungating ends it. Where the manual is silent
or is read by inference it is the model's choice: log 21, 22, 23. -/
def Obligations.JoinAndPower : Prop :=
  (∀ d0 d1 : Word, let f := fun (lo len : Nat) => d0.toNat / 2 ^ lo % 2 ^ len
    let n := ((List.range 32).filter fun p => d0.getLsbD p).length
    descriptorOk d0 d1 = true ↔ f 48 16 = 0 ∧ f 42 2 = 0 ∧ f 38 2 = 0 ∧ d1.toNat / 2 ^ 48 = 0 ∧ d1.toNat % 4 = 0 ∧ 1 ≤ n ∧ n ≤ 6 ∧
      1 ≤ f 44 4 ∧ f 44 4 ≤ 12 ∧ 2 * n ≤ 8 * f 44 4) ∧
  (∀ (sm : Bool) (rd : Reg) (a : Fin 96) (e : BitVec 7) (s : State) (tk : Nat) (th : Thread), Canonical s → Sized s →
    e.toNat < 16 →
    let core := coreOf tk
    let k := s.core core
    let x := k.entry e.toNat
    let set := Instr.jpset sm (.g a) e
    let clr := Instr.jpclr sm e
    let stat := Instr.jpstat sm rd e
    let d0 := s.readG tk a.val
    let d1 := s.readG tk (a.val + 1)
    let slot := d0.toNat / 2 ^ 32 % 64
    let y0 : JEntry := { valid := true, ports := d0.extractLsb' 0 32, slot := slot, w := 8 * (d0.toNat / 2 ^ 44 % 16) }
    let y1 := { y0 with pc := d1.extractLsb' 0 48, prio := d0.toNat / 2 ^ 40 % 4 }
    let y := { y1 with owner := th.launch, task := th.task, since := s.cycle }
    let of0 := x.valid = true ∧ x.slot = 0
    let bad := descriptorOk d0 d1 = false ∨ x.valid = true ∨ (∃ p, p < 32 ∧ d0.getLsbD p = true ∧ (k.mport p).owned = true) ∨
      (d0.getLsbD 31 = true ∧ slotOf tk ≠ 0) ∨ s.entryWindow core slot y.w = none
    let trapped := fun (i : Instr) => Machine.exec i s = .next ((s.trap tk 9 1 ((encode i).zeroExtend 64)).takeTurn tk)
    let v := x.ports.toNat + 2 ^ 32 * x.slot + 2 ^ 40 * x.prio + 2 ^ 44 * (x.w / 8) + 2 ^ 48 * x.pass +
      2 ^ 53 * (if x.valid then 1 else 0) + 2 ^ 54 * (if (s.thread? (64 * core + x.slot)).isSome then 1 else 0) +
      2 ^ 55 * (if s.candidate core x then 1 else 0)
    (Ready set s tk th → (slotOf tk ≠ 0 → (slot = 0 ∨ of0) → trapped set) ∧
      (slotOf tk = 0 ∨ (slot ≠ 0 ∧ ¬ of0) →
        (bad → Completes set s tk fun t u => u.pc = th.pc + 4 ∧ codeOf u = 4 ∧ (t.core core).jp = k.jp ∧ t.rf = s.rf) ∧
        (¬ bad → Completes set s tk fun t u => u.pc = th.pc + 4 ∧ codeOf u = 0 ∧ t.mem = s.mem ∧
          (t.core core).jp = k.jp.set e.toNat y ∧ SMap.get? (t.core core).resv slot = s.entryWindow core slot y.w))) ∧
    (Ready clr s tk th → (slotOf tk ≠ 0 → of0 → trapped clr) ∧
      (slotOf tk = 0 ∨ ¬ of0 → Completes clr s tk fun t u => u.pc = th.pc + 4 ∧ codeOf u = 0 ∧ t.rf = s.rf ∧
        ((t.core core).entry e.toNat).valid = false ∧ ∀ j, j ≠ e.toNat → (t.core core).entry j = k.entry j)) ∧
    (Ready stat s tk th → (slotOf tk ≠ 0 → of0 → trapped stat) ∧
      (slotOf tk = 0 ∨ ¬ of0 → Machine.exec stat s = .next (issued stat s tk fun u =>
        (u.writeReg tk rd (BitVec.ofNat 64 v)).setStatus tk 0)))) ∧
  (∀ (s : State) (e : Nat), Canonical s → Sized s → e < 16 →
    let n := s.subj.n
    let k := s.core n
    let x := k.entry e
    let place := fun (f : Nat) => (f + 16 - (k.jptr + 1) % 16) % 16
    let full := fun (f : Nat) => (k.entry f).pass == 16
    let ports := (List.range 32).filter fun p => x.ports.getLsbD p
    let heads := ports.flatMap fun p => match (k.mport p).msgs with | m :: _ => [m.w0, m.w1] | [] => [0, 0]
    s.candidate n x = true → k.held = [] →
    (∀ f, f < 16 → f ≠ e → s.candidate n (k.entry f) = true → (full e = true ∧ full f = false) ∨
      (full e = full f ∧ ((k.entry f).prio < x.prio ∨ ((k.entry f).prio = x.prio ∧ place e < place f)))) →
    Answers .joinDecision s fun t => t.mem = s.mem ∧ (t.core n).jptr = e ∧
      (∀ p, p < 32 → ((t.core n).mport p).msgs =
        if x.ports.getLsbD p then (k.mport p).msgs.tail else (k.mport p).msgs) ∧
      ∃ th, t.thread? (64 * n + x.slot) = some th ∧ th.pc = x.pc ∧ th.w = x.w ∧ th.run = .ready ∧
        th.notBefore = s.cycle + 1 ∧ th.status = 0 ∧
        ∀ i, i < x.w → t.readG (64 * n + x.slot) i = heads.getD i 0) ∧
  (∀ (s : State) (n : Nat),
    let k := s.core n
    (k.gated = none → 1024 ≤ k.idle → s.quiet n = true → k.inbox = [] → Answers (.powerGate n) s fun t =>
      (t.core n).gated = some s.cycle ∧ t.mem = s.mem ∧ t.rf = s.rf) ∧
    (k.idle < 1024 ∨ s.quiet n = false → Machine.exec (.powerGate n) s = .next s) ∧
    (s.subj.n = n → k.ungateAt.any (fun c => decide (c ≤ s.cycle)) = true → Answers .ungate s fun t => (t.core n).gated = none ∧ (t.core n).idle = 0 ∧
      (t.core n).inbox = k.inbox ∧ t.mem = s.mem ∧ t.rf = s.rf))

/-! ### Threads, launches and tasks (R270 to R295) -/

/-- The thread instructions at issue (R279, R280, R282 to R285, R289 to R291). QUIT and EXIT cancel the bindings of the thread and
wait; in compatibility mode QUIT, and EXIT with A = 0 or of a task that has its successor, push end-of-stream tokens first;
EXIT of an address that is not a multiple of 64 raises the memory-fault trap. SPAWN is refused on a channel core, with a
reserved bit of its descriptor, without the launch's leave or a budget, and else charges the budget and waits with its
descriptor and g0 to g3. MIGRATE of another window than 16 registers, or of an address that no core owns, is refused and else
waits; LAUNCH is refused on a channel core and else waits. GARR and GWAIT of a group that the task is a member of ask the
owner of its barrier word. SLOTS writes the snapshot. Where the manual is silent or is read by inference it is the model's
choice: log 25, 30, 83. -/
def Obligations.ThreadInstructions : Prop :=
  ∀ (sm : Bool) (rd ra : Reg) (e : BitVec 4) (x : BitVec 3) (s : State) (tk : Nat) (th : Thread), Canonical s → Sized s →
    s.thread? tk = some th → th.carry = none →
    let core := coreOf tk
    let noBindings := fun (t : State) => t.mem = s.mem ∧ t.rf = s.rf ∧ ∀ k, k < 8 → (t.stream tk k).bind = none
    let refused := fun (t : State) (u : Thread) => u.pc = th.pc + 4 ∧ codeOf u = 4 ∧ t.mem = s.mem ∧ t.rf = s.rf ∧ t.disp = s.disp
    let tokens := fun (u : Thread) => u.pc = th.pc ∧ u.tokens = some (1, 0, 0, 0) ∧ ∃ w, u.run = .wait w ∧ w.instr = .stop
    let succeeded := ∃ k, s.task? th.task = some k ∧ k.succ ≠ 0
    (∀ i a, (i = Instr.quit sm ∧ a = 0 ∨ i = .exit sm ra ∧ a = s.operand tk (.exit sm ra) 0) → Ready i s tk th →
      (a.toNat % 64 ≠ 0 → Machine.exec i s = .next ((s.trap tk 3 2 a).takeTurn tk)) ∧
      (a.toNat % 64 = 0 → (s.compat tk = false ∨ (a ≠ 0 ∧ ¬ succeeded)) → Completes i s tk fun t u => noBindings t ∧
        Waits s tk th u i none fun _ => True) ∧
      (a.toNat % 64 = 0 → (a = 0 ∨ succeeded) → s.compat tk = true → Completes i s tk fun t u => noBindings t ∧ tokens u)) ∧
    (let i := Instr.spawn sm rd ra e
     let a := s.operand tk i 1
     (s.spawnRefused tk a = true ↔ isChannel core = true ∨ a.toNat / 2 ^ 50 ≠ 0 ∨ a.toNat % 4 ≠ 0 ∨
      ¬ ∃ k l, s.task? th.task = some k ∧ s.launch? th.launch = some l ∧ 0 < l.spw ∧ 0 < k.budget) ∧ (Ready i s tk th →
      (s.spawnRefused tk a = true → Completes i s tk refused) ∧
      (∀ k, s.spawnRefused tk a = false → s.task? th.task = some k → Completes i s tk fun t u => t.mem = s.mem ∧ t.rf = s.rf ∧
        t.task? th.task = some { k with budget := k.budget - 1 } ∧ ∃ w, u.run = .wait w ∧ u.pc = th.pc ∧ w.instr = i ∧
          w.deadline = boundOf s e ∧ w.vals = [a, s.readG tk 0, s.readG tk 1, s.readG tk 2, s.readG tk 3]))) ∧
    (let i := Instr.migrate sm ra
     let out := th.w ≠ 16 ∨ s.ownerOf tk (s.operand tk i 0) = .nobody
     Ready i s tk th → (out → Completes i s tk refused) ∧
      (¬ out → Completes i s tk fun t u => t.mem = s.mem ∧ t.rf = s.rf ∧ Waits s tk th u i none fun _ => True)) ∧
    (let i := Instr.launch sm rd ra
     Ready i s tk th → (isChannel core = true → Completes i s tk refused) ∧
      (isChannel core = false → Completes i s tk fun t u => t.disp = s.disp ∧ t.rf = s.rf ∧
        Waits s tk th u i none fun _ => True)) ∧
    (∀ i bound, (i, bound) ∈ [(Instr.garr sm rd ra, none), (Instr.gwait sm rd ra e, some e)] → Ready i s tk th →
      (s.groupAddress tk (s.operand tk i 1) = none → Completes i s tk refused) ∧
      (∀ ea, s.groupAddress tk (s.operand tk i 1) = some ea → Completes i s tk fun t u => t.mem = s.mem ∧ t.rf = s.rf ∧
        ∃ w, u.run = .wait w ∧ u.pc = th.pc ∧ w.instr = i ∧ w.deadline = bound.bind (boundOf s) ∧
          OneRequest i s t tk fun r => r.id = w.req ∧ r.ea = ea ∧ r.bytes = 8 ∧ r.stage = .port ∧
            r.exp = (s.operand tk i 0).toNat)) ∧
    (let i := Instr.slots sm rd x
     let k := s.core core
     let node := nodeOf core
     let num := match s.task? th.task with | some t => t.num | none => 0
     let free := ((List.range 64).filter fun z => s.slotFree core z).length
     Ready i s tk th → x.toNat ≤ 2 → Completes i s tk fun t u => u.pc = th.pc + 4 ∧ codeOf u = 0 ∧ t.mem = s.mem ∧
       Puts s t tk rd (BitVec.ofNat 64 (match x.toNat with
        | 0 => slotOf tk + 2 ^ 8 * coreInTeam core + 2 ^ 10 * numOfNode node + 2 ^ 16 * dieOfNode node + 2 ^ 32 * num
        | 1 => free + 2 ^ 8 * k.arrivals.length + 2 ^ 16 * s.arrivalLimit core +
            2 ^ 21 * (k.paddock.length - if k.moveDone.isSome then 1 else 0) + 2 ^ 32 * k.shadows.length
        | _ => match s.task? th.task with | some t => t.budget + 2 ^ 16 * t.live | none => 0)))

/-- The end of a thread, SPAWN and LAUNCH once they wait no more (R113, R280 to R283, R289). When its accesses are over a thread
that ends leaves its slot, its window is zeroed and its task's live count falls; EXIT's address becomes the task's successor
if it is the first, and a later one in compatibility mode pushes tokens first; a fault in its store log is taken instead. The
oldest SPAWN that waits for a core is placed, with a window of the launch's size and g0 to g3, gets slot and core in rd, and
waits two cycles more; at its bound the charge is refunded. LAUNCH enters its request in the device queue, writes the handle,
and says REFUSED for a bad address and FULL for a full queue. That an s-register rd has the cycle of the completion as its
write cycle is read by inference (log 65). Where the manual is silent or is read by inference it is the model's choice: log
24, 25, 65. -/
def Obligations.ThreadEvents : Prop :=
  ∀ (s : State) (tk : Nat) (th : Thread) (w : Wait), Canonical s → s.thread? tk = some th → th.run = .wait w →
    (∀ k : Task, s.subj.n = tk → s.endReady tk w = true → s.task? th.task = some k →
      (∀ c a, th.log = some (c, a) → Machine.exec .threadEnd s =
        .next ((s.modThread tk fun u => { u with log := none }).trap tk 3 c a)) ∧
      let a := (w.vals.getD 0 0).toNat
      let later := k.succ ≠ 0 ∧ s.compat tk = true ∧ a ≠ 0 ∧ ∃ sm ra, w.instr = .exit sm ra
      (th.log = none → later → Answers .threadEnd s fun t => t.mem = s.mem ∧ t.disp = s.disp ∧ ∃ u y, t.thread? tk = some u ∧
        u.pc = th.pc ∧ u.tokens = some (1, 0, 0, 0) ∧ u.run = .wait y ∧ y.instr = .stop) ∧
      (th.log = none → ¬ later → Answers .threadEnd s fun t => t.threads = SMap.del s.threads tk ∧ t.mem = s.mem ∧
        (t.core (coreOf tk)).zeroing = (s.core (coreOf tk)).zeroing ++
          [{ slot := slotOf tk, base := th.base, w := th.w, till := s.cycle + th.w / 8 }] ∧
        (∀ j, j < 8 → t.stream tk j = {}) ∧
        (1 < k.live → ∃ v : Task, t.task? th.task = some { v with live := k.live - 1 } ∧ v.num = k.num ∧ v.budget = k.budget ∧
          (∀ sm ra, w.instr = .exit sm ra → v.succ = if k.succ = 0 then a else k.succ) ∧
          (∀ sm, w.instr = .quit sm → v.succ = k.succ)) ∧
        (k.live ≤ 1 → k.succ = 0 → (∀ sm ra, w.instr ≠ .exit sm ra) → t.disp.tasks = SMap.del s.disp.tasks th.task))) ∧
    (∀ core z b rest sm rd ra e, s.subj.n = core → s.spawnWaiters core = (tk, w) :: rest →
      s.findSlot core (s.spawnW tk) = some (z, b) → w.instr = .spawn sm rd ra e →
      Answers .spawnPlacement s fun t => t.mem = s.mem ∧
        (∃ u, t.thread? tk = some u ∧ u.pc = th.pc + 4 ∧ codeOf u = 0 ∧ u.notBefore = s.cycle + 3) ∧
        Puts s t tk rd (BitVec.ofNat 64 (z + 256 * coreInTeam core)) ∧
        ∃ v, t.thread? (64 * core + z) = some v ∧
          v.pc = BitVec.ofNat 48 ((w.vals.getD 0 0).toNat / 4 % 2 ^ 46 * 4) ∧ v.w = s.spawnW tk ∧ v.base = b ∧ v.run = .ready ∧
          v.launch = th.launch ∧ v.task = th.task ∧ v.notBefore = s.cycle + 1 ∧
          ∀ i, i < s.spawnW tk → (∀ k, rd = .g k → s.rfKey tk k.val ≠ 2048 * core + (8 * b + i)) →
            t.readG (64 * core + z) i = w.vals.tail.getD i 0) ∧
    (∀ k, s.subj.n = tk → s.subj.m = w.id → s.task? th.task = some k → Answers .spawnTimeout s fun t =>
      EndsWith s t tk th 1 ∧ t.rf = s.rf ∧ t.task? th.task = some { k with budget := k.budget + 1 }) ∧
    (∀ sm rd ra rest l, s.cur = none → s.pkg.answers = true → s.todo = .resume tk :: rest → w.instr = .launch sm rd ra →
      s.readDue tk w = false → s.fenceReady tk w = true → s.launchOfThread tk = some l → ∃ t, Machine.step s = .next t ∧
        t.mem = s.mem ∧
        let a := (w.vals.getD 1 0).toNat
        (a % 64 ≠ 0 ∨ addrClass a ≠ .virtual → EndsWith s t tk th 4 ∧ t.disp = s.disp) ∧
        (a % 64 = 0 → addrClass a = .virtual → 64 ≤ s.disp.devQ.length → EndsWith s t tk th 2 ∧ t.disp = s.disp) ∧
        (a % 64 = 0 → addrClass a = .virtual → s.disp.devQ.length < 64 → EndsWith s t tk th 0 ∧
          Puts s t tk rd (BitVec.ofNat 64 (2 ^ 15 + s.disp.devSeq)) ∧ t.disp.devSeq = (s.disp.devSeq + 1) % 32767 ∧
          ∃ r : LaunchReq, t.disp.devQ = s.disp.devQ ++ [r] ∧ r.handle = 2 ^ 15 + s.disp.devSeq ∧ r.lpb = a ∧ r.root = l.root))

/-- Migration (R285 to R288, R295). A thread that may depart leaves its slot for a shadow entry and a packet that holds g0 to g9,
its status with code OK and the address after its MIGRATE; to its own core it just goes on, and an offset past its own team's
SRAM is a fault of cause 8. A destination with room stores the context, in the paddock's memory where its queue has none, and
acknowledges it, one whose paddock is full answers FULL; a moved context is the one that the paddock's memory holds. The
acknowledgement removes the shadow and sends the release, which makes the stored copy admissible from the next cycle; FULL, a
refused address, and 4,096 cycles without an answer bring the shadow back to its source with code FULL, FAULTED or LOST. An
admitted context runs in a free slot with a window of 16. Where the manual is silent or is read by inference it is the model's
choice: log 30, 31, 38. -/
def Obligations.Migration : Prop :=
  (∀ (s : State) (tk : Nat) (a : Word) (node off : Nat),
    s.translateBy tk a.toNat false = .ok (.window node off) →
    let size := (s.team node).s
    s.ownerOf tk a = if node = nodeOf (coreOf tk) ∧ size ≤ off then .fault 8
      else .core (if node < 256 then coreAt node (min 3 (off / (size / 4))) else coreAt node 0) (some off)) ∧
  (∀ (s : State) (tk : Nat) (th : Thread) (w : Wait) (own : Owner), Canonical s → s.thread? tk = some th → th.run = .wait w →
    s.subj.n = tk → s.migrateReady tk w = true → s.ownerOf tk (w.vals.getD 0 0) = own → th.log = none →
    (s.streamsHeld tk = true → Answers .departure s fun t => EndsWith s t tk th 4 ∧ t.rf = s.rf) ∧
    (s.streamsHeld tk = false → (own = .core (coreOf tk) none → Answers .departure s fun t => EndsWith s t tk th 0 ∧ t.rf = s.rf) ∧
      (∀ c, own = .fault c → Machine.exec .departure s = .next (s.trap tk 3 c (w.vals.getD 0 0))) ∧
      (∀ k off, own = .core k off → k ≠ coreOf tk → (s.core (coreOf tk)).shadows.length < 8 → Answers .departure s fun t =>
        t.threads = SMap.del s.threads tk ∧ t.mem = s.mem ∧ t.disp.inTransit = s.disp.inTransit + 1 ∧ ∃ (c : Ctx) (h : Shadow),
          Sent s t k (.migrate k c) ∧ (t.core (coreOf tk)).shadows = (s.core (coreOf tk)).shadows ++ [h] ∧ h.ctx = c ∧
          h.serial = c.serial ∧ h.dst = k ∧ h.departed = s.cycle ∧
          c.regs = (List.range 10).map (s.readG tk) ∧ c.pc = th.pc + 4 ∧ c.status.extractLsb' 0 3 = 0 ∧
          c.status.extractLsb' 3 61 = th.status.extractLsb' 3 61 ∧ c.launch = th.launch ∧ c.task = th.task))) ∧
  (∀ (s : State) (core : Nat) (c : Ctx), Arrives s (.migrate core c) → (s.core core).takes = true →
    let k := s.core core
    let off := c.window = true ∧ (s.team (nodeOf core)).s ≤ c.off
    let back := fun (t : State) (st : Nat) => Sent s t (nodeOf c.src) (.migAck c.src c.serial st core)
    let base := k.paddockBase.toNat % 2 ^ 40
    Canonical s →
    (off → Answers .migrationArrival s fun t => back t 8 ∧ (t.core core).arrivals = k.arrivals) ∧
    (¬ off → 1024 ≤ k.paddock.length → Answers .migrationArrival s fun t => back t 2 ∧ (t.core core).paddock = k.paddock) ∧
    (¬ off → k.paddock.length < 1024 → Answers .migrationArrival s fun t => back t 0 ∧
      let d := { c with inAt := s.cycle }
      (k.arrivals.length < s.arrivalLimit core → k.paddock = [] → (t.core core).arrivals = k.arrivals ++ [d]) ∧
      (s.arrivalLimit core ≤ k.arrivals.length ∨ k.paddock ≠ [] → (t.core core).arrivals = k.arrivals ∧ ∃ p, p < 1024 ∧
        (t.core core).paddock = k.paddock ++ [{ d with place := p }] ∧ (∀ y ∈ k.paddock, y.place ≠ p) ∧
        OnlyBytes s t (base + 128 * p) 128 ∧ bytesAt t (base + 128 * p + 80) 8 = c.status.toNat ∧
        bytesAt t (base + 128 * p + 88) 8 = c.pc.toNat ∧
        ∀ i, i < 10 → bytesAt t (base + 128 * p + 8 * i) 8 = (c.regs.getD i 0).toNat))) ∧
  (∀ (s : State) (core serial st dst : Nat) (h : Shadow), (s.core core).shadows.find? (fun y => y.serial == serial) = some h →
    let k := s.core core
    let left := k.shadows.filter fun y => y.serial != serial
    let again := fun (t : State) (code : BitVec 3) => (t.core core).shadows = left ∧ ∃ d : Ctx,
      (t.core core).arrivals ++ (t.core core).paddock = k.arrivals ++ k.paddock ++ [d] ∧ d.regs = h.ctx.regs ∧
      d.status.extractLsb' 0 3 = code ∧ d.okAt = some (s.cycle + 1) ∧ d.pc = (if code = 6 then h.migPc else h.ctx.pc)
    (Arrives s (.migAck core serial st dst) → (st = 0 → Answers .migrationAck s fun t => (t.core core).shadows = left ∧
        Sent s t (nodeOf dst) (.migRelease dst core serial false)) ∧
      (st = 2 → Answers .migrationAck s fun t => again t 2 ∧ t.disp.inTransit = s.disp.inTransit - 1) ∧
      (st = 8 → Answers .migrationAck s fun t => again t 6 ∧ t.disp.inTransit = s.disp.inTransit - 1)) ∧
    (s.subj.n = core → s.subj.m = serial → h.departed + 4096 ≤ s.cycle → Answers .lost s fun t => again t 7)) ∧
  (∀ (s : State) (core src serial : Nat),
    let k := s.core core
    let mine := fun (c : Ctx) => c.src == src && c.serial == serial && c.okAt.isNone
    (Arrives s (.migRelease core src serial false) → Answers .migrationRelease s fun t =>
      (t.core core).arrivals = (k.arrivals.map fun c => if mine c then { c with okAt := some (s.cycle + 1) } else c) ∧
      t.disp.inTransit = s.disp.inTransit - 1) ∧
    (Arrives s (.migRelease core src serial true) → Answers .migrationDiscard s fun t =>
      (t.core core).arrivals = (k.arrivals.filter fun c => !mine c) ∧ (t.core core).paddock = (k.paddock.filter fun c => !mine c)) ∧
    (∀ c rest, s.subj.n = core → k.moveDone = some s.subj.m → k.paddock = c :: rest → c.place < 1024 → Answers .paddockMove s fun t =>
      (t.core core).paddock = rest ∧ (t.core core).moveDone = none ∧ t.mem = s.mem ∧ ∃ d : Ctx,
        (t.core core).arrivals = k.arrivals ++ [d] ∧ d.launch = c.launch ∧ d.task = c.task ∧ d.okAt = c.okAt ∧
        let key := k.paddockBase.toNat % 2 ^ 40 + 128 * c.place
        d.status.toNat = bytesAt s (key + 80) 8 ∧ d.pc.toNat = bytesAt s (key + 88) 6 ∧
        ∀ i, i < 10 → (d.regs.getD i 0).toNat = bytesAt s (key + 8 * i) 8) ∧
    (k.moveDone ≠ some s.subj.m → s.subj.n = core → Machine.exec .paddockMove s = .next s) ∧
    (∀ c rest z b, Canonical s → s.subj.n = core → k.arrivals = c :: rest → s.findSlot core 16 = some (z, b) →
      s.admissible core = true → c.fault = none → Answers .admission s fun t => (t.core core).arrivals = rest ∧
        t.mem = s.mem ∧ ∃ v, t.thread? (64 * core + z) = some v ∧ v.pc = c.pc ∧ v.status = c.status ∧ v.w = 16 ∧
          v.base = b ∧ v.run = .ready ∧ v.launch = c.launch ∧ v.notBefore = s.cycle + 1 ∧
          ∀ i, i < 16 → t.readG (64 * core + z) i = c.regs.getD i 0))

/-- Row-major and column-major traversal (R273): the tasks of an X × Y space have coordinates inside it, no two the same. With w =
2^s a row-major launch takes bands of w rows, the last of them narrower, in ascending order, and in a band x ascends and for
each x, y does, so that with s = 0 task t is (t mod X, t ÷ X); a column-major launch does the same with x and y exchanged. -/
def Obligations.TraversalOrders : Prop :=
  ∀ (l : Launch) (t u : Nat), l.trav < 2 → t < l.x * l.y → u < l.x * l.y →
    (l.coords t).1 < l.x ∧ (l.coords t).2 < l.y ∧ (l.coords t = l.coords u → t = u) ∧
    (let w := 2 ^ l.swz
     let place := fun (x y : Nat) =>
       let band := t / (w * x)
       let rows := min w (y - w * band)
       let r := t % (w * x)
       (r / rows, w * band + r % rows)
     (l.trav = 0 → l.coords t = place l.x l.y) ∧
       (l.trav = 1 → l.coords t = ((place l.y l.x).2, (place l.y l.x).1))) ∧
    (l.trav = 0 → l.swz = 0 → l.coords t = (t % l.x, t / l.x)) ∧ (l.trav = 1 → l.swz = 0 → l.coords t = (t / l.y, t % l.y))

/-- The dispatcher (R270, R271, R274 to R276, R284). It takes the host's next launch before the device's: an unreadable or faulty
parameter block, or one that is misaligned, refuses it, and a launch that passes holds the block's fields and its slot groups.
A placement starts the launch's next task on the team found for it: the team's core-shared registers are zero, its ports are
empty but for those of the .pattern entries that are kept, and its seats are held. A core's allocator places a seat's thread
with the coordinates, the index and group and the argument in g0 to g2 and zero elsewhere, and with the last seat the task's
threads may issue. A successor that cannot be read is dropped, one that fits is placed on the held team; a launch that is over
ends, with its message. What the dispatcher accepts (R270, R271, Table TH-1): a parameter block with every field in its range
and every reserved field zero, and slot-group records likewise. Where the manual is silent or is read by inference it is the
model's choice: log 26, 27, 28, 29. -/
def Obligations.Dispatch : Prop :=
  (∀ (s : State), Canonical s →
    let key := s.nextId
    (∀ r hq dq, s.canTake = true → (s.disp.hostQ = r :: hq ∧ dq = s.disp.devQ ∨
        s.disp.hostQ = [] ∧ hq = [] ∧ s.disp.devQ = r :: dq) →
      let l1 : Launch := { handle := r.handle, root := r.root, wpdie := r.wpdie, wpnode := r.wpnode }
      let l0 : Launch := { l1 with patterns := r.patterns, held := r.held, preempted := r.held }
      let s1 := State.addLaunch { s with nextId := key + 1, disp := { s.disp with hostQ := hq, devQ := dq } } key l0
      Answers .launchTake s fun t =>
        t.disp.hostQ = hq ∧ t.disp.devQ = dq ∧ t.disp.order = s.disp.order ++ [key] ∧
        (∀ c, s1.readDwords key r.lpb 8 = .error c → t.launch? key = some { l0 with refused := true }) ∧
        (r.lpb % 64 ≠ 0 ∨ addrClass r.lpb ≠ .virtual → t.launch? key = some { l0 with refused := true }) ∧
        (∀ w, s1.readDwords key r.lpb 8 = .ok w → lpbOk w = false → ∃ l, t.launch? key = some l ∧ l.refused = true) ∧
        (∀ w gw gs, r.lpb % 64 = 0 → addrClass r.lpb = .virtual → s1.readDwords key r.lpb 8 = .ok w → lpbOk w = true → targetOk (lpbDone w) = true →
          (w.getD 6 0).getLsbD 63 = false → (w.getD 3 0) = 0 →
          s1.readDwords key (w.getD 1 0).toNat (2 * ((w.getD 2 0).toNat % 32)) = .ok gw → slotGroups gw = some gs →
          (∀ c, c < 4 → (groupNeed gs c).1 ≤ 63) → s1.groupsFit (l0.filled w) gs = true →
          t.launch? key = some { l0.filled w with groups := gs } ∧ t.mem = s.mem)) ∧
    (∀ k n l s2 seats, s.nextPlacement = some (k, n) → s.launch? k = some l →
      (State.launchStart { s with nextId := key + 1 } n k l key).loadPatterns k n l.patterns = some s2 →
      s2.seatAll n l.groups.zipIdx [] = some seats → Answers .taskPlacement s fun t =>
        t.disp.lastTeam = packageNumber n ∧ (t.team n).task = some key ∧ (t.team n).s = l.s ∧
        (∃ v : Task, t.task? key = some v ∧ v.launch = k ∧ v.num = l.nextTask ∧ (v.x, v.y) = l.coords l.nextTask ∧ v.team = n ∧
          v.budget = l.budget ∧ v.live = seats.length) ∧
        (∃ m, t.launch? k = some m ∧ m.nextTask = l.nextTask + 1 ∧ m.liveTasks = l.liveTasks + 1) ∧
        t.disp.placing = s.disp.placing ++ [{ task := key, todo := seats, arg := l.arg }] ∧
        (∀ c j, c < 4 → j < 16 → t.readS (coreAt n c) j = 0) ∧
        (∀ c p, c < 4 → p < 31 → let core := coreAt n c
          ((∃ q ∈ l.patterns, q.core = c ∧ s.keepsPattern k n q = true ∧ q.e.ports.getLsbD p = true) →
            ((t.core core).mport p).msgs = ((s.core core).mport p).msgs) ∧
          (l.patterns = [] → (t.core core).mport p = {}))) ∧
    (∀ core rest p q v, s.cur = none → s.pkg.answers = true → s.todo = .place core :: rest → s.nextSeat core = some (p, q) →
      s.task? p.task = some v → ∃ t, Machine.step s = .next t ∧ t.mem = s.mem ∧ ∃ u,
        t.thread? (64 * core + q.slot) = some u ∧ u.pc = q.pc ∧ u.base = q.base ∧ u.w = q.w ∧ u.launch = v.launch ∧
        u.task = p.task ∧ u.run = .ready ∧ (p.todo = [q] → u.notBefore = s.cycle + 1) ∧
        (∀ i, i < q.w → t.readG (64 * core + q.slot) i = (match i with
          | 0 => BitVec.ofNat 64 (v.x + 2 ^ 32 * v.y)
          | 1 => BitVec.ofNat 64 (q.index + 2 ^ 8 * q.group + 2 ^ 32 * v.num)
          | 2 => p.arg
          | _ => 0))) ∧
    (∀ k v l, s.subj.n = k → s.task? k = some v → s.launch? v.launch = some l → v.ended = true → l.held = false →
      (s.successorOf l v.launch v.succ = none → Answers .successor s fun t => t.mem = s.mem ∧
        t.disp.tasks = SMap.del s.disp.tasks k ∧ ∃ m, t.launch? v.launch = some m ∧ m.dropped = l.dropped + 1) ∧
      (∀ gs arg seats, s.successorOf l v.launch v.succ = some (gs, arg) → s.seatAll v.team gs.zipIdx [] = some seats →
        Answers .successor s fun t => t.mem = s.mem ∧
          t.task? k = some { v with ended := false, succ := 0, live := seats.length, budget := l.budget } ∧
          t.disp.placing = s.disp.placing ++ [{ task := k, todo := seats, arg := arg }])) ∧
    (∀ k l, s.subj.n = k → s.launch? k = some l → s.launchOver k = true → Answers .launchEnd s fun t => t.mem = s.mem ∧
      (∃ m, t.launch? k = some m ∧ m.ended = true) ∧ t.disp.order = s.disp.order.filter (· != k) ∧
      (l.notify = true → Sent s t (targetCore l.doneTarget) (.message (targetCore l.doneTarget) (targetPort l.doneTarget)
        (BitVec.ofNat 64 (l.handle % 2 ^ 16))
        (BitVec.ofNat 64 (l.dropped % 2 ^ 16 + if l.refused then 2 ^ 63 else 0)) false 0 0)))) ∧
  ((∀ w0 w1 w2 w3 w4 w5 w6 w7 : Word,
    let f := fun (w : Word) (lo len : Nat) => w.toNat / 2 ^ lo % 2 ^ len
    let x := f w0 0 24
    let y := f w0 24 24
    lpbOk [w0, w1, w2, w3, w4, w5, w6, w7] = true ↔
      1 ≤ x ∧ 1 ≤ y ∧ x * y < 2 ^ 32 ∧ f w0 50 3 ≤ 6 ∧ f w0 60 4 = 0 ∧ w1.toNat % 16 = 0 ∧
      1 ≤ f w2 0 5 ∧ f w2 0 5 ≤ 16 ∧ f w2 5 3 = 0 ∧ f w2 8 5 ≤ 16 ∧ f w2 13 3 = 0 ∧ f w2 16 4 ≤ 12 ∧ f w2 20 12 = 0 ∧
      f w2 48 16 = 0 ∧ w3.toNat % 8 = 0 ∧ w4.toNat % 8 = 0 ∧ (w4 = 0 ↔ w3 = 0) ∧ f w6 29 34 = 0 ∧ w7.toNat % 64 = 0 ∧
      (w7 = 0 ↔ w3 = 0)) ∧
  (∀ a p : Word, let f := fun (w : Word) (lo len : Nat) => w.toNat / 2 ^ lo % 2 ^ len
    let ok := f a 2 6 = 0 ∧ f a 14 2 = 0 ∧ f a 20 44 = 0 ∧ 1 ≤ f a 8 6 ∧ 1 ≤ f a 16 4 ∧ f a 16 4 ≤ 12 ∧ p.toNat % 4 = 0 ∧
      f p 48 16 = 0
    (ok → slotGroups [a, p] = some [{ core := f a 0 2, count := f a 8 6, w := 8 * f a 16 4, pc := BitVec.ofNat 48 p.toNat }]) ∧
    (¬ ok → slotGroups [a, p] = none)))

/-! ### Engines, the system class and the host (R296 to R340) -/

/-- The instructions of the copy and bank engines at issue (R40, R305, R306, R310 to R312). A command whose word n is the first
faulty one traps with reason 16 + n. CPY, CPYS and BMV with room, and for the last two with no thread of the core waiting
before, enter a copy of their registers in the core's FIFO and write its sequence number; CPY without room writes FULL, and
the others wait with their command. CPYX waits in any case, with its command entered when there was room. BFENCE waits. BSTAT
writes the snapshot of the FIFO that its core has, and is refused for the other. Which word of a copy or bank command is the
first faulty one (R38, R297, R298, R307, R308, Tables FM-15, CB-1 and CB-6): every field in its range, every reserved field
zero, offsets aligned and inside the SRAM, and an accepted target. Where the manual is silent or is read by inference it is
the model's choice: log 37, 105. -/
def Obligations.EngineInstructions : Prop :=
  (∀ (sm : Bool) (rd : Reg) (a : Fin 96) (e : BitVec 4) (x : BitVec 3) (s : State) (tk : Nat) (th : Thread), Canonical s → Sized s →
    th.carry = none →
    let core := coreOf tk
    let k := s.core core
    let cmd := (List.range 4).map fun j => s.readG tk (a.val + j)
    let cpy := Instr.cpy sm rd (.g a)
    let cpys := Instr.cpys sm rd (.g a) e
    let cpyx := Instr.cpyx sm rd (.g a) e
    let bmv := Instr.bmv sm rd (.g a) e
    let fence := Instr.bfence sm e
    let stat := Instr.bstat sm rd x
    let entry := fun (m : Cmd) (seq : Nat) => m.words = cmd ∧ m.tk = tk ∧ m.pc = th.pc ∧ m.seq = seq ∧ m.launch = th.launch
    let copied := fun (t : State) => (t.core core).copySeq = (k.copySeq + 1) % 2 ^ 16 ∧
      ∃ m : Cmd, (t.core core).copyQ = k.copyQ ++ [m] ∧ entry m k.copySeq ∧ m.wid = 0
    let done := fun (t : State) (u : Thread) (seq : Nat) => u.pc = th.pc + 4 ∧ codeOf u = 0 ∧ t.mem = s.mem ∧
      Puts s t tk rd (BitVec.ofNat 64 seq)
    let waits := fun (u : Thread) (i : Instr) (P : Wait → Prop) =>
      ∃ w, u.run = .wait w ∧ u.pc = th.pc ∧ w.instr = i ∧ w.vals = cmd ∧ w.deadline = boundOf s e ∧ P w
    let bad := fun (i : Instr) (f : Option Nat) => ∀ n, f = some n → Machine.exec i s =
      .next ((s.trap tk 1 (16 + n) (prefixOf th ++ encode i)).takeTurn tk)
    (Ready cpy s tk th → bad cpy (s.copyFault tk cmd false) ∧ (s.copyFault tk cmd false = none →
      (k.copyQ.length < 4 → Completes cpy s tk fun t u => done t u k.copySeq ∧ copied t) ∧
      (4 ≤ k.copyQ.length → Completes cpy s tk fun t u => u.pc = th.pc + 4 ∧ codeOf u = 2 ∧ t.rf = s.rf ∧
        (t.core core).copyQ = k.copyQ))) ∧
    (Ready cpys s tk th → bad cpys (s.copyFault tk cmd false) ∧ (s.copyFault tk cmd false = none →
      (k.copyQ.length < 4 → s.pushWaiting core = false → Completes cpys s tk fun t u => done t u k.copySeq ∧ copied t) ∧
      (4 ≤ k.copyQ.length ∨ s.pushWaiting core = true → Completes cpys s tk fun t u => t.rf = s.rf ∧
        (t.core core).copyQ = k.copyQ ∧ waits u cpys fun _ => True))) ∧
    (Ready cpyx s tk th → bad cpyx (s.copyFault tk cmd true) ∧ (s.copyFault tk cmd true = none →
      (k.copyQ.length < 4 → s.pushWaiting core = false → Completes cpyx s tk fun t u => t.rf = s.rf ∧
        waits u cpyx fun w => w.stage = 1 ∧ w.count = k.copySeq ∧
          ∃ m : Cmd, (t.core core).copyQ = k.copyQ ++ [m] ∧ entry m k.copySeq ∧ m.wid = w.id) ∧
      (4 ≤ k.copyQ.length ∨ s.pushWaiting core = true → Completes cpyx s tk fun t u => t.rf = s.rf ∧
        (t.core core).copyQ = k.copyQ ∧ waits u cpyx fun w => w.stage = 0))) ∧
    (Ready bmv s tk th → bad bmv (s.bankFault tk cmd) ∧ (s.bankFault tk cmd = none →
      (k.bankQ.length < 8 → s.pushWaiting core = false → Completes bmv s tk fun t u => done t u k.bankSeq ∧
        u.bankCount = th.bankCount + 1 ∧ (t.core core).bankSeq = (k.bankSeq + 1) % 2 ^ 16 ∧
        ∃ m : Cmd, (t.core core).bankQ = k.bankQ ++ [m] ∧ entry m k.bankSeq) ∧
      (8 ≤ k.bankQ.length ∨ s.pushWaiting core = true → Completes bmv s tk fun t u => t.rf = s.rf ∧
        (t.core core).bankQ = k.bankQ ∧ waits u bmv fun _ => True))) ∧
    (Ready fence s tk th → Completes fence s tk fun t u => t.rf = s.rf ∧ t.mem = s.mem ∧
      Waits s tk th u fence (boundOf s e) fun _ => True) ∧
    (Ready stat s tk th → x.toNat ≤ 1 →
      (isChannel core = true → x = 0 → Completes stat s tk fun t u => done t u (k.bankQ.length +
        2 ^ 4 * (if k.bankRun.isSome then 1 else 0) + 2 ^ 8 * (th.bankCount % 2 ^ 16) + 2 ^ 24 * (if th.bankFault then 1 else 0) +
        2 ^ 32 * k.bankSeq)) ∧
      (isChannel core = false → x = 1 → Completes stat s tk fun t u => done t u (k.copyQ.length +
        2 ^ 3 * ((s.engine (engineOf core)).active.filter fun y => coreOf y.cmd.tk == core).length + 2 ^ 32 * k.copySeq)) ∧
      (isChannel core ≠ (x == 0) → Completes stat s tk fun t u => u.pc = th.pc + 4 ∧ codeOf u = 4 ∧ Puts s t tk rd 0))) ∧
  (∀ (s : State) (tk : Nat) (w0 w1 w2 w3 : Word) (x : Bool),
    let f := fun (w : Word) (lo len : Nat) => w.toNat / 2 ^ lo % 2 ^ len
    let window := fun (w : Word) => f w 48 1 = 1
    let compact := fun (w : Word) => window w → f w 21 18 = 0 ∧ (f w 45 3 < 4 ∨ f w 39 6 < 48)
    let bytes := fun (c : Nat) => if c = 1 ∨ c = 8 then 4 else 2
    let kind := f w0 60 4
    let elem := bytes (f w0 56 4)
    let size := (s.team (nodeOf (coreOf tk))).s
    let isz := if f w1 20 1 = 1 then 8 else 4
    let target := f w3 30 2 = 0 ∧ (f w3 29 1 = 1 → s.targetRefused tk (BitVec.ofNat 64 (f w3 0 29)) = false)
    let ok0 := kind ≤ 3 ∧ f w0 49 2 = 0 ∧ compact w0 ∧
      (kind = 3 → f w0 56 4 ∈ [1, 2, 3, 8] ∧ f w0 54 2 ≠ 3 ∧ window w0 ∧ f w0 45 3 < 4 ∧ f w0 0 21 % elem = 0) ∧
      (kind ≠ 3 → f w0 56 4 = 0 ∧ f w0 54 2 = 0 ∧ f w0 53 1 = 0)
    let ok1 := (kind = 0 → 1 ≤ f w1 0 32 ∧ f w1 32 32 = 0) ∧ (kind = 1 → 1 ≤ f w1 0 16 ∧ 1 ≤ f w1 16 16) ∧
      (kind = 2 → 1 ≤ f w1 0 16 ∧ f w1 16 4 ≤ 12 ∧ f w1 21 1 = 0 ∧ f w1 43 21 = 0 ∧ f w1 22 21 % isz = 0 ∧
        f w1 22 21 + f w1 0 16 * isz ≤ size) ∧
      (kind = 3 → f w1 0 32 % elem = 0 ∧ f w1 52 12 = 0 ∧ (f w0 53 1 = 1 ∨ f w1 32 20 = 0))
    let ok2 := kind = 3 → w2.toNat % elem = 0
    let ok3 := target ∧ f w3 48 16 = 0 ∧ (x = true → f w3 0 30 = 0)
    let copy := s.copyFault tk [w0, w1, w2, w3] x
    let place := fun (w : Word) (n : Nat) => f w 60 4 ∈ [1, 2, 3] ∧ compact w ∧ (window w → f w 0 21 % bytes (f w 60 4) = 0) ∧
      (¬ window w → f w 19 29 = 0 ∧ f w 0 19 % bytes (f w 60 4) = 0 ∧ f w 0 19 + n * bytes (f w 60 4) ≤ 0x80000)
    let load := f w3 62 2 ≠ 0
    let b0 := (load → f w0 60 4 = 4 ∧ f w0 51 9 = 0 ∧ f w0 42 9 = 0) ∧
      (¬ load → f w0 60 4 ∈ [2, 3, 4] ∧ 1 ≤ f w0 51 9 ∧ 1 ≤ f w0 42 9)
    let b1 := (load → w1 = 0) ∧ (¬ load → f w1 49 11 = 0 ∧ place w1 (16 * f w0 42 9))
    let b2 := (load → w2 = 0) ∧ (¬ load → f w2 49 10 = 0 ∧ place w2 (16 * f w0 51 9))
    let b3 := target ∧ f w3 48 14 = 0
    let bank := s.bankFault tk [w0, w1, w2, w3]
    (¬ ok0 → copy = some 0) ∧ (ok0 → ¬ ok1 → copy = some 1) ∧ (ok0 → ok1 → ¬ ok2 → copy = some 2) ∧
      (ok0 → ok1 → ok2 → ¬ ok3 → copy = some 3) ∧ (ok0 → ok1 → ok2 → ok3 → copy = none) ∧
    (¬ b0 → bank = some 0) ∧ (b0 → ¬ b1 → bank = some 1) ∧ (b0 → b1 → ¬ b2 → bank = some 2) ∧
      (b0 → b1 → b2 → ¬ b3 → bank = some 3) ∧ (b0 → b1 → b2 → b3 → bank = none))

/-- The copy and bank engines (R296, R299 to R302, R305 to R311). An engine grants the head of the next FIFO after the last
granted whose head may be granted, so that a sequenced head not yet admitted is passed over. A copy's next bytes, up to a line
end of its source or destination and 128 in a cycle, are moved when the ports of their banks serve them, and no other byte; a
row or element is checked whole at its start, byte for byte the source before the destination, and the first fault stops the
copy; a page that is not in the TLB is walked first (R129). An update of kind 3 replaces its element by the reduction of old
and new. A sequenced command is admitted when its number is its domain's. A complete command leaves its engine and is told to
the waiting CPYX, with OK or FAULTED and the completion word, or by its message, or on a fault by a report. A bank command
starts with its vector read; a table load sets one table word; a tile row of a product is rounded once for each tile and
written in the result's format; its completion frees the engine and the thread's count. A bound that expires ends a push or
fence with TIMEOUT, a pushed CPYX with its sequence number in rd. That an s-register rd has the cycle of the completion as its
write cycle is read by inference (log 65). Where the manual is silent or is read by inference it is the model's choice: log 2,
13, 35, 36, 65, 78, 87. -/
def Obligations.Engines : Prop :=
  ∀ (s : State), Canonical s → Sized s →
    let n := s.subj.n
    let k := s.core n
    let g := s.engine n
    let find := fun (a : Active) => g.active.find? (fun y => y.cmd.id == s.subj.m) = some a
    let node := fun (a : Active) => nodeOf (coreOf a.cmd.tk)
    let f := fun (c : List Word) (w lo len : Nat) => (c.getD w 0).toNat / 2 ^ lo % 2 ^ len
    let saved := fun (a : Active) (x : Target) => ∀ nd off, x = .window nd off → s.savedTeam nd a.cmd.id = none
    let skipped := fun (core : Nat) => ∀ m rest, (s.core core).copyQ = m :: rest → (s.team (nodeOf core)).stopped = true ∨
      (f m.words 0 60 4 = 3 ∧ f m.words 0 53 1 = 1 ∧ m.admitted = false)
    (∀ user id banks, s.portAsks = [] →
      ((s.askPorts user id banks).1 = true ↔ banks.Nodup ∧ ∀ b ∈ banks, b ∉ s.banksUsed)) ∧
    (∀ d m rest, d < 8 → g.active.length < 4 →
      let core := engineCore n ((g.last + 1 + d) % 8)
      (∀ j, j < d → skipped (engineCore n ((g.last + 1 + j) % 8))) → (s.core core).copyQ = m :: rest → ¬ skipped core → Answers .copyGrant s fun t =>
        (t.core core).copyQ = rest ∧ (t.engine n).last = (g.last + 1 + d) % 8 ∧
        (t.engine n).active = g.active ++ [{ cmd := m }] ∧ t.mem = s.mem) ∧
    (∀ m rest, k.copyQ = m :: rest → m.gatedBy = true → (s.team (cpTeam m.words)).domains.getD (cpDom m.words) 0 = cpNum m.words →
      s.savedTeam (cpTeam m.words) m.id = none → Answers .domainAnswer s fun t => (t.core n).copyQ = { m with admitted := true } :: rest) ∧
    (∀ e a rest, s.cur = none → s.pkg.answers = true → s.todo = .beat e a.cmd.id :: rest → e < 1024 →
      (s.engine e).active.find? (fun y => y.cmd.id == a.cmd.id) = some a → s.copyMoves e a = true → s.waiters = [] →
      f a.cmd.words 0 60 4 ≤ 2 →
      let c := a.cmd.words
      let kind := f c 0 60 4
      let size := if kind = 0 then f c 1 0 32 else if kind = 1 then f c 1 0 16 else 2 ^ f c 1 16 4
      let count := if kind = 0 then 1 else if kind = 1 then f c 1 16 16 else f c 1 0 16
      let i := a.pos / size
      let j := a.pos % size
      let isz := if f c 1 20 1 = 1 then 8 else 4
      let index := s.readAt (sramKey (node a) (f c 1 22 21 + i * isz)) isz
      let w2 := (c.getD 2 0).toNat
      let piece := (if kind = 0 then w2 else if kind = 1 then w2 + 16 * f c 1 32 16 * i else w2 + index * size) % 2 ^ 64
      let to' := (fullAddress (c.getD 0 0) + if kind = 0 then 0 else if kind = 1 then 16 * f c 1 48 16 * i else i * size) % 2 ^ 64
      let plan : Except (Nat × Nat) (List (Nat × Target × Target)) :=
        if kind = 0 then s.rowPlan (node a) a.cmd 1 (piece + j) (to' + j) (size - j)
        else if j ≠ 0 then .ok a.plan
        else if kind = 2 ∧ piece % size ≠ 0 then .error (2, piece)
        else s.rowPlan (node a) a.cmd size piece to' size
      let walks := fun (x : Nat × Nat) => x.1 = 4 ∧ s.translate (node a) a.cmd.launch x.2 false = .miss ∧ a.noLeaf ≠ some (x.2 / 65536)
      let mine := fun (t : State) (P : Active → Prop) => ∃ b, (t.engine e).active.find? (fun y => y.cmd.id == a.cmd.id) = some b ∧ P b
      (count * size ≤ a.pos → ∃ t, Machine.step s = .next t ∧ t.mem = s.mem ∧ mine t fun b => b.finished = true ∧ b.fault = a.fault) ∧
      (∀ x, a.pos < count * size → plan = .error x →
        (¬ walks x → ∃ t, Machine.step s = .next t ∧ t.mem = s.mem ∧ mine t fun b =>
          b.finished = true ∧ b.fault = x.1 ∧ b.addr = BitVec.ofNat 64 x.2) ∧
        (walks x → ∃ t, Machine.step s = .next t ∧ t.mem = s.mem ∧ (mine t fun b => b.finished = a.finished ∧ b.pos = a.pos) ∧
          ∃ w ∈ (t.team (node a)).walks, w.launch = a.cmd.launch ∧ w.va / 65536 = x.2 / 65536)) ∧
      (∀ m x y rest, a.pos < count * size → plan = .ok ((m, x, y) :: rest) → 0 < m →
        let bytes := min 128 m
        let banks := (if kind = 2 ∧ j = 0 then banksOf (node a) (f c 1 22 21 + i * isz) isz else []) ++ x.banks bytes ++ y.banks bytes
        saved a y → (s.askPorts .copy a.cmd.id banks).1 = false → ∃ u, Machine.step s = .next u ∧ u.mem = s.mem ∧
          mine u fun b => b.pos = a.pos ∧ b.written = a.written ∧ b.finished = false) ∧
      (∀ m x y rest, a.pos < count * size → plan = .ok ((m, x, y) :: rest) → 0 < m →
        let bytes := min 128 m
        let banks := (if kind = 2 ∧ j = 0 then banksOf (node a) (f c 1 22 21 + i * isz) isz else []) ++ x.banks bytes ++ y.banks bytes
        (s.askPorts .copy a.cmd.id banks).1 = true → (s.engineMove x y (s.localBytes (Target.key x) bytes) (f c 0 51 2)).isSome = true →
        saved a y → ∃ u : State, Machine.step s = .next (u.copyBytes e a.cmd.id 128 (128 - bytes)) ∧
          (∀ k, k < bytes → u.byte (Target.key y + k) = s.localByte (Target.key x + k)) ∧ OnlyBytes s u (Target.key y) bytes ∧
          mine u fun b => b.pos = a.pos + bytes ∧ b.written = a.written + bytes ∧ b.finished = false)) ∧
    (∀ nd m fuel src dst len, src < 2 ^ 64 → dst < 2 ^ 64 → len ≠ 0 →
      let k := min len (min (64 - src % 64) (64 - dst % 64))
      let plan := s.rowPlan nd m (fuel + 1) src dst len
      let from' := s.engineXlat nd m.launch m.id src k false
      let to' := s.engineXlat nd m.launch m.id dst k true
      (∀ x, from' = .error x → plan = .error (x, src)) ∧ (∀ x y, from' = .ok x → to' = .error y → plan = .error (y, dst)) ∧
      (∀ x y, from' = .ok x → to' = .ok y → s.rowPlan nd m fuel (src + k) (dst + k) (len - k) = .ok [] → plan = .ok [(k, x, y)]) ∧
      (∀ x y z, from' = .ok x → to' = .ok y → s.rowPlan nd m fuel (src + k) (dst + k) (len - k) = .error z → plan = .error z)) ∧
    (∀ a x y, find a → a.finished = false → f a.cmd.words 0 60 4 = 3 → s.waiters = [] →
      let c := a.cmd.words
      let rop := f c 0 54 2
      let fmt := f c 0 56 4
      let size := if fmt = 1 ∨ fmt = 8 then 4 else 2
      let src := ((c.getD 2 0).toNat + a.pos * size) % 2 ^ 64
      let dst := (fullAddress (c.getD 0 0) + a.pos * size) % 2 ^ 64
      let own := s.savedTeam (cpTeam c) a.cmd.id = none
      fmt ∈ [1, 2, 3, 8] → (own → f c 1 0 32 / size ≤ a.pos → Answers .reduceUpdate s fun t => t.mem = s.mem ∧
        ∀ b ∈ (t.engine n).active, b.cmd.id = a.cmd.id → b.finished = true) ∧
      (a.pos < f c 1 0 32 / size → s.engineXlat (node a) a.cmd.launch a.cmd.id src size false = .ok x →
        s.engineXlat (node a) a.cmd.launch a.cmd.id dst size true = .ok y →
        (s.askPorts .reduce a.cmd.id (x.banks size ++ y.banks size)).1 = true → (∀ bs, (s.engineMove x y bs (f c 0 51 2)).isSome = true) →
        Answers .reduceUpdate s fun t => OnlyBytes s t (Target.key y) size ∧ t.fe = s.fe ∧
          (∃ b, (t.engine n).active.find? (fun y => y.cmd.id == s.subj.m) = some b ∧ b.pos = a.pos + 1) ∧
          (let d := bytesAt s (Target.key y) size
           let v := s.readAt (Target.key x) size
           bytesAt t (Target.key y) size = (match rop with
            | 0 => (match floatOf fmt with
              | some m => m.round ((m.value d).add (m.value v))
              | none => d + v)
            | r => pickOf fmt (decide (r ≠ 1)) d v) % 2 ^ (8 * size)))) ∧
    (∀ a, find a → s.copyDone n a = true →
      let w0 := 2 ^ 60 * cpKind a.cmd.words + 2 ^ 57 * (if a.fault = 0 then 0 else 6) + 2 ^ 52 * a.fault +
        2 ^ 32 * cmdTag a.cmd.words + 2 ^ 22 * coreInTeam (coreOf a.cmd.tk) + 2 ^ 16 * slotOf a.cmd.tk + a.cmd.seq
      Answers .copyComplete s fun t => (∀ b ∈ (t.engine n).active, b.cmd.id ≠ a.cmd.id) ∧ t.mem = s.mem ∧
        (∀ th w sm rd ra e, a.cmd.wid ≠ 0 → s.thread? a.cmd.tk = some th → th.run = .wait w → w.id = a.cmd.wid →
          w.instr = .cpyx sm rd ra e → EndsWith s t a.cmd.tk th (if a.fault = 0 then 0 else 6) ∧
            Puts s t a.cmd.tk rd (BitVec.ofNat 64 w0)) ∧
        (a.cmd.wid = 0 → f a.cmd.words 3 29 1 = 0 → a.fault ≠ 0 → Sent s t (coreOf a.cmd.tk) (.message (coreOf a.cmd.tk) 31
          (BitVec.ofNat 64 (2 ^ 59 * 8 + 2 ^ 54 * a.fault + 2 ^ 48 * slotOf a.cmd.tk + a.cmd.pc.toNat)) a.addr true
          (slotOf a.cmd.tk) a.cmd.launch)) ∧
        (a.cmd.wid = 0 → f a.cmd.words 3 29 1 = 0 → a.fault = 0 → t.packets = s.packets) ∧
        (a.cmd.wid = 0 → cmdNotify a.cmd.words = true →
          s.savedTeam (nodeOf (targetCore (cmdTarget a.cmd.words))) a.cmd.id = none → Sent s t (targetCore (cmdTarget a.cmd.words))
          (.message (targetCore (cmdTarget a.cmd.words)) (targetPort (cmdTarget a.cmd.words)) (BitVec.ofNat 64 w0)
            (if a.fault = 0 then BitVec.ofNat 64 a.written else a.addr) false (slotOf a.cmd.tk) a.cmd.launch))) ∧
    (∀ m rest v, k.bankQ = m :: rest → s.bankStarts n = true → bmOp m.words = 0 →
      (∀ b ∈ placeBanks n (cw m.words 1) 0 (16 * bmCols m.words), b ∉ s.banksUsed) → s.portAsks = [] →
      s.bankRead n m.launch m.id false (cw m.words 1) 0 (16 * bmCols m.words) = .ok v → Answers .bankCommandStart s fun t =>
        (t.core n).bankQ = rest ∧ t.mem = s.mem ∧ ∃ a : Active, (t.core n).bankRun = some a ∧ a.cmd = m ∧ a.vec = v ∧
          a.pos = (cw m.words 0).toNat % 2 ^ 42 * 64 ∧ a.written = 0 ∧ a.finished = false) ∧
    (∀ core a rest, s.cur = none → s.pkg.answers = true → s.todo = .beat core 0 :: rest → 1024 ≤ core →
      (s.core core).bankRun = some a → a.finished = false → a.readAt ≤ s.cycle → s.waiters = [] →
      let c := a.cmd.words
      let cols := f c 0 42 9
      let fmt := f c 2 60 4
      let size := if fmt = 1 then 4 else 2
      let run := fun (t : State) (P : Active → Prop) => ∃ b, (t.core core).bankRun = some b ∧ P b
      (∀ bs, f c 3 62 2 ≠ 0 → s.matrixBytes core a.cmd.launch a.pos 8 = .ok bs → ∃ t, Machine.step s = .next t ∧ t.mem = s.mem ∧
        (t.core core).bankTables = (s.core core).bankTables.set (f c 3 62 2 - 1)
          (BitVec.ofNat 64 ((List.range 8).map fun j => (bs.getD j 0).toNat * 256 ^ j).sum) ∧ run t fun b => b.finished = true) ∧
      (∀ (tiles : Nat → List Val) (addr : Nat → Nat) (key : Nat), f c 3 62 2 = 0 → fmt ∈ [1, 2, 3] →
        (∀ b ∈ placeBanks core (cw c 2) a.written 16, b ∉ s.banksUsed) → s.portAsks = [] → addr 0 = a.pos →
        (∀ j, j < cols → addr j ≤ addr (j + 1) ∧
          s.bankTile core a.cmd.launch (f c 0 60 4) (addr j) = .ok (tiles j, addr (j + 1) - addr j)) →
        (∀ m i write update, i < 16 → State.bankPlace { s with mem := m } core a.cmd.launch a.cmd.id (cw c 2) ((a.written + i) * size) size
          write update = .ok (key + i * size)) →
        let zero : Val := .fin false 0 0
        let start := fun (i : Nat) => if f c 2 59 1 = 1
          then BitVec.ofNat 36 (a36.round (valueOf fmt (s.readAt (key + i * size) size))) else (0 : BitVec 36)
        let vec := fun (x : Nat) => valueOf (f c 1 60 4) (a.vec.getD x 0)
        let cell := fun (i : Nat) => (List.range cols).foldl (fun (y : BitVec 36) j => BitVec.ofNat 36 (a36.round (sumVals
          (a36.value y.toNat :: (List.range 16).map fun x => ((tiles j).getD (16 * i + x) zero).mul (vec (16 * j + x)))))) (start i)
        a.vec.length = 16 * cols → ∃ t, Machine.step s = .next t ∧ OnlyBytes s t key (16 * size) ∧
          (∀ i, i < 16 → bytesAt t (key + i * size) size = convert (a36.value (cell i).toNat) fmt % 2 ^ (8 * size)) ∧
          run t fun b => b.pos = addr cols ∧ b.written = a.written + 16 ∧
            b.finished = decide (16 * f c 0 51 9 ≤ a.written + 16))) ∧
    (∀ core launch fmt ea key die chan, fmt = 2 ∨ fmt = 3 → channelCore die chan = core →
      (∀ j, j < 512 → s.engineXlat (nodeOf core) launch 0 ((ea + j) % 2 ^ 64) 1 false = .ok (.bank (key + j) die chan)) →
      s.bankTile core launch fmt ea = .ok ((List.range 256).map fun j => valueOf fmt (bytesAt s (key + 2 * j) 2), 512)) ∧
    (∀ core launch ea key die chan (e pos : Nat → Nat), channelCore die chan = core →
      let b := fun (j : Nat) => (s.byte (key + j)).toNat
      let h := b 0 + 2 ^ 8 * b 1 + 2 ^ 16 * b 2 + 2 ^ 24 * b 3
      let l := h / 2 ^ 16 % 64
      let t := h / 2 ^ 30
      let len := fun (k : Nat) => if t = 3 then 4 else ((s.core core).bankTables.getD t 0).toNat / 16 ^ k % 16
      let before := fun (k y : Nat) => decide (len y < len k) || (len y == len k && decide (y < k))
      let code := fun (k : Nat) => if t = 3 then k else
        (((List.range 16).filter (before k)).map fun y => 2 ^ (8 - len y)).sum / 2 ^ (8 - len k)
      let bit := fun (q : Nat) => b (132 + q / 8) / 2 ^ (7 - q % 8) % 2
      let first := fun (i m : Nat) => ((List.range m).map fun x => bit (pos i + x) * 2 ^ (m - 1 - x)).sum
      (∀ j, j < 16 * l → s.engineXlat (nodeOf core) launch 0 ((ea + j) % 2 ^ 64) 1 false = .ok (.bank (key + j) die chan)) →
      h % 2 ^ 16 = 0 → 9 ≤ l → l ≤ 25 →
      (t < 3 → (∀ k, k < 16 → 1 ≤ len k ∧ len k ≤ 8) ∧ ((List.range 16).map fun k => 2 ^ (8 - len k)).sum = 256) →
      pos 0 = 0 → 1056 + pos 256 ≤ 128 * l → (∀ q, pos 256 ≤ q → 1056 + q < 128 * l → bit q = 0) →
      (∀ i, i < 256 → e i < 16 ∧ pos (i + 1) = pos i + len (e i) ∧ ∀ m y, m ≤ len (e i) → y < 16 →
        (len y = m ∧ code y = first i m ↔ m = len (e i) ∧ y = e i)) →
      s.bankTile core launch 4 ea = .ok ((List.range 256).map fun i =>
        let nib := b (4 + i / 2) / 16 ^ (i % 2) % 16
        (zf8.value (nib / 8 * 128 + e i * 8 + nib % 8)).mul (.fin false 1 (((h / 2 ^ 22 % 256 : Nat) : Int) - 127)), 16 * l)) ∧
    (∀ a th, k.bankRun = some a → a.finished = true → a.readAt ≤ s.cycle → s.thread? a.cmd.tk = some th → th.born < a.cmd.id →
      a.cmd.wid = 0 → Answers .bankComplete s fun t => (t.core n).bankRun = none ∧ t.mem = s.mem ∧
        t.thread? a.cmd.tk = some { th with bankCount := th.bankCount - 1, bankFault := th.bankFault || a.fault != 0 } ∧
        let product := f a.cmd.words 3 62 2 = 0
        let target := cmdTarget a.cmd.words
        let w0 := 2 ^ 60 * (if product then 15 else 14) + 2 ^ 57 * (if a.fault = 0 then 0 else 6) + 2 ^ 52 * a.fault +
          2 ^ 32 * cmdTag a.cmd.words + 2 ^ 22 * coreInTeam (coreOf a.cmd.tk) + 2 ^ 16 * slotOf a.cmd.tk + a.cmd.seq
        (cmdNotify a.cmd.words = false → a.fault = 0 → t.packets = s.packets) ∧
        (cmdNotify a.cmd.words = false → a.fault ≠ 0 → Sent s t (coreOf a.cmd.tk) (.message (coreOf a.cmd.tk) 31
          (BitVec.ofNat 64 (2 ^ 59 * 8 + 2 ^ 54 * a.fault + 2 ^ 48 * slotOf a.cmd.tk + a.cmd.pc.toNat)) a.addr true
          (slotOf a.cmd.tk) a.cmd.launch)) ∧
        (cmdNotify a.cmd.words = true → s.savedTeam (nodeOf (targetCore target)) a.cmd.id = none → Sent s t (targetCore target)
          (.message (targetCore target) (targetPort target) (BitVec.ofNat 64 w0) (if a.fault = 0 then
            BitVec.ofNat 64 (if product then a.written else 0) else a.addr) false (slotOf a.cmd.tk) a.cmd.launch))) ∧
    (∀ th w, s.thread? n = some th → th.run = .wait w → w.id = s.subj.m →
      (Answers .bfenceTimeout s fun t => t.rf = s.rf ∧ t.mem = s.mem ∧ EndsWith s t n th 1) ∧
      (Answers .enginePushTimeout s fun t => t.mem = s.mem ∧ EndsWith s t n th 1 ∧ ∀ sm rd ra e, w.instr = .cpyx sm rd ra e →
        w.stage = 1 → Puts s t n rd (BitVec.ofNat 64 w.count))) ∧
    (∀ tk th w sm e rest, s.cur = none → s.pkg.answers = true → s.todo = .resume tk :: rest → s.thread? tk = some th →
      th.run = .wait w → w.instr = .bfence sm e → th.bankCount = 0 → ∃ t, Machine.step s = .next t ∧
        EndsWith s t tk th (if th.bankFault then 6 else 0) ∧ t.rf = s.rf ∧ ∃ u, t.thread? tk = some u ∧ u.bankFault = false)

/-- The CSR instructions of a listed register (R315, R316, Table SY-1). An access to a CSR that only firmware reaches, or a write
of one that the level may not write, raises the privilege trap with cause 2. CSRR reads the register: STATUS with the prefix
consumed (log 82), FERETRY, CYCLE, EVT, the window partition, which is empty on a channel core without a launch's thread, the
life cycle and the clock bin. CSRW, CSRS and CSRC write A, the old value or A, and the old value without A, in the bits that
the level may write, and rd gets the old value. Where the manual is silent or is read by inference it is the model's choice:
log 82. -/
def Obligations.ControlRegisters : Prop :=
  ∀ (sm : Bool) (rd ra : Reg) (n : BitVec 9) (s : State) (tk : Nat) (th : Thread), Canonical s → Sized s → csrListed n = true →
    let core := coreOf tk
    let c := s.core core
    let alone := 1024 ≤ core ∧ slotOf tk = 0 ∧ ∀ e ∈ s.threads, coreOf e.1 = core → slotOf e.1 ≠ 0 → e.2.launch = 0
    let part := fun (f : Launch → Nat) => match s.launch? th.launch with
      | some l => if alone then 0 else BitVec.ofNat 64 (f l)
      | none => 0
    let status := th.status &&& 0x00000000FFFFFFF7
    let value : Word :=
      if n = 0x000 then status
      else if n = 0x008 then c.feretry.zeroExtend 64
      else if n = 0x010 then BitVec.ofNat 64 s.cycle
      else if n = 0x020 then c.evt.zeroExtend 64
      else if n = 0x030 then part fun l => l.wpdie
      else if 0x031 ≤ n.toNat ∧ n.toNat ≤ 0x038 then part fun l => l.wpnode.getD (n.toNat - 0x031) 0
      else if n = 0x050 then BitVec.ofNat 64 s.pkg.lifecycle
      else if n = 0x051 then BitVec.ofNat 64 s.pkg.clkbin
      else 0
    let hidden := n = 0x040 ∨ n = 0x048 ∨ n = 0x049
    let open' := n = 0x000 ∨ n = 0x020 ∨ (n = 0x008 ∧ slotOf tk = 0)
    let trapped := fun (i : Instr) => Machine.exec i s = .next ((s.trap tk 9 2 ((encode i).zeroExtend 64)).takeTurn tk)
    (Ready (.csrr sm rd n) s tk th → (hidden → trapped (.csrr sm rd n)) ∧
      (¬ hidden → Completes (.csrr sm rd n) s tk fun t u => u.pc = th.pc + 4 ∧ u.status = status ∧ t.mem = s.mem ∧
        Puts s t tk rd value)) ∧
    (∀ i (f : Word → Word → Word), (i = Instr.csrw sm rd ra n ∧ f = fun _ a => a) ∨
        (i = .csrs sm rd ra n ∧ f = fun old a => old ||| a) ∨ (i = .csrc sm rd ra n ∧ f = fun old a => old &&& ~~~a) →
      Ready i s tk th → (¬ open' → trapped i) ∧
      (open' → Completes i s tk fun t u => u.pc = th.pc + 4 ∧ t.mem = s.mem ∧ Puts s t tk rd value ∧
        let new := f value (s.operand tk i 1)
        (n = 0x000 → u.status = (new &&& 7) ||| (status &&& ~~~7) ∧ (t.core core).feretry = c.feretry ∧ (t.core core).evt = c.evt) ∧
        (n ≠ 0x000 → u.status = status) ∧
        (n = 0x008 → (t.core core).feretry = new.extractLsb' 0 16 ∧ (t.core core).evt = c.evt) ∧
        (n = 0x020 → (t.core core).feretry = c.feretry ∧ (t.core core).evt =
          if slotOf tk = 0 then new.extractLsb' 0 10 else (c.evt &&& 0x300) ||| (new.extractLsb' 0 10 &&& 0x0FF))))

/-- The supervisor's instructions (R323, R325 to R328): from any slot but 0 they raise the privilege trap with cause 1. ERET with
a refused action word writes REFUSED, and else resumes the halted slot at its pc, or after it with the prefix dropped, or
frees it once its accesses are over, emptying its streams and zeroing its window. TLBI removes the entry of an address or all,
on a channel core those of its launch, empties the L1 that holds a line of a removed page, and ends at once when no walk was
in progress. CTXSV writes the image of a halted slot to the scratchpad, and only there, with its length in rd; CTXLD sets a
halted slot with the image's window, or a free slot, from an image, its registers and streams included, and gives up on one
that is refused with rd := 0. What the supervisor's instructions refuse, what a context image holds, and the event bits that
WFE finds (R315, R323, R324, R326 to R328). Where the manual is silent or is read by inference it is the model's choice: log
39, 40, 41. -/
def Obligations.SupervisorInstructions : Prop :=
  (∀ (sm : Bool) (rd ra rb : Reg) (e : BitVec 7) (s : State) (tk : Nat) (th : Thread), Canonical s → Sized s →
    th.carry = none →
    let core := coreOf tk
    let eret := Instr.eret sm ra
    let tlbi := Instr.tlbi sm ra e
    let save := Instr.ctxsv sm rd ra rb
    let load := Instr.ctxld sm rd ra rb
    (∀ i, i ∈ [eret, tlbi, save, load] → Ready i s tk th → slotOf tk ≠ 0 → Machine.exec i s =
      .next ((s.trap tk 9 1 ((encode i).zeroExtend 64)).takeTurn tk)) ∧
    (Ready eret s tk th → slotOf tk = 0 →
      let a := s.operand tk eret 0
      let z := 64 * core + a.toNat % 64
      let act := a.toNat / 2 ^ 8 % 4
      (s.eretRefused core a = true → Completes eret s tk fun t u => u.pc = th.pc + 4 ∧ codeOf u = 4 ∧ t.rf = s.rf) ∧
      (∀ v, s.eretRefused core a = false → s.thread? z = some v →
        let run : Run := if v.switchHeld = true ∧ 0 < s.outstanding z then .switch else .ready
        (act = 0 → Completes eret s tk fun t u => u.pc = th.pc + 4 ∧ codeOf u = 0 ∧ t.mem = s.mem ∧ t.rf = s.rf ∧
          t.thread? z = some { v with run := run, switchHeld := false, notBefore := s.cycle + 1 }) ∧
        (act = 1 → Completes eret s tk fun t u => u.pc = th.pc + 4 ∧ codeOf u = 0 ∧ t.mem = s.mem ∧ t.rf = s.rf ∧
          t.thread? z = some { v with
            pc := v.pc + 4, status := v.status &&& 0x00000000FFFFFFF7, run := run, switchHeld := false
            notBefore := s.cycle + 1 }) ∧
        (act = 2 → s.freeReady z = true → Completes eret s tk fun t u => u.pc = th.pc + 4 ∧ codeOf u = 0 ∧ t.mem = s.mem ∧
          t.thread? z = none ∧ (∀ y, y ≠ z → y ≠ tk → t.thread? y = s.thread? y) ∧ (∀ j, j < 8 → t.stream z j = {}) ∧
          (t.core core).zeroing = (s.core core).zeroing ++
            [{ slot := slotOf z, base := v.base, w := v.w, till := s.cycle + v.w / 8 }]) ∧
        (act = 2 → s.freeReady z = false → Completes eret s tk fun t u => t.rf = s.rf ∧
          Waits s tk th u eret none fun _ => True))) ∧
    (Ready tlbi s tk th → slotOf tk = 0 →
      ((s.team (nodeOf core)).walks = [] → Completes tlbi s tk fun t u => u.pc = th.pc + 4 ∧ codeOf u = 0 ∧ t.mem = s.mem ∧
        t.rf = s.rf ∧
        let a := (s.operand tk tlbi 0).toNat
        let m := s.team (nodeOf core)
        let gone := fun (x : TlbEntry) => if e = 1 then core < 1024 ∨ x.launch = th.launch
          else (∃ l, s.launch? th.launch = some l ∧ x.root = l.root) ∧ (core < 1024 ∨ x.launch = th.launch) ∧ x.va ≤ a ∧
            a < x.va + x.size
        (∀ x, x ∈ (t.team (nodeOf core)).tlb ↔ x ∈ m.tlb ∧ ¬ gone x) ∧
        let page := fun (p : PageRef) => e = 1 ∨ ((∃ l, s.launch? th.launch = some l ∧ p.root = l.root) ∧ p.va ≤ a ∧ a < p.va + p.size)
        let held := (∃ x ∈ m.tlb, gone x ∧ m.l1Holds x = true) ∨ ∃ y ∈ m.l1, ∃ p ∈ y.pages, page p
        (held → (t.team (nodeOf core)).l1 = []) ∧ (¬ held → (t.team (nodeOf core)).l1 = m.l1)) ∧
      ((∃ w ∈ (s.team (nodeOf core)).walks, w.id < s.nextId) → Completes tlbi s tk fun t u => t.mem = s.mem ∧ t.rf = s.rf ∧
        Waits s tk th u tlbi none fun _ => True)) ∧
    (Ready save s tk th → slotOf tk = 0 →
      let a := s.operand tk save 1
      let b := s.operand tk save 2
      let z := 64 * core + a.toNat % 64
      (s.saveRefused core a b = true → Completes save s tk fun t u => u.pc = th.pc + 4 ∧ codeOf u = 4 ∧ t.mem = s.mem ∧
        Puts s t tk rd 0) ∧
      (∀ v, s.saveRefused core a b = false → s.saveReady z = true → s.waiters = [] → s.thread? z = some v →
        Completes save s tk fun t u =>
        u.pc = th.pc + 4 ∧ codeOf u = 0 ∧ Puts s t tk rd (BitVec.ofNat 64 (832 + 8 * v.w)) ∧
        OnlyBytes s t (sramKey (nodeOf core) b.toNat) (832 + 8 * v.w) ∧
        ∀ j, j < 104 + v.w → bytesAt t (sramKey (nodeOf core) b.toNat + 8 * j) 8 = ((s.image z).getD j 0).toNat) ∧
      (s.saveRefused core a b = false → s.saveReady z = false → Completes save s tk fun t u => t.mem = s.mem ∧ t.rf = s.rf ∧
        Waits s tk th u save none fun _ => True)) ∧
    (Ready load s tk th → slotOf tk = 0 →
      let a := s.operand tk load 1
      let b := s.operand tk load 2
      let z := 64 * core + a.toNat % 64
      (s.loadImage core a b = none → Completes load s tk fun t u => u.pc = th.pc + 4 ∧ codeOf u = 4 ∧ t.mem = s.mem ∧
        Puts s t tk rd 0) ∧
      (s.loadImage core a b ≠ none → Completes load s tk fun t u =>
        let n := 8 * (((s.readImage (nodeOf core) b 1).getD 0 0).toNat / 2 ^ 48 % 2 ^ 4)
        let d := s.readImage (nodeOf core) b (104 + n)
        let f := fun (i lo len : Nat) => (d.getD i 0).toNat / 2 ^ lo % 2 ^ len
        let log := if (d.getD 2 0).getLsbD 8 then some ((d.getD 2 0).toNat % 32, d.getD 3 0) else none
        u.pc = th.pc + 4 ∧ codeOf u = 0 ∧ t.mem = s.mem ∧ Puts s t tk rd (BitVec.ofNat 64 (a.toNat % 64)) ∧
        (∀ v, s.thread? z = some v → t.thread? z = some { v with
          pc := (d.getD 0 0).extractLsb' 0 48, status := d.getD 1 0, run := .halted 33, log := log }) ∧
        (s.thread? z = none → ∃ (v : Thread) (m : Nat) (r : Task), t.thread? z = some v ∧ v.run = .halted 33 ∧ v.w = n ∧
          v.pc = (d.getD 0 0).extractLsb' 0 48 ∧ v.status = d.getD 1 0 ∧ v.log = log ∧ (s.team (nodeOf core)).task = some m ∧
          s.task? m = some r ∧ v.task = m ∧ v.launch = r.launch ∧ t.task? m = some { r with live := r.live + 1 }) ∧
        (∀ i, i < n → (∀ k, rd = .g k → t.rfKey tk k.val ≠ t.rfKey z i) → t.readG z i = d.getD (104 + i) 0) ∧
        ∀ k, k < 8 → let o := 8 + 12 * k
          let q := t.stream z k
          q.entries.length = f (o + 1) 56 4 ∧
          (∀ j y, q.entries[j]? = some y → y.landed = true ∧ y.value = d.getD (o + 4 + j) 0 ∧ y.cause = f (o + 2) (8 + 5 * j) 5 ∧
            (y.cause ≠ 0 → y.size + 4 * y.ret + 16 * (if y.nc then 1 else 0) + 32 * (if y.acq then 1 else 0) = f (o + 3) (6 * j) 6)) ∧
          (q.bind = if f (o + 1) 53 1 = 1 ∧ f (o + 1) 32 16 ≠ 0 then some
            { next := (d.getD o 0).toNat, stride := toSigned 32 (f (o + 1) 0 32), left := f (o + 1) 32 16, size := f (o + 1) 48 2
              ret := f (o + 1) 50 2, nc := (d.getD (o + 1) 0).getLsbD 52 } else none)))) ∧
  ((∀ (s : State) (core : Nat) (a b : Word), Canonical s → Sized s →
    let z := 64 * core + a.toNat % 64
    let halted := ∃ v k, s.thread? z = some v ∧ v.run = .halted k
    let size := if core < 1024 then (s.team (nodeOf core)).s else 0x80000
    let fits := fun (w : Nat) => b.toNat % 64 = 0 ∧ b.toNat + 832 + 8 * w ≤ size
    let w := 8 * (((s.readImage (nodeOf core) b 1).getD 0 0).toNat / 2 ^ 48 % 2 ^ 4)
    (s.eretRefused core a = true ↔ a.toNat / 2 ^ 10 ≠ 0 ∨ a.toNat / 2 ^ 6 % 4 ≠ 0 ∨ a.toNat / 2 ^ 8 % 4 = 3 ∨ a.toNat % 64 = 0 ∨
      ¬ ∃ v k, s.thread? z = some v ∧ v.run = .halted k ∧ k ∈ [1, 2, 3, 5, 7, 9, 10, 11, 12, 33]) ∧
    (s.saveRefused core a b = true ↔ a.toNat / 2 ^ 6 ≠ 0 ∨ ¬ halted ∨ ∀ v, s.thread? z = some v → ¬ fits v.w) ∧
    (s.loadImage core a b = none ↔ a.toNat / 2 ^ 6 ≠ 0 ∨ ¬ fits 8 ∨ ¬ fits w ∨
      ctxImageOk (s.readImage (nodeOf core) b (104 + w)) = false ∨ (core < 1024 ∧ (s.team (nodeOf core)).task = none) ∨
      (halted ∧ ∀ v, s.thread? z = some v → v.w ≠ w) ∨
      (¬ halted ∧ ¬ (s.slotFree core (a.toNat % 64) = true ∧ s.unheld core (a.toNat % 64) = true ∧
        (∃ n, freeBase (s.takenBlocks core) (w / 8) = some n) ∧ ∃ m r, (s.team (nodeOf core)).task = some m ∧ s.task? m = some r)))) ∧
  (∀ d : List Word, let f := fun (i lo len : Nat) => (d.getD i 0).toNat / 2 ^ lo % 2 ^ len
    ctxImageOk d = true ↔ f 0 52 12 = 0 ∧ 1 ≤ f 0 48 4 ∧ f 0 48 4 ≤ 12 ∧ f 0 0 2 = 0 ∧ f 1 12 20 = 0 ∧
      (f 1 3 1 = 1 ∨ f 1 32 32 = 0) ∧ f 2 5 3 = 0 ∧ f 2 9 55 = 0 ∧ (∀ k, k < 4 → d.getD (4 + k) 0 = 0) ∧
      ∀ k, k < 8 → let o := 8 + 12 * k
        f (o + 1) 54 2 = 0 ∧ f (o + 1) 60 4 = 0 ∧ f (o + 1) 56 4 ≤ 8 ∧ f (o + 2) 48 16 = 0 ∧ f (o + 3) 48 16 = 0 ∧
        ∀ j, j < 8 → (j < f (o + 1) 56 4 ∧ f (o + 2) j 1 = 1 ∧ f (o + 2) (8 + 5 * j) 5 ≠ 0) ∨
          (f (o + 2) j 1 = 0 ∧ f (o + 2) (8 + 5 * j) 5 = 0 ∧ f (o + 3) (6 * j) 6 = 0)) ∧
  (∀ (s : State) (z : Nat) (v : Thread), s.thread? z = some v → v.w / 8 < 2 ^ 4 →
    let d := s.image z
    let f := fun (i lo len : Nat) => (d.getD i 0).toNat / 2 ^ lo % 2 ^ len
    d.length = 104 + v.w ∧ f 0 0 48 = v.pc.toNat ∧ f 0 48 4 = v.w / 8 ∧ f 0 52 12 = 0 ∧ d.getD 1 0 = v.status ∧
    (v.log = none → d.getD 2 0 = 0 ∧ d.getD 3 0 = 0) ∧
    (∀ c a, v.log = some (c, a) → c < 32 → d.getD 2 0 = BitVec.ofNat 64 (2 ^ 8 + c) ∧ d.getD 3 0 = a) ∧
    (∀ k, k < 4 → d.getD (4 + k) 0 = 0) ∧ (∀ i, i < v.w → d.getD (104 + i) 0 = s.readG z i) ∧
    ∀ k, k < 8 → let o := 8 + 12 * k
      let q := s.stream z k
      (∀ y ∈ q.entries, y.landed = true) → q.entries.length ≤ 8 →
      (∀ j y, q.entries[j]? = some y → d.getD (o + 4 + j) 0 = y.value) ∧ f (o + 1) 56 4 = q.entries.length ∧
      (q.bind = none → d.getD o 0 = 0 ∧ f (o + 1) 0 56 = 0) ∧
      (∀ x, q.bind = some x → x.left < 2 ^ 16 → x.size < 4 → x.ret < 4 → d.getD o 0 = BitVec.ofNat 64 x.next ∧
        f (o + 1) 0 32 = (x.stride % 2 ^ 32).toNat ∧ f (o + 1) 32 16 = x.left ∧ f (o + 1) 48 2 = x.size ∧
        f (o + 1) 50 2 = x.ret ∧ f (o + 1) 52 2 = 2 + if x.nc then 1 else 0)) ∧
  (∀ (s : State) (tk : Nat) (m : BitVec 10) (i : Nat), i < 10 →
    let c := s.core (coreOf tk)
    (s.wfeFinds tk m).getLsbD i = true ↔ (if c.evtAt = some s.cycle then c.evtWas else c.evt).getLsbD i = true ∧
      m.getLsbD i = true ∧ ¬ ∃ y v w sm rd ra e, (y, v) ∈ s.threads ∧ v.run = .wait w ∧ w.instr = Instr.wfe sm rd ra e ∧
        coreOf y = coreOf tk ∧ y < tk ∧ (w.vals.getD 1 0).getLsbD i = true))

/-- WFE and the steward's access path (R314, R320, R324). WFE takes the bits of EVT under its mask that no WFE of a lower slot
waits for, and waits while there are none, under its bound; a reserved bit of its mask is a reserved operand, reason 4.
Firmware halts a slot at an instruction boundary, resumes or frees a halted one, writes core registers, sets EVT bit 9 and the
error threshold, pushes into role queues, zeroes the core-shared registers, and resets a core, whose contexts not yet released
are dropped everywhere. That an s-register rd has the cycle of the completion as its write cycle is read by inference (log
65). Where the manual is silent or is read by inference it is the model's choice: log 39, 42, 56, 65, 81. -/
def Obligations.EventsAndSteward : Prop :=
  (∀ (sm : Bool) (rd ra : Reg) (e : BitVec 7) (s : State) (tk : Nat) (th : Thread), Canonical s → Sized s → th.carry = none →
    let i := Instr.wfe sm rd ra e
    let c := s.core (coreOf tk)
    let m := s.operand tk i 1
    let b := s.wfeFinds tk (m.extractLsb' 0 10)
    Ready i s tk th →
    (m.toNat / 2 ^ 16 ≠ 0 → Machine.exec i s = .next ((s.trap tk 1 4 (prefixOf th ++ encode i)).takeTurn tk)) ∧
    (m.toNat / 2 ^ 16 = 0 → b ≠ 0 → Completes i s tk fun t u => u.pc = th.pc + 4 ∧ codeOf u = 0 ∧ t.mem = s.mem ∧
      Puts s t tk rd (b.zeroExtend 64) ∧ (c.evtAt ≠ some s.cycle → (t.core (coreOf tk)).evt = c.evt &&& ~~~b)) ∧
    (m.toNat / 2 ^ 16 = 0 → b = 0 → Completes i s tk fun t u => t.rf = s.rf ∧
      Waits s tk th u i (if e.toNat % 16 = 15 then none else some (s.cycle + 64 * 2 ^ (e.toNat % 16))) fun _ => True)) ∧
  (∀ (s : State) (th : Thread) (w : Wait) (sm : Bool) (rd ra : Reg) (e : BitVec 7), Canonical s → w.instr = .wfe sm rd ra e →
    let n := s.subj.n
    s.thread? n = some th → th.run = .wait w →
    let b := s.wfeFinds n ((w.vals.getD 1 0).extractLsb' 0 10)
    (b ≠ 0 → Answers .wfeWake s fun t => EndsWith s t n th 0 ∧ Puts s t n rd (b.zeroExtend 64) ∧ t.mem = s.mem) ∧
    (b = 0 → Machine.exec .wfeWake s = .next s) ∧
    (s.subj.m = w.id → Answers .wfeTimeout s fun t => EndsWith s t n th 1 ∧ Puts s t n rd 0 ∧ t.cores = s.cores)) ∧
  (∀ (s : State) (tk : Nat) (th : Thread), Canonical s → Sized s → s.thread? tk = some th →
    ((th.run = .ready ∨ th.run = .switch ∨ th.run = .fetch ∨ ∃ i, th.run = .operand i) →
      Answers (.stewardAccess (.halt tk)) s fun t =>
        t.thread? tk = some { th with run := .halted 32, stopReq := none, switchHeld := decide (th.run = .switch) } ∧
        t.mem = s.mem ∧ t.rf = s.rf) ∧
    ((∃ w, th.run = .wait w) → Answers (.stewardAccess (.halt tk)) s fun t =>
      t.thread? tk = some { th with stopReq := some 32 }) ∧
    (∀ k, th.run = .halted k → (Answers (.stewardAccess (.resume tk)) s fun t =>
        let run : Run := if th.switchHeld = true ∧ 0 < s.outstanding tk then .switch else .ready
        t.thread? tk = some { th with run := run, switchHeld := false, notBefore := s.cycle + 1 } ∧ t.mem = s.mem ∧ t.rf = s.rf) ∧
      (Answers (.stewardAccess (.free tk)) s fun t => t.threads = SMap.del s.threads tk ∧ t.mem = s.mem)) ∧
    (th.run = .ready → Machine.exec (.stewardAccess (.resume tk)) s = .next s)) ∧
  (∀ (s : State) (core : Nat) (v : Word) (tag : Fin 3) (i : Nat), Canonical s → Sized s →
    let c := s.core core
    (Answers (.stewardAccess (.writeCsr core 0x008 v)) s fun t => (t.core core).feretry = v.extractLsb' 0 16) ∧
    (Answers (.stewardAccess (.writeCsr core 0x020 v)) s fun t => (t.core core).evt = v.extractLsb' 0 10) ∧
    (Answers (.stewardAccess (.writeCsr core 0x048 v)) s fun t => (t.core core).spillBase = v) ∧
    (Answers (.stewardAccess (.writeCsr core 0x049 v)) s fun t => (t.core core).paddockBase = v) ∧
    (Answers (.stewardAccess (.setThreshold i)) s fun t => t.pkg.threshold = i ∧ t.mem = s.mem ∧ t.cores = s.cores) ∧
    (Answers (.stewardAccess (.coreReset core)) s fun t => (∀ j x, t.thread? j = some x → coreOf j ≠ core) ∧
      (∀ j, j < 16 → t.readS core j = 0) ∧ (t.core core).shadows = [] ∧
      ∀ e ∈ t.cores, ∀ x ∈ e.2.arrivals ++ e.2.paddock, x.src = core → x.okAt.isSome = true) ∧
    (Answers (.stewardAccess (.setEvt core)) s fun t => (t.core core).evt = c.evt ||| 0x200) ∧
    (i < 4 → (c.role i).enabled = true → (c.role i).taken < 8 → Answers (.stewardAccess (.pushRole core i v tag)) s fun t =>
      ((t.core core).role i).entries = (c.role i).entries ++ [{ v := v, tag := tag, since := s.cycle + 3 }]) ∧
    (Answers (.stewardAccess (.zeroShared core)) s fun t => (∀ j, j < 16 → t.readS core j = 0) ∧
      ∀ key, key / 16 ≠ core → SMap.getD t.sregs key 0 = SMap.getD s.sregs key 0) ∧
    ∀ tk d u, neighbour (nodeOf (coreOf tk)) d = some u →
      let from' := nbrKey (nbrSlot tk d) (Dir.opposite d)
      0 < s.nbrRoom from' → SMap.getD s.nbrSync from' false = false →
      Answers (.stewardAccess (.pushNeighbour (nbrKey tk d) v tag)) s fun t => t.nbrRoom from' = s.nbrRoom from' - 1)

/-- BAR0 (R332, Table SY-7). While a ring is disabled RBASE and CBASE take what is written, RCFG its defined bits, and setting
enable from 0 to 1 zeroes TAIL, HEAD and CHEAD; while it is enabled only enable and the vector of RCFG are writable. TAIL
takes an index at most the ring's size ahead of CHEAD and ignores any other. EVTDOOR sets EVT bit 8 of the core it names, if
there is one. A write to any other offset is ignored. The identity record (R334), and what the host reads of an image (R336):
nothing but in the life-cycle state DEVELOP. Where the manual is silent or is read by inference it is the model's choice: log
44, 49. -/
def Obligations.HostRegisters : Prop :=
  (∀ (s : State) (r : Nat) (v : Word), Sized s → r < 8 →
    let q := s.hring r
    let on := q.rcfg.getLsbD 8
    let becomes := fun (i : Instr) (x : HRing) => Answers i s fun t => t.hring r = x ∧ t.mem = s.mem ∧ t.cores = s.cores ∧
      ∀ k, k ≠ r → t.hring k = s.hring k
    let same := fun (i : Instr) => Machine.exec i s = .next s
    (on = false →
      becomes (.bar0RegisterWrite (0x1000 + 0x40 * r) v) { q with rbase := v &&& ~~~63 } ∧
      becomes (.bar0RegisterWrite (0x1010 + 0x40 * r) v) { q with cbase := v &&& ~~~15 } ∧
      (v.getLsbD 8 = true → becomes (.rcfgEnable r v) { q with rcfg := v &&& 0xF010F, tail := 0, head := 0, chead := 0 }) ∧
      (v.getLsbD 8 = false → becomes (.rcfgEnable r v) { q with rcfg := v &&& 0xF010F })) ∧
    (on = true → same (.bar0RegisterWrite (0x1000 + 0x40 * r) v) ∧ same (.bar0RegisterWrite (0x1010 + 0x40 * r) v) ∧
      becomes (.rcfgEnable r v) { q with rcfg := (v &&& 0xF0100) ||| (q.rcfg &&& 0xF) }) ∧
    (let n := v.toNat % 2 ^ 16
     ((n + 2 ^ 16 - q.chead) % 2 ^ 16 ≤ 2 ^ (q.rcfg.toNat % 16) → becomes (.tail r v) { q with tail := n }) ∧
     (2 ^ (q.rcfg.toNat % 16) < (n + 2 ^ 16 - q.chead) % 2 ^ 16 → same (.tail r v))) ∧
    (let die := v.toNat % 8
     let num := v.toNat / 2 ^ 8 % 64
     let c := v.toNat / 2 ^ 16 % 4
     ((die < 4 ∧ s.absent (nodeAt die num) = false) ∨ (4 ≤ die ∧ num < 48 ∧ c = 0) → Answers (.evtdoor v) s fun t =>
       let k := coreAt (nodeAt die num) c
       (t.core k).evt = (s.core k).evt ||| 0x100 ∧ t.mem = s.mem ∧ ∀ j, j ≠ k → t.core j = s.core j) ∧
     ((die < 4 ∧ s.absent (nodeAt die num) = true) ∨ (4 ≤ die ∧ (48 ≤ num ∨ c ≠ 0)) → same (.evtdoor v))) ∧
    Machine.exec (.bar0RegisterWrite 0x100 v) s = Machine.exec (.evtdoor v) s ∧
    Machine.exec (.bar0RegisterWrite (0x1008 + 0x40 * r) v) s = Machine.exec (.rcfgEnable r v) s ∧
    Machine.exec (.bar0RegisterWrite (0x1018 + 0x40 * r) v) s = Machine.exec (.tail r v) s ∧
    ∀ off, off ≠ 0x100 → (off < 0x1000 ∨ 0x1200 ≤ off ∨ off % 8 ≠ 0 ∨ 0x18 < off % 0x40) → same (.bar0RegisterWrite off v)) ∧
  (∀ (s : State), s.pkg.clkbin < 2 ^ 8 → s.pkg.lifecycle < 2 ^ 8 → s.pkg.fwVersion < 2 ^ 32 → s.pkg.bootFail < 2 ^ 8 →
    s.pkg.bootImage < 2 ^ 8 → (∀ x ∈ s.pkg.links, x < 2 ^ 8) → s.pkg.serial.length = 32 →
    let p := s.pkg
    let d := fun (i : Nat) => (s.identity.getD i 0).toNat
    let f := fun (i lo len : Nat) => d i / 2 ^ lo % 2 ^ len
    s.identity.length = 64 ∧ d 0 = 480 + 2 ^ 16 * p.clkbin + 2 ^ 24 * p.lifecycle + 2 ^ 32 * p.fwVersion ∧
    d 1 = p.bootFail + 2 ^ 8 * p.bootImage ∧
    (∀ k n, k < 4 → n < 64 → (f (2 + k) n 1 = 1 ↔ 64 * k + n ∈ p.absent)) ∧
    (∀ k, k < 64 → (f 6 k 1 = 1 ↔ (s.slice k).retired = true)) ∧ (∀ k, k < 8 → f 7 (8 * k) 8 = p.links.getD k 0) ∧
    (∀ c, c < 192 → f (8 + c / 4) (16 * (c % 4)) 16 = p.dram.getD c 0 % 2 ^ 16) ∧
    (∀ j, j < 32 → f (56 + j / 8) (8 * (j % 8)) 8 = (p.serial.getD j 0).toNat) ∧ (∀ i, 60 ≤ i → d i = 0) ∧
    (∀ root va, s.hostReadsImage root va = if p.lifecycle = 1 then (s.deviceKey root va).map s.byte else none))

/-- Host commands are refused, with no effect, when the device does not accept them in its state, or a dword that is not listed is
not zero; an opcode outside Table SY-6 always (R332, R333, R335, R336). The host commands but PREEMPT and RESUME (R332 to
R336, Tables SY-6 and SY-8), from the state in which firmware takes them. An operand outside its range is refused with no
effect. IDENTIFY writes the identity record. LOAD places the object's bytes and keeps its patterns. PATCH writes code and
drops its lines from every instruction cache. LAUNCH queues the launch under the next handle. ABORT frees every thread of the
launch, or takes a launch out of its queue. MAP writes the leaf of a page and, for a launch with no walk in progress, empties
the TLBs of its teams. LIFECYCLE moves forward only, and wipes memory. FWSTAGE stages an image. LOGREAD returns entries. What
LOAD makes of an object (R54, R57, R264, R270 to R272, R278, Tables AS-3, AS-4, TH-1 and TH-2): each kind of relocation writes
its field, or the object is refused when the value does not fit; the parameter block gets the addresses of the loader's
structures and the number of slot groups; a task's membership names at most four groups; of two .pattern records, the object
is refused when one of them would not load, when they name one entry of a core, or when they give one slot different W. Where
the manual is silent or is read by inference it is the model's choice: log 3, 15, 45, 46, 47, 48, 49, 50, 67. -/
def Obligations.HostCommands : Prop :=
  (∀ (s : State) (r : Nat) (d : List Word), Canonical s → Sized s → s.waiters = [] →
    (∀ x ∈ [(Instr.identify r, 0x01, 1), (.load r, 0x02, 5), (.patch r, 0x03, 4), (.hostLaunch r, 0x04, 4), (.abort r, 0x07, 1),
        (.map r, 0x08, 5), (.lifecycle r, 0x09, 1), (.fwstage r, 0x0A, 2), (.logread r, 0x0B, 3)],
      HostTakes s r x.2.1 d → ¬ HostAccepts s x.2.1 x.2.2 d → Answers x.1 s fun t => HostRefused s t r d) ∧
    (∀ x ∈ [(Instr.preemptPipeline r, 0x05, 0), (.preemptGeneral r, 0x05, 1), (.resumePipeline r, 0x06, 0),
        (.resumeGeneral r, 0x06, 1)],
      HostTakes s r x.2.1 d → (d.getD 2 0).toNat % 2 = x.2.2 → ¬ HostAccepts s x.2.1 6 d →
      Answers x.1 s fun t => HostRefused s t r d) ∧
    (∀ code, code = 0 ∨ 0x0B < code → HostTakes s r code d → Answers (.unknownHostCommand r) s fun t => HostRefused s t r d)) ∧
  (∀ (s : State) (r : Nat) (d : List Word), Canonical s → Sized s → s.waiters = [] →
    let p := s.pkg
    let arg := fun i => (d.getD i 0).toNat
    let ck := completionKey s r
    let takes := fun code n => HostTakes s r code d ∧ HostAccepts s code n d
    let refused := fun (i : Instr) => Answers i s fun t => HostRefused s t r d
    let done := fun (t : State) (a b : Nat) => HostDone s t r d 0 (BitVec.ofNat 64 a) (BitVec.ofNat 64 b)
    (takes 0x01 1 →
      (arg 1 % 64 ≠ 0 → refused (.identify r)) ∧
      (arg 1 % 64 = 0 → ck + 16 ≤ hostKey (arg 1) ∨ hostKey (arg 1) + 512 ≤ ck → Answers (.identify r) s fun t =>
        done t 512 0 ∧ OnlyTwo s t (hostKey (arg 1)) 512 ck 16 ∧
        ∀ n, n < 64 → bytesAt t (hostKey (arg 1) + 8 * n) 8 = (s.identity.getD n 0).toNat)) ∧
    (takes 0x02 5 → ∀ o bytes ps key,
      Config.loadObject (s.bytes (hostKey (arg 1)) (arg 2)) (arg 4) (arg 5) = some o → objectImage o = some bytes →
      patternList o.patterns = some ps → arg 3 % 2 ^ 12 = 0 → arg 3 < 2 ^ 48 → arg 4 % 2 ^ 16 = 0 →
      MapsTo s (arg 3) (arg 4) key (arg 5) → (bytes.map (·.1)).Nodup →
      ((∀ e ∈ bytes, arg 4 ≤ e.1 ∧ e.1 < arg 4 + arg 5) → Answers (.load r) s fun t =>
        done t o.relocs.length (objectLpb o) ∧ OnlyTwo s t key (arg 5) ck 16 ∧
        (∀ e ∈ bytes, t.byte (key + (e.1 - arg 4)) = e.2) ∧
        (objectLpb o ≠ 0 → t.patternsOf (arg 3) (objectLpb o) = ps)) ∧
      ((∃ e ∈ bytes, e.1 < arg 4) → refused (.load r))) ∧
    (takes 0x02 5 → (match Config.loadObject (s.bytes (hostKey (arg 1)) (arg 2)) (arg 4) (arg 5) with
        | none => True
        | some o => objectImage o = none ∨ patternList o.patterns = none) → refused (.load r)) ∧
    (takes 0x03 4 →
      (arg 1 % 4 ≠ 0 ∨ arg 2 % 2 ^ 12 ≠ 0 ∨ 2 ^ 48 ≤ arg 2 ∨ arg 4 = 0 ∨ 4096 < arg 4 → refused (.patch r)) ∧
      ∀ key, arg 1 % 4 = 0 → arg 2 % 2 ^ 12 = 0 → arg 2 < 2 ^ 48 → 0 < arg 4 → arg 4 ≤ 4096 →
        (∀ m, (∀ a, a < key ∨ key + 4 * arg 4 ≤ a → State.byte { s with mem := m } a = s.byte a) →
          ∀ j, j < 4 * arg 4 → State.codeKey { s with mem := m } (arg 2) (arg 1 + j) = some (key + j)) →
        (key + 4 * arg 4 ≤ ck ∨ ck + 16 ≤ key) → (∀ n, ∀ l ∈ (s.team n).icache, l.root < 2 ^ 48) →
        Answers (.patch r) s fun t => done t (arg 4) 0 ∧ OnlyTwo s t key (4 * arg 4) ck 16 ∧
          (∀ j, j < 4 * arg 4 → t.byte (key + j) = s.byte (hostKey (arg 3) + j)) ∧
          ∀ n, ∀ l ∈ (t.team n).icache, ∀ k j, t.codeKey l.root (64 * l.va) = some k → j < 4 * arg 4 →
            k / 64 ≠ (key + j) / 64) ∧
    (takes 0x04 4 →
      (arg 2 % 2 ^ 12 ≠ 0 ∨ 2 ^ 48 ≤ arg 2 ∨ 2 ^ 48 ≤ arg 1 ∨ 2 ^ 8 ≤ arg 3 ∨ s.walkFrom (arg 2) (arg 1) = none →
        refused (.hostLaunch r)) ∧
      (arg 2 % 2 ^ 12 = 0 → arg 2 < 2 ^ 48 → arg 1 < 2 ^ 48 → arg 3 < 2 ^ 8 → s.walkFrom (arg 2) (arg 1) ≠ none →
        Answers (.hostLaunch r) s fun t =>
        let h := s.disp.hostSeq
        done t h 0 ∧ OnlyBytes s t ck 16 ∧ t.disp.hostSeq = (h + 1) % 2 ^ 15 ∧
        ∃ q : LaunchReq, t.disp.hostQ = s.disp.hostQ ++ [q] ∧ q.handle = h ∧ q.lpb = arg 1 ∧ q.root = arg 2 ∧ q.wpdie = arg 3 ∧
          (∀ n, n < 8 → q.wpnode[n]? = some (bytesAt s (hostKey (arg 4) + 8 * n) 8)) ∧ q.patterns = s.patternsOf (arg 2) (arg 1))) ∧
    (takes 0x07 1 →
      (∀ key l, s.launchByHandle (arg 1) = some (key, l) → SMap.sortedFrom 0 s.threads = true → Answers (.abort r) s fun t =>
        (∃ n, done t n 0) ∧ OnlyBytes s t ck 16 ∧ ∀ tk th, t.thread? tk = some th → th.launch ≠ key) ∧
      (s.launchByHandle (arg 1) = none →
        ((∃ q ∈ s.disp.hostQ ++ s.disp.devQ, q.handle = arg 1) → Answers (.abort r) s fun t => done t 0 0 ∧
          OnlyBytes s t ck 16 ∧ t.threads = s.threads ∧ (∀ q, q ∈ t.disp.hostQ ↔ q ∈ s.disp.hostQ ∧ q.handle ≠ arg 1) ∧
          ∀ q, q ∈ t.disp.devQ ↔ q ∈ s.disp.devQ ∧ q.handle ≠ arg 1) ∧
        ((∀ q ∈ s.disp.hostQ ++ s.disp.devQ, q.handle ≠ arg 1) → refused (.abort r)))) ∧
    (takes 0x08 5 →
      let va := arg 3
      let leaf := BitVec.ofNat 64 (bytesAt s (hostKey (arg 5)) 8)
      let size := leaf.toNat / 2 ^ 4 % 4
      let e := fun t lo len => BitVec.ofNat 64 (bytesAt s (t + 8 * (va / 2 ^ lo % 2 ^ len)) 8)
      let entry : Option Nat := (tableOf (e (arg 2) 39 9)).bind fun a =>
        if size = 2 then some (a + 8 * (va / 2 ^ 30 % 2 ^ 9))
        else (tableOf (e a 30 9)).bind fun b =>
          if size = 1 then some (b + 8 * (va / 2 ^ 21 % 2 ^ 9))
          else (tableOf (e b 21 9)).map fun c => c + 8 * (va / 2 ^ 16 % 2 ^ 5)
      (arg 4 = 0 ∨ 4096 < arg 4 ∨ 2 ^ 16 ≤ arg 1 ∨ arg 2 % 2 ^ 12 ≠ 0 ∨ 2 ^ 48 ≤ arg 2 ∨ size = 3 ∨ va % pageBytes size ≠ 0 ∨
        (arg 1 ≠ 0xFFFF ∧ s.launchByHandle (arg 1) = none ∧ s.queued? (arg 1) = none) → refused (.map r)) ∧
      ∀ k, entry = some k → arg 4 = 1 → arg 2 % 2 ^ 12 = 0 → arg 2 < 2 ^ 48 → size ≠ 3 → va % pageBytes size = 0 →
        va + pageBytes size ≤ 2 ^ 48 → leafOk leaf = true →
        let written := fun (t : State) => done t 1 0 ∧ bytesAt t k 8 = leaf.toNat ∧ OnlyTwo s t k 8 ck 16
        ((arg 1 = 0xFFFF ∨ s.queued? (arg 1) ≠ none) → arg 1 < 2 ^ 16 → s.launchByHandle (arg 1) = none → Answers (.map r) s written) ∧
        (∀ key l, arg 1 < 2 ^ 16 → s.launchByHandle (arg 1) = some (key, l) → s.walksOf key l s.nextId = false →
          Answers (.map r) s fun t => written t ∧ ∀ n ∈ l.teams, (t.team n).tlb = [])) ∧
    (takes 0x09 1 →
      let fwd := (p.lifecycle, arg 1) ∈ [(0, 1), (1, 2), (1, 3), (2, 3)]
      (fwd → Answers (.lifecycle r) s fun t => done t (arg 1) 0 ∧ t.pkg.lifecycle = arg 1 ∧
        (∀ key, (key < 2 ^ 40 ∨ (2 ^ 48 ≤ key ∧ key < 2 ^ 60)) → t.byte key = 0 ∧ t.full key = true) ∧
        (∀ key, 2 ^ 40 ≤ key → key < 2 ^ 48 → t.byte key = s.byte key) ∧ (∀ n, (t.core n).spill = []) ∧
        t.rf = [] ∧ t.sregs = []) ∧
      (¬ fwd → refused (.lifecycle r))) ∧
    (takes 0x0A 2 → Answers (.fwstage r) s fun t =>
      let img := s.bytes (hostKey (arg 1)) (arg 2)
      done t (arg 2) 0 ∧ OnlyBytes s t ck 16 ∧
      t.pkg.flash = (if Config.isIdentityImage img then p.flash else img) ∧
      t.pkg.idImage = if Config.isIdentityImage img then img else p.idImage) ∧
    (takes 0x0B 3 →
      (arg 2 % 16 ≠ 0 → refused (.logread r)) ∧
      let es := (p.logEntries.drop (arg 3)).take (arg 2 / 16)
      (arg 2 % 16 = 0 → ck + 16 ≤ hostKey (arg 1) ∨ hostKey (arg 1) + 16 * es.length ≤ ck → Answers (.logread r) s fun t =>
        done t es.length (arg 3 + es.length) ∧ OnlyTwo s t (hostKey (arg 1)) (16 * es.length) ck 16 ∧
        ∀ n e, es[n]? = some e → bytesAt t (hostKey (arg 1) + 16 * n) 8 = e.cycle % 2 ^ 64 ∧
          bytesAt t (hostKey (arg 1) + 16 * n + 8) 8 = e.w1.toNat))) ∧
  ((∀ (site : Nat) (w : BitVec 32) (v : Int),
    let word := fun (x : Nat) => Machine.bytesAt site (toBytes 4 x)
    let run := fun (k : RelocKind) => applyReloc { kind := k, site := site, value := v } (word w.toNat)
    let low := fun (n : Nat) (x : Int) => some (word (w.toNat / 2 ^ n * 2 ^ n + (x % ((2 ^ n : Nat) : Int)).toNat))
    let d := v - (site : Int)
    run .disp12 = (if d % 4 = 0 ∧ -2048 ≤ d / 4 ∧ d / 4 < 2048 then low 12 (d / 4) else none) ∧
    run .disp25 = (if d % 4 = 0 ∧ -2 ^ 24 ≤ d / 4 ∧ d / 4 < 2 ^ 24 then low 25 (d / 4) else none) ∧
    run .imm11 = (if -1024 ≤ v ∧ v < 1024 then low 11 v else none) ∧
    run .abs32 = (if 0 ≤ v ∧ v < 2 ^ 32 then some (word v.toNat) else none) ∧ run .abs64 = none ∧ run .lix64 = none) ∧
  (∀ (site : Nat) (w : BitVec 64) (v : Int), -2 ^ 63 ≤ v ∧ v < 2 ^ 64 →
    applyReloc { kind := .abs64, site := site, value := v } (Machine.bytesAt site (toBytes 8 w.toNat)) =
      some (Machine.bytesAt site (toBytes 8 (v % 2 ^ 64).toNat))) ∧
  (∀ (site : Nat) (w : BitVec 128) (v : Nat), v < 2 ^ 64 →
    let top := (v / 2 ^ 54 + if 2 ^ 63 ≤ v then 2 ^ 18 - 2 ^ 10 else 0) % 2 ^ 18
    let part := fun (i imm : Nat) => (w.toNat / 2 ^ (32 * i) % 2 ^ 32 / 2 ^ 18 * 2 ^ 18 + imm) * 2 ^ (32 * i)
    applyReloc { kind := .lix64, site := site, value := v } (Machine.bytesAt site (toBytes 16 w.toNat)) =
      some (Machine.bytesAt site (toBytes 16 (part 0 top + part 1 (v / 2 ^ 36 % 2 ^ 18) + part 2 (v / 2 ^ 18 % 2 ^ 18) +
        part 3 (v % 2 ^ 18))))) ∧
  (∀ (k : RelocKind) (site : Nat) (v : Int) (bytes : List (Nat × Byte)), v < -2 ^ 63 ∨ 2 ^ 64 ≤ v → k = .abs64 ∨ k = .lix64 →
    applyReloc { kind := k, site := site, value := v } bytes = none) ∧
  (∀ (r : LaunchRecord), r.slots.length < 32 →
    let at' := fun (a : Nat) => if r.groups = [] then (0 : Word) else BitVec.ofNat 64 (64 * a)
    let k := fun (n : Nat) => r.keys.getD n 0
    lpbWords r = [k 0, BitVec.ofNat 64 (64 * r.sglAt), (k 2 &&& ~~~31) ||| BitVec.ofNat 64 r.slots.length, at' r.gtabAt,
      at' r.membAt, k 5, k 6, at' r.barsAt] ∧
    (∀ g e, g < 256 → r.groups.find? (fun x => x.index == g) = some e → (groupTable r).getD g 0 = BitVec.ofNat 64 (e.expected % 2 ^ 16)) ∧
    (∀ g, g < 256 → (∀ e ∈ r.groups, e.index ≠ g) → (groupTable r).getD g 0 = 0) ∧
    (∀ t i e, i < 4 → (r.groups.filter fun x => x.members.contains t)[i]? = some e →
      (memberWord r t).toNat / 2 ^ (16 * i) % 2 ^ 16 = e.index % 2 ^ 8 + 2 ^ 15) ∧
    (∀ t i, i < 4 → (r.groups.filter fun x => x.members.contains t)[i]? = none → (memberWord r t).toNat / 2 ^ (16 * i) % 2 ^ 16 = 0)) ∧
  (∀ (c1 e1 c2 e2 : Nat) (a0 a1 b0 b1 : Word),
    let f := fun (w : Word) (lo len : Nat) => w.toNat / 2 ^ lo % 2 ^ len
    let ok := fun (c e : Nat) (d0 d1 : Word) => c < 4 ∧ e < 15 ∧ f d0 32 6 ≠ 0 ∧ d0.getLsbD 31 = false ∧ descriptorOk d0 d1 = true
    (patternList [(c1, e1, a0, a1)] = none ↔ ¬ ok c1 e1 a0 a1) ∧
    (patternList [(c1, e1, a0, a1), (c2, e2, b0, b1)] = none ↔ ¬ ok c1 e1 a0 a1 ∨ ¬ ok c2 e2 b0 b1 ∨
      (c1 = c2 ∧ (e1 = e2 ∨ (f a0 32 6 = f b0 32 6 ∧ f a0 44 4 ≠ f b0 44 4)))) ∧
    (ok c1 e1 a0 a1 → ∃ p, patternList [(c1, e1, a0, a1)] = some [p] ∧ p.core = c1 ∧ p.entry = e1 ∧
      p.e.ports = a0.extractLsb' 0 32 ∧ p.e.slot = f a0 32 6 ∧ p.e.prio = f a0 40 2 ∧ p.e.w = 8 * f a0 44 4 ∧
      p.e.pc = a1.extractLsb' 0 48)))

/-- PREEMPT and RESUME (R329 to R331, R333, R339, R340). With path 0 a PREEMPT feeds a stop token to each loader and waits under
its bound; once the pipeline has stopped, a queue that is not empty makes it BROKEN, and else the image of every slot that
reported stands in its scratchpad. Its RESUME loads the images, and every slot runs on. With path 1 a PREEMPT holds the launch
and stops its teams; once all is quiet it writes the save area, its result counting room for what is still to come, and frees
the teams (log 53). Its RESUME waits for enough teams, and then no thread of the launch stays halted by the pre-emption. A
bound that expires ends a PREEMPT with TIMEOUT and nothing saved, and the general path's stop undone. PREEMPT and RESUME of a
launch that the dispatcher has not taken (R330, R331, R333): with path 1 it is held in its queue, and its save area has a
header and no record; RESUME lets it go. With path 0 it is refused (log 52, 53). The save area (R331, Table SY-10): its
header, its directory of records at multiples of 64 bytes, and in a record the header section and the scratchpad section,
followed by the core blocks, which begin with the s registers of core 0. Where the manual is silent or is read by inference it
is the model's choice: log 52, 53, 54, 55. -/
def Obligations.PreemptAndResume : Prop :=
  (∀ (s : State) (r : Nat) (d : List Word) (key : Nat) (l : Launch), Canonical s → Sized s → s.waiters = [] →
    SMap.sortedFrom 0 s.threads = true →
    let arg := fun i => (d.getD i 0).toNat
    let ck := completionKey s r
    let path := (d.getD 2 0).toNat % 2
    let takes := fun code => HostTakes s r code d ∧ HostAccepts s code 6 d
    let goesOn := r < 8 ∧ (s.hring r).cmd = some d ∧ (s.hring r).stage = 1 ∧ arg 0 % 256 = 0x05
    let refused := fun (i : Instr) => Answers i s fun t => HostRefused s t r d
    let ls := s.loaders (arg 6) (arg 5)
    let bound := if d.getD 3 0 = 0 then none else some (s.cycle + 1024 * arg 3)
    let tks := s.stageSlots key
    let places := s.imagePlaces (arg 4) (saveOrder tks) []
    let teams := s.taskTeams key
    s.launchByHandle (arg 1) = some (key, l) →
    (takes 0x05 → path = 0 →
      (arg 2 ≠ 0 ∨ arg 5 = 0 ∨ 256 < arg 5 → refused (.preemptPipeline r)) ∧
      (∀ a, arg 1 < 2 ^ 16 → arg 2 = 0 → arg 5 = 1 → ls = [(a, 0)] → s.loaderOk false a 0 = true → l.held = false →
        s.imagesFit places = true → Answers (.preemptPipeline r) s fun t =>
          (t.hring r).cmd = some d ∧ (t.hring r).stage = 1 ∧ (t.hring r).deadline = bound ∧ t.mem = s.mem ∧
          (let core := coreOf (loaderSlot a)
           let i := a.toNat / 2 ^ 32 % 128 - 124
           124 ≤ a.toNat / 2 ^ 32 % 128 → ((s.core core).role i).enabled = true → ((s.core core).role i).taken < 8 →
            ((t.core core).role i).entries = ((s.core core).role i).entries ++ [{ v := 0, tag := 2, since := s.cycle + 3 }]))) ∧
    (goesOn → path = 0 → s.pipeStopped key tks = true →
      (s.queuesEmpty key = false → Answers (.preemptPipeline r) s fun t => HostDone s t r d 3 0 0 ∧ OnlyBytes s t ck 16) ∧
      (s.queuesEmpty key = true → s.imagesFit places = true → (∀ e ∈ places, e.1 < 64 * 1216 ∧ e.2 + imageBytes (s.thread e.1).w ≤ 2 ^ 21) →
        Answers (.preemptPipeline r) s fun t => HostDone s t r d 0 (BitVec.ofNat 64 places.length) 0 ∧ t.threads = s.threads ∧
          (∀ e ∈ places, ∀ i, i < 104 + (s.thread e.1).w →
            bytesAt t (sramKey (nodeOf (coreOf e.1)) e.2 + 8 * i) 8 = ((s.image e.1).getD i 0).toNat) ∧
          ∀ y, t.launch? key = some y → ∃ x, y.pipe = some x ∧ x.slots = places ∧ x.offset = arg 4 ∧
            ∀ n ∈ teams, ∀ c, c < 4 → (coreAt n c, (List.range 16).map fun j => s.readS (coreAt n c) j) ∈ x.sregs)) ∧
    (takes 0x06 → path = 0 →
      (l.pipe = none → refused (.resumePipeline r)) ∧
      (∀ x, l.pipe = some x → arg 1 < 2 ^ 16 → arg 2 = 0 → arg 3 = 0 → arg 5 ≤ 256 → l.aborted = false → x.loaders = ls.map (·.1) →
        x.offset = arg 4 → (∀ e ∈ ls, s.loaderOk true e.1 e.2 = true) → s.loadImages x.slots ≠ none →
        Answers (.resumePipeline r) s fun t => HostDone s t r d 0 (BitVec.ofNat 64 x.slots.length) 0 ∧ OnlyBytes s t ck 16 ∧
          (∀ e ∈ x.slots, ∃ u, t.thread? e.1 = some u ∧ (u.run = .ready ∨ u.run = .switch)) ∧ ∀ y, t.launch? key = some y → y.pipe = none)) ∧
    (takes 0x05 → path = 1 →
      (arg 2 ≠ 1 ∨ arg 4 % 64 ≠ 0 ∨ arg 5 ≠ 0 ∨ l.held = true → refused (.preemptGeneral r)) ∧
      (arg 1 < 2 ^ 16 → arg 2 = 1 → arg 4 % 64 = 0 → arg 5 = 0 → s.deviceKey l.root (arg 4) ≠ none → l.held = false →
        l.refused = false → Answers (.preemptGeneral r) s fun t => (t.hring r).cmd = some d ∧ (t.hring r).stage = 1 ∧
          (t.hring r).deadline = bound ∧ t.mem = s.mem ∧ t.threads = s.threads ∧ (∀ n ∈ teams, (t.team n).stopped = true) ∧
          ∀ y, t.launch? key = some y → y.held = true)) ∧
    (goesOn → path = 1 → (∀ tk ∈ s.launchThreads key, s.isStopped tk = true) → s.generalQuiet key = true →
      ∀ base, let area := s.saveArea key l
      MapsTo s l.root (arg 4) base (8 * area.length) → Answers (.preemptGeneral r) s fun t =>
        HostDone s t r d 0 (BitVec.ofNat 64 (8 * area.length + 64 * ((24 * s.aimedAt teams + 63) / 64))) 0 ∧ OnlyTwo s t base (8 * area.length) ck 16 ∧
        (∀ i, i < area.length → bytesAt t (base + 8 * i) 8 = (area.getD i 0).toNat) ∧
        (∀ tk th, t.thread? tk = some th → s.thread? tk = some th ∧ nodeOf (coreOf tk) ∉ teams) ∧
        ∀ y, t.launch? key = some y → y.saved.map (·.team) = teams ∧ y.savedAt = arg 4 ∧ y.preempted = true) ∧
    (takes 0x06 → path = 1 →
      (l.held = false ∨ l.preempted = false → refused (.resumeGeneral r)) ∧
      (∀ head area, arg 1 < 2 ^ 16 → arg 2 = 1 → arg 3 = 0 → arg 4 % 64 = 0 → arg 5 = 0 → l.held = true → l.preempted = true →
        s.areaRead l.root (arg 4) 8 = some head → areaMatches l head = true →
        s.areaRead l.root (arg 4) ((head.getD 3 0).toNat / 8) = some area → directoryMatches l area = true →
        (s.restoreTeams key l l.saved [] = none → Answers (.resumeGeneral r) s fun t => (t.hring r).cmd = some d ∧
          t.mem = s.mem ∧ t.threads = s.threads) ∧
        (s.restoreTeams key l l.saved [] ≠ none → Answers (.resumeGeneral r) s fun t =>
          (∃ n, HostDone s t r d 0 (BitVec.ofNat 64 n) 0) ∧ (∀ y, t.launch? key = some y → y.held = false ∧ y.saved = []) ∧
          ∀ tk th, t.thread? tk = some th → th.launch = key → th.run ≠ .halted 31))) ∧
    (goesOn → s.subj.n = r → ∀ c, (s.hring r).deadline = some c → c ≤ s.cycle → Answers .preemptTimeout s fun t =>
      HostDone s t r d 1 0 0 ∧ OnlyBytes s t ck 16 ∧ (path = 0 → t.threads = s.threads ∧ t.disp = s.disp) ∧
      (path = 1 → (∀ n ∈ teams, (t.team n).stopped = false) ∧ (∀ y, t.launch? key = some y → y.held = false) ∧
        ∀ tk th, t.thread? tk = some th → th.launch = key → th.run ≠ .halted 31))) ∧
  (∀ (s : State) (r : Nat) (d : List Word) (q : LaunchReq), Canonical s → Sized s → s.waiters = [] →
    let arg := fun i => (d.getD i 0).toNat
    let ck := completionKey s r
    let takes := fun code => HostTakes s r code d ∧ HostAccepts s code 6 d
    let refused := fun (i : Instr) => Answers i s fun t => HostRefused s t r d
    let held := fun (t : State) (on : Bool) => ∀ x y, (x, y) ∈ [(s.disp.hostQ, t.disp.hostQ), (s.disp.devQ, t.disp.devQ)] →
      y = x.map fun z => if z.handle = arg 1 then { z with held := on } else z
    s.launchByHandle (arg 1) = none →
    (s.queued? (arg 1) = none → (takes 0x05 → arg 2 = 1 → refused (.preemptGeneral r)) ∧
      (takes 0x06 → arg 2 = 1 → refused (.resumeGeneral r))) ∧
    (takes 0x05 → (d.getD 2 0).toNat % 2 = 0 → refused (.preemptPipeline r)) ∧
    (s.queued? (arg 1) = some q → arg 1 < 2 ^ 16 → arg 4 % 64 = 0 → arg 5 = 0 → arg 2 = 1 → q.handle < 2 ^ 16 →
      (takes 0x05 → q.held = true → refused (.preemptGeneral r)) ∧
      (takes 0x05 → q.held = false → ∀ base, MapsTo s q.root (arg 4) base 64 → Answers (.preemptGeneral r) s fun t =>
        HostDone s t r d 0 64 0 ∧ OnlyTwo s t base 64 ck 16 ∧ held t true ∧ bytesAt t base 8 = 0x45564153 + 2 ^ 32 ∧
        bytesAt t (base + 8) 8 = q.handle ∧ bytesAt t (base + 16) 8 = 0 ∧ bytesAt t (base + 24) 8 = 64 ∧
        ∀ i, 4 ≤ i → i < 8 → bytesAt t (base + 8 * i) 8 = 0) ∧
      (takes 0x06 → arg 3 = 0 → q.held = false → refused (.resumeGeneral r)) ∧
      (takes 0x06 → arg 3 = 0 → q.held = true → (∀ base, MapsTo s q.root (arg 4) base 64 →
        bytesAt s base 8 = 0x45564153 + 2 ^ 32 → bytesAt s (base + 8) 8 = q.handle → bytesAt s (base + 16) 8 = 0 →
        bytesAt s (base + 24) 8 = 64 → (∀ i, 4 ≤ i → i < 8 → bytesAt s (base + 8 * i) 8 = 0) →
        Answers (.resumeGeneral r) s fun t => HostDone s t r d 0 0 0 ∧ OnlyBytes s t ck 16 ∧ held t false)))) ∧
  (∀ (s : State) (key i node k : Nat) (l : Launch) (v : Task), (s.taskTeams key)[i]? = some node → (s.team node).task = some k →
    s.task? k = some v → (s.team node).s % 512 = 0 → (s.team node).s < 2 ^ 21 → (s.taskTeams key).length < 2 ^ 16 →
    let area := s.saveArea key l
    let n := (s.taskTeams key).length
    let size := (s.team node).s
    let off := (area.getD (8 + i) 0).toNat / 8
    let w := fun (j : Nat) => area.getD j 0
    let num := fun (x : Nat) => BitVec.ofNat 64 x
    let words := size / 8 + size / 512
    8 * area.length < 2 ^ 64 → w 0 = num (0x45564153 + 2 ^ 32) ∧ w 1 = num l.handle ∧ w 2 = num n ∧ w 3 = num (8 * area.length) ∧
    (∀ j, 4 ≤ j → j < 8 → w j = 0) ∧ (w (8 + i)).toNat % 64 = 0 ∧ off < area.length ∧
    w off = num (1 + 2 ^ 32 * 64) ∧ w (off + 8) = num l.handle ∧ w (off + 9) = num v.num ∧
    w (off + 10) = num (v.x + 2 ^ 32 * v.y) ∧ w (off + 11) = num v.budget ∧ w (off + 12) = num v.live ∧
    w (off + 13) = num v.succ ∧ w (off + 14) = num size ∧ w (off + 15) = num (packageNumber node) ∧
    w (off + 16) = num (2 + 2 ^ 32 * (8 * words)) ∧
    (∀ j, j < size / 8 → w (off + 24 + j) = num (s.load (sramKey node (8 * j)) 8)) ∧
    (∀ j, j < size / 8 → (w (off + 24 + size / 8 + j / 64)).getLsbD (j % 64) = s.full (sramKey node (8 * j))) ∧
    let cores := off + 24 + (words + 7) / 8 * 8
    (w cores).toNat % 2 ^ 32 = 3 ∧ ∀ j, j < 16 → w (cores + 8 + j) = s.readS (coreAt node 0) j)

/-- Reset, boot and links that go down (R144, R335, R337). Reset wipes the device's memory and register files and frees every
slot; host and peer memory stay. With both images verified the device boots, its links up, with entry 15 of every core set as
R320 says; with an image that fails its check it does not, and DEVSTAT and the identity record say which. When a link goes
down, an answer of an access that is on its way on it becomes a fault with cause 7, an access that waits beyond it gets that
answer, and the log gets an entry. Where the manual is silent or is read by inference it is the model's choice: log 5, 15, 51. -/
def Obligations.BootAndLinks : Prop :=
  (∀ s : State,
    let ok := fun img => Config.signatureCheck img = 0 ∧ Config.fusedMinimum ≤ Config.imageVersion img
    Answers .reset s fun t =>
      (∀ key, (key < 2 ^ 40 ∨ (2 ^ 48 ≤ key ∧ key < 2 ^ 60)) → t.byte key = 0 ∧ t.full key = true) ∧ t.rf = [] ∧ t.streams = [] ∧ t.threads = [] ∧
      (∀ k n, t.readS k n = 0) ∧ (∀ k, (t.core k).feretry = 0x0404) ∧ (∀ n, (t.team n).mx = {}) ∧
      (∀ key, (2 ^ 60 ≤ key ∨ (2 ^ 40 ≤ key ∧ key < 2 ^ 48)) → Canonical s → t.byte key = s.byte key) ∧
      (ok s.pkg.flash → ok s.pkg.idImage → t.pkg.booted = true ∧ t.pkg.links = (s.pkg.links.map fun _ => 2) ∧ t.bar0Read 8 = 1 ∧
        t.pkg.fwVersion = Config.imageVersion s.pkg.flash ∧ ∀ k, k < 1216 →
          let x := (t.core k).entry 15
          x.valid = true ∧ x.ports = 0x80000000 ∧ x.slot = 0 ∧ 8 ≤ x.w ∧ x.w ≤ 96 ∧ x.w % 8 = 0 ∧ x.prio = 3 ∧ x.pc = Config.supervisorPc &&& ~~~3 ∧
          x.pass = 0 ∧ (t.core k).spillBase = Config.spillBase k ∧
          (t.core k).paddockBase = Config.paddockBase k) ∧
      (¬ ok s.pkg.flash → t.pkg.booted = false ∧ t.bar0Read 8 = 2 ∧ t.bar0Read 0 = 0 ∧ t.pkg.bootImage = 0) ∧
      (ok s.pkg.flash → ¬ ok s.pkg.idImage → t.pkg.booted = false ∧ t.bar0Read 8 = 2 ∧ t.bar0Read 0 = 0 ∧ t.pkg.bootImage = 1)) ∧
  (∀ (s : State) (link : Nat), Sized s → link < 8 → Answers (.linkDown link) s fun t =>
    t.pkg.links[link]? = some 0 ∧ (∀ k, k ≠ link → t.pkg.links[k]? = s.pkg.links[k]?) ∧ t.mem = s.mem ∧
    t.pkg.logEntries = s.pkg.logEntries ++ [{ cycle := s.cycle, w1 := BitVec.ofNat 64 (4 + 2 ^ 16 * link) }] ∧
    (∀ w ∈ s.waiting, s.onLink link w.id = true → w.id ∉ t.waiters ∧ Sent s t w.node (.answer w.id 23 0 false)) ∧
    ∀ pid q, pid < s.nextId → SMap.get? s.packets pid = some q → ∃ u, SMap.get? t.packets pid = some u ∧ u.dst = q.dst ∧
      ∀ rid, (s.onLink link rid = true → (∀ bs c x y, q.payload = .land rid bs c x y → ∃ z w, u.payload = .land rid [] 7 z w) ∧
          (∀ c, q.payload = .ack rid c → u.payload = .ack rid 7) ∧ (∀ v c, q.payload = .old rid v c → u.payload = .old rid 0 7)) ∧
        (s.onLink link rid = false → (∀ bs c x y, q.payload = .land rid bs c x y → u.payload = q.payload) ∧
          (∀ c, q.payload = .ack rid c → u.payload = q.payload)))
end

