-- ==== Sys2Proof/Laws/Issue.lean ====
section
/-! SUPPORT. What the issue of a word does, said once: the lemmas that proofs about instructions cite. -/

namespace Sys2Proof

open Sys2Proof.Machine

namespace Machine

/-- A ready instruction passes every check that is not its own. -/
theorem verdict_ready {i : Instr} {s : State} {tk : Nat} {th : Thread} {chk : Issue → State → Check}
    (h : Ready i s tk th) :
    verdict i chk th (s.issueOf tk th i) s =
      match chk (s.issueOf tk th i) s with
      | .go => .run
      | .park => .park
      | .trap k c w => .trap k c w := by
  have h1 := h.pre
  unfold prefixOk prefixOf at h1
  have h2 := h.guard
  unfold prefixOf at h2
  cases hq : s.compat tk with
  | false =>
    simp only [verdict, State.issueOf, h1, h2, h.window, h.names, h.noStop, h.pops, h.room, h.noMarker, hq,
      Bool.not_true, Bool.false_eq_true, if_false, Bool.and_self]
    all_goals (cases chk _ s <;> rfl)
  | true =>
    simp only [verdict, State.issueOf, h1, h2, h.window, h.names, h.noStop, h.pops, h.room, h.noMarker, hq,
      h.noEnd hq, Bool.not_true, Bool.false_eq_true, if_false, if_true, Bool.and_self]
    all_goals (cases chk _ s <;> rfl)

/-- Every word but PRE runs through `issue`, with some check of its own and some effect. -/
theorem exec_word (i : Instr) (s : State) (h : i.isWord = true) (hp : ∀ sm g b e n f x o, i ≠ .pre sm g b e n f x o) :
    ∃ chk eff, Machine.exec i s = issue i chk eff s := by
  cases i
  case pre => exact absurd rfl (hp _ _ _ _ _ _ _ _)
  all_goals first | exact ⟨_, _, rfl⟩ | exact absurd h (by simp [Instr.isWord])

/-- A ready instruction whose own check passes has its effect. -/
theorem issue_ready {i : Instr} {s : State} {tk : Nat} {th : Thread} {chk : Issue → State → Check}
    {eff : Issue → State → State} (h : Ready i s tk th) (hc : chk (s.issueOf tk th i) s = .go) :
    issue i chk eff s = .next (issued i s tk (eff (s.issueOf tk th i))) := by
  simp only [issue, h.issuing.1, h.issuing.2, verdict_ready h, hc]
  rfl

/-- A ready instruction whose own check answers a trap takes it, with nothing popped and the prefix left pending. -/
theorem issue_trap {i : Instr} {s : State} {tk : Nat} {th : Thread} {chk : Issue → State → Check}
    {eff : Issue → State → State} {k c : Nat} {w : Word} (h : Ready i s tk th)
    (hc : chk (s.issueOf tk th i) s = .trap k c w) :
    issue i chk eff s = .next ((s.trap tk k c w).takeTurn tk) := by
  simp only [issue, h.issuing.1, h.issuing.2, verdict_ready h, hc]
  rfl

/-- A ready instruction without a check of its own has its effect. -/
theorem issue_noCheck {i : Instr} {s : State} {tk : Nat} {th : Thread} {eff : Issue → State → State}
    (h : Ready i s tk th) : issue i noCheck eff s = .next (issued i s tk (eff (s.issueOf tk th i))) :=
  issue_ready h rfl

/-- The value of the n-th register field of an issuing instruction. -/
theorem issueOf_val {i : Instr} {s : State} {tk : Nat} {th : Thread} {n : Nat} (h : n < i.fields.length) :
    (s.issueOf tk th i).val n = s.operand tk i n := by
  simp [Issue.val, State.issueOf, List.getD, h]

/-- An instruction that writes one result. -/
theorem alu_does {i : Instr} {rd : Reg} {f : Issue → Word} {g : State → Nat → Word}
    (h : ∀ s tk th, f (s.issueOf tk th i) = g s tk) :
    ∀ s tk th, Ready i s tk th →
      issueAlu i rd f s = .next (issued i s tk fun u => u.writeReg tk rd (g s tk)) := by
  intro s tk th hr
  unfold issueAlu
  rw [issue_noCheck hr]
  simp only [h s tk th]
  rfl

/-- An instruction that writes one function of two operand values. -/
theorem writes_of {i : Instr} {rd : Reg} {f : Issue → Word} {g : Word → Word → Word}
    (he : ∀ s, Machine.exec i s = issueAlu i rd f s)
    (h : ∀ (s : State) tk th, f (s.issueOf tk th i) = g (s.operand tk i 1) (s.operand tk i 2)) : Writes i rd g := by
  intro s tk th hr
  rw [he, alu_does (g := fun s tk => g (s.operand tk i 1) (s.operand tk i 2)) h s tk th hr]

/-- An instruction that writes one result computed from the state at issue. -/
theorem does_of {i : Instr} {rd : Reg} {f : Issue → Word} {g : State → Nat → Word}
    (he : ∀ s, Machine.exec i s = issueAlu i rd f s)
    (h : ∀ (s : State) tk th, f (s.issueOf tk th i) = g s tk) : Does i (fun s tk u => u.writeReg tk rd (g s tk)) := by
  intro s tk th hr
  rw [he, alu_does h s tk th hr]

/-- An instruction without a check of its own. -/
theorem does_noCheck {i : Instr} {eff : Issue → State → State} {g : State → Nat → State → State}
    (he : ∀ s, Machine.exec i s = issue i noCheck eff s)
    (h : ∀ (s : State) tk th, s.thread? tk = some th → eff (s.issueOf tk th i) = g s tk) : Does i g := by
  intro s tk th hr
  rw [he, issue_noCheck hr, h s tk th hr.issuing.2]

end Machine
end Sys2Proof
end

