-- ==== Sys2Proof/Laws/Maps.lean ====
section
/-! SUPPORT. Maps with rising keys: what a placement and a removal leave at each key, and that both keep the keys rising. -/

namespace Sys2Proof.Machine

@[simp] theorem SMap.get?_nil {α : Type} (k : Nat) : SMap.get? ([] : SMap α) k = none := rfl
@[simp] theorem SMap.getD_nil {α : Type} (k : Nat) (d : α) : SMap.getD ([] : SMap α) k d = d := rfl

/-- A bound may be lowered. -/
theorem SMap.sortedFrom_mono {α : Type} {a b : Nat} {m : SMap α} (h : SMap.sortedFrom b m = true) (hab : a ≤ b) :
    SMap.sortedFrom a m = true := by
  cases m with
  | nil => rfl
  | cons e m =>
    simp only [SMap.sortedFrom, Bool.and_eq_true, decide_eq_true_eq] at h ⊢
    exact ⟨by omega, h.2⟩

/-- Below its first bound a map has no key. -/
theorem SMap.get?_below {α : Type} {b k : Nat} {m : SMap α} (h : SMap.sortedFrom b m = true) (hk : k < b) :
    SMap.get? m k = none := by
  cases m with
  | nil => rfl
  | cons e m =>
    simp only [SMap.sortedFrom, Bool.and_eq_true, decide_eq_true_eq] at h
    simp only [SMap.get?]
    rw [if_neg (by omega), if_pos (by omega)]

/-- The value placed is what is read at its key. -/
@[simp] theorem SMap.get?_put_same {α : Type} (m : SMap α) (k : Nat) (v : α) : SMap.get? (SMap.put m k v) k = some v := by
  induction m with
  | nil => simp [SMap.put, SMap.get?]
  | cons e m ih =>
    obtain ⟨j, w⟩ := e
    simp only [SMap.put]
    split
    · simp [SMap.get?]
    · split
      · simp [SMap.get?]
      · rename_i h1 h2
        simp only [SMap.get?, if_neg h1, if_neg h2]
        exact ih

/-- A placement leaves every other key as it was. -/
theorem SMap.get?_put_other {α : Type} (m : SMap α) (k a : Nat) (v : α) (h : a ≠ k) :
    SMap.get? (SMap.put m k v) a = SMap.get? m a := by
  induction m with
  | nil => simp only [SMap.put, SMap.get?]; split <;> [omega; (split <;> rfl)]
  | cons e m ih =>
    obtain ⟨j, w⟩ := e
    simp only [SMap.put]
    split
    · subst j; simp only [SMap.get?]; rw [if_neg (Ne.symm h), if_neg (Ne.symm h)]
    · split
      · simp only [SMap.get?]
        rw [if_neg (Ne.symm h)]
        split
        · rw [if_neg (by omega), if_pos (by omega)]
        · rfl
      · simp only [SMap.get?]
        split
        · rfl
        · split
          · rfl
          · exact ih

/-- A placement keeps the keys rising. -/
theorem SMap.sortedFrom_put {α : Type} (m : SMap α) (b k : Nat) (v : α) (h : SMap.sortedFrom b m = true) (hb : b ≤ k) :
    SMap.sortedFrom b (SMap.put m k v) = true := by
  induction m generalizing b with
  | nil => simp [SMap.put, SMap.sortedFrom, hb]
  | cons e m ih =>
    obtain ⟨j, w⟩ := e
    simp only [SMap.sortedFrom, Bool.and_eq_true, decide_eq_true_eq] at h
    simp only [SMap.put]
    split
    · subst j; simp [SMap.sortedFrom, hb, h.2]
    · split
      · simp only [SMap.sortedFrom, Bool.and_eq_true, decide_eq_true_eq]
        exact ⟨hb, by omega, h.2⟩
      · simp only [SMap.sortedFrom, Bool.and_eq_true, decide_eq_true_eq]
        exact ⟨h.1, ih _ h.2 (by omega)⟩

/-- A removal leaves no value at its key. -/
theorem SMap.get?_del_same {α : Type} (m : SMap α) (b k : Nat) (h : SMap.sortedFrom b m = true) :
    SMap.get? (SMap.del m k) k = none := by
  induction m generalizing b with
  | nil => rfl
  | cons e m ih =>
    obtain ⟨j, w⟩ := e
    simp only [SMap.sortedFrom, Bool.and_eq_true, decide_eq_true_eq] at h
    simp only [SMap.del]
    split
    · exact SMap.get?_below h.2 (by omega)
    · split
      · simp only [SMap.get?]; rw [if_neg ‹_›, if_pos ‹_›]
      · simp only [SMap.get?]; rw [if_neg ‹_›, if_neg ‹_›]; exact ih _ h.2

/-- A removal leaves every other key as it was. -/
theorem SMap.get?_del_other {α : Type} (m : SMap α) (b k a : Nat) (h : SMap.sortedFrom b m = true) (ha : a ≠ k) :
    SMap.get? (SMap.del m k) a = SMap.get? m a := by
  induction m generalizing b with
  | nil => rfl
  | cons e m ih =>
    obtain ⟨j, w⟩ := e
    simp only [SMap.sortedFrom, Bool.and_eq_true, decide_eq_true_eq] at h
    simp only [SMap.del]
    split
    · subst j
      simp only [SMap.get?]
      rw [if_neg (Ne.symm ha)]
      split
      · exact SMap.get?_below h.2 (by omega)
      · rfl
    · split
      · rfl
      · simp only [SMap.get?]
        split
        · rfl
        · split
          · rfl
          · exact ih _ h.2

/-- A removal keeps the keys rising. -/
theorem SMap.sortedFrom_del {α : Type} (m : SMap α) (b k : Nat) (h : SMap.sortedFrom b m = true) :
    SMap.sortedFrom b (SMap.del m k) = true := by
  induction m generalizing b with
  | nil => rfl
  | cons e m ih =>
    obtain ⟨j, w⟩ := e
    have h' := h
    simp only [SMap.sortedFrom, Bool.and_eq_true, decide_eq_true_eq] at h
    simp only [SMap.del]
    split
    · exact SMap.sortedFrom_mono h.2 (by omega)
    · split
      · exact h'
      · simp only [SMap.sortedFrom, Bool.and_eq_true, decide_eq_true_eq]; exact ⟨h.1, ih _ h.2⟩

/-- What is read at a key after a placement with a default, where the keys rise. -/
theorem SMap.getD_putD {α : Type} [DecidableEq α] (m : SMap α) (k a : Nat) (v d : α) (h : SMap.sortedFrom 0 m = true) :
    SMap.getD (SMap.putD m k v d) a d = if a = k then v else SMap.getD m a d := by
  simp only [SMap.getD, SMap.putD]
  by_cases hv : v = d
  · rw [if_pos hv]
    by_cases ha : a = k
    · subst ha; rw [if_pos rfl, SMap.get?_del_same m 0 a h]; exact hv.symm
    · rw [if_neg ha, SMap.get?_del_other m 0 k a h ha]
  · rw [if_neg hv]
    by_cases ha : a = k
    · subst ha; rw [if_pos rfl, SMap.get?_put_same]; rfl
    · rw [if_neg ha, SMap.get?_put_other m k a v ha]

/-- A placement with a default keeps the keys rising. -/
theorem SMap.sortedFrom_putD {α : Type} [DecidableEq α] (m : SMap α) (k : Nat) (v d : α) (h : SMap.sortedFrom 0 m = true) :
    SMap.sortedFrom 0 (SMap.putD m k v d) = true := by
  simp only [SMap.putD]
  split
  · exact SMap.sortedFrom_del m 0 k h
  · exact SMap.sortedFrom_put m 0 k v h (Nat.zero_le k)

/-- The entries of a map after a removal were there before. -/
theorem SMap.mem_del {α : Type} {m : SMap α} {k : Nat} {e : Nat × α} (h : e ∈ SMap.del m k) : e ∈ m := by
  induction m with
  | nil => exact h
  | cons x m ih =>
    obtain ⟨j, w⟩ := x
    simp only [SMap.del] at h
    split at h
    · exact List.mem_cons_of_mem _ h
    · split at h
      · exact h
      · rcases List.mem_cons.mp h with h | h
        · exact h ▸ List.mem_cons_self
        · exact List.mem_cons_of_mem _ (ih h)

/-- An entry of a map after a placement is the one placed, or was there before. -/
theorem SMap.mem_put {α : Type} {m : SMap α} {k : Nat} {v : α} {e : Nat × α} (h : e ∈ SMap.put m k v) :
    e = (k, v) ∨ e ∈ m := by
  induction m with
  | nil => simp only [SMap.put, List.mem_singleton] at h; exact .inl h
  | cons x m ih =>
    obtain ⟨j, w⟩ := x
    simp only [SMap.put] at h
    split at h
    · rcases List.mem_cons.mp h with h | h
      · exact .inl h
      · exact .inr (List.mem_cons_of_mem _ h)
    · split at h
      · rcases List.mem_cons.mp h with h | h
        · exact .inl h
        · exact .inr h
      · rcases List.mem_cons.mp h with h | h
        · exact .inr (h ▸ List.mem_cons_self)
        · rcases ih h with h | h
          · exact .inl h
          · exact .inr (List.mem_cons_of_mem _ h)

end Sys2Proof.Machine
end

