-- ==== Sys2Proof/Laws/Memory.lean ====
section
/-! SUPPORT. Memory, full/empty bits and registers: what a write leaves at each address, and that every write keeps the canonical
form. -/

namespace Sys2Proof.Machine

/-! ### The canonical form -/

/-- The memory of the reset state has its canonical form. -/
theorem Memory.wf_reset : Memory.wf State.reset.mem = true := rfl

/-- The keys of a memory in canonical form rise. -/
theorem Memory.sorted_of_wf {m : List Host.Cell} (h : Memory.wf m = true) : SMap.sortedFrom 0 m = true := by
  simp only [Memory.wf, Bool.and_eq_true] at h; exact h.1

/-- One byte written keeps the canonical form. -/
theorem Memory.wf_putD (m : List Host.Cell) (k : Nat) (b : Byte) (h : Memory.wf m = true) :
    Memory.wf (SMap.putD m k b unlisted) = true := by
  have hs := Memory.sorted_of_wf h
  simp only [Memory.wf, Bool.and_eq_true, List.all_eq_true] at h ⊢
  refine ⟨SMap.sortedFrom_putD m k b unlisted hs, fun e he => ?_⟩
  simp only [SMap.putD] at he
  split at he
  · exact h.2 e (SMap.mem_del he)
  · rcases SMap.mem_put he with he | he
    · subst he; simpa using ‹_›
    · exact h.2 e he

theorem State.wf_setByte (s : State) (k : Nat) (b : Byte) (h : Memory.wf s.mem = true) : Memory.wf (s.setByte k b).mem = true :=
  Memory.wf_putD s.mem k b h

theorem State.wf_setBytes (s : State) (k : Nat) (bs : List Byte) (h : Memory.wf s.mem = true) :
    Memory.wf (s.setBytes k bs).mem = true := by
  induction bs generalizing s k with
  | nil => exact h
  | cons b bs ih => exact ih _ _ (s.wf_setByte k b h)

theorem State.wf_store (s : State) (k n v : Nat) (h : Memory.wf s.mem = true) : Memory.wf (s.store k n v).mem = true :=
  s.wf_setBytes k _ h

theorem State.wf_localStore (s : State) (k : Nat) (bs : List Byte) (h : Memory.wf s.mem = true) :
    Memory.wf (s.localStore k bs).mem = true := by
  induction bs generalizing s k with
  | nil => exact h
  | cons b bs ih =>
    simp only [State.localStore]
    refine ih _ _ (State.wf_setByte _ _ _ ?_)
    split <;> exact h

/-! ### What a write leaves -/

/-- A byte written is what is read at its key, and every other key reads as before. -/
theorem State.byte_setByte (s : State) (k a : Nat) (b : Byte) (h : Memory.wf s.mem = true) :
    (s.setByte k b).byte a = if a = k then b else s.byte a :=
  SMap.getD_putD s.mem k a b unlisted (Memory.sorted_of_wf h)

/-- Bytes written from a key on: inside them the bytes are read back, outside them every key reads as before. -/
theorem State.byte_setBytes (s : State) (k a : Nat) (bs : List Byte) (h : Memory.wf s.mem = true) :
    (s.setBytes k bs).byte a = if k ≤ a ∧ a < k + bs.length then bs.getD (a - k) 0 else s.byte a := by
  induction bs generalizing s k with
  | nil => simp [State.setBytes]
  | cons b bs ih =>
    simp only [State.setBytes]
    rw [ih _ _ (s.wf_setByte k b h), s.byte_setByte k a b h]
    simp only [List.length_cons]
    by_cases h1 : a = k
    · subst h1
      rw [if_neg (by omega), if_pos rfl, if_pos (by omega), Nat.sub_self]; rfl
    · by_cases h2 : k + 1 ≤ a ∧ a < k + 1 + bs.length
      · rw [if_pos h2, if_pos (by omega)]
        have e : a - k = (a - (k + 1)) + 1 := by omega
        rw [e]; rfl
      · rw [if_neg h2, if_neg h1, if_neg (by omega)]

/-- What bytes leave in memory depends on the memory alone. -/
theorem State.mem_setBytes_congr {s t : State} (h : s.mem = t.mem) (k : Nat) (bs : List Byte) :
    (s.setBytes k bs).mem = (t.setBytes k bs).mem := by
  induction bs generalizing s t k with
  | nil => exact h
  | cons b bs ih => exact ih (by simp only [State.setByte, h]) _

/-- A local store leaves in memory what any write of its bytes leaves. -/
theorem State.mem_localStore (s : State) (k : Nat) (bs : List Byte) : (s.localStore k bs).mem = (s.setBytes k bs).mem := by
  induction bs generalizing s k with
  | nil => rfl
  | cons b bs ih =>
    simp only [State.localStore, State.setBytes]
    split
    · exact ih _ _
    · rw [ih]
      exact State.mem_setBytes_congr (by rfl) _ _

/-- A full/empty bit written is what is read for its word, and every other word's bit is as before. -/
theorem State.full_setFull (s : State) (k a : Nat) (b : Bool) (h : SMap.sortedFrom 0 s.fe = true) :
    (s.setFull k b).full a = if a / 8 = k / 8 then b else s.full a :=
  SMap.getD_putD s.fe (k / 8) (a / 8) b true h

theorem State.sorted_setFull (s : State) (k : Nat) (b : Bool) (h : SMap.sortedFrom 0 s.fe = true) :
    SMap.sortedFrom 0 (s.setFull k b).fe = true := SMap.sortedFrom_putD s.fe (k / 8) b true h

/-! ### Registers -/

/-- A file entry written is what is read there, and no other entry changes. -/
theorem State.getD_writeG (s : State) (tk i : Nat) (v : Word) (key : Nat) (h : SMap.sortedFrom 0 s.rf = true) :
    SMap.getD (s.writeG tk i v).rf key 0 = if key = s.rfKey tk i then v else SMap.getD s.rf key 0 :=
  SMap.getD_putD s.rf (s.rfKey tk i) key v 0 h

theorem State.sorted_writeG (s : State) (tk i : Nat) (v : Word) (h : SMap.sortedFrom 0 s.rf = true) :
    SMap.sortedFrom 0 (s.writeG tk i v).rf = true := SMap.sortedFrom_putD s.rf (s.rfKey tk i) v 0 h

theorem State.readG_writeG (s : State) (tk i : Nat) (v : Word) (h : SMap.sortedFrom 0 s.rf = true) :
    (s.writeG tk i v).readG tk i = v := by
  show SMap.getD (s.writeG tk i v).rf (s.rfKey tk i) 0 = v
  rw [s.getD_writeG tk i v _ h, if_pos rfl]

/-- Writes of s registers that become visible keep the map's keys rising. -/
theorem State.sorted_settleS (s : State) (c : Nat) (h : SMap.sortedFrom 0 s.sregs = true) :
    SMap.sortedFrom 0 (s.settleS c).sregs = true := by
  simp only [State.settleS]
  generalize s.spend.filter (fun e => decide (e.cycle + 3 ≤ c)) = l
  generalize s.sregs = m at h
  induction l generalizing m with
  | nil => exact h
  | cons e l ih => exact ih _ (SMap.sortedFrom_putD m e.key e.value 0 h)

/-- A stream register set is what is read there. -/
theorem State.sorted_setStream (s : State) (tk k : Nat) (x : Stream) (h : SMap.sortedFrom 0 s.streams = true) :
    SMap.sortedFrom 0 (s.setStream tk k x).streams = true := SMap.sortedFrom_putD s.streams _ x {} h

/-! ### What a write does to waiters leaves memory alone -/

@[simp] theorem State.serve_mem (s : State) (r : Req) (st : Nat) (v : Word) (w : Bool) : (s.serve r st v w).mem = s.mem := rfl

theorem State.foldl_mem (l : List Req) (f : State → Req → State) (h : ∀ s r, (f s r).mem = s.mem) (s : State) :
    (l.foldl f s).mem = s.mem := by
  induction l generalizing s with
  | nil => rfl
  | cons r l ih => exact (ih (f s r)).trans (h s r)

@[simp] theorem State.releaseBarrier_mem (s : State) (p : Req → Bool) (st : Nat) : (s.releaseBarrier p st).mem = s.mem :=
  State.foldl_mem _ (fun s r => s.serve r st (word r.data) true) (fun _ _ => rfl) s

@[simp] theorem State.wakeWords_mem (s : State) (k n : Nat) : (s.wakeWords k n).mem = s.mem :=
  State.foldl_mem _ _ (fun s r => by dsimp only; split <;> rfl) s

@[simp] theorem State.afterWrite_mem (s : State) (k n : Nat) : (s.afterWrite k n).mem = s.mem := by
  unfold State.afterWrite
  split
  · rfl
  · rw [State.wakeWords_mem, State.releaseBarrier_mem]

/-- An owner's write keeps the form of memory. -/
theorem State.wf_ownerWrite (s : State) (k : Nat) (bs : List Byte) (h : Memory.wf s.mem = true) :
    Memory.wf (s.ownerWrite k bs).mem = true := by
  unfold State.ownerWrite
  rw [State.afterWrite_mem]
  exact State.wf_setBytes s k bs h

/-- A store to a scratchpad keeps the form of memory. -/
theorem State.wf_scratchStore (s : State) (k : Nat) (bs : List Byte) (h : Memory.wf s.mem = true) :
    Memory.wf (s.scratchStore k bs).mem = true := by
  unfold State.scratchStore
  rw [State.wakeWords_mem]
  exact State.wf_localStore s k bs h

/-! ### Records -/

/-- A slot's thread changed is what is read there. -/
theorem State.thread?_modThread (s : State) (tk : Nat) (f : Thread → Thread) :
    (s.modThread tk f).thread? tk = (s.thread? tk).map f := by
  unfold State.modThread State.thread?
  cases h : SMap.get? s.threads tk with
  | none => simp [h]
  | some th => simp

/-- Every other slot's thread is as before. -/
theorem State.thread?_modThread_other (s : State) (tk k : Nat) (f : Thread → Thread) (h : k ≠ tk) :
    (s.modThread tk f).thread? k = s.thread? k := by
  unfold State.modThread State.thread?
  cases SMap.get? s.threads tk with
  | none => rfl
  | some th => exact SMap.get?_put_other s.threads tk k (f th) h

/-- A core's record changed is what is read there, and every other is as before. -/
theorem State.core_modCore (s : State) (k j : Nat) (f : Core → Core) :
    (s.modCore k f).core j = if j = k then f (s.core k) else s.core j := by
  unfold State.modCore State.core
  by_cases h : j = k
  · subst h
    simp [SMap.getD]
  · rw [if_neg h]
    unfold SMap.getD
    rw [SMap.get?_put_other _ _ _ _ h]

/-- A node's record changed is what is read there, and every other is as before. -/
theorem State.team_modTeam (s : State) (k j : Nat) (f : Team → Team) :
    (s.modTeam k f).team j = if j = k then f (s.team k) else s.team j := by
  unfold State.modTeam State.team
  by_cases h : j = k
  · subst h
    simp [SMap.getD]
  · rw [if_neg h]
    unfold SMap.getD
    rw [SMap.get?_put_other _ _ _ _ h]

end Sys2Proof.Machine
end

