-- ==== Sys2Proof/Laws/PerInstr.lean ====
section
/-! SUPPORT. Encoding and decoding, instruction by instruction: what each field of a packed word reads, and the round trip of
every instruction. -/

set_option linter.unusedSimpArgs false
set_option Elab.async false

namespace Sys2Proof

open BitVec

/-! ### Registers in their fields (Table FM-3) -/

theorem Reg.toNat_lt (r : Reg) : r.toNat < 128 := by
  cases r with
  | g i => have := i.isLt; show i.val < 128; omega
  | s i => have := i.isLt; show 96 + i.val < 128; omega
  | st i => have := i.isLt; show 112 + i.val < 128; omega
  | nb d => cases d <;> decide
  | q i => have := i.isLt; show 124 + i.val < 128; omega
theorem Reg.ofNat_toNat (r : Reg) : Reg.ofNat r.toNat = r := by
  cases r with
  | g i => have := i.isLt; show Reg.ofNat i.val = _; rw [Reg.ofNat, dif_pos this]
  | s i => 
    have := i.isLt; show Reg.ofNat (96 + i.val) = _
    rw [Reg.ofNat, dif_neg (by omega), dif_pos (by omega)]
    congr 1; apply Fin.ext; show 96 + i.val - 96 = i.val; omega
  | st i => 
    have := i.isLt; show Reg.ofNat (112 + i.val) = _
    rw [Reg.ofNat, dif_neg (by omega), dif_neg (by omega), dif_pos (by omega)]
    congr 1; apply Fin.ext; show 112 + i.val - 112 = i.val; omega
  | nb d => cases d <;> rfl
  | q i => revert i; decide
theorem Reg.ofBits_bits (r : Reg) : Reg.ofBits r.bits = r := by
  rw [Reg.ofBits, Reg.bits, BitVec.toNat_ofNat, Nat.mod_eq_of_lt r.toNat_lt, Reg.ofNat_toNat]
theorem extract_low {n m k : Nat} (a : BitVec n) (b : BitVec m) (l : Nat) (h : l + k ≤ m) : (a ++ b).extractLsb' l k = b.extractLsb' l k := by
  exact BitVec.extractLsb'_append_eq_of_add_le h
theorem extract_high {n m k : Nat} (a : BitVec n) (b : BitVec m) (l : Nat) (h : m ≤ l) : (a ++ b).extractLsb' l k = a.extractLsb' (l - m) k := by
  exact BitVec.extractLsb'_append_eq_of_le h
theorem switch_top {n : Nat} (sm : Bool) (x : BitVec n) (l : Nat) (h : n = l) : (ofBool sm ++ x).getLsbD l = sm := by
  subst h; rw [BitVec.getLsbD_append, if_neg (Nat.lt_irrefl _), Nat.sub_self]; cases sm <;> rfl
theorem wordOp_packR (sm : Bool) (op : BitVec 6) (rd : BitVec 7) (ra : BitVec 7) (rb : BitVec 7) (f : BitVec 4) : wordOp (packR sm op rd ra rb f) = op.toNat := by
  rw [wordOp, packR, extract_low _ _ _ (by decide), extract_high _ _ _ (by decide)]; exact congrArg BitVec.toNat extractLsb'_eq_self
theorem wordOp_packI (sm : Bool) (op : BitVec 6) (rd : BitVec 7) (ra : BitVec 7) (f : BitVec 11) : wordOp (packI sm op rd ra f) = op.toNat := by
  rw [wordOp, packI, extract_low _ _ _ (by decide), extract_high _ _ _ (by decide)]; exact congrArg BitVec.toNat extractLsb'_eq_self
theorem wordOp_packL (sm : Bool) (op : BitVec 6) (rd : BitVec 7) (f : BitVec 18) : wordOp (packL sm op rd f) = op.toNat := by
  rw [wordOp, packL, extract_low _ _ _ (by decide), extract_high _ _ _ (by decide)]; exact congrArg BitVec.toNat extractLsb'_eq_self
theorem wordOp_packB (sm : Bool) (op : BitVec 6) (ra : BitVec 7) (b : BitVec 6) (f : BitVec 12) : wordOp (packB sm op ra b f) = op.toNat := by
  rw [wordOp, packB, extract_low _ _ _ (by decide), extract_high _ _ _ (by decide)]; exact congrArg BitVec.toNat extractLsb'_eq_self
theorem wordOp_packJ (sm : Bool) (op : BitVec 6) (f : BitVec 25) : wordOp (packJ sm op f) = op.toNat := by
  rw [wordOp, packJ, extract_low _ _ _ (by decide), extract_high _ _ _ (by decide)]; exact congrArg BitVec.toNat extractLsb'_eq_self
theorem wordOp_packM (sm : Bool) (op : BitVec 6) (rd : BitVec 7) (ra : BitVec 7) (r : BitVec 2) (z : BitVec 2) (f : BitVec 7) : wordOp (packM sm op rd ra r z f) = op.toNat := by
  rw [wordOp, packM, extract_low _ _ _ (by decide), extract_high _ _ _ (by decide)]; exact congrArg BitVec.toNat extractLsb'_eq_self
theorem wordOp_packW (sm : Bool) (op : BitVec 6) (rd : BitVec 7) (ra : BitVec 7) (t : BitVec 4) (x : BitVec 3) (f : BitVec 4) : wordOp (packW sm op rd ra t x f) = op.toNat := by
  rw [wordOp, packW, extract_low _ _ _ (by decide), extract_high _ _ _ (by decide)]; exact congrArg BitVec.toNat extractLsb'_eq_self
theorem wordOp_packC (sm : Bool) (op : BitVec 6) (rd : BitVec 7) (ra : BitVec 7) (c : BitVec 2) (f : BitVec 9) : wordOp (packC sm op rd ra c f) = op.toNat := by
  rw [wordOp, packC, extract_low _ _ _ (by decide), extract_high _ _ _ (by decide)]; exact congrArg BitVec.toNat extractLsb'_eq_self
theorem wordOp_packP (sm : Bool) (op : BitVec 6) (g : BitVec 7) (b : BitVec 6) (e : BitVec 1) (n : BitVec 1) (f : BitVec 4) (x : BitVec 4) (o : BitVec 2) : wordOp (packP sm op g b e n f x o) = op.toNat := by
  rw [wordOp, packP, extract_low _ _ _ (by decide), extract_high _ _ _ (by decide)]; exact congrArg BitVec.toNat extractLsb'_eq_self

theorem wordS_packR (sm : Bool) (op : BitVec 6) (rd : BitVec 7) (ra : BitVec 7) (rb : BitVec 7) (f : BitVec 4) : wordS (packR sm op rd ra rb f) = sm := switch_top _ _ _ rfl
theorem rd_packR (sm : Bool) (op : BitVec 6) (rd : BitVec 7) (ra : BitVec 7) (rb : BitVec 7) (f : BitVec 4) (l k : Nat) (h : 18 ≤ l) (h' : l + k ≤ 25) :
    (packR sm op rd ra rb f).extractLsb' l k = rd.extractLsb' (l - 18) k := by
  rw [packR, extract_low _ _ _ (by omega), extract_low _ _ _ (by omega), extract_high _ _ _ (by omega)]
theorem ra_packR (sm : Bool) (op : BitVec 6) (rd : BitVec 7) (ra : BitVec 7) (rb : BitVec 7) (f : BitVec 4) (l k : Nat) (h : 11 ≤ l) (h' : l + k ≤ 18) :
    (packR sm op rd ra rb f).extractLsb' l k = ra.extractLsb' (l - 11) k := by
  rw [packR, extract_low _ _ _ (by omega), extract_low _ _ _ (by omega), extract_low _ _ _ (by omega), extract_high _ _ _ (by omega)]
theorem rb_packR (sm : Bool) (op : BitVec 6) (rd : BitVec 7) (ra : BitVec 7) (rb : BitVec 7) (f : BitVec 4) (l k : Nat) (h : 4 ≤ l) (h' : l + k ≤ 11) :
    (packR sm op rd ra rb f).extractLsb' l k = rb.extractLsb' (l - 4) k := by
  rw [packR, extract_low _ _ _ (by omega), extract_low _ _ _ (by omega), extract_low _ _ _ (by omega), extract_low _ _ _ (by omega), extract_high _ _ _ (by omega)]
theorem f_packR (sm : Bool) (op : BitVec 6) (rd : BitVec 7) (ra : BitVec 7) (rb : BitVec 7) (f : BitVec 4) (l k : Nat) (h : l + k ≤ 4) :
    (packR sm op rd ra rb f).extractLsb' l k = f.extractLsb' l k := by
  rw [packR, extract_low _ _ _ (by omega), extract_low _ _ _ (by omega), extract_low _ _ _ (by omega), extract_low _ _ _ (by omega), extract_low _ _ _ (by omega)]
theorem wordS_packI (sm : Bool) (op : BitVec 6) (rd : BitVec 7) (ra : BitVec 7) (f : BitVec 11) : wordS (packI sm op rd ra f) = sm := switch_top _ _ _ rfl
theorem rd_packI (sm : Bool) (op : BitVec 6) (rd : BitVec 7) (ra : BitVec 7) (f : BitVec 11) (l k : Nat) (h : 18 ≤ l) (h' : l + k ≤ 25) :
    (packI sm op rd ra f).extractLsb' l k = rd.extractLsb' (l - 18) k := by
  rw [packI, extract_low _ _ _ (by omega), extract_low _ _ _ (by omega), extract_high _ _ _ (by omega)]
theorem ra_packI (sm : Bool) (op : BitVec 6) (rd : BitVec 7) (ra : BitVec 7) (f : BitVec 11) (l k : Nat) (h : 11 ≤ l) (h' : l + k ≤ 18) :
    (packI sm op rd ra f).extractLsb' l k = ra.extractLsb' (l - 11) k := by
  rw [packI, extract_low _ _ _ (by omega), extract_low _ _ _ (by omega), extract_low _ _ _ (by omega), extract_high _ _ _ (by omega)]
theorem f_packI (sm : Bool) (op : BitVec 6) (rd : BitVec 7) (ra : BitVec 7) (f : BitVec 11) (l k : Nat) (h : l + k ≤ 11) :
    (packI sm op rd ra f).extractLsb' l k = f.extractLsb' l k := by
  rw [packI, extract_low _ _ _ (by omega), extract_low _ _ _ (by omega), extract_low _ _ _ (by omega), extract_low _ _ _ (by omega)]
theorem wordS_packL (sm : Bool) (op : BitVec 6) (rd : BitVec 7) (f : BitVec 18) : wordS (packL sm op rd f) = sm := switch_top _ _ _ rfl
theorem rd_packL (sm : Bool) (op : BitVec 6) (rd : BitVec 7) (f : BitVec 18) (l k : Nat) (h : 18 ≤ l) (h' : l + k ≤ 25) :
    (packL sm op rd f).extractLsb' l k = rd.extractLsb' (l - 18) k := by
  rw [packL, extract_low _ _ _ (by omega), extract_low _ _ _ (by omega), extract_high _ _ _ (by omega)]
theorem f_packL (sm : Bool) (op : BitVec 6) (rd : BitVec 7) (f : BitVec 18) (l k : Nat) (h : l + k ≤ 18) :
    (packL sm op rd f).extractLsb' l k = f.extractLsb' l k := by
  rw [packL, extract_low _ _ _ (by omega), extract_low _ _ _ (by omega), extract_low _ _ _ (by omega)]
theorem wordS_packB (sm : Bool) (op : BitVec 6) (ra : BitVec 7) (b : BitVec 6) (f : BitVec 12) : wordS (packB sm op ra b f) = sm := switch_top _ _ _ rfl
theorem ra_packB (sm : Bool) (op : BitVec 6) (ra : BitVec 7) (b : BitVec 6) (f : BitVec 12) (l k : Nat) (h : 18 ≤ l) (h' : l + k ≤ 25) :
    (packB sm op ra b f).extractLsb' l k = ra.extractLsb' (l - 18) k := by
  rw [packB, extract_low _ _ _ (by omega), extract_low _ _ _ (by omega), extract_high _ _ _ (by omega)]
theorem b_packB (sm : Bool) (op : BitVec 6) (ra : BitVec 7) (b : BitVec 6) (f : BitVec 12) (l k : Nat) (h : 12 ≤ l) (h' : l + k ≤ 18) :
    (packB sm op ra b f).extractLsb' l k = b.extractLsb' (l - 12) k := by
  rw [packB, extract_low _ _ _ (by omega), extract_low _ _ _ (by omega), extract_low _ _ _ (by omega), extract_high _ _ _ (by omega)]
theorem f_packB (sm : Bool) (op : BitVec 6) (ra : BitVec 7) (b : BitVec 6) (f : BitVec 12) (l k : Nat) (h : l + k ≤ 12) :
    (packB sm op ra b f).extractLsb' l k = f.extractLsb' l k := by
  rw [packB, extract_low _ _ _ (by omega), extract_low _ _ _ (by omega), extract_low _ _ _ (by omega), extract_low _ _ _ (by omega)]
theorem wordS_packJ (sm : Bool) (op : BitVec 6) (f : BitVec 25) : wordS (packJ sm op f) = sm := switch_top _ _ _ rfl
theorem f_packJ (sm : Bool) (op : BitVec 6) (f : BitVec 25) (l k : Nat) (h : l + k ≤ 25) :
    (packJ sm op f).extractLsb' l k = f.extractLsb' l k := by
  rw [packJ, extract_low _ _ _ (by omega), extract_low _ _ _ (by omega)]
theorem wordS_packM (sm : Bool) (op : BitVec 6) (rd : BitVec 7) (ra : BitVec 7) (r : BitVec 2) (z : BitVec 2) (f : BitVec 7) : wordS (packM sm op rd ra r z f) = sm := switch_top _ _ _ rfl
theorem rd_packM (sm : Bool) (op : BitVec 6) (rd : BitVec 7) (ra : BitVec 7) (r : BitVec 2) (z : BitVec 2) (f : BitVec 7) (l k : Nat) (h : 18 ≤ l) (h' : l + k ≤ 25) :
    (packM sm op rd ra r z f).extractLsb' l k = rd.extractLsb' (l - 18) k := by
  rw [packM, extract_low _ _ _ (by omega), extract_low _ _ _ (by omega), extract_high _ _ _ (by omega)]
theorem ra_packM (sm : Bool) (op : BitVec 6) (rd : BitVec 7) (ra : BitVec 7) (r : BitVec 2) (z : BitVec 2) (f : BitVec 7) (l k : Nat) (h : 11 ≤ l) (h' : l + k ≤ 18) :
    (packM sm op rd ra r z f).extractLsb' l k = ra.extractLsb' (l - 11) k := by
  rw [packM, extract_low _ _ _ (by omega), extract_low _ _ _ (by omega), extract_low _ _ _ (by omega), extract_high _ _ _ (by omega)]
theorem r_packM (sm : Bool) (op : BitVec 6) (rd : BitVec 7) (ra : BitVec 7) (r : BitVec 2) (z : BitVec 2) (f : BitVec 7) (l k : Nat) (h : 9 ≤ l) (h' : l + k ≤ 11) :
    (packM sm op rd ra r z f).extractLsb' l k = r.extractLsb' (l - 9) k := by
  rw [packM, extract_low _ _ _ (by omega), extract_low _ _ _ (by omega), extract_low _ _ _ (by omega), extract_low _ _ _ (by omega), extract_high _ _ _ (by omega)]
theorem z_packM (sm : Bool) (op : BitVec 6) (rd : BitVec 7) (ra : BitVec 7) (r : BitVec 2) (z : BitVec 2) (f : BitVec 7) (l k : Nat) (h : 7 ≤ l) (h' : l + k ≤ 9) :
    (packM sm op rd ra r z f).extractLsb' l k = z.extractLsb' (l - 7) k := by
  rw [packM, extract_low _ _ _ (by omega), extract_low _ _ _ (by omega), extract_low _ _ _ (by omega), extract_low _ _ _ (by omega), extract_low _ _ _ (by omega), extract_high _ _ _ (by omega)]
theorem f_packM (sm : Bool) (op : BitVec 6) (rd : BitVec 7) (ra : BitVec 7) (r : BitVec 2) (z : BitVec 2) (f : BitVec 7) (l k : Nat) (h : l + k ≤ 7) :
    (packM sm op rd ra r z f).extractLsb' l k = f.extractLsb' l k := by
  rw [packM, extract_low _ _ _ (by omega), extract_low _ _ _ (by omega), extract_low _ _ _ (by omega), extract_low _ _ _ (by omega), extract_low _ _ _ (by omega), extract_low _ _ _ (by omega)]
theorem wordS_packW (sm : Bool) (op : BitVec 6) (rd : BitVec 7) (ra : BitVec 7) (t : BitVec 4) (x : BitVec 3) (f : BitVec 4) : wordS (packW sm op rd ra t x f) = sm := switch_top _ _ _ rfl
theorem rd_packW (sm : Bool) (op : BitVec 6) (rd : BitVec 7) (ra : BitVec 7) (t : BitVec 4) (x : BitVec 3) (f : BitVec 4) (l k : Nat) (h : 18 ≤ l) (h' : l + k ≤ 25) :
    (packW sm op rd ra t x f).extractLsb' l k = rd.extractLsb' (l - 18) k := by
  rw [packW, extract_low _ _ _ (by omega), extract_low _ _ _ (by omega), extract_high _ _ _ (by omega)]
theorem ra_packW (sm : Bool) (op : BitVec 6) (rd : BitVec 7) (ra : BitVec 7) (t : BitVec 4) (x : BitVec 3) (f : BitVec 4) (l k : Nat) (h : 11 ≤ l) (h' : l + k ≤ 18) :
    (packW sm op rd ra t x f).extractLsb' l k = ra.extractLsb' (l - 11) k := by
  rw [packW, extract_low _ _ _ (by omega), extract_low _ _ _ (by omega), extract_low _ _ _ (by omega), extract_high _ _ _ (by omega)]
theorem t_packW (sm : Bool) (op : BitVec 6) (rd : BitVec 7) (ra : BitVec 7) (t : BitVec 4) (x : BitVec 3) (f : BitVec 4) (l k : Nat) (h : 7 ≤ l) (h' : l + k ≤ 11) :
    (packW sm op rd ra t x f).extractLsb' l k = t.extractLsb' (l - 7) k := by
  rw [packW, extract_low _ _ _ (by omega), extract_low _ _ _ (by omega), extract_low _ _ _ (by omega), extract_low _ _ _ (by omega), extract_high _ _ _ (by omega)]
theorem x_packW (sm : Bool) (op : BitVec 6) (rd : BitVec 7) (ra : BitVec 7) (t : BitVec 4) (x : BitVec 3) (f : BitVec 4) (l k : Nat) (h : 4 ≤ l) (h' : l + k ≤ 7) :
    (packW sm op rd ra t x f).extractLsb' l k = x.extractLsb' (l - 4) k := by
  rw [packW, extract_low _ _ _ (by omega), extract_low _ _ _ (by omega), extract_low _ _ _ (by omega), extract_low _ _ _ (by omega), extract_low _ _ _ (by omega), extract_high _ _ _ (by omega)]
theorem f_packW (sm : Bool) (op : BitVec 6) (rd : BitVec 7) (ra : BitVec 7) (t : BitVec 4) (x : BitVec 3) (f : BitVec 4) (l k : Nat) (h : l + k ≤ 4) :
    (packW sm op rd ra t x f).extractLsb' l k = f.extractLsb' l k := by
  rw [packW, extract_low _ _ _ (by omega), extract_low _ _ _ (by omega), extract_low _ _ _ (by omega), extract_low _ _ _ (by omega), extract_low _ _ _ (by omega), extract_low _ _ _ (by omega)]
theorem wordS_packC (sm : Bool) (op : BitVec 6) (rd : BitVec 7) (ra : BitVec 7) (c : BitVec 2) (f : BitVec 9) : wordS (packC sm op rd ra c f) = sm := switch_top _ _ _ rfl
theorem rd_packC (sm : Bool) (op : BitVec 6) (rd : BitVec 7) (ra : BitVec 7) (c : BitVec 2) (f : BitVec 9) (l k : Nat) (h : 18 ≤ l) (h' : l + k ≤ 25) :
    (packC sm op rd ra c f).extractLsb' l k = rd.extractLsb' (l - 18) k := by
  rw [packC, extract_low _ _ _ (by omega), extract_low _ _ _ (by omega), extract_high _ _ _ (by omega)]
theorem ra_packC (sm : Bool) (op : BitVec 6) (rd : BitVec 7) (ra : BitVec 7) (c : BitVec 2) (f : BitVec 9) (l k : Nat) (h : 11 ≤ l) (h' : l + k ≤ 18) :
    (packC sm op rd ra c f).extractLsb' l k = ra.extractLsb' (l - 11) k := by
  rw [packC, extract_low _ _ _ (by omega), extract_low _ _ _ (by omega), extract_low _ _ _ (by omega), extract_high _ _ _ (by omega)]
theorem c_packC (sm : Bool) (op : BitVec 6) (rd : BitVec 7) (ra : BitVec 7) (c : BitVec 2) (f : BitVec 9) (l k : Nat) (h : 9 ≤ l) (h' : l + k ≤ 11) :
    (packC sm op rd ra c f).extractLsb' l k = c.extractLsb' (l - 9) k := by
  rw [packC, extract_low _ _ _ (by omega), extract_low _ _ _ (by omega), extract_low _ _ _ (by omega), extract_low _ _ _ (by omega), extract_high _ _ _ (by omega)]
theorem f_packC (sm : Bool) (op : BitVec 6) (rd : BitVec 7) (ra : BitVec 7) (c : BitVec 2) (f : BitVec 9) (l k : Nat) (h : l + k ≤ 9) :
    (packC sm op rd ra c f).extractLsb' l k = f.extractLsb' l k := by
  rw [packC, extract_low _ _ _ (by omega), extract_low _ _ _ (by omega), extract_low _ _ _ (by omega), extract_low _ _ _ (by omega), extract_low _ _ _ (by omega)]
theorem wordS_packP (sm : Bool) (op : BitVec 6) (g : BitVec 7) (b : BitVec 6) (e : BitVec 1) (n : BitVec 1) (f : BitVec 4) (x : BitVec 4) (o : BitVec 2) : wordS (packP sm op g b e n f x o) = sm := switch_top _ _ _ rfl
theorem g_packP (sm : Bool) (op : BitVec 6) (g : BitVec 7) (b : BitVec 6) (e : BitVec 1) (n : BitVec 1) (f : BitVec 4) (x : BitVec 4) (o : BitVec 2) (l k : Nat) (h : 18 ≤ l) (h' : l + k ≤ 25) :
    (packP sm op g b e n f x o).extractLsb' l k = g.extractLsb' (l - 18) k := by
  rw [packP, extract_low _ _ _ (by omega), extract_low _ _ _ (by omega), extract_high _ _ _ (by omega)]
theorem b_packP (sm : Bool) (op : BitVec 6) (g : BitVec 7) (b : BitVec 6) (e : BitVec 1) (n : BitVec 1) (f : BitVec 4) (x : BitVec 4) (o : BitVec 2) (l k : Nat) (h : 12 ≤ l) (h' : l + k ≤ 18) :
    (packP sm op g b e n f x o).extractLsb' l k = b.extractLsb' (l - 12) k := by
  rw [packP, extract_low _ _ _ (by omega), extract_low _ _ _ (by omega), extract_low _ _ _ (by omega), extract_high _ _ _ (by omega)]
theorem e_packP (sm : Bool) (op : BitVec 6) (g : BitVec 7) (b : BitVec 6) (e : BitVec 1) (n : BitVec 1) (f : BitVec 4) (x : BitVec 4) (o : BitVec 2) (l k : Nat) (h : 11 ≤ l) (h' : l + k ≤ 12) :
    (packP sm op g b e n f x o).extractLsb' l k = e.extractLsb' (l - 11) k := by
  rw [packP, extract_low _ _ _ (by omega), extract_low _ _ _ (by omega), extract_low _ _ _ (by omega), extract_low _ _ _ (by omega), extract_high _ _ _ (by omega)]
theorem n_packP (sm : Bool) (op : BitVec 6) (g : BitVec 7) (b : BitVec 6) (e : BitVec 1) (n : BitVec 1) (f : BitVec 4) (x : BitVec 4) (o : BitVec 2) (l k : Nat) (h : 10 ≤ l) (h' : l + k ≤ 11) :
    (packP sm op g b e n f x o).extractLsb' l k = n.extractLsb' (l - 10) k := by
  rw [packP, extract_low _ _ _ (by omega), extract_low _ _ _ (by omega), extract_low _ _ _ (by omega), extract_low _ _ _ (by omega), extract_low _ _ _ (by omega), extract_high _ _ _ (by omega)]
theorem f_packP (sm : Bool) (op : BitVec 6) (g : BitVec 7) (b : BitVec 6) (e : BitVec 1) (n : BitVec 1) (f : BitVec 4) (x : BitVec 4) (o : BitVec 2) (l k : Nat) (h : 6 ≤ l) (h' : l + k ≤ 10) :
    (packP sm op g b e n f x o).extractLsb' l k = f.extractLsb' (l - 6) k := by
  rw [packP, extract_low _ _ _ (by omega), extract_low _ _ _ (by omega), extract_low _ _ _ (by omega), extract_low _ _ _ (by omega), extract_low _ _ _ (by omega), extract_low _ _ _ (by omega), extract_high _ _ _ (by omega)]
theorem x_packP (sm : Bool) (op : BitVec 6) (g : BitVec 7) (b : BitVec 6) (e : BitVec 1) (n : BitVec 1) (f : BitVec 4) (x : BitVec 4) (o : BitVec 2) (l k : Nat) (h : 2 ≤ l) (h' : l + k ≤ 6) :
    (packP sm op g b e n f x o).extractLsb' l k = x.extractLsb' (l - 2) k := by
  rw [packP, extract_low _ _ _ (by omega), extract_low _ _ _ (by omega), extract_low _ _ _ (by omega), extract_low _ _ _ (by omega), extract_low _ _ _ (by omega), extract_low _ _ _ (by omega), extract_low _ _ _ (by omega), extract_high _ _ _ (by omega)]
theorem o_packP (sm : Bool) (op : BitVec 6) (g : BitVec 7) (b : BitVec 6) (e : BitVec 1) (n : BitVec 1) (f : BitVec 4) (x : BitVec 4) (o : BitVec 2) (l k : Nat) (h : l + k ≤ 2) :
    (packP sm op g b e n f x o).extractLsb' l k = o.extractLsb' l k := by
  rw [packP, extract_low _ _ _ (by omega), extract_low _ _ _ (by omega), extract_low _ _ _ (by omega), extract_low _ _ _ (by omega), extract_low _ _ _ (by omega), extract_low _ _ _ (by omega), extract_low _ _ _ (by omega), extract_low _ _ _ (by omega)]

/-! ### The round trip -/

/-- A well-formed instruction is what its own word decodes to. -/
def Laws.RoundTrip.Statement (i : Instr) : Prop := i.wellFormed = true → decode (encode i) = .ok i

/-- The round trip of an instruction whose opcode and function are decoded from its word. -/
theorem Laws.RoundTrip.of_raw {i : Instr} (h : decodeRaw (encode i) = .ok i) : Laws.RoundTrip.Statement i := by
  intro hw
  have hr : i.fieldReason (encode i == encode i) = none := by
    simp only [Instr.wellFormed, Bool.and_eq_true, beq_iff_eq] at hw
    rw [beq_self_eq_true]; exact hw.2
  rw [decode, h]
  show checkFields (encode i) i = _
  rw [checkFields, hr]

/-- A step of the hardware has no word, so it is not well-formed. -/
theorem Laws.RoundTrip.of_event {i : Instr} (h : i.isWord = false) : Laws.RoundTrip.Statement i := by
  intro hw
  simp [Instr.wellFormed, h] at hw

theorem Laws.RoundTrip.add (sm : Bool) (rd : Reg) (ra : Reg) (rb : Reg) : Laws.RoundTrip.Statement (.add sm rd ra rb) := Laws.RoundTrip.of_raw (by
  rw [encode, decodeRaw, wordOp_packR]; show decode01 _ = _
  simp (disch := decide) only [decode01, wordFunc, wordSize, wordD, wordA, wordB, wordS_packR, rd_packR, ra_packR, rb_packR, f_packR,
    extractLsb'_eq_self, Nat.reduceSub, Reg.ofBits_bits, extract_low, extract_high]
  try rfl)
theorem Laws.RoundTrip.sub (sm : Bool) (rd : Reg) (ra : Reg) (rb : Reg) : Laws.RoundTrip.Statement (.sub sm rd ra rb) := Laws.RoundTrip.of_raw (by
  rw [encode, decodeRaw, wordOp_packR]; show decode01 _ = _
  simp (disch := decide) only [decode01, wordFunc, wordSize, wordD, wordA, wordB, wordS_packR, rd_packR, ra_packR, rb_packR, f_packR,
    extractLsb'_eq_self, Nat.reduceSub, Reg.ofBits_bits, extract_low, extract_high]
  try rfl)
theorem Laws.RoundTrip.and (sm : Bool) (rd : Reg) (ra : Reg) (rb : Reg) : Laws.RoundTrip.Statement (.and sm rd ra rb) := Laws.RoundTrip.of_raw (by
  rw [encode, decodeRaw, wordOp_packR]; show decode01 _ = _
  simp (disch := decide) only [decode01, wordFunc, wordSize, wordD, wordA, wordB, wordS_packR, rd_packR, ra_packR, rb_packR, f_packR,
    extractLsb'_eq_self, Nat.reduceSub, Reg.ofBits_bits, extract_low, extract_high]
  try rfl)
theorem Laws.RoundTrip.or (sm : Bool) (rd : Reg) (ra : Reg) (rb : Reg) : Laws.RoundTrip.Statement (.or sm rd ra rb) := Laws.RoundTrip.of_raw (by
  rw [encode, decodeRaw, wordOp_packR]; show decode01 _ = _
  simp (disch := decide) only [decode01, wordFunc, wordSize, wordD, wordA, wordB, wordS_packR, rd_packR, ra_packR, rb_packR, f_packR,
    extractLsb'_eq_self, Nat.reduceSub, Reg.ofBits_bits, extract_low, extract_high]
  try rfl)
theorem Laws.RoundTrip.xor (sm : Bool) (rd : Reg) (ra : Reg) (rb : Reg) : Laws.RoundTrip.Statement (.xor sm rd ra rb) := Laws.RoundTrip.of_raw (by
  rw [encode, decodeRaw, wordOp_packR]; show decode01 _ = _
  simp (disch := decide) only [decode01, wordFunc, wordSize, wordD, wordA, wordB, wordS_packR, rd_packR, ra_packR, rb_packR, f_packR,
    extractLsb'_eq_self, Nat.reduceSub, Reg.ofBits_bits, extract_low, extract_high]
  try rfl)
theorem Laws.RoundTrip.andn (sm : Bool) (rd : Reg) (ra : Reg) (rb : Reg) : Laws.RoundTrip.Statement (.andn sm rd ra rb) := Laws.RoundTrip.of_raw (by
  rw [encode, decodeRaw, wordOp_packR]; show decode01 _ = _
  simp (disch := decide) only [decode01, wordFunc, wordSize, wordD, wordA, wordB, wordS_packR, rd_packR, ra_packR, rb_packR, f_packR,
    extractLsb'_eq_self, Nat.reduceSub, Reg.ofBits_bits, extract_low, extract_high]
  try rfl)
theorem Laws.RoundTrip.min (sm : Bool) (rd : Reg) (ra : Reg) (rb : Reg) : Laws.RoundTrip.Statement (.min sm rd ra rb) := Laws.RoundTrip.of_raw (by
  rw [encode, decodeRaw, wordOp_packR]; show decode01 _ = _
  simp (disch := decide) only [decode01, wordFunc, wordSize, wordD, wordA, wordB, wordS_packR, rd_packR, ra_packR, rb_packR, f_packR,
    extractLsb'_eq_self, Nat.reduceSub, Reg.ofBits_bits, extract_low, extract_high]
  try rfl)
theorem Laws.RoundTrip.max (sm : Bool) (rd : Reg) (ra : Reg) (rb : Reg) : Laws.RoundTrip.Statement (.max sm rd ra rb) := Laws.RoundTrip.of_raw (by
  rw [encode, decodeRaw, wordOp_packR]; show decode01 _ = _
  simp (disch := decide) only [decode01, wordFunc, wordSize, wordD, wordA, wordB, wordS_packR, rd_packR, ra_packR, rb_packR, f_packR,
    extractLsb'_eq_self, Nat.reduceSub, Reg.ofBits_bits, extract_low, extract_high]
  try rfl)
theorem Laws.RoundTrip.minu (sm : Bool) (rd : Reg) (ra : Reg) (rb : Reg) : Laws.RoundTrip.Statement (.minu sm rd ra rb) := Laws.RoundTrip.of_raw (by
  rw [encode, decodeRaw, wordOp_packR]; show decode01 _ = _
  simp (disch := decide) only [decode01, wordFunc, wordSize, wordD, wordA, wordB, wordS_packR, rd_packR, ra_packR, rb_packR, f_packR,
    extractLsb'_eq_self, Nat.reduceSub, Reg.ofBits_bits, extract_low, extract_high]
  try rfl)
theorem Laws.RoundTrip.maxu (sm : Bool) (rd : Reg) (ra : Reg) (rb : Reg) : Laws.RoundTrip.Statement (.maxu sm rd ra rb) := Laws.RoundTrip.of_raw (by
  rw [encode, decodeRaw, wordOp_packR]; show decode01 _ = _
  simp (disch := decide) only [decode01, wordFunc, wordSize, wordD, wordA, wordB, wordS_packR, rd_packR, ra_packR, rb_packR, f_packR,
    extractLsb'_eq_self, Nat.reduceSub, Reg.ofBits_bits, extract_low, extract_high]
  try rfl)
theorem Laws.RoundTrip.mul (sm : Bool) (rd : Reg) (ra : Reg) (rb : Reg) : Laws.RoundTrip.Statement (.mul sm rd ra rb) := Laws.RoundTrip.of_raw (by
  rw [encode, decodeRaw, wordOp_packR]; show decode02 _ = _
  simp (disch := decide) only [decode02, wordFunc, wordSize, wordD, wordA, wordB, wordS_packR, rd_packR, ra_packR, rb_packR, f_packR,
    extractLsb'_eq_self, Nat.reduceSub, Reg.ofBits_bits, extract_low, extract_high]
  try rfl)
theorem Laws.RoundTrip.mulh (sm : Bool) (rd : Reg) (ra : Reg) (rb : Reg) : Laws.RoundTrip.Statement (.mulh sm rd ra rb) := Laws.RoundTrip.of_raw (by
  rw [encode, decodeRaw, wordOp_packR]; show decode02 _ = _
  simp (disch := decide) only [decode02, wordFunc, wordSize, wordD, wordA, wordB, wordS_packR, rd_packR, ra_packR, rb_packR, f_packR,
    extractLsb'_eq_self, Nat.reduceSub, Reg.ofBits_bits, extract_low, extract_high]
  try rfl)
theorem Laws.RoundTrip.mulhu (sm : Bool) (rd : Reg) (ra : Reg) (rb : Reg) : Laws.RoundTrip.Statement (.mulhu sm rd ra rb) := Laws.RoundTrip.of_raw (by
  rw [encode, decodeRaw, wordOp_packR]; show decode02 _ = _
  simp (disch := decide) only [decode02, wordFunc, wordSize, wordD, wordA, wordB, wordS_packR, rd_packR, ra_packR, rb_packR, f_packR,
    extractLsb'_eq_self, Nat.reduceSub, Reg.ofBits_bits, extract_low, extract_high]
  try rfl)
theorem Laws.RoundTrip.div (sm : Bool) (rd : Reg) (ra : Reg) (rb : Reg) : Laws.RoundTrip.Statement (.div sm rd ra rb) := Laws.RoundTrip.of_raw (by
  rw [encode, decodeRaw, wordOp_packR]; show decode02 _ = _
  simp (disch := decide) only [decode02, wordFunc, wordSize, wordD, wordA, wordB, wordS_packR, rd_packR, ra_packR, rb_packR, f_packR,
    extractLsb'_eq_self, Nat.reduceSub, Reg.ofBits_bits, extract_low, extract_high]
  try rfl)
theorem Laws.RoundTrip.divu (sm : Bool) (rd : Reg) (ra : Reg) (rb : Reg) : Laws.RoundTrip.Statement (.divu sm rd ra rb) := Laws.RoundTrip.of_raw (by
  rw [encode, decodeRaw, wordOp_packR]; show decode02 _ = _
  simp (disch := decide) only [decode02, wordFunc, wordSize, wordD, wordA, wordB, wordS_packR, rd_packR, ra_packR, rb_packR, f_packR,
    extractLsb'_eq_self, Nat.reduceSub, Reg.ofBits_bits, extract_low, extract_high]
  try rfl)
theorem Laws.RoundTrip.rem (sm : Bool) (rd : Reg) (ra : Reg) (rb : Reg) : Laws.RoundTrip.Statement (.rem sm rd ra rb) := Laws.RoundTrip.of_raw (by
  rw [encode, decodeRaw, wordOp_packR]; show decode02 _ = _
  simp (disch := decide) only [decode02, wordFunc, wordSize, wordD, wordA, wordB, wordS_packR, rd_packR, ra_packR, rb_packR, f_packR,
    extractLsb'_eq_self, Nat.reduceSub, Reg.ofBits_bits, extract_low, extract_high]
  try rfl)
theorem Laws.RoundTrip.remu (sm : Bool) (rd : Reg) (ra : Reg) (rb : Reg) : Laws.RoundTrip.Statement (.remu sm rd ra rb) := Laws.RoundTrip.of_raw (by
  rw [encode, decodeRaw, wordOp_packR]; show decode02 _ = _
  simp (disch := decide) only [decode02, wordFunc, wordSize, wordD, wordA, wordB, wordS_packR, rd_packR, ra_packR, rb_packR, f_packR,
    extractLsb'_eq_self, Nat.reduceSub, Reg.ofBits_bits, extract_low, extract_high]
  try rfl)
theorem Laws.RoundTrip.sll (sm : Bool) (rd : Reg) (ra : Reg) (rb : Reg) : Laws.RoundTrip.Statement (.sll sm rd ra rb) := Laws.RoundTrip.of_raw (by
  rw [encode, decodeRaw, wordOp_packR]; show decode03 _ = _
  simp (disch := decide) only [decode03, wordFunc, wordSize, wordD, wordA, wordB, wordS_packR, rd_packR, ra_packR, rb_packR, f_packR,
    extractLsb'_eq_self, Nat.reduceSub, Reg.ofBits_bits, extract_low, extract_high]
  try rfl)
theorem Laws.RoundTrip.srl (sm : Bool) (rd : Reg) (ra : Reg) (rb : Reg) : Laws.RoundTrip.Statement (.srl sm rd ra rb) := Laws.RoundTrip.of_raw (by
  rw [encode, decodeRaw, wordOp_packR]; show decode03 _ = _
  simp (disch := decide) only [decode03, wordFunc, wordSize, wordD, wordA, wordB, wordS_packR, rd_packR, ra_packR, rb_packR, f_packR,
    extractLsb'_eq_self, Nat.reduceSub, Reg.ofBits_bits, extract_low, extract_high]
  try rfl)
theorem Laws.RoundTrip.sra (sm : Bool) (rd : Reg) (ra : Reg) (rb : Reg) : Laws.RoundTrip.Statement (.sra sm rd ra rb) := Laws.RoundTrip.of_raw (by
  rw [encode, decodeRaw, wordOp_packR]; show decode03 _ = _
  simp (disch := decide) only [decode03, wordFunc, wordSize, wordD, wordA, wordB, wordS_packR, rd_packR, ra_packR, rb_packR, f_packR,
    extractLsb'_eq_self, Nat.reduceSub, Reg.ofBits_bits, extract_low, extract_high]
  try rfl)
theorem Laws.RoundTrip.rol (sm : Bool) (rd : Reg) (ra : Reg) (rb : Reg) : Laws.RoundTrip.Statement (.rol sm rd ra rb) := Laws.RoundTrip.of_raw (by
  rw [encode, decodeRaw, wordOp_packR]; show decode03 _ = _
  simp (disch := decide) only [decode03, wordFunc, wordSize, wordD, wordA, wordB, wordS_packR, rd_packR, ra_packR, rb_packR, f_packR,
    extractLsb'_eq_self, Nat.reduceSub, Reg.ofBits_bits, extract_low, extract_high]
  try rfl)
theorem Laws.RoundTrip.ror (sm : Bool) (rd : Reg) (ra : Reg) (rb : Reg) : Laws.RoundTrip.Statement (.ror sm rd ra rb) := Laws.RoundTrip.of_raw (by
  rw [encode, decodeRaw, wordOp_packR]; show decode03 _ = _
  simp (disch := decide) only [decode03, wordFunc, wordSize, wordD, wordA, wordB, wordS_packR, rd_packR, ra_packR, rb_packR, f_packR,
    extractLsb'_eq_self, Nat.reduceSub, Reg.ofBits_bits, extract_low, extract_high]
  try rfl)
theorem Laws.RoundTrip.clz (sm : Bool) (rd : Reg) (ra : Reg) : Laws.RoundTrip.Statement (.clz sm rd ra) := Laws.RoundTrip.of_raw (by
  rw [encode, decodeRaw, wordOp_packR]; show decode03 _ = _
  simp (disch := decide) only [decode03, wordFunc, wordSize, wordD, wordA, wordB, wordS_packR, rd_packR, ra_packR, rb_packR, f_packR,
    extractLsb'_eq_self, Nat.reduceSub, Reg.ofBits_bits, extract_low, extract_high]
  try rfl)
theorem Laws.RoundTrip.ctz (sm : Bool) (rd : Reg) (ra : Reg) : Laws.RoundTrip.Statement (.ctz sm rd ra) := Laws.RoundTrip.of_raw (by
  rw [encode, decodeRaw, wordOp_packR]; show decode03 _ = _
  simp (disch := decide) only [decode03, wordFunc, wordSize, wordD, wordA, wordB, wordS_packR, rd_packR, ra_packR, rb_packR, f_packR,
    extractLsb'_eq_self, Nat.reduceSub, Reg.ofBits_bits, extract_low, extract_high]
  try rfl)
theorem Laws.RoundTrip.popc (sm : Bool) (rd : Reg) (ra : Reg) : Laws.RoundTrip.Statement (.popc sm rd ra) := Laws.RoundTrip.of_raw (by
  rw [encode, decodeRaw, wordOp_packR]; show decode03 _ = _
  simp (disch := decide) only [decode03, wordFunc, wordSize, wordD, wordA, wordB, wordS_packR, rd_packR, ra_packR, rb_packR, f_packR,
    extractLsb'_eq_self, Nat.reduceSub, Reg.ofBits_bits, extract_low, extract_high]
  try rfl)
theorem Laws.RoundTrip.bset (sm : Bool) (rd : Reg) (ra : Reg) (rb : Reg) : Laws.RoundTrip.Statement (.bset sm rd ra rb) := Laws.RoundTrip.of_raw (by
  rw [encode, decodeRaw, wordOp_packR]; show decode03 _ = _
  simp (disch := decide) only [decode03, wordFunc, wordSize, wordD, wordA, wordB, wordS_packR, rd_packR, ra_packR, rb_packR, f_packR,
    extractLsb'_eq_self, Nat.reduceSub, Reg.ofBits_bits, extract_low, extract_high]
  try rfl)
theorem Laws.RoundTrip.bclr (sm : Bool) (rd : Reg) (ra : Reg) (rb : Reg) : Laws.RoundTrip.Statement (.bclr sm rd ra rb) := Laws.RoundTrip.of_raw (by
  rw [encode, decodeRaw, wordOp_packR]; show decode03 _ = _
  simp (disch := decide) only [decode03, wordFunc, wordSize, wordD, wordA, wordB, wordS_packR, rd_packR, ra_packR, rb_packR, f_packR,
    extractLsb'_eq_self, Nat.reduceSub, Reg.ofBits_bits, extract_low, extract_high]
  try rfl)
theorem Laws.RoundTrip.btgl (sm : Bool) (rd : Reg) (ra : Reg) (rb : Reg) : Laws.RoundTrip.Statement (.btgl sm rd ra rb) := Laws.RoundTrip.of_raw (by
  rw [encode, decodeRaw, wordOp_packR]; show decode03 _ = _
  simp (disch := decide) only [decode03, wordFunc, wordSize, wordD, wordA, wordB, wordS_packR, rd_packR, ra_packR, rb_packR, f_packR,
    extractLsb'_eq_self, Nat.reduceSub, Reg.ofBits_bits, extract_low, extract_high]
  try rfl)
theorem Laws.RoundTrip.bfx (sm : Bool) (rd : Reg) (ra : Reg) (rb : Reg) : Laws.RoundTrip.Statement (.bfx sm rd ra rb) := Laws.RoundTrip.of_raw (by
  rw [encode, decodeRaw, wordOp_packR]; show decode03 _ = _
  simp (disch := decide) only [decode03, wordFunc, wordSize, wordD, wordA, wordB, wordS_packR, rd_packR, ra_packR, rb_packR, f_packR,
    extractLsb'_eq_self, Nat.reduceSub, Reg.ofBits_bits, extract_low, extract_high]
  try rfl)
theorem Laws.RoundTrip.bfxu (sm : Bool) (rd : Reg) (ra : Reg) (rb : Reg) : Laws.RoundTrip.Statement (.bfxu sm rd ra rb) := Laws.RoundTrip.of_raw (by
  rw [encode, decodeRaw, wordOp_packR]; show decode03 _ = _
  simp (disch := decide) only [decode03, wordFunc, wordSize, wordD, wordA, wordB, wordS_packR, rd_packR, ra_packR, rb_packR, f_packR,
    extractLsb'_eq_self, Nat.reduceSub, Reg.ofBits_bits, extract_low, extract_high]
  try rfl)
theorem Laws.RoundTrip.bfi (sm : Bool) (rd : Reg) (ra : Reg) (rb : Reg) : Laws.RoundTrip.Statement (.bfi sm rd ra rb) := Laws.RoundTrip.of_raw (by
  rw [encode, decodeRaw, wordOp_packR]; show decode03 _ = _
  simp (disch := decide) only [decode03, wordFunc, wordSize, wordD, wordA, wordB, wordS_packR, rd_packR, ra_packR, rb_packR, f_packR,
    extractLsb'_eq_self, Nat.reduceSub, Reg.ofBits_bits, extract_low, extract_high]
  try rfl)
theorem Laws.RoundTrip.cmpeq (sm : Bool) (rd : Reg) (ra : Reg) (rb : Reg) : Laws.RoundTrip.Statement (.cmpeq sm rd ra rb) := Laws.RoundTrip.of_raw (by
  rw [encode, decodeRaw, wordOp_packR]; show decode04 _ = _
  simp (disch := decide) only [decode04, wordFunc, wordSize, wordD, wordA, wordB, wordS_packR, rd_packR, ra_packR, rb_packR, f_packR,
    extractLsb'_eq_self, Nat.reduceSub, Reg.ofBits_bits, extract_low, extract_high]
  try rfl)
theorem Laws.RoundTrip.cmpne (sm : Bool) (rd : Reg) (ra : Reg) (rb : Reg) : Laws.RoundTrip.Statement (.cmpne sm rd ra rb) := Laws.RoundTrip.of_raw (by
  rw [encode, decodeRaw, wordOp_packR]; show decode04 _ = _
  simp (disch := decide) only [decode04, wordFunc, wordSize, wordD, wordA, wordB, wordS_packR, rd_packR, ra_packR, rb_packR, f_packR,
    extractLsb'_eq_self, Nat.reduceSub, Reg.ofBits_bits, extract_low, extract_high]
  try rfl)
theorem Laws.RoundTrip.cmplt (sm : Bool) (rd : Reg) (ra : Reg) (rb : Reg) : Laws.RoundTrip.Statement (.cmplt sm rd ra rb) := Laws.RoundTrip.of_raw (by
  rw [encode, decodeRaw, wordOp_packR]; show decode04 _ = _
  simp (disch := decide) only [decode04, wordFunc, wordSize, wordD, wordA, wordB, wordS_packR, rd_packR, ra_packR, rb_packR, f_packR,
    extractLsb'_eq_self, Nat.reduceSub, Reg.ofBits_bits, extract_low, extract_high]
  try rfl)
theorem Laws.RoundTrip.cmpltu (sm : Bool) (rd : Reg) (ra : Reg) (rb : Reg) : Laws.RoundTrip.Statement (.cmpltu sm rd ra rb) := Laws.RoundTrip.of_raw (by
  rw [encode, decodeRaw, wordOp_packR]; show decode04 _ = _
  simp (disch := decide) only [decode04, wordFunc, wordSize, wordD, wordA, wordB, wordS_packR, rd_packR, ra_packR, rb_packR, f_packR,
    extractLsb'_eq_self, Nat.reduceSub, Reg.ofBits_bits, extract_low, extract_high]
  try rfl)
theorem Laws.RoundTrip.cmple (sm : Bool) (rd : Reg) (ra : Reg) (rb : Reg) : Laws.RoundTrip.Statement (.cmple sm rd ra rb) := Laws.RoundTrip.of_raw (by
  rw [encode, decodeRaw, wordOp_packR]; show decode04 _ = _
  simp (disch := decide) only [decode04, wordFunc, wordSize, wordD, wordA, wordB, wordS_packR, rd_packR, ra_packR, rb_packR, f_packR,
    extractLsb'_eq_self, Nat.reduceSub, Reg.ofBits_bits, extract_low, extract_high]
  try rfl)
theorem Laws.RoundTrip.cmpleu (sm : Bool) (rd : Reg) (ra : Reg) (rb : Reg) : Laws.RoundTrip.Statement (.cmpleu sm rd ra rb) := Laws.RoundTrip.of_raw (by
  rw [encode, decodeRaw, wordOp_packR]; show decode04 _ = _
  simp (disch := decide) only [decode04, wordFunc, wordSize, wordD, wordA, wordB, wordS_packR, rd_packR, ra_packR, rb_packR, f_packR,
    extractLsb'_eq_self, Nat.reduceSub, Reg.ofBits_bits, extract_low, extract_high]
  try rfl)
theorem Laws.RoundTrip.addi (sm : Bool) (rd : Reg) (ra : Reg) (i : BitVec 11) : Laws.RoundTrip.Statement (.addi sm rd ra i) := Laws.RoundTrip.of_raw (by
  rw [encode, decodeRaw, wordOp_packI]; show decode05 _ = _
  simp (disch := decide) only [decode05, wordFunc, wordSize, wordD, wordA, wordB, wordS_packI, rd_packI, ra_packI, f_packI,
    extractLsb'_eq_self, Nat.reduceSub, Reg.ofBits_bits, extract_low, extract_high]
  try rfl)
theorem Laws.RoundTrip.andi (sm : Bool) (rd : Reg) (ra : Reg) (i : BitVec 11) : Laws.RoundTrip.Statement (.andi sm rd ra i) := Laws.RoundTrip.of_raw (by
  rw [encode, decodeRaw, wordOp_packI]; show decode06 _ = _
  simp (disch := decide) only [decode06, wordFunc, wordSize, wordD, wordA, wordB, wordS_packI, rd_packI, ra_packI, f_packI,
    extractLsb'_eq_self, Nat.reduceSub, Reg.ofBits_bits, extract_low, extract_high]
  try rfl)
theorem Laws.RoundTrip.ori (sm : Bool) (rd : Reg) (ra : Reg) (i : BitVec 11) : Laws.RoundTrip.Statement (.ori sm rd ra i) := Laws.RoundTrip.of_raw (by
  rw [encode, decodeRaw, wordOp_packI]; show decode07 _ = _
  simp (disch := decide) only [decode07, wordFunc, wordSize, wordD, wordA, wordB, wordS_packI, rd_packI, ra_packI, f_packI,
    extractLsb'_eq_self, Nat.reduceSub, Reg.ofBits_bits, extract_low, extract_high]
  try rfl)
theorem Laws.RoundTrip.xori (sm : Bool) (rd : Reg) (ra : Reg) (i : BitVec 11) : Laws.RoundTrip.Statement (.xori sm rd ra i) := Laws.RoundTrip.of_raw (by
  rw [encode, decodeRaw, wordOp_packI]; show decode08 _ = _
  simp (disch := decide) only [decode08, wordFunc, wordSize, wordD, wordA, wordB, wordS_packI, rd_packI, ra_packI, f_packI,
    extractLsb'_eq_self, Nat.reduceSub, Reg.ofBits_bits, extract_low, extract_high]
  try rfl)
theorem Laws.RoundTrip.slli (sm : Bool) (rd : Reg) (ra : Reg) (n : BitVec 6) : Laws.RoundTrip.Statement (.slli sm rd ra n) := Laws.RoundTrip.of_raw (by
  rw [encode, decodeRaw, wordOp_packI]; show decode09 _ = _
  simp (disch := decide) only [decode09, wordFunc, wordSize, wordD, wordA, wordB, wordS_packI, rd_packI, ra_packI, f_packI,
    extractLsb'_eq_self, Nat.reduceSub, Reg.ofBits_bits, extract_low, extract_high]
  try rfl)
theorem Laws.RoundTrip.srli (sm : Bool) (rd : Reg) (ra : Reg) (n : BitVec 6) : Laws.RoundTrip.Statement (.srli sm rd ra n) := Laws.RoundTrip.of_raw (by
  rw [encode, decodeRaw, wordOp_packI]; show decode09 _ = _
  simp (disch := decide) only [decode09, wordFunc, wordSize, wordD, wordA, wordB, wordS_packI, rd_packI, ra_packI, f_packI,
    extractLsb'_eq_self, Nat.reduceSub, Reg.ofBits_bits, extract_low, extract_high]
  try rfl)
theorem Laws.RoundTrip.srai (sm : Bool) (rd : Reg) (ra : Reg) (n : BitVec 6) : Laws.RoundTrip.Statement (.srai sm rd ra n) := Laws.RoundTrip.of_raw (by
  rw [encode, decodeRaw, wordOp_packI]; show decode09 _ = _
  simp (disch := decide) only [decode09, wordFunc, wordSize, wordD, wordA, wordB, wordS_packI, rd_packI, ra_packI, f_packI,
    extractLsb'_eq_self, Nat.reduceSub, Reg.ofBits_bits, extract_low, extract_high]
  try rfl)
theorem Laws.RoundTrip.roli (sm : Bool) (rd : Reg) (ra : Reg) (n : BitVec 6) : Laws.RoundTrip.Statement (.roli sm rd ra n) := Laws.RoundTrip.of_raw (by
  rw [encode, decodeRaw, wordOp_packI]; show decode09 _ = _
  simp (disch := decide) only [decode09, wordFunc, wordSize, wordD, wordA, wordB, wordS_packI, rd_packI, ra_packI, f_packI,
    extractLsb'_eq_self, Nat.reduceSub, Reg.ofBits_bits, extract_low, extract_high]
  try rfl)
theorem Laws.RoundTrip.rori (sm : Bool) (rd : Reg) (ra : Reg) (n : BitVec 6) : Laws.RoundTrip.Statement (.rori sm rd ra n) := Laws.RoundTrip.of_raw (by
  rw [encode, decodeRaw, wordOp_packI]; show decode09 _ = _
  simp (disch := decide) only [decode09, wordFunc, wordSize, wordD, wordA, wordB, wordS_packI, rd_packI, ra_packI, f_packI,
    extractLsb'_eq_self, Nat.reduceSub, Reg.ofBits_bits, extract_low, extract_high]
  try rfl)
theorem Laws.RoundTrip.bseti (sm : Bool) (rd : Reg) (ra : Reg) (n : BitVec 6) : Laws.RoundTrip.Statement (.bseti sm rd ra n) := Laws.RoundTrip.of_raw (by
  rw [encode, decodeRaw, wordOp_packI]; show decode09 _ = _
  simp (disch := decide) only [decode09, wordFunc, wordSize, wordD, wordA, wordB, wordS_packI, rd_packI, ra_packI, f_packI,
    extractLsb'_eq_self, Nat.reduceSub, Reg.ofBits_bits, extract_low, extract_high]
  try rfl)
theorem Laws.RoundTrip.bclri (sm : Bool) (rd : Reg) (ra : Reg) (n : BitVec 6) : Laws.RoundTrip.Statement (.bclri sm rd ra n) := Laws.RoundTrip.of_raw (by
  rw [encode, decodeRaw, wordOp_packI]; show decode09 _ = _
  simp (disch := decide) only [decode09, wordFunc, wordSize, wordD, wordA, wordB, wordS_packI, rd_packI, ra_packI, f_packI,
    extractLsb'_eq_self, Nat.reduceSub, Reg.ofBits_bits, extract_low, extract_high]
  try rfl)
theorem Laws.RoundTrip.btgli (sm : Bool) (rd : Reg) (ra : Reg) (n : BitVec 6) : Laws.RoundTrip.Statement (.btgli sm rd ra n) := Laws.RoundTrip.of_raw (by
  rw [encode, decodeRaw, wordOp_packI]; show decode09 _ = _
  simp (disch := decide) only [decode09, wordFunc, wordSize, wordD, wordA, wordB, wordS_packI, rd_packI, ra_packI, f_packI,
    extractLsb'_eq_self, Nat.reduceSub, Reg.ofBits_bits, extract_low, extract_high]
  try rfl)
theorem Laws.RoundTrip.cmpeqi (sm : Bool) (rd : Reg) (ra : Reg) (v : BitVec 8) : Laws.RoundTrip.Statement (.cmpeqi sm rd ra v) := Laws.RoundTrip.of_raw (by
  rw [encode, decodeRaw, wordOp_packI]; show decode0A _ = _
  simp (disch := decide) only [decode0A, wordFunc, wordSize, wordD, wordA, wordB, wordS_packI, rd_packI, ra_packI, f_packI,
    extractLsb'_eq_self, Nat.reduceSub, Reg.ofBits_bits, extract_low, extract_high]
  try rfl)
theorem Laws.RoundTrip.cmpnei (sm : Bool) (rd : Reg) (ra : Reg) (v : BitVec 8) : Laws.RoundTrip.Statement (.cmpnei sm rd ra v) := Laws.RoundTrip.of_raw (by
  rw [encode, decodeRaw, wordOp_packI]; show decode0A _ = _
  simp (disch := decide) only [decode0A, wordFunc, wordSize, wordD, wordA, wordB, wordS_packI, rd_packI, ra_packI, f_packI,
    extractLsb'_eq_self, Nat.reduceSub, Reg.ofBits_bits, extract_low, extract_high]
  try rfl)
theorem Laws.RoundTrip.cmplti (sm : Bool) (rd : Reg) (ra : Reg) (v : BitVec 8) : Laws.RoundTrip.Statement (.cmplti sm rd ra v) := Laws.RoundTrip.of_raw (by
  rw [encode, decodeRaw, wordOp_packI]; show decode0A _ = _
  simp (disch := decide) only [decode0A, wordFunc, wordSize, wordD, wordA, wordB, wordS_packI, rd_packI, ra_packI, f_packI,
    extractLsb'_eq_self, Nat.reduceSub, Reg.ofBits_bits, extract_low, extract_high]
  try rfl)
theorem Laws.RoundTrip.cmpltui (sm : Bool) (rd : Reg) (ra : Reg) (v : BitVec 8) : Laws.RoundTrip.Statement (.cmpltui sm rd ra v) := Laws.RoundTrip.of_raw (by
  rw [encode, decodeRaw, wordOp_packI]; show decode0A _ = _
  simp (disch := decide) only [decode0A, wordFunc, wordSize, wordD, wordA, wordB, wordS_packI, rd_packI, ra_packI, f_packI,
    extractLsb'_eq_self, Nat.reduceSub, Reg.ofBits_bits, extract_low, extract_high]
  try rfl)
theorem Laws.RoundTrip.cmplei (sm : Bool) (rd : Reg) (ra : Reg) (v : BitVec 8) : Laws.RoundTrip.Statement (.cmplei sm rd ra v) := Laws.RoundTrip.of_raw (by
  rw [encode, decodeRaw, wordOp_packI]; show decode0A _ = _
  simp (disch := decide) only [decode0A, wordFunc, wordSize, wordD, wordA, wordB, wordS_packI, rd_packI, ra_packI, f_packI,
    extractLsb'_eq_self, Nat.reduceSub, Reg.ofBits_bits, extract_low, extract_high]
  try rfl)
theorem Laws.RoundTrip.cmpleui (sm : Bool) (rd : Reg) (ra : Reg) (v : BitVec 8) : Laws.RoundTrip.Statement (.cmpleui sm rd ra v) := Laws.RoundTrip.of_raw (by
  rw [encode, decodeRaw, wordOp_packI]; show decode0A _ = _
  simp (disch := decide) only [decode0A, wordFunc, wordSize, wordD, wordA, wordB, wordS_packI, rd_packI, ra_packI, f_packI,
    extractLsb'_eq_self, Nat.reduceSub, Reg.ofBits_bits, extract_low, extract_high]
  try rfl)
theorem Laws.RoundTrip.li (sm : Bool) (rd : Reg) (i : BitVec 18) : Laws.RoundTrip.Statement (.li sm rd i) := Laws.RoundTrip.of_raw (by
  rw [encode, decodeRaw, wordOp_packL]; show decode0B _ = _
  simp (disch := decide) only [decode0B, wordFunc, wordSize, wordD, wordA, wordB, wordS_packL, rd_packL, f_packL,
    extractLsb'_eq_self, Nat.reduceSub, Reg.ofBits_bits, extract_low, extract_high]
  try rfl)
theorem Laws.RoundTrip.lis (sm : Bool) (rd : Reg) (i : BitVec 18) : Laws.RoundTrip.Statement (.lis sm rd i) := Laws.RoundTrip.of_raw (by
  rw [encode, decodeRaw, wordOp_packL]; show decode0C _ = _
  simp (disch := decide) only [decode0C, wordFunc, wordSize, wordD, wordA, wordB, wordS_packL, rd_packL, f_packL,
    extractLsb'_eq_self, Nat.reduceSub, Reg.ofBits_bits, extract_low, extract_high]
  try rfl)
theorem Laws.RoundTrip.mov (sm : Bool) (rd : Reg) (rb : Reg) : Laws.RoundTrip.Statement (.mov sm rd rb) := Laws.RoundTrip.of_raw (by
  rw [encode, decodeRaw, wordOp_packR]; show decode0D _ = _
  simp (disch := decide) only [decode0D, wordFunc, wordSize, wordD, wordA, wordB, wordS_packR, rd_packR, ra_packR, rb_packR, f_packR,
    extractLsb'_eq_self, Nat.reduceSub, Reg.ofBits_bits, extract_low, extract_high]
  try rfl)
theorem Laws.RoundTrip.sel (sm : Bool) (rd : Reg) (ra : Reg) (rb : Reg) : Laws.RoundTrip.Statement (.sel sm rd ra rb) := Laws.RoundTrip.of_raw (by
  rw [encode, decodeRaw, wordOp_packR]; show decode0D _ = _
  simp (disch := decide) only [decode0D, wordFunc, wordSize, wordD, wordA, wordB, wordS_packR, rd_packR, ra_packR, rb_packR, f_packR,
    extractLsb'_eq_self, Nat.reduceSub, Reg.ofBits_bits, extract_low, extract_high]
  try rfl)
theorem Laws.RoundTrip.gadr (sm : Bool) (rd : Reg) (ra : Reg) (rb : Reg) : Laws.RoundTrip.Statement (.gadr sm rd ra rb) := Laws.RoundTrip.of_raw (by
  rw [encode, decodeRaw, wordOp_packR]; show decode0D _ = _
  simp (disch := decide) only [decode0D, wordFunc, wordSize, wordD, wordA, wordB, wordS_packR, rd_packR, ra_packR, rb_packR, f_packR,
    extractLsb'_eq_self, Nat.reduceSub, Reg.ofBits_bits, extract_low, extract_high]
  try rfl)
theorem Laws.RoundTrip.j (sm : Bool) (i : BitVec 25) : Laws.RoundTrip.Statement (.j sm i) := Laws.RoundTrip.of_raw (by
  rw [encode, decodeRaw, wordOp_packJ]; show decode10 _ = _
  simp (disch := decide) only [decode10, wordFunc, wordSize, wordD, wordA, wordB, wordS_packJ, f_packJ,
    extractLsb'_eq_self, Nat.reduceSub, Reg.ofBits_bits, extract_low, extract_high]
  try rfl)
theorem Laws.RoundTrip.jl (sm : Bool) (i : BitVec 25) : Laws.RoundTrip.Statement (.jl sm i) := Laws.RoundTrip.of_raw (by
  rw [encode, decodeRaw, wordOp_packJ]; show decode11 _ = _
  simp (disch := decide) only [decode11, wordFunc, wordSize, wordD, wordA, wordB, wordS_packJ, f_packJ,
    extractLsb'_eq_self, Nat.reduceSub, Reg.ofBits_bits, extract_low, extract_high]
  try rfl)
theorem Laws.RoundTrip.jr (sm : Bool) (ra : Reg) : Laws.RoundTrip.Statement (.jr sm ra) := Laws.RoundTrip.of_raw (by
  rw [encode, decodeRaw, wordOp_packR]; show decode12 _ = _
  simp (disch := decide) only [decode12, wordFunc, wordSize, wordD, wordA, wordB, wordS_packR, rd_packR, ra_packR, rb_packR, f_packR,
    extractLsb'_eq_self, Nat.reduceSub, Reg.ofBits_bits, extract_low, extract_high]
  try rfl)
theorem Laws.RoundTrip.jlr (sm : Bool) (rd : Reg) (ra : Reg) : Laws.RoundTrip.Statement (.jlr sm rd ra) := Laws.RoundTrip.of_raw (by
  rw [encode, decodeRaw, wordOp_packR]; show decode12 _ = _
  simp (disch := decide) only [decode12, wordFunc, wordSize, wordD, wordA, wordB, wordS_packR, rd_packR, ra_packR, rb_packR, f_packR,
    extractLsb'_eq_self, Nat.reduceSub, Reg.ofBits_bits, extract_low, extract_high]
  try rfl)
theorem Laws.RoundTrip.bbs (sm : Bool) (ra : Reg) (b : BitVec 6) (i : BitVec 12) : Laws.RoundTrip.Statement (.bbs sm ra b i) := Laws.RoundTrip.of_raw (by
  rw [encode, decodeRaw, wordOp_packB]; show decode13 _ = _
  simp (disch := decide) only [decode13, wordFunc, wordSize, wordD, wordA, wordB, wordS_packB, ra_packB, b_packB, f_packB,
    extractLsb'_eq_self, Nat.reduceSub, Reg.ofBits_bits, extract_low, extract_high]
  try rfl)
theorem Laws.RoundTrip.bbc (sm : Bool) (ra : Reg) (b : BitVec 6) (i : BitVec 12) : Laws.RoundTrip.Statement (.bbc sm ra b i) := Laws.RoundTrip.of_raw (by
  rw [encode, decodeRaw, wordOp_packB]; show decode14 _ = _
  simp (disch := decide) only [decode14, wordFunc, wordSize, wordD, wordA, wordB, wordS_packB, ra_packB, b_packB, f_packB,
    extractLsb'_eq_self, Nat.reduceSub, Reg.ofBits_bits, extract_low, extract_high]
  try rfl)
theorem Laws.RoundTrip.bz (sm : Bool) (ra : Reg) (i : BitVec 12) : Laws.RoundTrip.Statement (.bz sm ra i) := Laws.RoundTrip.of_raw (by
  rw [encode, decodeRaw, wordOp_packB]; show decode15 _ = _
  simp (disch := decide) only [decode15, wordFunc, wordSize, wordD, wordA, wordB, wordS_packB, ra_packB, b_packB, f_packB,
    extractLsb'_eq_self, Nat.reduceSub, Reg.ofBits_bits, extract_low, extract_high]
  try rfl)
theorem Laws.RoundTrip.bnz (sm : Bool) (ra : Reg) (i : BitVec 12) : Laws.RoundTrip.Statement (.bnz sm ra i) := Laws.RoundTrip.of_raw (by
  rw [encode, decodeRaw, wordOp_packB]; show decode15 _ = _
  simp (disch := decide) only [decode15, wordFunc, wordSize, wordD, wordA, wordB, wordS_packB, ra_packB, b_packB, f_packB,
    extractLsb'_eq_self, Nat.reduceSub, Reg.ofBits_bits, extract_low, extract_high]
  try rfl)
theorem Laws.RoundTrip.bloop (sm : Bool) (ra : Reg) (i : BitVec 12) : Laws.RoundTrip.Statement (.bloop sm ra i) := Laws.RoundTrip.of_raw (by
  rw [encode, decodeRaw, wordOp_packB]; show decode15 _ = _
  simp (disch := decide) only [decode15, wordFunc, wordSize, wordD, wordA, wordB, wordS_packB, ra_packB, b_packB, f_packB,
    extractLsb'_eq_self, Nat.reduceSub, Reg.ofBits_bits, extract_low, extract_high]
  try rfl)
theorem Laws.RoundTrip.pre (sm : Bool) (g : Reg) (b : BitVec 6) (e : BitVec 1) (n : BitVec 1) (f : BitVec 4) (x : BitVec 4) (o : BitVec 2) : Laws.RoundTrip.Statement (.pre sm g b e n f x o) := Laws.RoundTrip.of_raw (by
  rw [encode, decodeRaw, wordOp_packP]; show decode16 _ = _
  simp (disch := decide) only [decode16, wordFunc, wordSize, wordD, wordA, wordB, wordS_packP, g_packP, b_packP, e_packP, n_packP, f_packP, x_packP, o_packP,
    extractLsb'_eq_self, Nat.reduceSub, Reg.ofBits_bits, extract_low, extract_high]
  try rfl)
theorem Laws.RoundTrip.nop (sm : Bool) : Laws.RoundTrip.Statement (.nop sm) := Laws.RoundTrip.of_raw (by
  rw [encode, decodeRaw, wordOp_packR]; show decode17 _ = _
  simp (disch := decide) only [decode17, wordFunc, wordSize, wordD, wordA, wordB, wordS_packR, rd_packR, ra_packR, rb_packR, f_packR,
    extractLsb'_eq_self, Nat.reduceSub, Reg.ofBits_bits, extract_low, extract_high]
  try rfl)
theorem Laws.RoundTrip.yield (sm : Bool) : Laws.RoundTrip.Statement (.yield sm) := Laws.RoundTrip.of_raw (by
  rw [encode, decodeRaw, wordOp_packR]; show decode17 _ = _
  simp (disch := decide) only [decode17, wordFunc, wordSize, wordD, wordA, wordB, wordS_packR, rd_packR, ra_packR, rb_packR, f_packR,
    extractLsb'_eq_self, Nat.reduceSub, Reg.ofBits_bits, extract_low, extract_high]
  try rfl)
theorem Laws.RoundTrip.ldb (sm : Bool) (rd : Reg) (ra : Reg) (r : BitVec 2) (t : BitVec 7) : Laws.RoundTrip.Statement (.ldb sm rd ra r t) := Laws.RoundTrip.of_raw (by
  rw [encode, decodeRaw, wordOp_packM]; show decode18 _ = _
  simp (disch := decide) only [decode18, wordFunc, wordSize, wordD, wordA, wordB, wordS_packM, rd_packM, ra_packM, r_packM, z_packM, f_packM,
    extractLsb'_eq_self, Nat.reduceSub, Reg.ofBits_bits, extract_low, extract_high]
  try rfl)
theorem Laws.RoundTrip.ldh (sm : Bool) (rd : Reg) (ra : Reg) (r : BitVec 2) (t : BitVec 7) : Laws.RoundTrip.Statement (.ldh sm rd ra r t) := Laws.RoundTrip.of_raw (by
  rw [encode, decodeRaw, wordOp_packM]; show decode18 _ = _
  simp (disch := decide) only [decode18, wordFunc, wordSize, wordD, wordA, wordB, wordS_packM, rd_packM, ra_packM, r_packM, z_packM, f_packM,
    extractLsb'_eq_self, Nat.reduceSub, Reg.ofBits_bits, extract_low, extract_high]
  try rfl)
theorem Laws.RoundTrip.ldw (sm : Bool) (rd : Reg) (ra : Reg) (r : BitVec 2) (t : BitVec 7) : Laws.RoundTrip.Statement (.ldw sm rd ra r t) := Laws.RoundTrip.of_raw (by
  rw [encode, decodeRaw, wordOp_packM]; show decode18 _ = _
  simp (disch := decide) only [decode18, wordFunc, wordSize, wordD, wordA, wordB, wordS_packM, rd_packM, ra_packM, r_packM, z_packM, f_packM,
    extractLsb'_eq_self, Nat.reduceSub, Reg.ofBits_bits, extract_low, extract_high]
  try rfl)
theorem Laws.RoundTrip.ldd (sm : Bool) (rd : Reg) (ra : Reg) (r : BitVec 2) (t : BitVec 7) : Laws.RoundTrip.Statement (.ldd sm rd ra r t) := Laws.RoundTrip.of_raw (by
  rw [encode, decodeRaw, wordOp_packM]; show decode18 _ = _
  simp (disch := decide) only [decode18, wordFunc, wordSize, wordD, wordA, wordB, wordS_packM, rd_packM, ra_packM, r_packM, z_packM, f_packM,
    extractLsb'_eq_self, Nat.reduceSub, Reg.ofBits_bits, extract_low, extract_high]
  try rfl)
theorem Laws.RoundTrip.ldbu (sm : Bool) (rd : Reg) (ra : Reg) (r : BitVec 2) (t : BitVec 7) : Laws.RoundTrip.Statement (.ldbu sm rd ra r t) := Laws.RoundTrip.of_raw (by
  rw [encode, decodeRaw, wordOp_packM]; show decode19 _ = _
  simp (disch := decide) only [decode19, wordFunc, wordSize, wordD, wordA, wordB, wordS_packM, rd_packM, ra_packM, r_packM, z_packM, f_packM,
    extractLsb'_eq_self, Nat.reduceSub, Reg.ofBits_bits, extract_low, extract_high]
  try rfl)
theorem Laws.RoundTrip.ldhu (sm : Bool) (rd : Reg) (ra : Reg) (r : BitVec 2) (t : BitVec 7) : Laws.RoundTrip.Statement (.ldhu sm rd ra r t) := Laws.RoundTrip.of_raw (by
  rw [encode, decodeRaw, wordOp_packM]; show decode19 _ = _
  simp (disch := decide) only [decode19, wordFunc, wordSize, wordD, wordA, wordB, wordS_packM, rd_packM, ra_packM, r_packM, z_packM, f_packM,
    extractLsb'_eq_self, Nat.reduceSub, Reg.ofBits_bits, extract_low, extract_high]
  try rfl)
theorem Laws.RoundTrip.ldwu (sm : Bool) (rd : Reg) (ra : Reg) (r : BitVec 2) (t : BitVec 7) : Laws.RoundTrip.Statement (.ldwu sm rd ra r t) := Laws.RoundTrip.of_raw (by
  rw [encode, decodeRaw, wordOp_packM]; show decode19 _ = _
  simp (disch := decide) only [decode19, wordFunc, wordSize, wordD, wordA, wordB, wordS_packM, rd_packM, ra_packM, r_packM, z_packM, f_packM,
    extractLsb'_eq_self, Nat.reduceSub, Reg.ofBits_bits, extract_low, extract_high]
  try rfl)
theorem Laws.RoundTrip.stb (sm : Bool) (rd : Reg) (ra : Reg) (r : BitVec 2) (t : BitVec 7) : Laws.RoundTrip.Statement (.stb sm rd ra r t) := Laws.RoundTrip.of_raw (by
  rw [encode, decodeRaw, wordOp_packM]; show decode1A _ = _
  simp (disch := decide) only [decode1A, wordFunc, wordSize, wordD, wordA, wordB, wordS_packM, rd_packM, ra_packM, r_packM, z_packM, f_packM,
    extractLsb'_eq_self, Nat.reduceSub, Reg.ofBits_bits, extract_low, extract_high]
  try rfl)
theorem Laws.RoundTrip.sth (sm : Bool) (rd : Reg) (ra : Reg) (r : BitVec 2) (t : BitVec 7) : Laws.RoundTrip.Statement (.sth sm rd ra r t) := Laws.RoundTrip.of_raw (by
  rw [encode, decodeRaw, wordOp_packM]; show decode1A _ = _
  simp (disch := decide) only [decode1A, wordFunc, wordSize, wordD, wordA, wordB, wordS_packM, rd_packM, ra_packM, r_packM, z_packM, f_packM,
    extractLsb'_eq_self, Nat.reduceSub, Reg.ofBits_bits, extract_low, extract_high]
  try rfl)
theorem Laws.RoundTrip.stw (sm : Bool) (rd : Reg) (ra : Reg) (r : BitVec 2) (t : BitVec 7) : Laws.RoundTrip.Statement (.stw sm rd ra r t) := Laws.RoundTrip.of_raw (by
  rw [encode, decodeRaw, wordOp_packM]; show decode1A _ = _
  simp (disch := decide) only [decode1A, wordFunc, wordSize, wordD, wordA, wordB, wordS_packM, rd_packM, ra_packM, r_packM, z_packM, f_packM,
    extractLsb'_eq_self, Nat.reduceSub, Reg.ofBits_bits, extract_low, extract_high]
  try rfl)
theorem Laws.RoundTrip.std (sm : Bool) (rd : Reg) (ra : Reg) (r : BitVec 2) (t : BitVec 7) : Laws.RoundTrip.Statement (.std sm rd ra r t) := Laws.RoundTrip.of_raw (by
  rw [encode, decodeRaw, wordOp_packM]; show decode1A _ = _
  simp (disch := decide) only [decode1A, wordFunc, wordSize, wordD, wordA, wordB, wordS_packM, rd_packM, ra_packM, r_packM, z_packM, f_packM,
    extractLsb'_eq_self, Nat.reduceSub, Reg.ofBits_bits, extract_low, extract_high]
  try rfl)
theorem Laws.RoundTrip.ldv (sm : Bool) (rd : Reg) (ra : Reg) (r : BitVec 2) (t : BitVec 7) : Laws.RoundTrip.Statement (.ldv sm rd ra r t) := Laws.RoundTrip.of_raw (by
  rw [encode, decodeRaw, wordOp_packM]; show decode1B _ = _
  simp (disch := decide) only [decode1B, wordFunc, wordSize, wordD, wordA, wordB, wordS_packM, rd_packM, ra_packM, r_packM, z_packM, f_packM,
    extractLsb'_eq_self, Nat.reduceSub, Reg.ofBits_bits, extract_low, extract_high]
  try rfl)
theorem Laws.RoundTrip.stv (sm : Bool) (rd : Reg) (ra : Reg) (r : BitVec 2) (t : BitVec 7) : Laws.RoundTrip.Statement (.stv sm rd ra r t) := Laws.RoundTrip.of_raw (by
  rw [encode, decodeRaw, wordOp_packM]; show decode1C _ = _
  simp (disch := decide) only [decode1C, wordFunc, wordSize, wordD, wordA, wordB, wordS_packM, rd_packM, ra_packM, r_packM, z_packM, f_packM,
    extractLsb'_eq_self, Nat.reduceSub, Reg.ofBits_bits, extract_low, extract_high]
  try rfl)
theorem Laws.RoundTrip.gld (sm : Bool) (rd : Reg) (ra : Reg) (r : BitVec 2) (z : BitVec 2) (n : BitVec 1) (q : BitVec 1) (o : BitVec 5) : Laws.RoundTrip.Statement (.gld sm rd ra r z n q o) := Laws.RoundTrip.of_raw (by
  rw [encode, decodeRaw, wordOp_packM]; show decode20 _ = _
  simp (disch := decide) only [decode20, wordFunc, wordSize, wordD, wordA, wordB, wordS_packM, rd_packM, ra_packM, r_packM, z_packM, f_packM,
    extractLsb'_eq_self, Nat.reduceSub, Reg.ofBits_bits, extract_low, extract_high]
  try rfl)
theorem Laws.RoundTrip.gst (sm : Bool) (rd : Reg) (ra : Reg) (r : BitVec 2) (z : BitVec 2) (q : BitVec 1) (o : BitVec 5) : Laws.RoundTrip.Statement (.gst sm rd ra r z q o) := Laws.RoundTrip.of_raw (by
  rw [encode, decodeRaw, wordOp_packM]; show decode21 _ = _
  simp (disch := decide) only [decode21, wordFunc, wordSize, wordD, wordA, wordB, wordS_packM, rd_packM, ra_packM, r_packM, z_packM, f_packM,
    extractLsb'_eq_self, Nat.reduceSub, Reg.ofBits_bits, extract_low, extract_high]
  try rfl)
theorem Laws.RoundTrip.gldv (sm : Bool) (rd : Reg) (ra : Reg) (r : BitVec 2) (n : BitVec 1) (q : BitVec 1) (o : BitVec 5) : Laws.RoundTrip.Statement (.gldv sm rd ra r n q o) := Laws.RoundTrip.of_raw (by
  rw [encode, decodeRaw, wordOp_packM]; show decode22 _ = _
  simp (disch := decide) only [decode22, wordFunc, wordSize, wordD, wordA, wordB, wordS_packM, rd_packM, ra_packM, r_packM, z_packM, f_packM,
    extractLsb'_eq_self, Nat.reduceSub, Reg.ofBits_bits, extract_low, extract_high]
  try rfl)
theorem Laws.RoundTrip.gstv (sm : Bool) (rd : Reg) (ra : Reg) (r : BitVec 2) (q : BitVec 1) (o : BitVec 5) : Laws.RoundTrip.Statement (.gstv sm rd ra r q o) := Laws.RoundTrip.of_raw (by
  rw [encode, decodeRaw, wordOp_packM]; show decode22 _ = _
  simp (disch := decide) only [decode22, wordFunc, wordSize, wordD, wordA, wordB, wordS_packM, rd_packM, ra_packM, r_packM, z_packM, f_packM,
    extractLsb'_eq_self, Nat.reduceSub, Reg.ofBits_bits, extract_low, extract_high]
  try rfl)
theorem Laws.RoundTrip.sbind (sm : Bool) (rd : Reg) (ra : Reg) : Laws.RoundTrip.Statement (.sbind sm rd ra) := Laws.RoundTrip.of_raw (by
  rw [encode, decodeRaw, wordOp_packR]; show decode23 _ = _
  simp (disch := decide) only [decode23, wordFunc, wordSize, wordD, wordA, wordB, wordS_packR, rd_packR, ra_packR, rb_packR, f_packR,
    extractLsb'_eq_self, Nat.reduceSub, Reg.ofBits_bits, extract_low, extract_high]
  try rfl)
theorem Laws.RoundTrip.scnt (sm : Bool) (rd : Reg) (ra : Reg) : Laws.RoundTrip.Statement (.scnt sm rd ra) := Laws.RoundTrip.of_raw (by
  rw [encode, decodeRaw, wordOp_packR]; show decode23 _ = _
  simp (disch := decide) only [decode23, wordFunc, wordSize, wordD, wordA, wordB, wordS_packR, rd_packR, ra_packR, rb_packR, f_packR,
    extractLsb'_eq_self, Nat.reduceSub, Reg.ofBits_bits, extract_low, extract_high]
  try rfl)
theorem Laws.RoundTrip.ginv (sm : Bool) (ra : Reg) : Laws.RoundTrip.Statement (.ginv sm ra) := Laws.RoundTrip.of_raw (by
  rw [encode, decodeRaw, wordOp_packR]; show decode23 _ = _
  simp (disch := decide) only [decode23, wordFunc, wordSize, wordD, wordA, wordB, wordS_packR, rd_packR, ra_packR, rb_packR, f_packR,
    extractLsb'_eq_self, Nat.reduceSub, Reg.ofBits_bits, extract_low, extract_high]
  try rfl)
theorem Laws.RoundTrip.gprf (sm : Bool) (ra : Reg) (r : BitVec 2) : Laws.RoundTrip.Statement (.gprf sm ra r) := Laws.RoundTrip.of_raw (by
  rw [encode, decodeRaw, wordOp_packR]; show decode23 _ = _
  simp (disch := decide) only [decode23, wordFunc, wordSize, wordD, wordA, wordB, wordS_packR, rd_packR, ra_packR, rb_packR, f_packR,
    extractLsb'_eq_self, Nat.reduceSub, Reg.ofBits_bits, extract_low, extract_high]
  try rfl)
theorem Laws.RoundTrip.lclean (sm : Bool) (ra : Reg) : Laws.RoundTrip.Statement (.lclean sm ra) := Laws.RoundTrip.of_raw (by
  rw [encode, decodeRaw, wordOp_packR]; show decode23 _ = _
  simp (disch := decide) only [decode23, wordFunc, wordSize, wordD, wordA, wordB, wordS_packR, rd_packR, ra_packR, rb_packR, f_packR,
    extractLsb'_eq_self, Nat.reduceSub, Reg.ofBits_bits, extract_low, extract_high]
  try rfl)
theorem Laws.RoundTrip.lflush (sm : Bool) (ra : Reg) : Laws.RoundTrip.Statement (.lflush sm ra) := Laws.RoundTrip.of_raw (by
  rw [encode, decodeRaw, wordOp_packR]; show decode23 _ = _
  simp (disch := decide) only [decode23, wordFunc, wordSize, wordD, wordA, wordB, wordS_packR, rd_packR, ra_packR, rb_packR, f_packR,
    extractLsb'_eq_self, Nat.reduceSub, Reg.ofBits_bits, extract_low, extract_high]
  try rfl)
theorem Laws.RoundTrip.amoadd (sm : Bool) (rd : Reg) (ra : Reg) (rb : Reg) : Laws.RoundTrip.Statement (.amoadd sm rd ra rb) := Laws.RoundTrip.of_raw (by
  rw [encode, decodeRaw, wordOp_packR]; show decode24 _ = _
  simp (disch := decide) only [decode24, wordFunc, wordSize, wordD, wordA, wordB, wordS_packR, rd_packR, ra_packR, rb_packR, f_packR,
    extractLsb'_eq_self, Nat.reduceSub, Reg.ofBits_bits, extract_low, extract_high]
  try rfl)
theorem Laws.RoundTrip.amoand (sm : Bool) (rd : Reg) (ra : Reg) (rb : Reg) : Laws.RoundTrip.Statement (.amoand sm rd ra rb) := Laws.RoundTrip.of_raw (by
  rw [encode, decodeRaw, wordOp_packR]; show decode24 _ = _
  simp (disch := decide) only [decode24, wordFunc, wordSize, wordD, wordA, wordB, wordS_packR, rd_packR, ra_packR, rb_packR, f_packR,
    extractLsb'_eq_self, Nat.reduceSub, Reg.ofBits_bits, extract_low, extract_high]
  try rfl)
theorem Laws.RoundTrip.amoor (sm : Bool) (rd : Reg) (ra : Reg) (rb : Reg) : Laws.RoundTrip.Statement (.amoor sm rd ra rb) := Laws.RoundTrip.of_raw (by
  rw [encode, decodeRaw, wordOp_packR]; show decode24 _ = _
  simp (disch := decide) only [decode24, wordFunc, wordSize, wordD, wordA, wordB, wordS_packR, rd_packR, ra_packR, rb_packR, f_packR,
    extractLsb'_eq_self, Nat.reduceSub, Reg.ofBits_bits, extract_low, extract_high]
  try rfl)
theorem Laws.RoundTrip.amoxor (sm : Bool) (rd : Reg) (ra : Reg) (rb : Reg) : Laws.RoundTrip.Statement (.amoxor sm rd ra rb) := Laws.RoundTrip.of_raw (by
  rw [encode, decodeRaw, wordOp_packR]; show decode24 _ = _
  simp (disch := decide) only [decode24, wordFunc, wordSize, wordD, wordA, wordB, wordS_packR, rd_packR, ra_packR, rb_packR, f_packR,
    extractLsb'_eq_self, Nat.reduceSub, Reg.ofBits_bits, extract_low, extract_high]
  try rfl)
theorem Laws.RoundTrip.amomin (sm : Bool) (rd : Reg) (ra : Reg) (rb : Reg) : Laws.RoundTrip.Statement (.amomin sm rd ra rb) := Laws.RoundTrip.of_raw (by
  rw [encode, decodeRaw, wordOp_packR]; show decode24 _ = _
  simp (disch := decide) only [decode24, wordFunc, wordSize, wordD, wordA, wordB, wordS_packR, rd_packR, ra_packR, rb_packR, f_packR,
    extractLsb'_eq_self, Nat.reduceSub, Reg.ofBits_bits, extract_low, extract_high]
  try rfl)
theorem Laws.RoundTrip.amomax (sm : Bool) (rd : Reg) (ra : Reg) (rb : Reg) : Laws.RoundTrip.Statement (.amomax sm rd ra rb) := Laws.RoundTrip.of_raw (by
  rw [encode, decodeRaw, wordOp_packR]; show decode24 _ = _
  simp (disch := decide) only [decode24, wordFunc, wordSize, wordD, wordA, wordB, wordS_packR, rd_packR, ra_packR, rb_packR, f_packR,
    extractLsb'_eq_self, Nat.reduceSub, Reg.ofBits_bits, extract_low, extract_high]
  try rfl)
theorem Laws.RoundTrip.amominu (sm : Bool) (rd : Reg) (ra : Reg) (rb : Reg) : Laws.RoundTrip.Statement (.amominu sm rd ra rb) := Laws.RoundTrip.of_raw (by
  rw [encode, decodeRaw, wordOp_packR]; show decode24 _ = _
  simp (disch := decide) only [decode24, wordFunc, wordSize, wordD, wordA, wordB, wordS_packR, rd_packR, ra_packR, rb_packR, f_packR,
    extractLsb'_eq_self, Nat.reduceSub, Reg.ofBits_bits, extract_low, extract_high]
  try rfl)
theorem Laws.RoundTrip.amomaxu (sm : Bool) (rd : Reg) (ra : Reg) (rb : Reg) : Laws.RoundTrip.Statement (.amomaxu sm rd ra rb) := Laws.RoundTrip.of_raw (by
  rw [encode, decodeRaw, wordOp_packR]; show decode24 _ = _
  simp (disch := decide) only [decode24, wordFunc, wordSize, wordD, wordA, wordB, wordS_packR, rd_packR, ra_packR, rb_packR, f_packR,
    extractLsb'_eq_self, Nat.reduceSub, Reg.ofBits_bits, extract_low, extract_high]
  try rfl)
theorem Laws.RoundTrip.amoswp (sm : Bool) (rd : Reg) (ra : Reg) (rb : Reg) : Laws.RoundTrip.Statement (.amoswp sm rd ra rb) := Laws.RoundTrip.of_raw (by
  rw [encode, decodeRaw, wordOp_packR]; show decode24 _ = _
  simp (disch := decide) only [decode24, wordFunc, wordSize, wordD, wordA, wordB, wordS_packR, rd_packR, ra_packR, rb_packR, f_packR,
    extractLsb'_eq_self, Nat.reduceSub, Reg.ofBits_bits, extract_low, extract_high]
  try rfl)
theorem Laws.RoundTrip.acas (sm : Bool) (rd : Reg) (ra : Reg) (rb : Reg) : Laws.RoundTrip.Statement (.acas sm rd ra rb) := Laws.RoundTrip.of_raw (by
  rw [encode, decodeRaw, wordOp_packR]; show decode24 _ = _
  simp (disch := decide) only [decode24, wordFunc, wordSize, wordD, wordA, wordB, wordS_packR, rd_packR, ra_packR, rb_packR, f_packR,
    extractLsb'_eq_self, Nat.reduceSub, Reg.ofBits_bits, extract_low, extract_high]
  try rfl)
theorem Laws.RoundTrip.redadd (sm : Bool) (ra : Reg) (rb : Reg) : Laws.RoundTrip.Statement (.redadd sm ra rb) := Laws.RoundTrip.of_raw (by
  rw [encode, decodeRaw, wordOp_packR]; show decode25 _ = _
  simp (disch := decide) only [decode25, wordFunc, wordSize, wordD, wordA, wordB, wordS_packR, rd_packR, ra_packR, rb_packR, f_packR,
    extractLsb'_eq_self, Nat.reduceSub, Reg.ofBits_bits, extract_low, extract_high]
  try rfl)
theorem Laws.RoundTrip.redand (sm : Bool) (ra : Reg) (rb : Reg) : Laws.RoundTrip.Statement (.redand sm ra rb) := Laws.RoundTrip.of_raw (by
  rw [encode, decodeRaw, wordOp_packR]; show decode25 _ = _
  simp (disch := decide) only [decode25, wordFunc, wordSize, wordD, wordA, wordB, wordS_packR, rd_packR, ra_packR, rb_packR, f_packR,
    extractLsb'_eq_self, Nat.reduceSub, Reg.ofBits_bits, extract_low, extract_high]
  try rfl)
theorem Laws.RoundTrip.redor (sm : Bool) (ra : Reg) (rb : Reg) : Laws.RoundTrip.Statement (.redor sm ra rb) := Laws.RoundTrip.of_raw (by
  rw [encode, decodeRaw, wordOp_packR]; show decode25 _ = _
  simp (disch := decide) only [decode25, wordFunc, wordSize, wordD, wordA, wordB, wordS_packR, rd_packR, ra_packR, rb_packR, f_packR,
    extractLsb'_eq_self, Nat.reduceSub, Reg.ofBits_bits, extract_low, extract_high]
  try rfl)
theorem Laws.RoundTrip.redxor (sm : Bool) (ra : Reg) (rb : Reg) : Laws.RoundTrip.Statement (.redxor sm ra rb) := Laws.RoundTrip.of_raw (by
  rw [encode, decodeRaw, wordOp_packR]; show decode25 _ = _
  simp (disch := decide) only [decode25, wordFunc, wordSize, wordD, wordA, wordB, wordS_packR, rd_packR, ra_packR, rb_packR, f_packR,
    extractLsb'_eq_self, Nat.reduceSub, Reg.ofBits_bits, extract_low, extract_high]
  try rfl)
theorem Laws.RoundTrip.redmin (sm : Bool) (ra : Reg) (rb : Reg) : Laws.RoundTrip.Statement (.redmin sm ra rb) := Laws.RoundTrip.of_raw (by
  rw [encode, decodeRaw, wordOp_packR]; show decode25 _ = _
  simp (disch := decide) only [decode25, wordFunc, wordSize, wordD, wordA, wordB, wordS_packR, rd_packR, ra_packR, rb_packR, f_packR,
    extractLsb'_eq_self, Nat.reduceSub, Reg.ofBits_bits, extract_low, extract_high]
  try rfl)
theorem Laws.RoundTrip.redmax (sm : Bool) (ra : Reg) (rb : Reg) : Laws.RoundTrip.Statement (.redmax sm ra rb) := Laws.RoundTrip.of_raw (by
  rw [encode, decodeRaw, wordOp_packR]; show decode25 _ = _
  simp (disch := decide) only [decode25, wordFunc, wordSize, wordD, wordA, wordB, wordS_packR, rd_packR, ra_packR, rb_packR, f_packR,
    extractLsb'_eq_self, Nat.reduceSub, Reg.ofBits_bits, extract_low, extract_high]
  try rfl)
theorem Laws.RoundTrip.redminu (sm : Bool) (ra : Reg) (rb : Reg) : Laws.RoundTrip.Statement (.redminu sm ra rb) := Laws.RoundTrip.of_raw (by
  rw [encode, decodeRaw, wordOp_packR]; show decode25 _ = _
  simp (disch := decide) only [decode25, wordFunc, wordSize, wordD, wordA, wordB, wordS_packR, rd_packR, ra_packR, rb_packR, f_packR,
    extractLsb'_eq_self, Nat.reduceSub, Reg.ofBits_bits, extract_low, extract_high]
  try rfl)
theorem Laws.RoundTrip.redmaxu (sm : Bool) (ra : Reg) (rb : Reg) : Laws.RoundTrip.Statement (.redmaxu sm ra rb) := Laws.RoundTrip.of_raw (by
  rw [encode, decodeRaw, wordOp_packR]; show decode25 _ = _
  simp (disch := decide) only [decode25, wordFunc, wordSize, wordD, wordA, wordB, wordS_packR, rd_packR, ra_packR, rb_packR, f_packR,
    extractLsb'_eq_self, Nat.reduceSub, Reg.ofBits_bits, extract_low, extract_high]
  try rfl)
theorem Laws.RoundTrip.ldfe (sm : Bool) (rd : Reg) (ra : Reg) (t : BitVec 4) : Laws.RoundTrip.Statement (.ldfe sm rd ra t) := Laws.RoundTrip.of_raw (by
  rw [encode, decodeRaw, wordOp_packW]; show decode26 _ = _
  simp (disch := decide) only [decode26, wordFunc, wordSize, wordD, wordA, wordB, wordS_packW, rd_packW, ra_packW, t_packW, x_packW, f_packW,
    extractLsb'_eq_self, Nat.reduceSub, Reg.ofBits_bits, extract_low, extract_high]
  try rfl)
theorem Laws.RoundTrip.ldff (sm : Bool) (rd : Reg) (ra : Reg) (t : BitVec 4) : Laws.RoundTrip.Statement (.ldff sm rd ra t) := Laws.RoundTrip.of_raw (by
  rw [encode, decodeRaw, wordOp_packW]; show decode26 _ = _
  simp (disch := decide) only [decode26, wordFunc, wordSize, wordD, wordA, wordB, wordS_packW, rd_packW, ra_packW, t_packW, x_packW, f_packW,
    extractLsb'_eq_self, Nat.reduceSub, Reg.ofBits_bits, extract_low, extract_high]
  try rfl)
theorem Laws.RoundTrip.stfe (sm : Bool) (rd : Reg) (ra : Reg) (t : BitVec 4) : Laws.RoundTrip.Statement (.stfe sm rd ra t) := Laws.RoundTrip.of_raw (by
  rw [encode, decodeRaw, wordOp_packW]; show decode26 _ = _
  simp (disch := decide) only [decode26, wordFunc, wordSize, wordD, wordA, wordB, wordS_packW, rd_packW, ra_packW, t_packW, x_packW, f_packW,
    extractLsb'_eq_self, Nat.reduceSub, Reg.ofBits_bits, extract_low, extract_high]
  try rfl)
theorem Laws.RoundTrip.stff (sm : Bool) (rd : Reg) (ra : Reg) (t : BitVec 4) : Laws.RoundTrip.Statement (.stff sm rd ra t) := Laws.RoundTrip.of_raw (by
  rw [encode, decodeRaw, wordOp_packW]; show decode26 _ = _
  simp (disch := decide) only [decode26, wordFunc, wordSize, wordD, wordA, wordB, wordS_packW, rd_packW, ra_packW, t_packW, x_packW, f_packW,
    extractLsb'_eq_self, Nat.reduceSub, Reg.ofBits_bits, extract_low, extract_high]
  try rfl)
theorem Laws.RoundTrip.feq (sm : Bool) (rd : Reg) (ra : Reg) : Laws.RoundTrip.Statement (.feq sm rd ra) := Laws.RoundTrip.of_raw (by
  rw [encode, decodeRaw, wordOp_packW]; show decode26 _ = _
  simp (disch := decide) only [decode26, wordFunc, wordSize, wordD, wordA, wordB, wordS_packW, rd_packW, ra_packW, t_packW, x_packW, f_packW,
    extractLsb'_eq_self, Nat.reduceSub, Reg.ofBits_bits, extract_low, extract_high]
  try rfl)
theorem Laws.RoundTrip.feset (sm : Bool) (ra : Reg) (v : BitVec 1) : Laws.RoundTrip.Statement (.feset sm ra v) := Laws.RoundTrip.of_raw (by
  rw [encode, decodeRaw, wordOp_packW]; show decode26 _ = _
  simp (disch := decide) only [decode26, wordFunc, wordSize, wordD, wordA, wordB, wordS_packW, rd_packW, ra_packW, t_packW, x_packW, f_packW,
    extractLsb'_eq_self, Nat.reduceSub, Reg.ofBits_bits, extract_low, extract_high]
  try rfl)
theorem Laws.RoundTrip.bari (sm : Bool) (rd : Reg) (ra : Reg) : Laws.RoundTrip.Statement (.bari sm rd ra) := Laws.RoundTrip.of_raw (by
  rw [encode, decodeRaw, wordOp_packW]; show decode27 _ = _
  simp (disch := decide) only [decode27, wordFunc, wordSize, wordD, wordA, wordB, wordS_packW, rd_packW, ra_packW, t_packW, x_packW, f_packW,
    extractLsb'_eq_self, Nat.reduceSub, Reg.ofBits_bits, extract_low, extract_high]
  try rfl)
theorem Laws.RoundTrip.bara (sm : Bool) (rd : Reg) (ra : Reg) : Laws.RoundTrip.Statement (.bara sm rd ra) := Laws.RoundTrip.of_raw (by
  rw [encode, decodeRaw, wordOp_packW]; show decode27 _ = _
  simp (disch := decide) only [decode27, wordFunc, wordSize, wordD, wordA, wordB, wordS_packW, rd_packW, ra_packW, t_packW, x_packW, f_packW,
    extractLsb'_eq_self, Nat.reduceSub, Reg.ofBits_bits, extract_low, extract_high]
  try rfl)
theorem Laws.RoundTrip.barw (sm : Bool) (rd : Reg) (ra : Reg) (t : BitVec 4) : Laws.RoundTrip.Statement (.barw sm rd ra t) := Laws.RoundTrip.of_raw (by
  rw [encode, decodeRaw, wordOp_packW]; show decode27 _ = _
  simp (disch := decide) only [decode27, wordFunc, wordSize, wordD, wordA, wordB, wordS_packW, rd_packW, ra_packW, t_packW, x_packW, f_packW,
    extractLsb'_eq_self, Nat.reduceSub, Reg.ofBits_bits, extract_low, extract_high]
  try rfl)
theorem Laws.RoundTrip.waitw (sm : Bool) (rd : Reg) (ra : Reg) (t : BitVec 4) (m : BitVec 3) : Laws.RoundTrip.Statement (.waitw sm rd ra t m) := Laws.RoundTrip.of_raw (by
  rw [encode, decodeRaw, wordOp_packW]; show decode27 _ = _
  simp (disch := decide) only [decode27, wordFunc, wordSize, wordD, wordA, wordB, wordS_packW, rd_packW, ra_packW, t_packW, x_packW, f_packW,
    extractLsb'_eq_self, Nat.reduceSub, Reg.ofBits_bits, extract_low, extract_high]
  try rfl)
theorem Laws.RoundTrip.fence (sm : Bool) (t : BitVec 4) (c : BitVec 3) : Laws.RoundTrip.Statement (.fence sm t c) := Laws.RoundTrip.of_raw (by
  rw [encode, decodeRaw, wordOp_packW]; show decode27 _ = _
  simp (disch := decide) only [decode27, wordFunc, wordSize, wordD, wordA, wordB, wordS_packW, rd_packW, ra_packW, t_packW, x_packW, f_packW,
    extractLsb'_eq_self, Nat.reduceSub, Reg.ofBits_bits, extract_low, extract_high]
  try rfl)
theorem Laws.RoundTrip.fadd (sm : Bool) (rd : Reg) (ra : Reg) (rb : Reg) : Laws.RoundTrip.Statement (.fadd sm rd ra rb) := Laws.RoundTrip.of_raw (by
  rw [encode, decodeRaw, wordOp_packR]; show decode28 _ = _
  simp (disch := decide) only [decode28, wordFunc, wordSize, wordD, wordA, wordB, wordS_packR, rd_packR, ra_packR, rb_packR, f_packR,
    extractLsb'_eq_self, Nat.reduceSub, Reg.ofBits_bits, extract_low, extract_high]
  try rfl)
theorem Laws.RoundTrip.fsub (sm : Bool) (rd : Reg) (ra : Reg) (rb : Reg) : Laws.RoundTrip.Statement (.fsub sm rd ra rb) := Laws.RoundTrip.of_raw (by
  rw [encode, decodeRaw, wordOp_packR]; show decode28 _ = _
  simp (disch := decide) only [decode28, wordFunc, wordSize, wordD, wordA, wordB, wordS_packR, rd_packR, ra_packR, rb_packR, f_packR,
    extractLsb'_eq_self, Nat.reduceSub, Reg.ofBits_bits, extract_low, extract_high]
  try rfl)
theorem Laws.RoundTrip.fmul (sm : Bool) (rd : Reg) (ra : Reg) (rb : Reg) : Laws.RoundTrip.Statement (.fmul sm rd ra rb) := Laws.RoundTrip.of_raw (by
  rw [encode, decodeRaw, wordOp_packR]; show decode28 _ = _
  simp (disch := decide) only [decode28, wordFunc, wordSize, wordD, wordA, wordB, wordS_packR, rd_packR, ra_packR, rb_packR, f_packR,
    extractLsb'_eq_self, Nat.reduceSub, Reg.ofBits_bits, extract_low, extract_high]
  try rfl)
theorem Laws.RoundTrip.fmin (sm : Bool) (rd : Reg) (ra : Reg) (rb : Reg) : Laws.RoundTrip.Statement (.fmin sm rd ra rb) := Laws.RoundTrip.of_raw (by
  rw [encode, decodeRaw, wordOp_packR]; show decode28 _ = _
  simp (disch := decide) only [decode28, wordFunc, wordSize, wordD, wordA, wordB, wordS_packR, rd_packR, ra_packR, rb_packR, f_packR,
    extractLsb'_eq_self, Nat.reduceSub, Reg.ofBits_bits, extract_low, extract_high]
  try rfl)
theorem Laws.RoundTrip.fmax (sm : Bool) (rd : Reg) (ra : Reg) (rb : Reg) : Laws.RoundTrip.Statement (.fmax sm rd ra rb) := Laws.RoundTrip.of_raw (by
  rw [encode, decodeRaw, wordOp_packR]; show decode28 _ = _
  simp (disch := decide) only [decode28, wordFunc, wordSize, wordD, wordA, wordB, wordS_packR, rd_packR, ra_packR, rb_packR, f_packR,
    extractLsb'_eq_self, Nat.reduceSub, Reg.ofBits_bits, extract_low, extract_high]
  try rfl)
theorem Laws.RoundTrip.fabs (sm : Bool) (rd : Reg) (ra : Reg) : Laws.RoundTrip.Statement (.fabs sm rd ra) := Laws.RoundTrip.of_raw (by
  rw [encode, decodeRaw, wordOp_packR]; show decode28 _ = _
  simp (disch := decide) only [decode28, wordFunc, wordSize, wordD, wordA, wordB, wordS_packR, rd_packR, ra_packR, rb_packR, f_packR,
    extractLsb'_eq_self, Nat.reduceSub, Reg.ofBits_bits, extract_low, extract_high]
  try rfl)
theorem Laws.RoundTrip.fneg (sm : Bool) (rd : Reg) (ra : Reg) : Laws.RoundTrip.Statement (.fneg sm rd ra) := Laws.RoundTrip.of_raw (by
  rw [encode, decodeRaw, wordOp_packR]; show decode28 _ = _
  simp (disch := decide) only [decode28, wordFunc, wordSize, wordD, wordA, wordB, wordS_packR, rd_packR, ra_packR, rb_packR, f_packR,
    extractLsb'_eq_self, Nat.reduceSub, Reg.ofBits_bits, extract_low, extract_high]
  try rfl)
theorem Laws.RoundTrip.fcmpeq (sm : Bool) (rd : Reg) (ra : Reg) (rb : Reg) : Laws.RoundTrip.Statement (.fcmpeq sm rd ra rb) := Laws.RoundTrip.of_raw (by
  rw [encode, decodeRaw, wordOp_packR]; show decode28 _ = _
  simp (disch := decide) only [decode28, wordFunc, wordSize, wordD, wordA, wordB, wordS_packR, rd_packR, ra_packR, rb_packR, f_packR,
    extractLsb'_eq_self, Nat.reduceSub, Reg.ofBits_bits, extract_low, extract_high]
  try rfl)
theorem Laws.RoundTrip.fcmplt (sm : Bool) (rd : Reg) (ra : Reg) (rb : Reg) : Laws.RoundTrip.Statement (.fcmplt sm rd ra rb) := Laws.RoundTrip.of_raw (by
  rw [encode, decodeRaw, wordOp_packR]; show decode28 _ = _
  simp (disch := decide) only [decode28, wordFunc, wordSize, wordD, wordA, wordB, wordS_packR, rd_packR, ra_packR, rb_packR, f_packR,
    extractLsb'_eq_self, Nat.reduceSub, Reg.ofBits_bits, extract_low, extract_high]
  try rfl)
theorem Laws.RoundTrip.fcmple (sm : Bool) (rd : Reg) (ra : Reg) (rb : Reg) : Laws.RoundTrip.Statement (.fcmple sm rd ra rb) := Laws.RoundTrip.of_raw (by
  rw [encode, decodeRaw, wordOp_packR]; show decode28 _ = _
  simp (disch := decide) only [decode28, wordFunc, wordSize, wordD, wordA, wordB, wordS_packR, rd_packR, ra_packR, rb_packR, f_packR,
    extractLsb'_eq_self, Nat.reduceSub, Reg.ofBits_bits, extract_low, extract_high]
  try rfl)
theorem Laws.RoundTrip.fcls (sm : Bool) (rd : Reg) (ra : Reg) : Laws.RoundTrip.Statement (.fcls sm rd ra) := Laws.RoundTrip.of_raw (by
  rw [encode, decodeRaw, wordOp_packR]; show decode28 _ = _
  simp (disch := decide) only [decode28, wordFunc, wordSize, wordD, wordA, wordB, wordS_packR, rd_packR, ra_packR, rb_packR, f_packR,
    extractLsb'_eq_self, Nat.reduceSub, Reg.ofBits_bits, extract_low, extract_high]
  try rfl)
theorem Laws.RoundTrip.ffma (sm : Bool) (rd : Reg) (ra : Reg) (rb : Reg) : Laws.RoundTrip.Statement (.ffma sm rd ra rb) := Laws.RoundTrip.of_raw (by
  rw [encode, decodeRaw, wordOp_packR]; show decode28 _ = _
  simp (disch := decide) only [decode28, wordFunc, wordSize, wordD, wordA, wordB, wordS_packR, rd_packR, ra_packR, rb_packR, f_packR,
    extractLsb'_eq_self, Nat.reduceSub, Reg.ofBits_bits, extract_low, extract_high]
  try rfl)
theorem Laws.RoundTrip.fcvt (sm : Bool) (rd : Reg) (ra : Reg) : Laws.RoundTrip.Statement (.fcvt sm rd ra) := Laws.RoundTrip.of_raw (by
  rw [encode, decodeRaw, wordOp_packR]; show decode28 _ = _
  simp (disch := decide) only [decode28, wordFunc, wordSize, wordD, wordA, wordB, wordS_packR, rd_packR, ra_packR, rb_packR, f_packR,
    extractLsb'_eq_self, Nat.reduceSub, Reg.ofBits_bits, extract_low, extract_high]
  try rfl)
theorem Laws.RoundTrip.vadd (sm : Bool) (rd : Reg) (ra : Reg) (rb : Reg) : Laws.RoundTrip.Statement (.vadd sm rd ra rb) := Laws.RoundTrip.of_raw (by
  rw [encode, decodeRaw, wordOp_packR]; show decode2C _ = _
  simp (disch := decide) only [decode2C, wordFunc, wordSize, wordD, wordA, wordB, wordS_packR, rd_packR, ra_packR, rb_packR, f_packR,
    extractLsb'_eq_self, Nat.reduceSub, Reg.ofBits_bits, extract_low, extract_high]
  try rfl)
theorem Laws.RoundTrip.vsub (sm : Bool) (rd : Reg) (ra : Reg) (rb : Reg) : Laws.RoundTrip.Statement (.vsub sm rd ra rb) := Laws.RoundTrip.of_raw (by
  rw [encode, decodeRaw, wordOp_packR]; show decode2C _ = _
  simp (disch := decide) only [decode2C, wordFunc, wordSize, wordD, wordA, wordB, wordS_packR, rd_packR, ra_packR, rb_packR, f_packR,
    extractLsb'_eq_self, Nat.reduceSub, Reg.ofBits_bits, extract_low, extract_high]
  try rfl)
theorem Laws.RoundTrip.vmul (sm : Bool) (rd : Reg) (ra : Reg) (rb : Reg) : Laws.RoundTrip.Statement (.vmul sm rd ra rb) := Laws.RoundTrip.of_raw (by
  rw [encode, decodeRaw, wordOp_packR]; show decode2C _ = _
  simp (disch := decide) only [decode2C, wordFunc, wordSize, wordD, wordA, wordB, wordS_packR, rd_packR, ra_packR, rb_packR, f_packR,
    extractLsb'_eq_self, Nat.reduceSub, Reg.ofBits_bits, extract_low, extract_high]
  try rfl)
theorem Laws.RoundTrip.vfma (sm : Bool) (rd : Reg) (ra : Reg) (rb : Reg) : Laws.RoundTrip.Statement (.vfma sm rd ra rb) := Laws.RoundTrip.of_raw (by
  rw [encode, decodeRaw, wordOp_packR]; show decode2C _ = _
  simp (disch := decide) only [decode2C, wordFunc, wordSize, wordD, wordA, wordB, wordS_packR, rd_packR, ra_packR, rb_packR, f_packR,
    extractLsb'_eq_self, Nat.reduceSub, Reg.ofBits_bits, extract_low, extract_high]
  try rfl)
theorem Laws.RoundTrip.vmin (sm : Bool) (rd : Reg) (ra : Reg) (rb : Reg) : Laws.RoundTrip.Statement (.vmin sm rd ra rb) := Laws.RoundTrip.of_raw (by
  rw [encode, decodeRaw, wordOp_packR]; show decode2C _ = _
  simp (disch := decide) only [decode2C, wordFunc, wordSize, wordD, wordA, wordB, wordS_packR, rd_packR, ra_packR, rb_packR, f_packR,
    extractLsb'_eq_self, Nat.reduceSub, Reg.ofBits_bits, extract_low, extract_high]
  try rfl)
theorem Laws.RoundTrip.vmax (sm : Bool) (rd : Reg) (ra : Reg) (rb : Reg) : Laws.RoundTrip.Statement (.vmax sm rd ra rb) := Laws.RoundTrip.of_raw (by
  rw [encode, decodeRaw, wordOp_packR]; show decode2C _ = _
  simp (disch := decide) only [decode2C, wordFunc, wordSize, wordD, wordA, wordB, wordS_packR, rd_packR, ra_packR, rb_packR, f_packR,
    extractLsb'_eq_self, Nat.reduceSub, Reg.ofBits_bits, extract_low, extract_high]
  try rfl)
theorem Laws.RoundTrip.vabs (sm : Bool) (rd : Reg) (ra : Reg) : Laws.RoundTrip.Statement (.vabs sm rd ra) := Laws.RoundTrip.of_raw (by
  rw [encode, decodeRaw, wordOp_packR]; show decode2C _ = _
  simp (disch := decide) only [decode2C, wordFunc, wordSize, wordD, wordA, wordB, wordS_packR, rd_packR, ra_packR, rb_packR, f_packR,
    extractLsb'_eq_self, Nat.reduceSub, Reg.ofBits_bits, extract_low, extract_high]
  try rfl)
theorem Laws.RoundTrip.vneg (sm : Bool) (rd : Reg) (ra : Reg) : Laws.RoundTrip.Statement (.vneg sm rd ra) := Laws.RoundTrip.of_raw (by
  rw [encode, decodeRaw, wordOp_packR]; show decode2C _ = _
  simp (disch := decide) only [decode2C, wordFunc, wordSize, wordD, wordA, wordB, wordS_packR, rd_packR, ra_packR, rb_packR, f_packR,
    extractLsb'_eq_self, Nat.reduceSub, Reg.ofBits_bits, extract_low, extract_high]
  try rfl)
theorem Laws.RoundTrip.vrcp (sm : Bool) (rd : Reg) (ra : Reg) : Laws.RoundTrip.Statement (.vrcp sm rd ra) := Laws.RoundTrip.of_raw (by
  rw [encode, decodeRaw, wordOp_packR]; show decode2C _ = _
  simp (disch := decide) only [decode2C, wordFunc, wordSize, wordD, wordA, wordB, wordS_packR, rd_packR, ra_packR, rb_packR, f_packR,
    extractLsb'_eq_self, Nat.reduceSub, Reg.ofBits_bits, extract_low, extract_high]
  try rfl)
theorem Laws.RoundTrip.vrsq (sm : Bool) (rd : Reg) (ra : Reg) : Laws.RoundTrip.Statement (.vrsq sm rd ra) := Laws.RoundTrip.of_raw (by
  rw [encode, decodeRaw, wordOp_packR]; show decode2C _ = _
  simp (disch := decide) only [decode2C, wordFunc, wordSize, wordD, wordA, wordB, wordS_packR, rd_packR, ra_packR, rb_packR, f_packR,
    extractLsb'_eq_self, Nat.reduceSub, Reg.ofBits_bits, extract_low, extract_high]
  try rfl)
theorem Laws.RoundTrip.vexp2 (sm : Bool) (rd : Reg) (ra : Reg) : Laws.RoundTrip.Statement (.vexp2 sm rd ra) := Laws.RoundTrip.of_raw (by
  rw [encode, decodeRaw, wordOp_packR]; show decode2C _ = _
  simp (disch := decide) only [decode2C, wordFunc, wordSize, wordD, wordA, wordB, wordS_packR, rd_packR, ra_packR, rb_packR, f_packR,
    extractLsb'_eq_self, Nat.reduceSub, Reg.ofBits_bits, extract_low, extract_high]
  try rfl)
theorem Laws.RoundTrip.vand (sm : Bool) (rd : Reg) (ra : Reg) (rb : Reg) : Laws.RoundTrip.Statement (.vand sm rd ra rb) := Laws.RoundTrip.of_raw (by
  rw [encode, decodeRaw, wordOp_packR]; show decode2D _ = _
  simp (disch := decide) only [decode2D, wordFunc, wordSize, wordD, wordA, wordB, wordS_packR, rd_packR, ra_packR, rb_packR, f_packR,
    extractLsb'_eq_self, Nat.reduceSub, Reg.ofBits_bits, extract_low, extract_high]
  try rfl)
theorem Laws.RoundTrip.vor (sm : Bool) (rd : Reg) (ra : Reg) (rb : Reg) : Laws.RoundTrip.Statement (.vor sm rd ra rb) := Laws.RoundTrip.of_raw (by
  rw [encode, decodeRaw, wordOp_packR]; show decode2D _ = _
  simp (disch := decide) only [decode2D, wordFunc, wordSize, wordD, wordA, wordB, wordS_packR, rd_packR, ra_packR, rb_packR, f_packR,
    extractLsb'_eq_self, Nat.reduceSub, Reg.ofBits_bits, extract_low, extract_high]
  try rfl)
theorem Laws.RoundTrip.vxor (sm : Bool) (rd : Reg) (ra : Reg) (rb : Reg) : Laws.RoundTrip.Statement (.vxor sm rd ra rb) := Laws.RoundTrip.of_raw (by
  rw [encode, decodeRaw, wordOp_packR]; show decode2D _ = _
  simp (disch := decide) only [decode2D, wordFunc, wordSize, wordD, wordA, wordB, wordS_packR, rd_packR, ra_packR, rb_packR, f_packR,
    extractLsb'_eq_self, Nat.reduceSub, Reg.ofBits_bits, extract_low, extract_high]
  try rfl)
theorem Laws.RoundTrip.vshl (sm : Bool) (rd : Reg) (ra : Reg) (rb : Reg) : Laws.RoundTrip.Statement (.vshl sm rd ra rb) := Laws.RoundTrip.of_raw (by
  rw [encode, decodeRaw, wordOp_packR]; show decode2D _ = _
  simp (disch := decide) only [decode2D, wordFunc, wordSize, wordD, wordA, wordB, wordS_packR, rd_packR, ra_packR, rb_packR, f_packR,
    extractLsb'_eq_self, Nat.reduceSub, Reg.ofBits_bits, extract_low, extract_high]
  try rfl)
theorem Laws.RoundTrip.vshr (sm : Bool) (rd : Reg) (ra : Reg) (rb : Reg) : Laws.RoundTrip.Statement (.vshr sm rd ra rb) := Laws.RoundTrip.of_raw (by
  rw [encode, decodeRaw, wordOp_packR]; show decode2D _ = _
  simp (disch := decide) only [decode2D, wordFunc, wordSize, wordD, wordA, wordB, wordS_packR, rd_packR, ra_packR, rb_packR, f_packR,
    extractLsb'_eq_self, Nat.reduceSub, Reg.ofBits_bits, extract_low, extract_high]
  try rfl)
theorem Laws.RoundTrip.vsar (sm : Bool) (rd : Reg) (ra : Reg) (rb : Reg) : Laws.RoundTrip.Statement (.vsar sm rd ra rb) := Laws.RoundTrip.of_raw (by
  rw [encode, decodeRaw, wordOp_packR]; show decode2D _ = _
  simp (disch := decide) only [decode2D, wordFunc, wordSize, wordD, wordA, wordB, wordS_packR, rd_packR, ra_packR, rb_packR, f_packR,
    extractLsb'_eq_self, Nat.reduceSub, Reg.ofBits_bits, extract_low, extract_high]
  try rfl)
theorem Laws.RoundTrip.vcmpeq (sm : Bool) (rd : Reg) (ra : Reg) (rb : Reg) : Laws.RoundTrip.Statement (.vcmpeq sm rd ra rb) := Laws.RoundTrip.of_raw (by
  rw [encode, decodeRaw, wordOp_packR]; show decode2E _ = _
  simp (disch := decide) only [decode2E, wordFunc, wordSize, wordD, wordA, wordB, wordS_packR, rd_packR, ra_packR, rb_packR, f_packR,
    extractLsb'_eq_self, Nat.reduceSub, Reg.ofBits_bits, extract_low, extract_high]
  try rfl)
theorem Laws.RoundTrip.vcmplt (sm : Bool) (rd : Reg) (ra : Reg) (rb : Reg) : Laws.RoundTrip.Statement (.vcmplt sm rd ra rb) := Laws.RoundTrip.of_raw (by
  rw [encode, decodeRaw, wordOp_packR]; show decode2E _ = _
  simp (disch := decide) only [decode2E, wordFunc, wordSize, wordD, wordA, wordB, wordS_packR, rd_packR, ra_packR, rb_packR, f_packR,
    extractLsb'_eq_self, Nat.reduceSub, Reg.ofBits_bits, extract_low, extract_high]
  try rfl)
theorem Laws.RoundTrip.vcmple (sm : Bool) (rd : Reg) (ra : Reg) (rb : Reg) : Laws.RoundTrip.Statement (.vcmple sm rd ra rb) := Laws.RoundTrip.of_raw (by
  rw [encode, decodeRaw, wordOp_packR]; show decode2E _ = _
  simp (disch := decide) only [decode2E, wordFunc, wordSize, wordD, wordA, wordB, wordS_packR, rd_packR, ra_packR, rb_packR, f_packR,
    extractLsb'_eq_self, Nat.reduceSub, Reg.ofBits_bits, extract_low, extract_high]
  try rfl)
theorem Laws.RoundTrip.vsel (sm : Bool) (rd : Reg) (ra : Reg) (rb : Reg) : Laws.RoundTrip.Statement (.vsel sm rd ra rb) := Laws.RoundTrip.of_raw (by
  rw [encode, decodeRaw, wordOp_packR]; show decode2E _ = _
  simp (disch := decide) only [decode2E, wordFunc, wordSize, wordD, wordA, wordB, wordS_packR, rd_packR, ra_packR, rb_packR, f_packR,
    extractLsb'_eq_self, Nat.reduceSub, Reg.ofBits_bits, extract_low, extract_high]
  try rfl)
theorem Laws.RoundTrip.vcvt (sm : Bool) (rd : Reg) (ra : Reg) : Laws.RoundTrip.Statement (.vcvt sm rd ra) := Laws.RoundTrip.of_raw (by
  rw [encode, decodeRaw, wordOp_packR]; show decode2F _ = _
  simp (disch := decide) only [decode2F, wordFunc, wordSize, wordD, wordA, wordB, wordS_packR, rd_packR, ra_packR, rb_packR, f_packR,
    extractLsb'_eq_self, Nat.reduceSub, Reg.ofBits_bits, extract_low, extract_high]
  try rfl)
theorem Laws.RoundTrip.vred (sm : Bool) (rd : Reg) (ra : Reg) (o : BitVec 7) : Laws.RoundTrip.Statement (.vred sm rd ra o) := Laws.RoundTrip.of_raw (by
  rw [encode, decodeRaw, wordOp_packR]; show decode2F _ = _
  simp (disch := decide) only [decode2F, wordFunc, wordSize, wordD, wordA, wordB, wordS_packR, rd_packR, ra_packR, rb_packR, f_packR,
    extractLsb'_eq_self, Nat.reduceSub, Reg.ofBits_bits, extract_low, extract_high]
  try rfl)
theorem Laws.RoundTrip.vdot (sm : Bool) (rd : Reg) (ra : Reg) (rb : Reg) : Laws.RoundTrip.Statement (.vdot sm rd ra rb) := Laws.RoundTrip.of_raw (by
  rw [encode, decodeRaw, wordOp_packR]; show decode2F _ = _
  simp (disch := decide) only [decode2F, wordFunc, wordSize, wordD, wordA, wordB, wordS_packR, rd_packR, ra_packR, rb_packR, f_packR,
    extractLsb'_eq_self, Nat.reduceSub, Reg.ofBits_bits, extract_low, extract_high]
  try rfl)
theorem Laws.RoundTrip.vqnt (sm : Bool) (rd : Reg) (ra : Reg) (rb : Reg) : Laws.RoundTrip.Statement (.vqnt sm rd ra rb) := Laws.RoundTrip.of_raw (by
  rw [encode, decodeRaw, wordOp_packR]; show decode2F _ = _
  simp (disch := decide) only [decode2F, wordFunc, wordSize, wordD, wordA, wordB, wordS_packR, rd_packR, ra_packR, rb_packR, f_packR,
    extractLsb'_eq_self, Nat.reduceSub, Reg.ofBits_bits, extract_low, extract_high]
  try rfl)
theorem Laws.RoundTrip.vshuf (sm : Bool) (rd : Reg) (ra : Reg) (rb : Reg) : Laws.RoundTrip.Statement (.vshuf sm rd ra rb) := Laws.RoundTrip.of_raw (by
  rw [encode, decodeRaw, wordOp_packR]; show decode30 _ = _
  simp (disch := decide) only [decode30, wordFunc, wordSize, wordD, wordA, wordB, wordS_packR, rd_packR, ra_packR, rb_packR, f_packR,
    extractLsb'_eq_self, Nat.reduceSub, Reg.ofBits_bits, extract_low, extract_high]
  try rfl)
theorem Laws.RoundTrip.vbcast (sm : Bool) (rd : Reg) (ra : Reg) : Laws.RoundTrip.Statement (.vbcast sm rd ra) := Laws.RoundTrip.of_raw (by
  rw [encode, decodeRaw, wordOp_packR]; show decode30 _ = _
  simp (disch := decide) only [decode30, wordFunc, wordSize, wordD, wordA, wordB, wordS_packR, rd_packR, ra_packR, rb_packR, f_packR,
    extractLsb'_eq_self, Nat.reduceSub, Reg.ofBits_bits, extract_low, extract_high]
  try rfl)
theorem Laws.RoundTrip.vext (sm : Bool) (rd : Reg) (ra : Reg) (rb : Reg) : Laws.RoundTrip.Statement (.vext sm rd ra rb) := Laws.RoundTrip.of_raw (by
  rw [encode, decodeRaw, wordOp_packR]; show decode30 _ = _
  simp (disch := decide) only [decode30, wordFunc, wordSize, wordD, wordA, wordB, wordS_packR, rd_packR, ra_packR, rb_packR, f_packR,
    extractLsb'_eq_self, Nat.reduceSub, Reg.ofBits_bits, extract_low, extract_high]
  try rfl)
theorem Laws.RoundTrip.vins (sm : Bool) (rd : Reg) (ra : Reg) (rb : Reg) : Laws.RoundTrip.Statement (.vins sm rd ra rb) := Laws.RoundTrip.of_raw (by
  rw [encode, decodeRaw, wordOp_packR]; show decode30 _ = _
  simp (disch := decide) only [decode30, wordFunc, wordSize, wordD, wordA, wordB, wordS_packR, rd_packR, ra_packR, rb_packR, f_packR,
    extractLsb'_eq_self, Nat.reduceSub, Reg.ofBits_bits, extract_low, extract_high]
  try rfl)
theorem Laws.RoundTrip.vmov (sm : Bool) (rd : Reg) (ra : Reg) : Laws.RoundTrip.Statement (.vmov sm rd ra) := Laws.RoundTrip.of_raw (by
  rw [encode, decodeRaw, wordOp_packR]; show decode30 _ = _
  simp (disch := decide) only [decode30, wordFunc, wordSize, wordD, wordA, wordB, wordS_packR, rd_packR, ra_packR, rb_packR, f_packR,
    extractLsb'_eq_self, Nat.reduceSub, Reg.ofBits_bits, extract_low, extract_high]
  try rfl)
theorem Laws.RoundTrip.mpush (sm : Bool) (rd : Reg) (ra : Reg) (e : BitVec 7) : Laws.RoundTrip.Statement (.mpush sm rd ra e) := Laws.RoundTrip.of_raw (by
  rw [encode, decodeRaw, wordOp_packR]; show decode32 _ = _
  simp (disch := decide) only [decode32, wordFunc, wordSize, wordD, wordA, wordB, wordS_packR, rd_packR, ra_packR, rb_packR, f_packR,
    extractLsb'_eq_self, Nat.reduceSub, Reg.ofBits_bits, extract_low, extract_high]
  try rfl)
theorem Laws.RoundTrip.mpop (sm : Bool) (rd : Reg) (e : BitVec 7) : Laws.RoundTrip.Statement (.mpop sm rd e) := Laws.RoundTrip.of_raw (by
  rw [encode, decodeRaw, wordOp_packR]; show decode32 _ = _
  simp (disch := decide) only [decode32, wordFunc, wordSize, wordD, wordA, wordB, wordS_packR, rd_packR, ra_packR, rb_packR, f_packR,
    extractLsb'_eq_self, Nat.reduceSub, Reg.ofBits_bits, extract_low, extract_high]
  try rfl)
theorem Laws.RoundTrip.mfence (sm : Bool) (e : BitVec 7) : Laws.RoundTrip.Statement (.mfence sm e) := Laws.RoundTrip.of_raw (by
  rw [encode, decodeRaw, wordOp_packR]; show decode32 _ = _
  simp (disch := decide) only [decode32, wordFunc, wordSize, wordD, wordA, wordB, wordS_packR, rd_packR, ra_packR, rb_packR, f_packR,
    extractLsb'_eq_self, Nat.reduceSub, Reg.ofBits_bits, extract_low, extract_high]
  try rfl)
theorem Laws.RoundTrip.mring (sm : Bool) (ra : Reg) (e : BitVec 4) : Laws.RoundTrip.Statement (.mring sm ra e) := Laws.RoundTrip.of_raw (by
  rw [encode, decodeRaw, wordOp_packR]; show decode32 _ = _
  simp (disch := decide) only [decode32, wordFunc, wordSize, wordD, wordA, wordB, wordS_packR, rd_packR, ra_packR, rb_packR, f_packR,
    extractLsb'_eq_self, Nat.reduceSub, Reg.ofBits_bits, extract_low, extract_high]
  try rfl)
theorem Laws.RoundTrip.mradv (sm : Bool) (rd : Reg) (ra : Reg) : Laws.RoundTrip.Statement (.mradv sm rd ra) := Laws.RoundTrip.of_raw (by
  rw [encode, decodeRaw, wordOp_packR]; show decode32 _ = _
  simp (disch := decide) only [decode32, wordFunc, wordSize, wordD, wordA, wordB, wordS_packR, rd_packR, ra_packR, rb_packR, f_packR,
    extractLsb'_eq_self, Nat.reduceSub, Reg.ofBits_bits, extract_low, extract_high]
  try rfl)
theorem Laws.RoundTrip.mrstat (sm : Bool) (rd : Reg) (ra : Reg) : Laws.RoundTrip.Statement (.mrstat sm rd ra) := Laws.RoundTrip.of_raw (by
  rw [encode, decodeRaw, wordOp_packR]; show decode32 _ = _
  simp (disch := decide) only [decode32, wordFunc, wordSize, wordD, wordA, wordB, wordS_packR, rd_packR, ra_packR, rb_packR, f_packR,
    extractLsb'_eq_self, Nat.reduceSub, Reg.ofBits_bits, extract_low, extract_high]
  try rfl)
theorem Laws.RoundTrip.put (sm : Bool) (rd : Reg) (p : BitVec 7) (t : BitVec 4) : Laws.RoundTrip.Statement (.put sm rd p t) := Laws.RoundTrip.of_raw (by
  rw [encode, decodeRaw, wordOp_packW]; show decode34 _ = _
  simp (disch := decide) only [decode34, wordFunc, wordSize, wordD, wordA, wordB, wordS_packW, rd_packW, ra_packW, t_packW, x_packW, f_packW,
    extractLsb'_eq_self, Nat.reduceSub, Reg.ofBits_bits, extract_low, extract_high]
  try rfl)
theorem Laws.RoundTrip.take (sm : Bool) (rd : Reg) (p : BitVec 7) (t : BitVec 4) : Laws.RoundTrip.Statement (.take sm rd p t) := Laws.RoundTrip.of_raw (by
  rw [encode, decodeRaw, wordOp_packW]; show decode34 _ = _
  simp (disch := decide) only [decode34, wordFunc, wordSize, wordD, wordA, wordB, wordS_packW, rd_packW, ra_packW, t_packW, x_packW, f_packW,
    extractLsb'_eq_self, Nat.reduceSub, Reg.ofBits_bits, extract_low, extract_high]
  try rfl)
theorem Laws.RoundTrip.pbind (sm : Bool) (rd : Reg) (p : BitVec 7) : Laws.RoundTrip.Statement (.pbind sm rd p) := Laws.RoundTrip.of_raw (by
  rw [encode, decodeRaw, wordOp_packW]; show decode34 _ = _
  simp (disch := decide) only [decode34, wordFunc, wordSize, wordD, wordA, wordB, wordS_packW, rd_packW, ra_packW, t_packW, x_packW, f_packW,
    extractLsb'_eq_self, Nat.reduceSub, Reg.ofBits_bits, extract_low, extract_high]
  try rfl)
theorem Laws.RoundTrip.pfree (sm : Bool) (p : BitVec 7) : Laws.RoundTrip.Statement (.pfree sm p) := Laws.RoundTrip.of_raw (by
  rw [encode, decodeRaw, wordOp_packW]; show decode34 _ = _
  simp (disch := decide) only [decode34, wordFunc, wordSize, wordD, wordA, wordB, wordS_packW, rd_packW, ra_packW, t_packW, x_packW, f_packW,
    extractLsb'_eq_self, Nat.reduceSub, Reg.ofBits_bits, extract_low, extract_high]
  try rfl)
theorem Laws.RoundTrip.hload (sm : Bool) (rd : Reg) (ra : Reg) (rb : Reg) : Laws.RoundTrip.Statement (.hload sm rd ra rb) := Laws.RoundTrip.of_raw (by
  rw [encode, decodeRaw, wordOp_packR]; show decode35 _ = _
  simp (disch := decide) only [decode35, wordFunc, wordSize, wordD, wordA, wordB, wordS_packR, rd_packR, ra_packR, rb_packR, f_packR,
    extractLsb'_eq_self, Nat.reduceSub, Reg.ofBits_bits, extract_low, extract_high]
  try rfl)
theorem Laws.RoundTrip.hstop (sm : Bool) (rd : Reg) (ra : Reg) : Laws.RoundTrip.Statement (.hstop sm rd ra) := Laws.RoundTrip.of_raw (by
  rw [encode, decodeRaw, wordOp_packR]; show decode35 _ = _
  simp (disch := decide) only [decode35, wordFunc, wordSize, wordD, wordA, wordB, wordS_packR, rd_packR, ra_packR, rb_packR, f_packR,
    extractLsb'_eq_self, Nat.reduceSub, Reg.ofBits_bits, extract_low, extract_high]
  try rfl)
theorem Laws.RoundTrip.hstat (sm : Bool) (rd : Reg) (ra : Reg) : Laws.RoundTrip.Statement (.hstat sm rd ra) := Laws.RoundTrip.of_raw (by
  rw [encode, decodeRaw, wordOp_packR]; show decode35 _ = _
  simp (disch := decide) only [decode35, wordFunc, wordSize, wordD, wordA, wordB, wordS_packR, rd_packR, ra_packR, rb_packR, f_packR,
    extractLsb'_eq_self, Nat.reduceSub, Reg.ofBits_bits, extract_low, extract_high]
  try rfl)
theorem Laws.RoundTrip.qcfg (sm : Bool) (rd : Reg) (ra : Reg) (x : BitVec 3) : Laws.RoundTrip.Statement (.qcfg sm rd ra x) := Laws.RoundTrip.of_raw (by
  rw [encode, decodeRaw, wordOp_packW]; show decode36 _ = _
  simp (disch := decide) only [decode36, wordFunc, wordSize, wordD, wordA, wordB, wordS_packW, rd_packW, ra_packW, t_packW, x_packW, f_packW,
    extractLsb'_eq_self, Nat.reduceSub, Reg.ofBits_bits, extract_low, extract_high]
  try rfl)
theorem Laws.RoundTrip.qstat (sm : Bool) (rd : Reg) (x : BitVec 3) : Laws.RoundTrip.Statement (.qstat sm rd x) := Laws.RoundTrip.of_raw (by
  rw [encode, decodeRaw, wordOp_packW]; show decode36 _ = _
  simp (disch := decide) only [decode36, wordFunc, wordSize, wordD, wordA, wordB, wordS_packW, rd_packW, ra_packW, t_packW, x_packW, f_packW,
    extractLsb'_eq_self, Nat.reduceSub, Reg.ofBits_bits, extract_low, extract_high]
  try rfl)
theorem Laws.RoundTrip.taga (sm : Bool) (rd : Reg) (t : BitVec 4) (x : BitVec 3) : Laws.RoundTrip.Statement (.taga sm rd t x) := Laws.RoundTrip.of_raw (by
  rw [encode, decodeRaw, wordOp_packW]; show decode36 _ = _
  simp (disch := decide) only [decode36, wordFunc, wordSize, wordD, wordA, wordB, wordS_packW, rd_packW, ra_packW, t_packW, x_packW, f_packW,
    extractLsb'_eq_self, Nat.reduceSub, Reg.ofBits_bits, extract_low, extract_high]
  try rfl)
theorem Laws.RoundTrip.tagf (sm : Bool) (rd : Reg) (x : BitVec 3) : Laws.RoundTrip.Statement (.tagf sm rd x) := Laws.RoundTrip.of_raw (by
  rw [encode, decodeRaw, wordOp_packW]; show decode36 _ = _
  simp (disch := decide) only [decode36, wordFunc, wordSize, wordD, wordA, wordB, wordS_packW, rd_packW, ra_packW, t_packW, x_packW, f_packW,
    extractLsb'_eq_self, Nat.reduceSub, Reg.ofBits_bits, extract_low, extract_high]
  try rfl)
theorem Laws.RoundTrip.send (sm : Bool) (rd : Reg) (ra : Reg) : Laws.RoundTrip.Statement (.send sm rd ra) := Laws.RoundTrip.of_raw (by
  rw [encode, decodeRaw, wordOp_packW]; show decode36 _ = _
  simp (disch := decide) only [decode36, wordFunc, wordSize, wordD, wordA, wordB, wordS_packW, rd_packW, ra_packW, t_packW, x_packW, f_packW,
    extractLsb'_eq_self, Nat.reduceSub, Reg.ofBits_bits, extract_low, extract_high]
  try rfl)
theorem Laws.RoundTrip.sendi (sm : Bool) (rd : Reg) (ra : Reg) (v : BitVec 7) : Laws.RoundTrip.Statement (.sendi sm rd ra v) := Laws.RoundTrip.of_raw (by
  rw [encode, decodeRaw, wordOp_packR]; show decode36 _ = _
  simp (disch := decide) only [decode36, wordFunc, wordSize, wordD, wordA, wordB, wordS_packR, rd_packR, ra_packR, rb_packR, f_packR,
    extractLsb'_eq_self, Nat.reduceSub, Reg.ofBits_bits, extract_low, extract_high]
  try rfl)
theorem Laws.RoundTrip.waitm (sm : Bool) (rd : Reg) (ra : Reg) (t : BitVec 4) : Laws.RoundTrip.Statement (.waitm sm rd ra t) := Laws.RoundTrip.of_raw (by
  rw [encode, decodeRaw, wordOp_packW]; show decode36 _ = _
  simp (disch := decide) only [decode36, wordFunc, wordSize, wordD, wordA, wordB, wordS_packW, rd_packW, ra_packW, t_packW, x_packW, f_packW,
    extractLsb'_eq_self, Nat.reduceSub, Reg.ofBits_bits, extract_low, extract_high]
  try rfl)
theorem Laws.RoundTrip.recv (sm : Bool) (rd : Reg) (ra : Reg) (t : BitVec 4) : Laws.RoundTrip.Statement (.recv sm rd ra t) := Laws.RoundTrip.of_raw (by
  rw [encode, decodeRaw, wordOp_packW]; show decode36 _ = _
  simp (disch := decide) only [decode36, wordFunc, wordSize, wordD, wordA, wordB, wordS_packW, rd_packW, ra_packW, t_packW, x_packW, f_packW,
    extractLsb'_eq_self, Nat.reduceSub, Reg.ofBits_bits, extract_low, extract_high]
  try rfl)
theorem Laws.RoundTrip.mpcfg (sm : Bool) (rd : Reg) (ra : Reg) : Laws.RoundTrip.Statement (.mpcfg sm rd ra) := Laws.RoundTrip.of_raw (by
  rw [encode, decodeRaw, wordOp_packW]; show decode36 _ = _
  simp (disch := decide) only [decode36, wordFunc, wordSize, wordD, wordA, wordB, wordS_packW, rd_packW, ra_packW, t_packW, x_packW, f_packW,
    extractLsb'_eq_self, Nat.reduceSub, Reg.ofBits_bits, extract_low, extract_high]
  try rfl)
theorem Laws.RoundTrip.jpset (sm : Bool) (ra : Reg) (e : BitVec 7) : Laws.RoundTrip.Statement (.jpset sm ra e) := Laws.RoundTrip.of_raw (by
  rw [encode, decodeRaw, wordOp_packR]; show decode37 _ = _
  simp (disch := decide) only [decode37, wordFunc, wordSize, wordD, wordA, wordB, wordS_packR, rd_packR, ra_packR, rb_packR, f_packR,
    extractLsb'_eq_self, Nat.reduceSub, Reg.ofBits_bits, extract_low, extract_high]
  try rfl)
theorem Laws.RoundTrip.jpclr (sm : Bool) (e : BitVec 7) : Laws.RoundTrip.Statement (.jpclr sm e) := Laws.RoundTrip.of_raw (by
  rw [encode, decodeRaw, wordOp_packR]; show decode37 _ = _
  simp (disch := decide) only [decode37, wordFunc, wordSize, wordD, wordA, wordB, wordS_packR, rd_packR, ra_packR, rb_packR, f_packR,
    extractLsb'_eq_self, Nat.reduceSub, Reg.ofBits_bits, extract_low, extract_high]
  try rfl)
theorem Laws.RoundTrip.jpstat (sm : Bool) (rd : Reg) (e : BitVec 7) : Laws.RoundTrip.Statement (.jpstat sm rd e) := Laws.RoundTrip.of_raw (by
  rw [encode, decodeRaw, wordOp_packR]; show decode37 _ = _
  simp (disch := decide) only [decode37, wordFunc, wordSize, wordD, wordA, wordB, wordS_packR, rd_packR, ra_packR, rb_packR, f_packR,
    extractLsb'_eq_self, Nat.reduceSub, Reg.ofBits_bits, extract_low, extract_high]
  try rfl)
theorem Laws.RoundTrip.spawn (sm : Bool) (rd : Reg) (ra : Reg) (t : BitVec 4) : Laws.RoundTrip.Statement (.spawn sm rd ra t) := Laws.RoundTrip.of_raw (by
  rw [encode, decodeRaw, wordOp_packW]; show decode38 _ = _
  simp (disch := decide) only [decode38, wordFunc, wordSize, wordD, wordA, wordB, wordS_packW, rd_packW, ra_packW, t_packW, x_packW, f_packW,
    extractLsb'_eq_self, Nat.reduceSub, Reg.ofBits_bits, extract_low, extract_high]
  try rfl)
theorem Laws.RoundTrip.quit (sm : Bool) : Laws.RoundTrip.Statement (.quit sm) := Laws.RoundTrip.of_raw (by
  rw [encode, decodeRaw, wordOp_packW]; show decode38 _ = _
  simp (disch := decide) only [decode38, wordFunc, wordSize, wordD, wordA, wordB, wordS_packW, rd_packW, ra_packW, t_packW, x_packW, f_packW,
    extractLsb'_eq_self, Nat.reduceSub, Reg.ofBits_bits, extract_low, extract_high]
  try rfl)
theorem Laws.RoundTrip.exit (sm : Bool) (ra : Reg) : Laws.RoundTrip.Statement (.exit sm ra) := Laws.RoundTrip.of_raw (by
  rw [encode, decodeRaw, wordOp_packW]; show decode38 _ = _
  simp (disch := decide) only [decode38, wordFunc, wordSize, wordD, wordA, wordB, wordS_packW, rd_packW, ra_packW, t_packW, x_packW, f_packW,
    extractLsb'_eq_self, Nat.reduceSub, Reg.ofBits_bits, extract_low, extract_high]
  try rfl)
theorem Laws.RoundTrip.migrate (sm : Bool) (ra : Reg) : Laws.RoundTrip.Statement (.migrate sm ra) := Laws.RoundTrip.of_raw (by
  rw [encode, decodeRaw, wordOp_packW]; show decode38 _ = _
  simp (disch := decide) only [decode38, wordFunc, wordSize, wordD, wordA, wordB, wordS_packW, rd_packW, ra_packW, t_packW, x_packW, f_packW,
    extractLsb'_eq_self, Nat.reduceSub, Reg.ofBits_bits, extract_low, extract_high]
  try rfl)
theorem Laws.RoundTrip.launch (sm : Bool) (rd : Reg) (ra : Reg) : Laws.RoundTrip.Statement (.launch sm rd ra) := Laws.RoundTrip.of_raw (by
  rw [encode, decodeRaw, wordOp_packW]; show decode38 _ = _
  simp (disch := decide) only [decode38, wordFunc, wordSize, wordD, wordA, wordB, wordS_packW, rd_packW, ra_packW, t_packW, x_packW, f_packW,
    extractLsb'_eq_self, Nat.reduceSub, Reg.ofBits_bits, extract_low, extract_high]
  try rfl)
theorem Laws.RoundTrip.garr (sm : Bool) (rd : Reg) (ra : Reg) : Laws.RoundTrip.Statement (.garr sm rd ra) := Laws.RoundTrip.of_raw (by
  rw [encode, decodeRaw, wordOp_packW]; show decode38 _ = _
  simp (disch := decide) only [decode38, wordFunc, wordSize, wordD, wordA, wordB, wordS_packW, rd_packW, ra_packW, t_packW, x_packW, f_packW,
    extractLsb'_eq_self, Nat.reduceSub, Reg.ofBits_bits, extract_low, extract_high]
  try rfl)
theorem Laws.RoundTrip.gwait (sm : Bool) (rd : Reg) (ra : Reg) (t : BitVec 4) : Laws.RoundTrip.Statement (.gwait sm rd ra t) := Laws.RoundTrip.of_raw (by
  rw [encode, decodeRaw, wordOp_packW]; show decode38 _ = _
  simp (disch := decide) only [decode38, wordFunc, wordSize, wordD, wordA, wordB, wordS_packW, rd_packW, ra_packW, t_packW, x_packW, f_packW,
    extractLsb'_eq_self, Nat.reduceSub, Reg.ofBits_bits, extract_low, extract_high]
  try rfl)
theorem Laws.RoundTrip.slots (sm : Bool) (rd : Reg) (x : BitVec 3) : Laws.RoundTrip.Statement (.slots sm rd x) := Laws.RoundTrip.of_raw (by
  rw [encode, decodeRaw, wordOp_packW]; show decode38 _ = _
  simp (disch := decide) only [decode38, wordFunc, wordSize, wordD, wordA, wordB, wordS_packW, rd_packW, ra_packW, t_packW, x_packW, f_packW,
    extractLsb'_eq_self, Nat.reduceSub, Reg.ofBits_bits, extract_low, extract_high]
  try rfl)
theorem Laws.RoundTrip.cpy (sm : Bool) (rd : Reg) (ra : Reg) : Laws.RoundTrip.Statement (.cpy sm rd ra) := Laws.RoundTrip.of_raw (by
  rw [encode, decodeRaw, wordOp_packW]; show decode3A _ = _
  simp (disch := decide) only [decode3A, wordFunc, wordSize, wordD, wordA, wordB, wordS_packW, rd_packW, ra_packW, t_packW, x_packW, f_packW,
    extractLsb'_eq_self, Nat.reduceSub, Reg.ofBits_bits, extract_low, extract_high]
  try rfl)
theorem Laws.RoundTrip.cpys (sm : Bool) (rd : Reg) (ra : Reg) (t : BitVec 4) : Laws.RoundTrip.Statement (.cpys sm rd ra t) := Laws.RoundTrip.of_raw (by
  rw [encode, decodeRaw, wordOp_packW]; show decode3A _ = _
  simp (disch := decide) only [decode3A, wordFunc, wordSize, wordD, wordA, wordB, wordS_packW, rd_packW, ra_packW, t_packW, x_packW, f_packW,
    extractLsb'_eq_self, Nat.reduceSub, Reg.ofBits_bits, extract_low, extract_high]
  try rfl)
theorem Laws.RoundTrip.cpyx (sm : Bool) (rd : Reg) (ra : Reg) (t : BitVec 4) : Laws.RoundTrip.Statement (.cpyx sm rd ra t) := Laws.RoundTrip.of_raw (by
  rw [encode, decodeRaw, wordOp_packW]; show decode3A _ = _
  simp (disch := decide) only [decode3A, wordFunc, wordSize, wordD, wordA, wordB, wordS_packW, rd_packW, ra_packW, t_packW, x_packW, f_packW,
    extractLsb'_eq_self, Nat.reduceSub, Reg.ofBits_bits, extract_low, extract_high]
  try rfl)
theorem Laws.RoundTrip.bmv (sm : Bool) (rd : Reg) (ra : Reg) (t : BitVec 4) : Laws.RoundTrip.Statement (.bmv sm rd ra t) := Laws.RoundTrip.of_raw (by
  rw [encode, decodeRaw, wordOp_packW]; show decode3A _ = _
  simp (disch := decide) only [decode3A, wordFunc, wordSize, wordD, wordA, wordB, wordS_packW, rd_packW, ra_packW, t_packW, x_packW, f_packW,
    extractLsb'_eq_self, Nat.reduceSub, Reg.ofBits_bits, extract_low, extract_high]
  try rfl)
theorem Laws.RoundTrip.bfence (sm : Bool) (t : BitVec 4) : Laws.RoundTrip.Statement (.bfence sm t) := Laws.RoundTrip.of_raw (by
  rw [encode, decodeRaw, wordOp_packW]; show decode3A _ = _
  simp (disch := decide) only [decode3A, wordFunc, wordSize, wordD, wordA, wordB, wordS_packW, rd_packW, ra_packW, t_packW, x_packW, f_packW,
    extractLsb'_eq_self, Nat.reduceSub, Reg.ofBits_bits, extract_low, extract_high]
  try rfl)
theorem Laws.RoundTrip.bstat (sm : Bool) (rd : Reg) (x : BitVec 3) : Laws.RoundTrip.Statement (.bstat sm rd x) := Laws.RoundTrip.of_raw (by
  rw [encode, decodeRaw, wordOp_packW]; show decode3A _ = _
  simp (disch := decide) only [decode3A, wordFunc, wordSize, wordD, wordA, wordB, wordS_packW, rd_packW, ra_packW, t_packW, x_packW, f_packW,
    extractLsb'_eq_self, Nat.reduceSub, Reg.ofBits_bits, extract_low, extract_high]
  try rfl)
theorem Laws.RoundTrip.csrr (sm : Bool) (rd : Reg) (n : BitVec 9) : Laws.RoundTrip.Statement (.csrr sm rd n) := Laws.RoundTrip.of_raw (by
  rw [encode, decodeRaw, wordOp_packC]; show decode3B _ = _
  simp (disch := decide) only [decode3B, wordFunc, wordSize, wordD, wordA, wordB, wordS_packC, rd_packC, ra_packC, c_packC, f_packC,
    extractLsb'_eq_self, Nat.reduceSub, Reg.ofBits_bits, extract_low, extract_high]
  try rfl)
theorem Laws.RoundTrip.csrw (sm : Bool) (rd : Reg) (ra : Reg) (n : BitVec 9) : Laws.RoundTrip.Statement (.csrw sm rd ra n) := Laws.RoundTrip.of_raw (by
  rw [encode, decodeRaw, wordOp_packC]; show decode3B _ = _
  simp (disch := decide) only [decode3B, wordFunc, wordSize, wordD, wordA, wordB, wordS_packC, rd_packC, ra_packC, c_packC, f_packC,
    extractLsb'_eq_self, Nat.reduceSub, Reg.ofBits_bits, extract_low, extract_high]
  try rfl)
theorem Laws.RoundTrip.csrs (sm : Bool) (rd : Reg) (ra : Reg) (n : BitVec 9) : Laws.RoundTrip.Statement (.csrs sm rd ra n) := Laws.RoundTrip.of_raw (by
  rw [encode, decodeRaw, wordOp_packC]; show decode3B _ = _
  simp (disch := decide) only [decode3B, wordFunc, wordSize, wordD, wordA, wordB, wordS_packC, rd_packC, ra_packC, c_packC, f_packC,
    extractLsb'_eq_self, Nat.reduceSub, Reg.ofBits_bits, extract_low, extract_high]
  try rfl)
theorem Laws.RoundTrip.csrc (sm : Bool) (rd : Reg) (ra : Reg) (n : BitVec 9) : Laws.RoundTrip.Statement (.csrc sm rd ra n) := Laws.RoundTrip.of_raw (by
  rw [encode, decodeRaw, wordOp_packC]; show decode3B _ = _
  simp (disch := decide) only [decode3B, wordFunc, wordSize, wordD, wordA, wordB, wordS_packC, rd_packC, ra_packC, c_packC, f_packC,
    extractLsb'_eq_self, Nat.reduceSub, Reg.ofBits_bits, extract_low, extract_high]
  try rfl)
theorem Laws.RoundTrip.trap (sm : Bool) (c : BitVec 7) : Laws.RoundTrip.Statement (.trap sm c) := Laws.RoundTrip.of_raw (by
  rw [encode, decodeRaw, wordOp_packR]; show decode3C _ = _
  simp (disch := decide) only [decode3C, wordFunc, wordSize, wordD, wordA, wordB, wordS_packR, rd_packR, ra_packR, rb_packR, f_packR,
    extractLsb'_eq_self, Nat.reduceSub, Reg.ofBits_bits, extract_low, extract_high]
  try rfl)
theorem Laws.RoundTrip.eret (sm : Bool) (ra : Reg) : Laws.RoundTrip.Statement (.eret sm ra) := Laws.RoundTrip.of_raw (by
  rw [encode, decodeRaw, wordOp_packR]; show decode3C _ = _
  simp (disch := decide) only [decode3C, wordFunc, wordSize, wordD, wordA, wordB, wordS_packR, rd_packR, ra_packR, rb_packR, f_packR,
    extractLsb'_eq_self, Nat.reduceSub, Reg.ofBits_bits, extract_low, extract_high]
  try rfl)
theorem Laws.RoundTrip.brk (sm : Bool) : Laws.RoundTrip.Statement (.brk sm) := Laws.RoundTrip.of_raw (by
  rw [encode, decodeRaw, wordOp_packR]; show decode3C _ = _
  simp (disch := decide) only [decode3C, wordFunc, wordSize, wordD, wordA, wordB, wordS_packR, rd_packR, ra_packR, rb_packR, f_packR,
    extractLsb'_eq_self, Nat.reduceSub, Reg.ofBits_bits, extract_low, extract_high]
  try rfl)
theorem Laws.RoundTrip.wfe (sm : Bool) (rd : Reg) (ra : Reg) (e : BitVec 7) : Laws.RoundTrip.Statement (.wfe sm rd ra e) := Laws.RoundTrip.of_raw (by
  rw [encode, decodeRaw, wordOp_packR]; show decode3C _ = _
  simp (disch := decide) only [decode3C, wordFunc, wordSize, wordD, wordA, wordB, wordS_packR, rd_packR, ra_packR, rb_packR, f_packR,
    extractLsb'_eq_self, Nat.reduceSub, Reg.ofBits_bits, extract_low, extract_high]
  try rfl)
theorem Laws.RoundTrip.tlbi (sm : Bool) (ra : Reg) (e : BitVec 7) : Laws.RoundTrip.Statement (.tlbi sm ra e) := Laws.RoundTrip.of_raw (by
  rw [encode, decodeRaw, wordOp_packR]; show decode3C _ = _
  simp (disch := decide) only [decode3C, wordFunc, wordSize, wordD, wordA, wordB, wordS_packR, rd_packR, ra_packR, rb_packR, f_packR,
    extractLsb'_eq_self, Nat.reduceSub, Reg.ofBits_bits, extract_low, extract_high]
  try rfl)
theorem Laws.RoundTrip.ctxsv (sm : Bool) (rd : Reg) (ra : Reg) (rb : Reg) : Laws.RoundTrip.Statement (.ctxsv sm rd ra rb) := Laws.RoundTrip.of_raw (by
  rw [encode, decodeRaw, wordOp_packR]; show decode3C _ = _
  simp (disch := decide) only [decode3C, wordFunc, wordSize, wordD, wordA, wordB, wordS_packR, rd_packR, ra_packR, rb_packR, f_packR,
    extractLsb'_eq_self, Nat.reduceSub, Reg.ofBits_bits, extract_low, extract_high]
  try rfl)
theorem Laws.RoundTrip.ctxld (sm : Bool) (rd : Reg) (ra : Reg) (rb : Reg) : Laws.RoundTrip.Statement (.ctxld sm rd ra rb) := Laws.RoundTrip.of_raw (by
  rw [encode, decodeRaw, wordOp_packR]; show decode3C _ = _
  simp (disch := decide) only [decode3C, wordFunc, wordSize, wordD, wordA, wordB, wordS_packR, rd_packR, ra_packR, rb_packR, f_packR,
    extractLsb'_eq_self, Nat.reduceSub, Reg.ofBits_bits, extract_low, extract_high]
  try rfl)
theorem Laws.RoundTrip.sliceRetire (slice : Nat) : Laws.RoundTrip.Statement (.sliceRetire slice) :=
  Laws.RoundTrip.of_event rfl
theorem Laws.RoundTrip.powerGate (core : Nat) : Laws.RoundTrip.Statement (.powerGate core) :=
  Laws.RoundTrip.of_event rfl
theorem Laws.RoundTrip.evtdoor (v : Word) : Laws.RoundTrip.Statement (.evtdoor v) :=
  Laws.RoundTrip.of_event rfl
theorem Laws.RoundTrip.rcfgEnable (ring : Nat) (v : Word) : Laws.RoundTrip.Statement (.rcfgEnable ring v) :=
  Laws.RoundTrip.of_event rfl
theorem Laws.RoundTrip.tail (ring : Nat) (v : Word) : Laws.RoundTrip.Statement (.tail ring v) :=
  Laws.RoundTrip.of_event rfl
theorem Laws.RoundTrip.bar0RegisterWrite (off : Nat) (v : Word) : Laws.RoundTrip.Statement (.bar0RegisterWrite off v) :=
  Laws.RoundTrip.of_event rfl
theorem Laws.RoundTrip.identify (ring : Nat) : Laws.RoundTrip.Statement (.identify ring) :=
  Laws.RoundTrip.of_event rfl
theorem Laws.RoundTrip.load (ring : Nat) : Laws.RoundTrip.Statement (.load ring) :=
  Laws.RoundTrip.of_event rfl
theorem Laws.RoundTrip.patch (ring : Nat) : Laws.RoundTrip.Statement (.patch ring) :=
  Laws.RoundTrip.of_event rfl
theorem Laws.RoundTrip.hostLaunch (ring : Nat) : Laws.RoundTrip.Statement (.hostLaunch ring) :=
  Laws.RoundTrip.of_event rfl
theorem Laws.RoundTrip.preemptPipeline (ring : Nat) : Laws.RoundTrip.Statement (.preemptPipeline ring) :=
  Laws.RoundTrip.of_event rfl
theorem Laws.RoundTrip.preemptGeneral (ring : Nat) : Laws.RoundTrip.Statement (.preemptGeneral ring) :=
  Laws.RoundTrip.of_event rfl
theorem Laws.RoundTrip.resumePipeline (ring : Nat) : Laws.RoundTrip.Statement (.resumePipeline ring) :=
  Laws.RoundTrip.of_event rfl
theorem Laws.RoundTrip.resumeGeneral (ring : Nat) : Laws.RoundTrip.Statement (.resumeGeneral ring) :=
  Laws.RoundTrip.of_event rfl
theorem Laws.RoundTrip.abort (ring : Nat) : Laws.RoundTrip.Statement (.abort ring) :=
  Laws.RoundTrip.of_event rfl
theorem Laws.RoundTrip.map (ring : Nat) : Laws.RoundTrip.Statement (.map ring) :=
  Laws.RoundTrip.of_event rfl
theorem Laws.RoundTrip.lifecycle (ring : Nat) : Laws.RoundTrip.Statement (.lifecycle ring) :=
  Laws.RoundTrip.of_event rfl
theorem Laws.RoundTrip.fwstage (ring : Nat) : Laws.RoundTrip.Statement (.fwstage ring) :=
  Laws.RoundTrip.of_event rfl
theorem Laws.RoundTrip.logread (ring : Nat) : Laws.RoundTrip.Statement (.logread ring) :=
  Laws.RoundTrip.of_event rfl
theorem Laws.RoundTrip.unknownHostCommand (ring : Nat) : Laws.RoundTrip.Statement (.unknownHostCommand ring) :=
  Laws.RoundTrip.of_event rfl
theorem Laws.RoundTrip.linkDown (link : Nat) : Laws.RoundTrip.Statement (.linkDown link) :=
  Laws.RoundTrip.of_event rfl
theorem Laws.RoundTrip.wordNotAnInstruction (reason : Nat) (word : BitVec 32) : Laws.RoundTrip.Statement (.wordNotAnInstruction reason word) :=
  Laws.RoundTrip.of_event rfl
theorem Laws.RoundTrip.stewardAccess (op : StewardOp) : Laws.RoundTrip.Statement (.stewardAccess op) :=
  Laws.RoundTrip.of_event rfl
theorem Laws.RoundTrip.correctedError (slice : Nat) : Laws.RoundTrip.Statement (.correctedError slice) :=
  Laws.RoundTrip.of_event rfl
theorem Laws.RoundTrip.dividerWrite : Laws.RoundTrip.Statement (.dividerWrite) :=
  Laws.RoundTrip.of_event rfl
theorem Laws.RoundTrip.bindingRequestIssue : Laws.RoundTrip.Statement (.bindingRequestIssue) :=
  Laws.RoundTrip.of_event rfl
theorem Laws.RoundTrip.streamElementLand : Laws.RoundTrip.Statement (.streamElementLand) :=
  Laws.RoundTrip.of_event rfl
theorem Laws.RoundTrip.storeBufferLeave : Laws.RoundTrip.Statement (.storeBufferLeave) :=
  Laws.RoundTrip.of_event rfl
theorem Laws.RoundTrip.ownerStore : Laws.RoundTrip.Statement (.ownerStore) :=
  Laws.RoundTrip.of_event rfl
theorem Laws.RoundTrip.storeAcknowledge : Laws.RoundTrip.Statement (.storeAcknowledge) :=
  Laws.RoundTrip.of_event rfl
theorem Laws.RoundTrip.sliceAccept : Laws.RoundTrip.Statement (.sliceAccept) :=
  Laws.RoundTrip.of_event rfl
theorem Laws.RoundTrip.sliceLookup : Laws.RoundTrip.Statement (.sliceLookup) :=
  Laws.RoundTrip.of_event rfl
theorem Laws.RoundTrip.dramFill : Laws.RoundTrip.Statement (.dramFill) :=
  Laws.RoundTrip.of_event rfl
theorem Laws.RoundTrip.mapInstall : Laws.RoundTrip.Statement (.mapInstall) :=
  Laws.RoundTrip.of_event rfl
theorem Laws.RoundTrip.pageWalkDone : Laws.RoundTrip.Statement (.pageWalkDone) :=
  Laws.RoundTrip.of_event rfl
theorem Laws.RoundTrip.iCacheFill : Laws.RoundTrip.Statement (.iCacheFill) :=
  Laws.RoundTrip.of_event rfl
theorem Laws.RoundTrip.slotZeroingDone : Laws.RoundTrip.Statement (.slotZeroingDone) :=
  Laws.RoundTrip.of_event rfl
theorem Laws.RoundTrip.atomicAtOwner : Laws.RoundTrip.Statement (.atomicAtOwner) :=
  Laws.RoundTrip.of_event rfl
theorem Laws.RoundTrip.amoReply : Laws.RoundTrip.Statement (.amoReply) :=
  Laws.RoundTrip.of_event rfl
theorem Laws.RoundTrip.feRequestAtOwner : Laws.RoundTrip.Statement (.feRequestAtOwner) :=
  Laws.RoundTrip.of_event rfl
theorem Laws.RoundTrip.feResend : Laws.RoundTrip.Statement (.feResend) :=
  Laws.RoundTrip.of_event rfl
theorem Laws.RoundTrip.feAnswer : Laws.RoundTrip.Statement (.feAnswer) :=
  Laws.RoundTrip.of_event rfl
theorem Laws.RoundTrip.barrierArrival : Laws.RoundTrip.Statement (.barrierArrival) :=
  Laws.RoundTrip.of_event rfl
theorem Laws.RoundTrip.ownerWaitTimeout : Laws.RoundTrip.Statement (.ownerWaitTimeout) :=
  Laws.RoundTrip.of_event rfl
theorem Laws.RoundTrip.withdrawalSettle : Laws.RoundTrip.Statement (.withdrawalSettle) :=
  Laws.RoundTrip.of_event rfl
theorem Laws.RoundTrip.fenceComplete : Laws.RoundTrip.Statement (.fenceComplete) :=
  Laws.RoundTrip.of_event rfl
theorem Laws.RoundTrip.fenceTimeout : Laws.RoundTrip.Statement (.fenceTimeout) :=
  Laws.RoundTrip.of_event rfl
theorem Laws.RoundTrip.fenceHostReadDone : Laws.RoundTrip.Statement (.fenceHostReadDone) :=
  Laws.RoundTrip.of_event rfl
theorem Laws.RoundTrip.normaliserWrite : Laws.RoundTrip.Statement (.normaliserWrite) :=
  Laws.RoundTrip.of_event rfl
theorem Laws.RoundTrip.vectorGrant : Laws.RoundTrip.Statement (.vectorGrant) :=
  Laws.RoundTrip.of_event rfl
theorem Laws.RoundTrip.vectorReturn : Laws.RoundTrip.Statement (.vectorReturn) :=
  Laws.RoundTrip.of_event rfl
theorem Laws.RoundTrip.matrixGrant : Laws.RoundTrip.Statement (.matrixGrant) :=
  Laws.RoundTrip.of_event rfl
theorem Laws.RoundTrip.matrixOpStart : Laws.RoundTrip.Statement (.matrixOpStart) :=
  Laws.RoundTrip.of_event rfl
theorem Laws.RoundTrip.matrixOpComplete : Laws.RoundTrip.Statement (.matrixOpComplete) :=
  Laws.RoundTrip.of_event rfl
theorem Laws.RoundTrip.mpopRecordLand : Laws.RoundTrip.Statement (.mpopRecordLand) :=
  Laws.RoundTrip.of_event rfl
theorem Laws.RoundTrip.matrixQueueTimeout : Laws.RoundTrip.Statement (.matrixQueueTimeout) :=
  Laws.RoundTrip.of_event rfl
theorem Laws.RoundTrip.mpopTimeout : Laws.RoundTrip.Statement (.mpopTimeout) :=
  Laws.RoundTrip.of_event rfl
theorem Laws.RoundTrip.offerSend : Laws.RoundTrip.Statement (.offerSend) :=
  Laws.RoundTrip.of_event rfl
theorem Laws.RoundTrip.hitchFlitArrival : Laws.RoundTrip.Statement (.hitchFlitArrival) :=
  Laws.RoundTrip.of_event rfl
theorem Laws.RoundTrip.connectorDecision : Laws.RoundTrip.Statement (.connectorDecision) :=
  Laws.RoundTrip.of_event rfl
theorem Laws.RoundTrip.portCompletion : Laws.RoundTrip.Statement (.portCompletion) :=
  Laws.RoundTrip.of_event rfl
theorem Laws.RoundTrip.portOpTimeout : Laws.RoundTrip.Statement (.portOpTimeout) :=
  Laws.RoundTrip.of_event rfl
theorem Laws.RoundTrip.withdrawn : Laws.RoundTrip.Statement (.withdrawn) :=
  Laws.RoundTrip.of_event rfl
theorem Laws.RoundTrip.bindingAnswer : Laws.RoundTrip.Statement (.bindingAnswer) :=
  Laws.RoundTrip.of_event rfl
theorem Laws.RoundTrip.stop : Laws.RoundTrip.Statement (.stop) :=
  Laws.RoundTrip.of_event rfl
theorem Laws.RoundTrip.neighbourValueArrival : Laws.RoundTrip.Statement (.neighbourValueArrival) :=
  Laws.RoundTrip.of_event rfl
theorem Laws.RoundTrip.neighbourReturn : Laws.RoundTrip.Statement (.neighbourReturn) :=
  Laws.RoundTrip.of_event rfl
theorem Laws.RoundTrip.auditSend : Laws.RoundTrip.Statement (.auditSend) :=
  Laws.RoundTrip.of_event rfl
theorem Laws.RoundTrip.auditReceipt : Laws.RoundTrip.Statement (.auditReceipt) :=
  Laws.RoundTrip.of_event rfl
theorem Laws.RoundTrip.counterResync : Laws.RoundTrip.Statement (.counterResync) :=
  Laws.RoundTrip.of_event rfl
theorem Laws.RoundTrip.resyncAnswer : Laws.RoundTrip.Statement (.resyncAnswer) :=
  Laws.RoundTrip.of_event rfl
theorem Laws.RoundTrip.messageDepart : Laws.RoundTrip.Statement (.messageDepart) :=
  Laws.RoundTrip.of_event rfl
theorem Laws.RoundTrip.messageArrival : Laws.RoundTrip.Statement (.messageArrival) :=
  Laws.RoundTrip.of_event rfl
theorem Laws.RoundTrip.spillRefill : Laws.RoundTrip.Statement (.spillRefill) :=
  Laws.RoundTrip.of_event rfl
theorem Laws.RoundTrip.queueWaitTimeout : Laws.RoundTrip.Statement (.queueWaitTimeout) :=
  Laws.RoundTrip.of_event rfl
theorem Laws.RoundTrip.joinDecision : Laws.RoundTrip.Statement (.joinDecision) :=
  Laws.RoundTrip.of_event rfl
theorem Laws.RoundTrip.ungate : Laws.RoundTrip.Statement (.ungate) :=
  Laws.RoundTrip.of_event rfl
theorem Laws.RoundTrip.threadEnd : Laws.RoundTrip.Statement (.threadEnd) :=
  Laws.RoundTrip.of_event rfl
theorem Laws.RoundTrip.spawnPlacement : Laws.RoundTrip.Statement (.spawnPlacement) :=
  Laws.RoundTrip.of_event rfl
theorem Laws.RoundTrip.spawnTimeout : Laws.RoundTrip.Statement (.spawnTimeout) :=
  Laws.RoundTrip.of_event rfl
theorem Laws.RoundTrip.departure : Laws.RoundTrip.Statement (.departure) :=
  Laws.RoundTrip.of_event rfl
theorem Laws.RoundTrip.migrationArrival : Laws.RoundTrip.Statement (.migrationArrival) :=
  Laws.RoundTrip.of_event rfl
theorem Laws.RoundTrip.migrationAck : Laws.RoundTrip.Statement (.migrationAck) :=
  Laws.RoundTrip.of_event rfl
theorem Laws.RoundTrip.migrationRelease : Laws.RoundTrip.Statement (.migrationRelease) :=
  Laws.RoundTrip.of_event rfl
theorem Laws.RoundTrip.lost : Laws.RoundTrip.Statement (.lost) :=
  Laws.RoundTrip.of_event rfl
theorem Laws.RoundTrip.paddockMove : Laws.RoundTrip.Statement (.paddockMove) :=
  Laws.RoundTrip.of_event rfl
theorem Laws.RoundTrip.admission : Laws.RoundTrip.Statement (.admission) :=
  Laws.RoundTrip.of_event rfl
theorem Laws.RoundTrip.launchTake : Laws.RoundTrip.Statement (.launchTake) :=
  Laws.RoundTrip.of_event rfl
theorem Laws.RoundTrip.taskPlacement : Laws.RoundTrip.Statement (.taskPlacement) :=
  Laws.RoundTrip.of_event rfl
theorem Laws.RoundTrip.successor : Laws.RoundTrip.Statement (.successor) :=
  Laws.RoundTrip.of_event rfl
theorem Laws.RoundTrip.launchEnd : Laws.RoundTrip.Statement (.launchEnd) :=
  Laws.RoundTrip.of_event rfl
theorem Laws.RoundTrip.copyGrant : Laws.RoundTrip.Statement (.copyGrant) :=
  Laws.RoundTrip.of_event rfl
theorem Laws.RoundTrip.domainAnswer : Laws.RoundTrip.Statement (.domainAnswer) :=
  Laws.RoundTrip.of_event rfl
theorem Laws.RoundTrip.reduceUpdate : Laws.RoundTrip.Statement (.reduceUpdate) :=
  Laws.RoundTrip.of_event rfl
theorem Laws.RoundTrip.copyComplete : Laws.RoundTrip.Statement (.copyComplete) :=
  Laws.RoundTrip.of_event rfl
theorem Laws.RoundTrip.enginePushTimeout : Laws.RoundTrip.Statement (.enginePushTimeout) :=
  Laws.RoundTrip.of_event rfl
theorem Laws.RoundTrip.bankCommandStart : Laws.RoundTrip.Statement (.bankCommandStart) :=
  Laws.RoundTrip.of_event rfl
theorem Laws.RoundTrip.bankComplete : Laws.RoundTrip.Statement (.bankComplete) :=
  Laws.RoundTrip.of_event rfl
theorem Laws.RoundTrip.bfenceTimeout : Laws.RoundTrip.Statement (.bfenceTimeout) :=
  Laws.RoundTrip.of_event rfl
theorem Laws.RoundTrip.wfeWake : Laws.RoundTrip.Statement (.wfeWake) :=
  Laws.RoundTrip.of_event rfl
theorem Laws.RoundTrip.wfeTimeout : Laws.RoundTrip.Statement (.wfeTimeout) :=
  Laws.RoundTrip.of_event rfl
theorem Laws.RoundTrip.reset : Laws.RoundTrip.Statement (.reset) :=
  Laws.RoundTrip.of_event rfl
theorem Laws.RoundTrip.barrierWordRequest : Laws.RoundTrip.Statement (.barrierWordRequest) :=
  Laws.RoundTrip.of_event rfl
theorem Laws.RoundTrip.barrierAnswer : Laws.RoundTrip.Statement (.barrierAnswer) :=
  Laws.RoundTrip.of_event rfl
theorem Laws.RoundTrip.hitchAnswer : Laws.RoundTrip.Statement (.hitchAnswer) :=
  Laws.RoundTrip.of_event rfl
theorem Laws.RoundTrip.connectorUnbinding : Laws.RoundTrip.Statement (.connectorUnbinding) :=
  Laws.RoundTrip.of_event rfl
theorem Laws.RoundTrip.migrationDiscard : Laws.RoundTrip.Statement (.migrationDiscard) :=
  Laws.RoundTrip.of_event rfl
theorem Laws.RoundTrip.preemptTimeout : Laws.RoundTrip.Statement (.preemptTimeout) :=
  Laws.RoundTrip.of_event rfl

end Sys2Proof
end

