-- ==== Sys2Proof/Laws/State.lean ====
section
/-! SUPPORT. What each update of the machine's state leaves in each field, one lemma per field and update. -/

set_option Elab.async false

namespace Sys2Proof.Machine

/-! ### modCore -/

@[simp] theorem State.modCore_cycle (s : State) (k : Nat) (f : Core → Core) : (s.modCore k f).cycle = s.cycle := rfl
@[simp] theorem State.modCore_cur (s : State) (k : Nat) (f : Core → Core) : (s.modCore k f).cur = s.cur := rfl
@[simp] theorem State.modCore_subj (s : State) (k : Nat) (f : Core → Core) : (s.modCore k f).subj = s.subj := rfl
@[simp] theorem State.modCore_phase (s : State) (k : Nat) (f : Core → Core) : (s.modCore k f).phase = s.phase := rfl
@[simp] theorem State.modCore_issueQ (s : State) (k : Nat) (f : Core → Core) : (s.modCore k f).issueQ = s.issueQ := rfl
@[simp] theorem State.modCore_tried (s : State) (k : Nat) (f : Core → Core) : (s.modCore k f).tried = s.tried := rfl
@[simp] theorem State.modCore_todo (s : State) (k : Nat) (f : Core → Core) : (s.modCore k f).todo = s.todo := rfl
@[simp] theorem State.modCore_timers (s : State) (k : Nat) (f : Core → Core) : (s.modCore k f).timers = s.timers := rfl
@[simp] theorem State.modCore_inputs (s : State) (k : Nat) (f : Core → Core) : (s.modCore k f).inputs = s.inputs := rfl
@[simp] theorem State.modCore_nextId (s : State) (k : Nat) (f : Core → Core) : (s.modCore k f).nextId = s.nextId := rfl
@[simp] theorem State.modCore_draws (s : State) (k : Nat) (f : Core → Core) : (s.modCore k f).draws = s.draws := rfl
@[simp] theorem State.modCore_mem (s : State) (k : Nat) (f : Core → Core) : (s.modCore k f).mem = s.mem := rfl
@[simp] theorem State.modCore_fe (s : State) (k : Nat) (f : Core → Core) : (s.modCore k f).fe = s.fe := rfl
@[simp] theorem State.modCore_oldBytes (s : State) (k : Nat) (f : Core → Core) : (s.modCore k f).oldBytes = s.oldBytes := rfl
@[simp] theorem State.modCore_rf (s : State) (k : Nat) (f : Core → Core) : (s.modCore k f).rf = s.rf := rfl
@[simp] theorem State.modCore_sregs (s : State) (k : Nat) (f : Core → Core) : (s.modCore k f).sregs = s.sregs := rfl
@[simp] theorem State.modCore_spend (s : State) (k : Nat) (f : Core → Core) : (s.modCore k f).spend = s.spend := rfl
@[simp] theorem State.modCore_threads (s : State) (k : Nat) (f : Core → Core) : (s.modCore k f).threads = s.threads := rfl
@[simp] theorem State.modCore_streams (s : State) (k : Nat) (f : Core → Core) : (s.modCore k f).streams = s.streams := rfl
@[simp] theorem State.modCore_nbr (s : State) (k : Nat) (f : Core → Core) : (s.modCore k f).nbr = s.nbr := rfl
@[simp] theorem State.modCore_nbrPops (s : State) (k : Nat) (f : Core → Core) : (s.modCore k f).nbrPops = s.nbrPops := rfl
@[simp] theorem State.modCore_nbrFree (s : State) (k : Nat) (f : Core → Core) : (s.modCore k f).nbrFree = s.nbrFree := rfl
@[simp] theorem State.modCore_nbrSent (s : State) (k : Nat) (f : Core → Core) : (s.modCore k f).nbrSent = s.nbrSent := rfl
@[simp] theorem State.modCore_nbrSync (s : State) (k : Nat) (f : Core → Core) : (s.modCore k f).nbrSync = s.nbrSync := rfl
@[simp] theorem State.modCore_cores (s : State) (k : Nat) (f : Core → Core) : (s.modCore k f).cores = SMap.put s.cores k (f (s.core k)) := rfl
@[simp] theorem State.modCore_teams (s : State) (k : Nat) (f : Core → Core) : (s.modCore k f).teams = s.teams := rfl
@[simp] theorem State.modCore_engines (s : State) (k : Nat) (f : Core → Core) : (s.modCore k f).engines = s.engines := rfl
@[simp] theorem State.modCore_slices (s : State) (k : Nat) (f : Core → Core) : (s.modCore k f).slices = s.slices := rfl
@[simp] theorem State.modCore_reqs (s : State) (k : Nat) (f : Core → Core) : (s.modCore k f).reqs = s.reqs := rfl
@[simp] theorem State.modCore_waiters (s : State) (k : Nat) (f : Core → Core) : (s.modCore k f).waiters = s.waiters := rfl
@[simp] theorem State.modCore_packets (s : State) (k : Nat) (f : Core → Core) : (s.modCore k f).packets = s.packets := rfl
@[simp] theorem State.modCore_pathDue (s : State) (k : Nat) (f : Core → Core) : (s.modCore k f).pathDue = s.pathDue := rfl
@[simp] theorem State.modCore_disp (s : State) (k : Nat) (f : Core → Core) : (s.modCore k f).disp = s.disp := rfl
@[simp] theorem State.modCore_ahead (s : State) (k : Nat) (f : Core → Core) : (s.modCore k f).ahead = s.ahead := rfl
@[simp] theorem State.modCore_portsUsed (s : State) (k : Nat) (f : Core → Core) : (s.modCore k f).portsUsed = s.portsUsed := rfl
@[simp] theorem State.modCore_banksUsed (s : State) (k : Nat) (f : Core → Core) : (s.modCore k f).banksUsed = s.banksUsed := rfl
@[simp] theorem State.modCore_portLast (s : State) (k : Nat) (f : Core → Core) : (s.modCore k f).portLast = s.portLast := rfl
@[simp] theorem State.modCore_portAsks (s : State) (k : Nat) (f : Core → Core) : (s.modCore k f).portAsks = s.portAsks := rfl
@[simp] theorem State.modCore_pkg (s : State) (k : Nat) (f : Core → Core) : (s.modCore k f).pkg = s.pkg := rfl

/-! ### modTeam -/

@[simp] theorem State.modTeam_cycle (s : State) (n : Nat) (f : Team → Team) : (s.modTeam n f).cycle = s.cycle := rfl
@[simp] theorem State.modTeam_cur (s : State) (n : Nat) (f : Team → Team) : (s.modTeam n f).cur = s.cur := rfl
@[simp] theorem State.modTeam_subj (s : State) (n : Nat) (f : Team → Team) : (s.modTeam n f).subj = s.subj := rfl
@[simp] theorem State.modTeam_phase (s : State) (n : Nat) (f : Team → Team) : (s.modTeam n f).phase = s.phase := rfl
@[simp] theorem State.modTeam_issueQ (s : State) (n : Nat) (f : Team → Team) : (s.modTeam n f).issueQ = s.issueQ := rfl
@[simp] theorem State.modTeam_tried (s : State) (n : Nat) (f : Team → Team) : (s.modTeam n f).tried = s.tried := rfl
@[simp] theorem State.modTeam_todo (s : State) (n : Nat) (f : Team → Team) : (s.modTeam n f).todo = s.todo := rfl
@[simp] theorem State.modTeam_timers (s : State) (n : Nat) (f : Team → Team) : (s.modTeam n f).timers = s.timers := rfl
@[simp] theorem State.modTeam_inputs (s : State) (n : Nat) (f : Team → Team) : (s.modTeam n f).inputs = s.inputs := rfl
@[simp] theorem State.modTeam_nextId (s : State) (n : Nat) (f : Team → Team) : (s.modTeam n f).nextId = s.nextId := rfl
@[simp] theorem State.modTeam_draws (s : State) (n : Nat) (f : Team → Team) : (s.modTeam n f).draws = s.draws := rfl
@[simp] theorem State.modTeam_mem (s : State) (n : Nat) (f : Team → Team) : (s.modTeam n f).mem = s.mem := rfl
@[simp] theorem State.modTeam_fe (s : State) (n : Nat) (f : Team → Team) : (s.modTeam n f).fe = s.fe := rfl
@[simp] theorem State.modTeam_oldBytes (s : State) (n : Nat) (f : Team → Team) : (s.modTeam n f).oldBytes = s.oldBytes := rfl
@[simp] theorem State.modTeam_rf (s : State) (n : Nat) (f : Team → Team) : (s.modTeam n f).rf = s.rf := rfl
@[simp] theorem State.modTeam_sregs (s : State) (n : Nat) (f : Team → Team) : (s.modTeam n f).sregs = s.sregs := rfl
@[simp] theorem State.modTeam_spend (s : State) (n : Nat) (f : Team → Team) : (s.modTeam n f).spend = s.spend := rfl
@[simp] theorem State.modTeam_threads (s : State) (n : Nat) (f : Team → Team) : (s.modTeam n f).threads = s.threads := rfl
@[simp] theorem State.modTeam_streams (s : State) (n : Nat) (f : Team → Team) : (s.modTeam n f).streams = s.streams := rfl
@[simp] theorem State.modTeam_nbr (s : State) (n : Nat) (f : Team → Team) : (s.modTeam n f).nbr = s.nbr := rfl
@[simp] theorem State.modTeam_nbrPops (s : State) (n : Nat) (f : Team → Team) : (s.modTeam n f).nbrPops = s.nbrPops := rfl
@[simp] theorem State.modTeam_nbrFree (s : State) (n : Nat) (f : Team → Team) : (s.modTeam n f).nbrFree = s.nbrFree := rfl
@[simp] theorem State.modTeam_nbrSent (s : State) (n : Nat) (f : Team → Team) : (s.modTeam n f).nbrSent = s.nbrSent := rfl
@[simp] theorem State.modTeam_nbrSync (s : State) (n : Nat) (f : Team → Team) : (s.modTeam n f).nbrSync = s.nbrSync := rfl
@[simp] theorem State.modTeam_cores (s : State) (n : Nat) (f : Team → Team) : (s.modTeam n f).cores = s.cores := rfl
@[simp] theorem State.modTeam_teams (s : State) (n : Nat) (f : Team → Team) : (s.modTeam n f).teams = SMap.put s.teams n (f (s.team n)) := rfl
@[simp] theorem State.modTeam_engines (s : State) (n : Nat) (f : Team → Team) : (s.modTeam n f).engines = s.engines := rfl
@[simp] theorem State.modTeam_slices (s : State) (n : Nat) (f : Team → Team) : (s.modTeam n f).slices = s.slices := rfl
@[simp] theorem State.modTeam_reqs (s : State) (n : Nat) (f : Team → Team) : (s.modTeam n f).reqs = s.reqs := rfl
@[simp] theorem State.modTeam_waiters (s : State) (n : Nat) (f : Team → Team) : (s.modTeam n f).waiters = s.waiters := rfl
@[simp] theorem State.modTeam_packets (s : State) (n : Nat) (f : Team → Team) : (s.modTeam n f).packets = s.packets := rfl
@[simp] theorem State.modTeam_pathDue (s : State) (n : Nat) (f : Team → Team) : (s.modTeam n f).pathDue = s.pathDue := rfl
@[simp] theorem State.modTeam_disp (s : State) (n : Nat) (f : Team → Team) : (s.modTeam n f).disp = s.disp := rfl
@[simp] theorem State.modTeam_ahead (s : State) (n : Nat) (f : Team → Team) : (s.modTeam n f).ahead = s.ahead := rfl
@[simp] theorem State.modTeam_portsUsed (s : State) (n : Nat) (f : Team → Team) : (s.modTeam n f).portsUsed = s.portsUsed := rfl
@[simp] theorem State.modTeam_banksUsed (s : State) (n : Nat) (f : Team → Team) : (s.modTeam n f).banksUsed = s.banksUsed := rfl
@[simp] theorem State.modTeam_portLast (s : State) (n : Nat) (f : Team → Team) : (s.modTeam n f).portLast = s.portLast := rfl
@[simp] theorem State.modTeam_portAsks (s : State) (n : Nat) (f : Team → Team) : (s.modTeam n f).portAsks = s.portAsks := rfl
@[simp] theorem State.modTeam_pkg (s : State) (n : Nat) (f : Team → Team) : (s.modTeam n f).pkg = s.pkg := rfl

/-! ### modMx -/

@[simp] theorem State.modMx_cycle (s : State) (n : Nat) (f : Matrix → Matrix) : (s.modMx n f).cycle = s.cycle := rfl
@[simp] theorem State.modMx_cur (s : State) (n : Nat) (f : Matrix → Matrix) : (s.modMx n f).cur = s.cur := rfl
@[simp] theorem State.modMx_subj (s : State) (n : Nat) (f : Matrix → Matrix) : (s.modMx n f).subj = s.subj := rfl
@[simp] theorem State.modMx_phase (s : State) (n : Nat) (f : Matrix → Matrix) : (s.modMx n f).phase = s.phase := rfl
@[simp] theorem State.modMx_issueQ (s : State) (n : Nat) (f : Matrix → Matrix) : (s.modMx n f).issueQ = s.issueQ := rfl
@[simp] theorem State.modMx_tried (s : State) (n : Nat) (f : Matrix → Matrix) : (s.modMx n f).tried = s.tried := rfl
@[simp] theorem State.modMx_todo (s : State) (n : Nat) (f : Matrix → Matrix) : (s.modMx n f).todo = s.todo := rfl
@[simp] theorem State.modMx_timers (s : State) (n : Nat) (f : Matrix → Matrix) : (s.modMx n f).timers = s.timers := rfl
@[simp] theorem State.modMx_inputs (s : State) (n : Nat) (f : Matrix → Matrix) : (s.modMx n f).inputs = s.inputs := rfl
@[simp] theorem State.modMx_nextId (s : State) (n : Nat) (f : Matrix → Matrix) : (s.modMx n f).nextId = s.nextId := rfl
@[simp] theorem State.modMx_draws (s : State) (n : Nat) (f : Matrix → Matrix) : (s.modMx n f).draws = s.draws := rfl
@[simp] theorem State.modMx_mem (s : State) (n : Nat) (f : Matrix → Matrix) : (s.modMx n f).mem = s.mem := rfl
@[simp] theorem State.modMx_fe (s : State) (n : Nat) (f : Matrix → Matrix) : (s.modMx n f).fe = s.fe := rfl
@[simp] theorem State.modMx_oldBytes (s : State) (n : Nat) (f : Matrix → Matrix) : (s.modMx n f).oldBytes = s.oldBytes := rfl
@[simp] theorem State.modMx_rf (s : State) (n : Nat) (f : Matrix → Matrix) : (s.modMx n f).rf = s.rf := rfl
@[simp] theorem State.modMx_sregs (s : State) (n : Nat) (f : Matrix → Matrix) : (s.modMx n f).sregs = s.sregs := rfl
@[simp] theorem State.modMx_spend (s : State) (n : Nat) (f : Matrix → Matrix) : (s.modMx n f).spend = s.spend := rfl
@[simp] theorem State.modMx_threads (s : State) (n : Nat) (f : Matrix → Matrix) : (s.modMx n f).threads = s.threads := rfl
@[simp] theorem State.modMx_streams (s : State) (n : Nat) (f : Matrix → Matrix) : (s.modMx n f).streams = s.streams := rfl
@[simp] theorem State.modMx_nbr (s : State) (n : Nat) (f : Matrix → Matrix) : (s.modMx n f).nbr = s.nbr := rfl
@[simp] theorem State.modMx_nbrPops (s : State) (n : Nat) (f : Matrix → Matrix) : (s.modMx n f).nbrPops = s.nbrPops := rfl
@[simp] theorem State.modMx_nbrFree (s : State) (n : Nat) (f : Matrix → Matrix) : (s.modMx n f).nbrFree = s.nbrFree := rfl
@[simp] theorem State.modMx_nbrSent (s : State) (n : Nat) (f : Matrix → Matrix) : (s.modMx n f).nbrSent = s.nbrSent := rfl
@[simp] theorem State.modMx_nbrSync (s : State) (n : Nat) (f : Matrix → Matrix) : (s.modMx n f).nbrSync = s.nbrSync := rfl
@[simp] theorem State.modMx_cores (s : State) (n : Nat) (f : Matrix → Matrix) : (s.modMx n f).cores = s.cores := rfl
@[simp] theorem State.modMx_teams (s : State) (n : Nat) (f : Matrix → Matrix) : (s.modMx n f).teams = SMap.put s.teams n (let t := s.team n; { t with mx := f t.mx }) := rfl
@[simp] theorem State.modMx_engines (s : State) (n : Nat) (f : Matrix → Matrix) : (s.modMx n f).engines = s.engines := rfl
@[simp] theorem State.modMx_slices (s : State) (n : Nat) (f : Matrix → Matrix) : (s.modMx n f).slices = s.slices := rfl
@[simp] theorem State.modMx_reqs (s : State) (n : Nat) (f : Matrix → Matrix) : (s.modMx n f).reqs = s.reqs := rfl
@[simp] theorem State.modMx_waiters (s : State) (n : Nat) (f : Matrix → Matrix) : (s.modMx n f).waiters = s.waiters := rfl
@[simp] theorem State.modMx_packets (s : State) (n : Nat) (f : Matrix → Matrix) : (s.modMx n f).packets = s.packets := rfl
@[simp] theorem State.modMx_pathDue (s : State) (n : Nat) (f : Matrix → Matrix) : (s.modMx n f).pathDue = s.pathDue := rfl
@[simp] theorem State.modMx_disp (s : State) (n : Nat) (f : Matrix → Matrix) : (s.modMx n f).disp = s.disp := rfl
@[simp] theorem State.modMx_ahead (s : State) (n : Nat) (f : Matrix → Matrix) : (s.modMx n f).ahead = s.ahead := rfl
@[simp] theorem State.modMx_portsUsed (s : State) (n : Nat) (f : Matrix → Matrix) : (s.modMx n f).portsUsed = s.portsUsed := rfl
@[simp] theorem State.modMx_banksUsed (s : State) (n : Nat) (f : Matrix → Matrix) : (s.modMx n f).banksUsed = s.banksUsed := rfl
@[simp] theorem State.modMx_portLast (s : State) (n : Nat) (f : Matrix → Matrix) : (s.modMx n f).portLast = s.portLast := rfl
@[simp] theorem State.modMx_portAsks (s : State) (n : Nat) (f : Matrix → Matrix) : (s.modMx n f).portAsks = s.portAsks := rfl
@[simp] theorem State.modMx_pkg (s : State) (n : Nat) (f : Matrix → Matrix) : (s.modMx n f).pkg = s.pkg := rfl

/-! ### setStream -/

@[simp] theorem State.setStream_cycle (s : State) (tk k : Nat) (x : Stream) : (s.setStream tk k x).cycle = s.cycle := rfl
@[simp] theorem State.setStream_cur (s : State) (tk k : Nat) (x : Stream) : (s.setStream tk k x).cur = s.cur := rfl
@[simp] theorem State.setStream_subj (s : State) (tk k : Nat) (x : Stream) : (s.setStream tk k x).subj = s.subj := rfl
@[simp] theorem State.setStream_phase (s : State) (tk k : Nat) (x : Stream) : (s.setStream tk k x).phase = s.phase := rfl
@[simp] theorem State.setStream_issueQ (s : State) (tk k : Nat) (x : Stream) : (s.setStream tk k x).issueQ = s.issueQ := rfl
@[simp] theorem State.setStream_tried (s : State) (tk k : Nat) (x : Stream) : (s.setStream tk k x).tried = s.tried := rfl
@[simp] theorem State.setStream_todo (s : State) (tk k : Nat) (x : Stream) : (s.setStream tk k x).todo = s.todo := rfl
@[simp] theorem State.setStream_timers (s : State) (tk k : Nat) (x : Stream) : (s.setStream tk k x).timers = s.timers := rfl
@[simp] theorem State.setStream_inputs (s : State) (tk k : Nat) (x : Stream) : (s.setStream tk k x).inputs = s.inputs := rfl
@[simp] theorem State.setStream_nextId (s : State) (tk k : Nat) (x : Stream) : (s.setStream tk k x).nextId = s.nextId := rfl
@[simp] theorem State.setStream_draws (s : State) (tk k : Nat) (x : Stream) : (s.setStream tk k x).draws = s.draws := rfl
@[simp] theorem State.setStream_mem (s : State) (tk k : Nat) (x : Stream) : (s.setStream tk k x).mem = s.mem := rfl
@[simp] theorem State.setStream_fe (s : State) (tk k : Nat) (x : Stream) : (s.setStream tk k x).fe = s.fe := rfl
@[simp] theorem State.setStream_oldBytes (s : State) (tk k : Nat) (x : Stream) : (s.setStream tk k x).oldBytes = s.oldBytes := rfl
@[simp] theorem State.setStream_rf (s : State) (tk k : Nat) (x : Stream) : (s.setStream tk k x).rf = s.rf := rfl
@[simp] theorem State.setStream_sregs (s : State) (tk k : Nat) (x : Stream) : (s.setStream tk k x).sregs = s.sregs := rfl
@[simp] theorem State.setStream_spend (s : State) (tk k : Nat) (x : Stream) : (s.setStream tk k x).spend = s.spend := rfl
@[simp] theorem State.setStream_threads (s : State) (tk k : Nat) (x : Stream) : (s.setStream tk k x).threads = s.threads := rfl
@[simp] theorem State.setStream_streams (s : State) (tk k : Nat) (x : Stream) : (s.setStream tk k x).streams = SMap.putD s.streams (8 * tk + k) x {} := rfl
@[simp] theorem State.setStream_nbr (s : State) (tk k : Nat) (x : Stream) : (s.setStream tk k x).nbr = s.nbr := rfl
@[simp] theorem State.setStream_nbrPops (s : State) (tk k : Nat) (x : Stream) : (s.setStream tk k x).nbrPops = s.nbrPops := rfl
@[simp] theorem State.setStream_nbrFree (s : State) (tk k : Nat) (x : Stream) : (s.setStream tk k x).nbrFree = s.nbrFree := rfl
@[simp] theorem State.setStream_nbrSent (s : State) (tk k : Nat) (x : Stream) : (s.setStream tk k x).nbrSent = s.nbrSent := rfl
@[simp] theorem State.setStream_nbrSync (s : State) (tk k : Nat) (x : Stream) : (s.setStream tk k x).nbrSync = s.nbrSync := rfl
@[simp] theorem State.setStream_cores (s : State) (tk k : Nat) (x : Stream) : (s.setStream tk k x).cores = s.cores := rfl
@[simp] theorem State.setStream_teams (s : State) (tk k : Nat) (x : Stream) : (s.setStream tk k x).teams = s.teams := rfl
@[simp] theorem State.setStream_engines (s : State) (tk k : Nat) (x : Stream) : (s.setStream tk k x).engines = s.engines := rfl
@[simp] theorem State.setStream_slices (s : State) (tk k : Nat) (x : Stream) : (s.setStream tk k x).slices = s.slices := rfl
@[simp] theorem State.setStream_reqs (s : State) (tk k : Nat) (x : Stream) : (s.setStream tk k x).reqs = s.reqs := rfl
@[simp] theorem State.setStream_waiters (s : State) (tk k : Nat) (x : Stream) : (s.setStream tk k x).waiters = s.waiters := rfl
@[simp] theorem State.setStream_packets (s : State) (tk k : Nat) (x : Stream) : (s.setStream tk k x).packets = s.packets := rfl
@[simp] theorem State.setStream_pathDue (s : State) (tk k : Nat) (x : Stream) : (s.setStream tk k x).pathDue = s.pathDue := rfl
@[simp] theorem State.setStream_disp (s : State) (tk k : Nat) (x : Stream) : (s.setStream tk k x).disp = s.disp := rfl
@[simp] theorem State.setStream_ahead (s : State) (tk k : Nat) (x : Stream) : (s.setStream tk k x).ahead = s.ahead := rfl
@[simp] theorem State.setStream_portsUsed (s : State) (tk k : Nat) (x : Stream) : (s.setStream tk k x).portsUsed = s.portsUsed := rfl
@[simp] theorem State.setStream_banksUsed (s : State) (tk k : Nat) (x : Stream) : (s.setStream tk k x).banksUsed = s.banksUsed := rfl
@[simp] theorem State.setStream_portLast (s : State) (tk k : Nat) (x : Stream) : (s.setStream tk k x).portLast = s.portLast := rfl
@[simp] theorem State.setStream_portAsks (s : State) (tk k : Nat) (x : Stream) : (s.setStream tk k x).portAsks = s.portAsks := rfl
@[simp] theorem State.setStream_pkg (s : State) (tk k : Nat) (x : Stream) : (s.setStream tk k x).pkg = s.pkg := rfl

/-! ### putReq -/

@[simp] theorem State.putReq_cycle (s : State) (r : Req) : (s.putReq r).cycle = s.cycle := rfl
@[simp] theorem State.putReq_cur (s : State) (r : Req) : (s.putReq r).cur = s.cur := rfl
@[simp] theorem State.putReq_subj (s : State) (r : Req) : (s.putReq r).subj = s.subj := rfl
@[simp] theorem State.putReq_phase (s : State) (r : Req) : (s.putReq r).phase = s.phase := rfl
@[simp] theorem State.putReq_issueQ (s : State) (r : Req) : (s.putReq r).issueQ = s.issueQ := rfl
@[simp] theorem State.putReq_tried (s : State) (r : Req) : (s.putReq r).tried = s.tried := rfl
@[simp] theorem State.putReq_todo (s : State) (r : Req) : (s.putReq r).todo = s.todo := rfl
@[simp] theorem State.putReq_timers (s : State) (r : Req) : (s.putReq r).timers = s.timers := rfl
@[simp] theorem State.putReq_inputs (s : State) (r : Req) : (s.putReq r).inputs = s.inputs := rfl
@[simp] theorem State.putReq_nextId (s : State) (r : Req) : (s.putReq r).nextId = s.nextId := rfl
@[simp] theorem State.putReq_draws (s : State) (r : Req) : (s.putReq r).draws = s.draws := rfl
@[simp] theorem State.putReq_mem (s : State) (r : Req) : (s.putReq r).mem = s.mem := rfl
@[simp] theorem State.putReq_fe (s : State) (r : Req) : (s.putReq r).fe = s.fe := rfl
@[simp] theorem State.putReq_oldBytes (s : State) (r : Req) : (s.putReq r).oldBytes = s.oldBytes := rfl
@[simp] theorem State.putReq_rf (s : State) (r : Req) : (s.putReq r).rf = s.rf := rfl
@[simp] theorem State.putReq_sregs (s : State) (r : Req) : (s.putReq r).sregs = s.sregs := rfl
@[simp] theorem State.putReq_spend (s : State) (r : Req) : (s.putReq r).spend = s.spend := rfl
@[simp] theorem State.putReq_threads (s : State) (r : Req) : (s.putReq r).threads = s.threads := rfl
@[simp] theorem State.putReq_streams (s : State) (r : Req) : (s.putReq r).streams = s.streams := rfl
@[simp] theorem State.putReq_nbr (s : State) (r : Req) : (s.putReq r).nbr = s.nbr := rfl
@[simp] theorem State.putReq_nbrPops (s : State) (r : Req) : (s.putReq r).nbrPops = s.nbrPops := rfl
@[simp] theorem State.putReq_nbrFree (s : State) (r : Req) : (s.putReq r).nbrFree = s.nbrFree := rfl
@[simp] theorem State.putReq_nbrSent (s : State) (r : Req) : (s.putReq r).nbrSent = s.nbrSent := rfl
@[simp] theorem State.putReq_nbrSync (s : State) (r : Req) : (s.putReq r).nbrSync = s.nbrSync := rfl
@[simp] theorem State.putReq_cores (s : State) (r : Req) : (s.putReq r).cores = s.cores := rfl
@[simp] theorem State.putReq_teams (s : State) (r : Req) : (s.putReq r).teams = s.teams := rfl
@[simp] theorem State.putReq_engines (s : State) (r : Req) : (s.putReq r).engines = s.engines := rfl
@[simp] theorem State.putReq_slices (s : State) (r : Req) : (s.putReq r).slices = s.slices := rfl
@[simp] theorem State.putReq_reqs (s : State) (r : Req) : (s.putReq r).reqs = SMap.put s.reqs r.id r := rfl
@[simp] theorem State.putReq_waiters (s : State) (r : Req) : (s.putReq r).waiters = s.waiters := rfl
@[simp] theorem State.putReq_packets (s : State) (r : Req) : (s.putReq r).packets = s.packets := rfl
@[simp] theorem State.putReq_pathDue (s : State) (r : Req) : (s.putReq r).pathDue = s.pathDue := rfl
@[simp] theorem State.putReq_disp (s : State) (r : Req) : (s.putReq r).disp = s.disp := rfl
@[simp] theorem State.putReq_ahead (s : State) (r : Req) : (s.putReq r).ahead = s.ahead := rfl
@[simp] theorem State.putReq_portsUsed (s : State) (r : Req) : (s.putReq r).portsUsed = s.portsUsed := rfl
@[simp] theorem State.putReq_banksUsed (s : State) (r : Req) : (s.putReq r).banksUsed = s.banksUsed := rfl
@[simp] theorem State.putReq_portLast (s : State) (r : Req) : (s.putReq r).portLast = s.portLast := rfl
@[simp] theorem State.putReq_portAsks (s : State) (r : Req) : (s.putReq r).portAsks = s.portAsks := rfl
@[simp] theorem State.putReq_pkg (s : State) (r : Req) : (s.putReq r).pkg = s.pkg := rfl

/-! ### delReq -/

@[simp] theorem State.delReq_cycle (s : State) (rid : Nat) : (s.delReq rid).cycle = s.cycle := rfl
@[simp] theorem State.delReq_cur (s : State) (rid : Nat) : (s.delReq rid).cur = s.cur := rfl
@[simp] theorem State.delReq_subj (s : State) (rid : Nat) : (s.delReq rid).subj = s.subj := rfl
@[simp] theorem State.delReq_phase (s : State) (rid : Nat) : (s.delReq rid).phase = s.phase := rfl
@[simp] theorem State.delReq_issueQ (s : State) (rid : Nat) : (s.delReq rid).issueQ = s.issueQ := rfl
@[simp] theorem State.delReq_tried (s : State) (rid : Nat) : (s.delReq rid).tried = s.tried := rfl
@[simp] theorem State.delReq_todo (s : State) (rid : Nat) : (s.delReq rid).todo = s.todo := rfl
@[simp] theorem State.delReq_timers (s : State) (rid : Nat) : (s.delReq rid).timers = s.timers := rfl
@[simp] theorem State.delReq_inputs (s : State) (rid : Nat) : (s.delReq rid).inputs = s.inputs := rfl
@[simp] theorem State.delReq_nextId (s : State) (rid : Nat) : (s.delReq rid).nextId = s.nextId := rfl
@[simp] theorem State.delReq_draws (s : State) (rid : Nat) : (s.delReq rid).draws = s.draws := rfl
@[simp] theorem State.delReq_mem (s : State) (rid : Nat) : (s.delReq rid).mem = s.mem := rfl
@[simp] theorem State.delReq_fe (s : State) (rid : Nat) : (s.delReq rid).fe = s.fe := rfl
@[simp] theorem State.delReq_oldBytes (s : State) (rid : Nat) : (s.delReq rid).oldBytes = s.oldBytes := rfl
@[simp] theorem State.delReq_rf (s : State) (rid : Nat) : (s.delReq rid).rf = s.rf := rfl
@[simp] theorem State.delReq_sregs (s : State) (rid : Nat) : (s.delReq rid).sregs = s.sregs := rfl
@[simp] theorem State.delReq_spend (s : State) (rid : Nat) : (s.delReq rid).spend = s.spend := rfl
@[simp] theorem State.delReq_threads (s : State) (rid : Nat) : (s.delReq rid).threads = s.threads := rfl
@[simp] theorem State.delReq_streams (s : State) (rid : Nat) : (s.delReq rid).streams = s.streams := rfl
@[simp] theorem State.delReq_nbr (s : State) (rid : Nat) : (s.delReq rid).nbr = s.nbr := rfl
@[simp] theorem State.delReq_nbrPops (s : State) (rid : Nat) : (s.delReq rid).nbrPops = s.nbrPops := rfl
@[simp] theorem State.delReq_nbrFree (s : State) (rid : Nat) : (s.delReq rid).nbrFree = s.nbrFree := rfl
@[simp] theorem State.delReq_nbrSent (s : State) (rid : Nat) : (s.delReq rid).nbrSent = s.nbrSent := rfl
@[simp] theorem State.delReq_nbrSync (s : State) (rid : Nat) : (s.delReq rid).nbrSync = s.nbrSync := rfl
@[simp] theorem State.delReq_cores (s : State) (rid : Nat) : (s.delReq rid).cores = s.cores := rfl
@[simp] theorem State.delReq_teams (s : State) (rid : Nat) : (s.delReq rid).teams = s.teams := rfl
@[simp] theorem State.delReq_engines (s : State) (rid : Nat) : (s.delReq rid).engines = s.engines := rfl
@[simp] theorem State.delReq_slices (s : State) (rid : Nat) : (s.delReq rid).slices = s.slices := rfl
@[simp] theorem State.delReq_reqs (s : State) (rid : Nat) : (s.delReq rid).reqs = SMap.del s.reqs rid := rfl
@[simp] theorem State.delReq_waiters (s : State) (rid : Nat) : (s.delReq rid).waiters = s.waiters := rfl
@[simp] theorem State.delReq_packets (s : State) (rid : Nat) : (s.delReq rid).packets = s.packets := rfl
@[simp] theorem State.delReq_pathDue (s : State) (rid : Nat) : (s.delReq rid).pathDue = s.pathDue := rfl
@[simp] theorem State.delReq_disp (s : State) (rid : Nat) : (s.delReq rid).disp = s.disp := rfl
@[simp] theorem State.delReq_ahead (s : State) (rid : Nat) : (s.delReq rid).ahead = s.ahead := rfl
@[simp] theorem State.delReq_portsUsed (s : State) (rid : Nat) : (s.delReq rid).portsUsed = s.portsUsed := rfl
@[simp] theorem State.delReq_banksUsed (s : State) (rid : Nat) : (s.delReq rid).banksUsed = s.banksUsed := rfl
@[simp] theorem State.delReq_portLast (s : State) (rid : Nat) : (s.delReq rid).portLast = s.portLast := rfl
@[simp] theorem State.delReq_portAsks (s : State) (rid : Nat) : (s.delReq rid).portAsks = s.portAsks := rfl
@[simp] theorem State.delReq_pkg (s : State) (rid : Nat) : (s.delReq rid).pkg = s.pkg := rfl

/-! ### addTimer -/

@[simp] theorem State.addTimer_cycle (s : State) (due : Nat) (ev : Instr) (subj : Subj) : (s.addTimer due ev subj).cycle = s.cycle := rfl
@[simp] theorem State.addTimer_cur (s : State) (due : Nat) (ev : Instr) (subj : Subj) : (s.addTimer due ev subj).cur = s.cur := rfl
@[simp] theorem State.addTimer_subj (s : State) (due : Nat) (ev : Instr) (subj : Subj) : (s.addTimer due ev subj).subj = s.subj := rfl
@[simp] theorem State.addTimer_phase (s : State) (due : Nat) (ev : Instr) (subj : Subj) : (s.addTimer due ev subj).phase = s.phase := rfl
@[simp] theorem State.addTimer_issueQ (s : State) (due : Nat) (ev : Instr) (subj : Subj) : (s.addTimer due ev subj).issueQ = s.issueQ := rfl
@[simp] theorem State.addTimer_tried (s : State) (due : Nat) (ev : Instr) (subj : Subj) : (s.addTimer due ev subj).tried = s.tried := rfl
@[simp] theorem State.addTimer_todo (s : State) (due : Nat) (ev : Instr) (subj : Subj) : (s.addTimer due ev subj).todo = s.todo := rfl
@[simp] theorem State.addTimer_timers (s : State) (due : Nat) (ev : Instr) (subj : Subj) : (s.addTimer due ev subj).timers = s.timers ++ [{ due := due, mv := .ev ev subj }] := rfl
@[simp] theorem State.addTimer_inputs (s : State) (due : Nat) (ev : Instr) (subj : Subj) : (s.addTimer due ev subj).inputs = s.inputs := rfl
@[simp] theorem State.addTimer_nextId (s : State) (due : Nat) (ev : Instr) (subj : Subj) : (s.addTimer due ev subj).nextId = s.nextId := rfl
@[simp] theorem State.addTimer_draws (s : State) (due : Nat) (ev : Instr) (subj : Subj) : (s.addTimer due ev subj).draws = s.draws := rfl
@[simp] theorem State.addTimer_mem (s : State) (due : Nat) (ev : Instr) (subj : Subj) : (s.addTimer due ev subj).mem = s.mem := rfl
@[simp] theorem State.addTimer_fe (s : State) (due : Nat) (ev : Instr) (subj : Subj) : (s.addTimer due ev subj).fe = s.fe := rfl
@[simp] theorem State.addTimer_oldBytes (s : State) (due : Nat) (ev : Instr) (subj : Subj) : (s.addTimer due ev subj).oldBytes = s.oldBytes := rfl
@[simp] theorem State.addTimer_rf (s : State) (due : Nat) (ev : Instr) (subj : Subj) : (s.addTimer due ev subj).rf = s.rf := rfl
@[simp] theorem State.addTimer_sregs (s : State) (due : Nat) (ev : Instr) (subj : Subj) : (s.addTimer due ev subj).sregs = s.sregs := rfl
@[simp] theorem State.addTimer_spend (s : State) (due : Nat) (ev : Instr) (subj : Subj) : (s.addTimer due ev subj).spend = s.spend := rfl
@[simp] theorem State.addTimer_threads (s : State) (due : Nat) (ev : Instr) (subj : Subj) : (s.addTimer due ev subj).threads = s.threads := rfl
@[simp] theorem State.addTimer_streams (s : State) (due : Nat) (ev : Instr) (subj : Subj) : (s.addTimer due ev subj).streams = s.streams := rfl
@[simp] theorem State.addTimer_nbr (s : State) (due : Nat) (ev : Instr) (subj : Subj) : (s.addTimer due ev subj).nbr = s.nbr := rfl
@[simp] theorem State.addTimer_nbrPops (s : State) (due : Nat) (ev : Instr) (subj : Subj) : (s.addTimer due ev subj).nbrPops = s.nbrPops := rfl
@[simp] theorem State.addTimer_nbrFree (s : State) (due : Nat) (ev : Instr) (subj : Subj) : (s.addTimer due ev subj).nbrFree = s.nbrFree := rfl
@[simp] theorem State.addTimer_nbrSent (s : State) (due : Nat) (ev : Instr) (subj : Subj) : (s.addTimer due ev subj).nbrSent = s.nbrSent := rfl
@[simp] theorem State.addTimer_nbrSync (s : State) (due : Nat) (ev : Instr) (subj : Subj) : (s.addTimer due ev subj).nbrSync = s.nbrSync := rfl
@[simp] theorem State.addTimer_cores (s : State) (due : Nat) (ev : Instr) (subj : Subj) : (s.addTimer due ev subj).cores = s.cores := rfl
@[simp] theorem State.addTimer_teams (s : State) (due : Nat) (ev : Instr) (subj : Subj) : (s.addTimer due ev subj).teams = s.teams := rfl
@[simp] theorem State.addTimer_engines (s : State) (due : Nat) (ev : Instr) (subj : Subj) : (s.addTimer due ev subj).engines = s.engines := rfl
@[simp] theorem State.addTimer_slices (s : State) (due : Nat) (ev : Instr) (subj : Subj) : (s.addTimer due ev subj).slices = s.slices := rfl
@[simp] theorem State.addTimer_reqs (s : State) (due : Nat) (ev : Instr) (subj : Subj) : (s.addTimer due ev subj).reqs = s.reqs := rfl
@[simp] theorem State.addTimer_waiters (s : State) (due : Nat) (ev : Instr) (subj : Subj) : (s.addTimer due ev subj).waiters = s.waiters := rfl
@[simp] theorem State.addTimer_packets (s : State) (due : Nat) (ev : Instr) (subj : Subj) : (s.addTimer due ev subj).packets = s.packets := rfl
@[simp] theorem State.addTimer_pathDue (s : State) (due : Nat) (ev : Instr) (subj : Subj) : (s.addTimer due ev subj).pathDue = s.pathDue := rfl
@[simp] theorem State.addTimer_disp (s : State) (due : Nat) (ev : Instr) (subj : Subj) : (s.addTimer due ev subj).disp = s.disp := rfl
@[simp] theorem State.addTimer_ahead (s : State) (due : Nat) (ev : Instr) (subj : Subj) : (s.addTimer due ev subj).ahead = s.ahead := rfl
@[simp] theorem State.addTimer_portsUsed (s : State) (due : Nat) (ev : Instr) (subj : Subj) : (s.addTimer due ev subj).portsUsed = s.portsUsed := rfl
@[simp] theorem State.addTimer_banksUsed (s : State) (due : Nat) (ev : Instr) (subj : Subj) : (s.addTimer due ev subj).banksUsed = s.banksUsed := rfl
@[simp] theorem State.addTimer_portLast (s : State) (due : Nat) (ev : Instr) (subj : Subj) : (s.addTimer due ev subj).portLast = s.portLast := rfl
@[simp] theorem State.addTimer_portAsks (s : State) (due : Nat) (ev : Instr) (subj : Subj) : (s.addTimer due ev subj).portAsks = s.portAsks := rfl
@[simp] theorem State.addTimer_pkg (s : State) (due : Nat) (ev : Instr) (subj : Subj) : (s.addTimer due ev subj).pkg = s.pkg := rfl

/-! ### addMove -/

@[simp] theorem State.addMove_cycle (s : State) (due : Nat) (mv : Move) : (s.addMove due mv).cycle = s.cycle := rfl
@[simp] theorem State.addMove_cur (s : State) (due : Nat) (mv : Move) : (s.addMove due mv).cur = s.cur := rfl
@[simp] theorem State.addMove_subj (s : State) (due : Nat) (mv : Move) : (s.addMove due mv).subj = s.subj := rfl
@[simp] theorem State.addMove_phase (s : State) (due : Nat) (mv : Move) : (s.addMove due mv).phase = s.phase := rfl
@[simp] theorem State.addMove_issueQ (s : State) (due : Nat) (mv : Move) : (s.addMove due mv).issueQ = s.issueQ := rfl
@[simp] theorem State.addMove_tried (s : State) (due : Nat) (mv : Move) : (s.addMove due mv).tried = s.tried := rfl
@[simp] theorem State.addMove_todo (s : State) (due : Nat) (mv : Move) : (s.addMove due mv).todo = s.todo := rfl
@[simp] theorem State.addMove_timers (s : State) (due : Nat) (mv : Move) : (s.addMove due mv).timers = s.timers ++ [{ due := due, mv := mv }] := rfl
@[simp] theorem State.addMove_inputs (s : State) (due : Nat) (mv : Move) : (s.addMove due mv).inputs = s.inputs := rfl
@[simp] theorem State.addMove_nextId (s : State) (due : Nat) (mv : Move) : (s.addMove due mv).nextId = s.nextId := rfl
@[simp] theorem State.addMove_draws (s : State) (due : Nat) (mv : Move) : (s.addMove due mv).draws = s.draws := rfl
@[simp] theorem State.addMove_mem (s : State) (due : Nat) (mv : Move) : (s.addMove due mv).mem = s.mem := rfl
@[simp] theorem State.addMove_fe (s : State) (due : Nat) (mv : Move) : (s.addMove due mv).fe = s.fe := rfl
@[simp] theorem State.addMove_oldBytes (s : State) (due : Nat) (mv : Move) : (s.addMove due mv).oldBytes = s.oldBytes := rfl
@[simp] theorem State.addMove_rf (s : State) (due : Nat) (mv : Move) : (s.addMove due mv).rf = s.rf := rfl
@[simp] theorem State.addMove_sregs (s : State) (due : Nat) (mv : Move) : (s.addMove due mv).sregs = s.sregs := rfl
@[simp] theorem State.addMove_spend (s : State) (due : Nat) (mv : Move) : (s.addMove due mv).spend = s.spend := rfl
@[simp] theorem State.addMove_threads (s : State) (due : Nat) (mv : Move) : (s.addMove due mv).threads = s.threads := rfl
@[simp] theorem State.addMove_streams (s : State) (due : Nat) (mv : Move) : (s.addMove due mv).streams = s.streams := rfl
@[simp] theorem State.addMove_nbr (s : State) (due : Nat) (mv : Move) : (s.addMove due mv).nbr = s.nbr := rfl
@[simp] theorem State.addMove_nbrPops (s : State) (due : Nat) (mv : Move) : (s.addMove due mv).nbrPops = s.nbrPops := rfl
@[simp] theorem State.addMove_nbrFree (s : State) (due : Nat) (mv : Move) : (s.addMove due mv).nbrFree = s.nbrFree := rfl
@[simp] theorem State.addMove_nbrSent (s : State) (due : Nat) (mv : Move) : (s.addMove due mv).nbrSent = s.nbrSent := rfl
@[simp] theorem State.addMove_nbrSync (s : State) (due : Nat) (mv : Move) : (s.addMove due mv).nbrSync = s.nbrSync := rfl
@[simp] theorem State.addMove_cores (s : State) (due : Nat) (mv : Move) : (s.addMove due mv).cores = s.cores := rfl
@[simp] theorem State.addMove_teams (s : State) (due : Nat) (mv : Move) : (s.addMove due mv).teams = s.teams := rfl
@[simp] theorem State.addMove_engines (s : State) (due : Nat) (mv : Move) : (s.addMove due mv).engines = s.engines := rfl
@[simp] theorem State.addMove_slices (s : State) (due : Nat) (mv : Move) : (s.addMove due mv).slices = s.slices := rfl
@[simp] theorem State.addMove_reqs (s : State) (due : Nat) (mv : Move) : (s.addMove due mv).reqs = s.reqs := rfl
@[simp] theorem State.addMove_waiters (s : State) (due : Nat) (mv : Move) : (s.addMove due mv).waiters = s.waiters := rfl
@[simp] theorem State.addMove_packets (s : State) (due : Nat) (mv : Move) : (s.addMove due mv).packets = s.packets := rfl
@[simp] theorem State.addMove_pathDue (s : State) (due : Nat) (mv : Move) : (s.addMove due mv).pathDue = s.pathDue := rfl
@[simp] theorem State.addMove_disp (s : State) (due : Nat) (mv : Move) : (s.addMove due mv).disp = s.disp := rfl
@[simp] theorem State.addMove_ahead (s : State) (due : Nat) (mv : Move) : (s.addMove due mv).ahead = s.ahead := rfl
@[simp] theorem State.addMove_portsUsed (s : State) (due : Nat) (mv : Move) : (s.addMove due mv).portsUsed = s.portsUsed := rfl
@[simp] theorem State.addMove_banksUsed (s : State) (due : Nat) (mv : Move) : (s.addMove due mv).banksUsed = s.banksUsed := rfl
@[simp] theorem State.addMove_portLast (s : State) (due : Nat) (mv : Move) : (s.addMove due mv).portLast = s.portLast := rfl
@[simp] theorem State.addMove_portAsks (s : State) (due : Nat) (mv : Move) : (s.addMove due mv).portAsks = s.portAsks := rfl
@[simp] theorem State.addMove_pkg (s : State) (due : Nat) (mv : Move) : (s.addMove due mv).pkg = s.pkg := rfl

/-! ### retryMove -/

@[simp] theorem State.retryMove_cycle (s : State) (mv : Move) : (s.retryMove mv).cycle = s.cycle := rfl
@[simp] theorem State.retryMove_cur (s : State) (mv : Move) : (s.retryMove mv).cur = s.cur := rfl
@[simp] theorem State.retryMove_subj (s : State) (mv : Move) : (s.retryMove mv).subj = s.subj := rfl
@[simp] theorem State.retryMove_phase (s : State) (mv : Move) : (s.retryMove mv).phase = s.phase := rfl
@[simp] theorem State.retryMove_issueQ (s : State) (mv : Move) : (s.retryMove mv).issueQ = s.issueQ := rfl
@[simp] theorem State.retryMove_tried (s : State) (mv : Move) : (s.retryMove mv).tried = s.tried := rfl
@[simp] theorem State.retryMove_todo (s : State) (mv : Move) : (s.retryMove mv).todo = s.todo := rfl
@[simp] theorem State.retryMove_timers (s : State) (mv : Move) : (s.retryMove mv).timers = s.timers ++ [{ due := s.cycle + 1, mv := mv, retry := true }] := rfl
@[simp] theorem State.retryMove_inputs (s : State) (mv : Move) : (s.retryMove mv).inputs = s.inputs := rfl
@[simp] theorem State.retryMove_nextId (s : State) (mv : Move) : (s.retryMove mv).nextId = s.nextId := rfl
@[simp] theorem State.retryMove_draws (s : State) (mv : Move) : (s.retryMove mv).draws = s.draws := rfl
@[simp] theorem State.retryMove_mem (s : State) (mv : Move) : (s.retryMove mv).mem = s.mem := rfl
@[simp] theorem State.retryMove_fe (s : State) (mv : Move) : (s.retryMove mv).fe = s.fe := rfl
@[simp] theorem State.retryMove_oldBytes (s : State) (mv : Move) : (s.retryMove mv).oldBytes = s.oldBytes := rfl
@[simp] theorem State.retryMove_rf (s : State) (mv : Move) : (s.retryMove mv).rf = s.rf := rfl
@[simp] theorem State.retryMove_sregs (s : State) (mv : Move) : (s.retryMove mv).sregs = s.sregs := rfl
@[simp] theorem State.retryMove_spend (s : State) (mv : Move) : (s.retryMove mv).spend = s.spend := rfl
@[simp] theorem State.retryMove_threads (s : State) (mv : Move) : (s.retryMove mv).threads = s.threads := rfl
@[simp] theorem State.retryMove_streams (s : State) (mv : Move) : (s.retryMove mv).streams = s.streams := rfl
@[simp] theorem State.retryMove_nbr (s : State) (mv : Move) : (s.retryMove mv).nbr = s.nbr := rfl
@[simp] theorem State.retryMove_nbrPops (s : State) (mv : Move) : (s.retryMove mv).nbrPops = s.nbrPops := rfl
@[simp] theorem State.retryMove_nbrFree (s : State) (mv : Move) : (s.retryMove mv).nbrFree = s.nbrFree := rfl
@[simp] theorem State.retryMove_nbrSent (s : State) (mv : Move) : (s.retryMove mv).nbrSent = s.nbrSent := rfl
@[simp] theorem State.retryMove_nbrSync (s : State) (mv : Move) : (s.retryMove mv).nbrSync = s.nbrSync := rfl
@[simp] theorem State.retryMove_cores (s : State) (mv : Move) : (s.retryMove mv).cores = s.cores := rfl
@[simp] theorem State.retryMove_teams (s : State) (mv : Move) : (s.retryMove mv).teams = s.teams := rfl
@[simp] theorem State.retryMove_engines (s : State) (mv : Move) : (s.retryMove mv).engines = s.engines := rfl
@[simp] theorem State.retryMove_slices (s : State) (mv : Move) : (s.retryMove mv).slices = s.slices := rfl
@[simp] theorem State.retryMove_reqs (s : State) (mv : Move) : (s.retryMove mv).reqs = s.reqs := rfl
@[simp] theorem State.retryMove_waiters (s : State) (mv : Move) : (s.retryMove mv).waiters = s.waiters := rfl
@[simp] theorem State.retryMove_packets (s : State) (mv : Move) : (s.retryMove mv).packets = s.packets := rfl
@[simp] theorem State.retryMove_pathDue (s : State) (mv : Move) : (s.retryMove mv).pathDue = s.pathDue := rfl
@[simp] theorem State.retryMove_disp (s : State) (mv : Move) : (s.retryMove mv).disp = s.disp := rfl
@[simp] theorem State.retryMove_ahead (s : State) (mv : Move) : (s.retryMove mv).ahead = s.ahead := rfl
@[simp] theorem State.retryMove_portsUsed (s : State) (mv : Move) : (s.retryMove mv).portsUsed = s.portsUsed := rfl
@[simp] theorem State.retryMove_banksUsed (s : State) (mv : Move) : (s.retryMove mv).banksUsed = s.banksUsed := rfl
@[simp] theorem State.retryMove_portLast (s : State) (mv : Move) : (s.retryMove mv).portLast = s.portLast := rfl
@[simp] theorem State.retryMove_portAsks (s : State) (mv : Move) : (s.retryMove mv).portAsks = s.portAsks := rfl
@[simp] theorem State.retryMove_pkg (s : State) (mv : Move) : (s.retryMove mv).pkg = s.pkg := rfl

/-! ### doNext -/

@[simp] theorem State.doNext_cycle (s : State) (mv : Move) : (s.doNext mv).cycle = s.cycle := rfl
@[simp] theorem State.doNext_cur (s : State) (mv : Move) : (s.doNext mv).cur = s.cur := rfl
@[simp] theorem State.doNext_subj (s : State) (mv : Move) : (s.doNext mv).subj = s.subj := rfl
@[simp] theorem State.doNext_phase (s : State) (mv : Move) : (s.doNext mv).phase = s.phase := rfl
@[simp] theorem State.doNext_issueQ (s : State) (mv : Move) : (s.doNext mv).issueQ = s.issueQ := rfl
@[simp] theorem State.doNext_tried (s : State) (mv : Move) : (s.doNext mv).tried = s.tried := rfl
@[simp] theorem State.doNext_todo (s : State) (mv : Move) : (s.doNext mv).todo = mv :: s.todo := rfl
@[simp] theorem State.doNext_timers (s : State) (mv : Move) : (s.doNext mv).timers = s.timers := rfl
@[simp] theorem State.doNext_inputs (s : State) (mv : Move) : (s.doNext mv).inputs = s.inputs := rfl
@[simp] theorem State.doNext_nextId (s : State) (mv : Move) : (s.doNext mv).nextId = s.nextId := rfl
@[simp] theorem State.doNext_draws (s : State) (mv : Move) : (s.doNext mv).draws = s.draws := rfl
@[simp] theorem State.doNext_mem (s : State) (mv : Move) : (s.doNext mv).mem = s.mem := rfl
@[simp] theorem State.doNext_fe (s : State) (mv : Move) : (s.doNext mv).fe = s.fe := rfl
@[simp] theorem State.doNext_oldBytes (s : State) (mv : Move) : (s.doNext mv).oldBytes = s.oldBytes := rfl
@[simp] theorem State.doNext_rf (s : State) (mv : Move) : (s.doNext mv).rf = s.rf := rfl
@[simp] theorem State.doNext_sregs (s : State) (mv : Move) : (s.doNext mv).sregs = s.sregs := rfl
@[simp] theorem State.doNext_spend (s : State) (mv : Move) : (s.doNext mv).spend = s.spend := rfl
@[simp] theorem State.doNext_threads (s : State) (mv : Move) : (s.doNext mv).threads = s.threads := rfl
@[simp] theorem State.doNext_streams (s : State) (mv : Move) : (s.doNext mv).streams = s.streams := rfl
@[simp] theorem State.doNext_nbr (s : State) (mv : Move) : (s.doNext mv).nbr = s.nbr := rfl
@[simp] theorem State.doNext_nbrPops (s : State) (mv : Move) : (s.doNext mv).nbrPops = s.nbrPops := rfl
@[simp] theorem State.doNext_nbrFree (s : State) (mv : Move) : (s.doNext mv).nbrFree = s.nbrFree := rfl
@[simp] theorem State.doNext_nbrSent (s : State) (mv : Move) : (s.doNext mv).nbrSent = s.nbrSent := rfl
@[simp] theorem State.doNext_nbrSync (s : State) (mv : Move) : (s.doNext mv).nbrSync = s.nbrSync := rfl
@[simp] theorem State.doNext_cores (s : State) (mv : Move) : (s.doNext mv).cores = s.cores := rfl
@[simp] theorem State.doNext_teams (s : State) (mv : Move) : (s.doNext mv).teams = s.teams := rfl
@[simp] theorem State.doNext_engines (s : State) (mv : Move) : (s.doNext mv).engines = s.engines := rfl
@[simp] theorem State.doNext_slices (s : State) (mv : Move) : (s.doNext mv).slices = s.slices := rfl
@[simp] theorem State.doNext_reqs (s : State) (mv : Move) : (s.doNext mv).reqs = s.reqs := rfl
@[simp] theorem State.doNext_waiters (s : State) (mv : Move) : (s.doNext mv).waiters = s.waiters := rfl
@[simp] theorem State.doNext_packets (s : State) (mv : Move) : (s.doNext mv).packets = s.packets := rfl
@[simp] theorem State.doNext_pathDue (s : State) (mv : Move) : (s.doNext mv).pathDue = s.pathDue := rfl
@[simp] theorem State.doNext_disp (s : State) (mv : Move) : (s.doNext mv).disp = s.disp := rfl
@[simp] theorem State.doNext_ahead (s : State) (mv : Move) : (s.doNext mv).ahead = s.ahead := rfl
@[simp] theorem State.doNext_portsUsed (s : State) (mv : Move) : (s.doNext mv).portsUsed = s.portsUsed := rfl
@[simp] theorem State.doNext_banksUsed (s : State) (mv : Move) : (s.doNext mv).banksUsed = s.banksUsed := rfl
@[simp] theorem State.doNext_portLast (s : State) (mv : Move) : (s.doNext mv).portLast = s.portLast := rfl
@[simp] theorem State.doNext_portAsks (s : State) (mv : Move) : (s.doNext mv).portAsks = s.portAsks := rfl
@[simp] theorem State.doNext_pkg (s : State) (mv : Move) : (s.doNext mv).pkg = s.pkg := rfl

/-! ### dropPacket -/

@[simp] theorem State.dropPacket_cycle (s : State) (pid : Nat) : (s.dropPacket pid).cycle = s.cycle := rfl
@[simp] theorem State.dropPacket_cur (s : State) (pid : Nat) : (s.dropPacket pid).cur = s.cur := rfl
@[simp] theorem State.dropPacket_subj (s : State) (pid : Nat) : (s.dropPacket pid).subj = s.subj := rfl
@[simp] theorem State.dropPacket_phase (s : State) (pid : Nat) : (s.dropPacket pid).phase = s.phase := rfl
@[simp] theorem State.dropPacket_issueQ (s : State) (pid : Nat) : (s.dropPacket pid).issueQ = s.issueQ := rfl
@[simp] theorem State.dropPacket_tried (s : State) (pid : Nat) : (s.dropPacket pid).tried = s.tried := rfl
@[simp] theorem State.dropPacket_todo (s : State) (pid : Nat) : (s.dropPacket pid).todo = s.todo := rfl
@[simp] theorem State.dropPacket_timers (s : State) (pid : Nat) : (s.dropPacket pid).timers = s.timers := rfl
@[simp] theorem State.dropPacket_inputs (s : State) (pid : Nat) : (s.dropPacket pid).inputs = s.inputs := rfl
@[simp] theorem State.dropPacket_nextId (s : State) (pid : Nat) : (s.dropPacket pid).nextId = s.nextId := rfl
@[simp] theorem State.dropPacket_draws (s : State) (pid : Nat) : (s.dropPacket pid).draws = s.draws := rfl
@[simp] theorem State.dropPacket_mem (s : State) (pid : Nat) : (s.dropPacket pid).mem = s.mem := rfl
@[simp] theorem State.dropPacket_fe (s : State) (pid : Nat) : (s.dropPacket pid).fe = s.fe := rfl
@[simp] theorem State.dropPacket_oldBytes (s : State) (pid : Nat) : (s.dropPacket pid).oldBytes = s.oldBytes := rfl
@[simp] theorem State.dropPacket_rf (s : State) (pid : Nat) : (s.dropPacket pid).rf = s.rf := rfl
@[simp] theorem State.dropPacket_sregs (s : State) (pid : Nat) : (s.dropPacket pid).sregs = s.sregs := rfl
@[simp] theorem State.dropPacket_spend (s : State) (pid : Nat) : (s.dropPacket pid).spend = s.spend := rfl
@[simp] theorem State.dropPacket_threads (s : State) (pid : Nat) : (s.dropPacket pid).threads = s.threads := rfl
@[simp] theorem State.dropPacket_streams (s : State) (pid : Nat) : (s.dropPacket pid).streams = s.streams := rfl
@[simp] theorem State.dropPacket_nbr (s : State) (pid : Nat) : (s.dropPacket pid).nbr = s.nbr := rfl
@[simp] theorem State.dropPacket_nbrPops (s : State) (pid : Nat) : (s.dropPacket pid).nbrPops = s.nbrPops := rfl
@[simp] theorem State.dropPacket_nbrFree (s : State) (pid : Nat) : (s.dropPacket pid).nbrFree = s.nbrFree := rfl
@[simp] theorem State.dropPacket_nbrSent (s : State) (pid : Nat) : (s.dropPacket pid).nbrSent = s.nbrSent := rfl
@[simp] theorem State.dropPacket_nbrSync (s : State) (pid : Nat) : (s.dropPacket pid).nbrSync = s.nbrSync := rfl
@[simp] theorem State.dropPacket_cores (s : State) (pid : Nat) : (s.dropPacket pid).cores = s.cores := rfl
@[simp] theorem State.dropPacket_teams (s : State) (pid : Nat) : (s.dropPacket pid).teams = s.teams := rfl
@[simp] theorem State.dropPacket_engines (s : State) (pid : Nat) : (s.dropPacket pid).engines = s.engines := rfl
@[simp] theorem State.dropPacket_slices (s : State) (pid : Nat) : (s.dropPacket pid).slices = s.slices := rfl
@[simp] theorem State.dropPacket_reqs (s : State) (pid : Nat) : (s.dropPacket pid).reqs = s.reqs := rfl
@[simp] theorem State.dropPacket_waiters (s : State) (pid : Nat) : (s.dropPacket pid).waiters = s.waiters := rfl
@[simp] theorem State.dropPacket_packets (s : State) (pid : Nat) : (s.dropPacket pid).packets = SMap.del s.packets pid := rfl
@[simp] theorem State.dropPacket_pathDue (s : State) (pid : Nat) : (s.dropPacket pid).pathDue = s.pathDue := rfl
@[simp] theorem State.dropPacket_disp (s : State) (pid : Nat) : (s.dropPacket pid).disp = s.disp := rfl
@[simp] theorem State.dropPacket_ahead (s : State) (pid : Nat) : (s.dropPacket pid).ahead = s.ahead := rfl
@[simp] theorem State.dropPacket_portsUsed (s : State) (pid : Nat) : (s.dropPacket pid).portsUsed = s.portsUsed := rfl
@[simp] theorem State.dropPacket_banksUsed (s : State) (pid : Nat) : (s.dropPacket pid).banksUsed = s.banksUsed := rfl
@[simp] theorem State.dropPacket_portLast (s : State) (pid : Nat) : (s.dropPacket pid).portLast = s.portLast := rfl
@[simp] theorem State.dropPacket_portAsks (s : State) (pid : Nat) : (s.dropPacket pid).portAsks = s.portAsks := rfl
@[simp] theorem State.dropPacket_pkg (s : State) (pid : Nat) : (s.dropPacket pid).pkg = s.pkg := rfl

/-! ### setByte -/

@[simp] theorem State.setByte_cycle (s : State) (k : Nat) (b : Byte) : (s.setByte k b).cycle = s.cycle := rfl
@[simp] theorem State.setByte_cur (s : State) (k : Nat) (b : Byte) : (s.setByte k b).cur = s.cur := rfl
@[simp] theorem State.setByte_subj (s : State) (k : Nat) (b : Byte) : (s.setByte k b).subj = s.subj := rfl
@[simp] theorem State.setByte_phase (s : State) (k : Nat) (b : Byte) : (s.setByte k b).phase = s.phase := rfl
@[simp] theorem State.setByte_issueQ (s : State) (k : Nat) (b : Byte) : (s.setByte k b).issueQ = s.issueQ := rfl
@[simp] theorem State.setByte_tried (s : State) (k : Nat) (b : Byte) : (s.setByte k b).tried = s.tried := rfl
@[simp] theorem State.setByte_todo (s : State) (k : Nat) (b : Byte) : (s.setByte k b).todo = s.todo := rfl
@[simp] theorem State.setByte_timers (s : State) (k : Nat) (b : Byte) : (s.setByte k b).timers = s.timers := rfl
@[simp] theorem State.setByte_inputs (s : State) (k : Nat) (b : Byte) : (s.setByte k b).inputs = s.inputs := rfl
@[simp] theorem State.setByte_nextId (s : State) (k : Nat) (b : Byte) : (s.setByte k b).nextId = s.nextId := rfl
@[simp] theorem State.setByte_draws (s : State) (k : Nat) (b : Byte) : (s.setByte k b).draws = s.draws := rfl
@[simp] theorem State.setByte_mem (s : State) (k : Nat) (b : Byte) : (s.setByte k b).mem = SMap.putD s.mem k b unlisted := rfl
@[simp] theorem State.setByte_fe (s : State) (k : Nat) (b : Byte) : (s.setByte k b).fe = s.fe := rfl
@[simp] theorem State.setByte_oldBytes (s : State) (k : Nat) (b : Byte) : (s.setByte k b).oldBytes = s.oldBytes := rfl
@[simp] theorem State.setByte_rf (s : State) (k : Nat) (b : Byte) : (s.setByte k b).rf = s.rf := rfl
@[simp] theorem State.setByte_sregs (s : State) (k : Nat) (b : Byte) : (s.setByte k b).sregs = s.sregs := rfl
@[simp] theorem State.setByte_spend (s : State) (k : Nat) (b : Byte) : (s.setByte k b).spend = s.spend := rfl
@[simp] theorem State.setByte_threads (s : State) (k : Nat) (b : Byte) : (s.setByte k b).threads = s.threads := rfl
@[simp] theorem State.setByte_streams (s : State) (k : Nat) (b : Byte) : (s.setByte k b).streams = s.streams := rfl
@[simp] theorem State.setByte_nbr (s : State) (k : Nat) (b : Byte) : (s.setByte k b).nbr = s.nbr := rfl
@[simp] theorem State.setByte_nbrPops (s : State) (k : Nat) (b : Byte) : (s.setByte k b).nbrPops = s.nbrPops := rfl
@[simp] theorem State.setByte_nbrFree (s : State) (k : Nat) (b : Byte) : (s.setByte k b).nbrFree = s.nbrFree := rfl
@[simp] theorem State.setByte_nbrSent (s : State) (k : Nat) (b : Byte) : (s.setByte k b).nbrSent = s.nbrSent := rfl
@[simp] theorem State.setByte_nbrSync (s : State) (k : Nat) (b : Byte) : (s.setByte k b).nbrSync = s.nbrSync := rfl
@[simp] theorem State.setByte_cores (s : State) (k : Nat) (b : Byte) : (s.setByte k b).cores = s.cores := rfl
@[simp] theorem State.setByte_teams (s : State) (k : Nat) (b : Byte) : (s.setByte k b).teams = s.teams := rfl
@[simp] theorem State.setByte_engines (s : State) (k : Nat) (b : Byte) : (s.setByte k b).engines = s.engines := rfl
@[simp] theorem State.setByte_slices (s : State) (k : Nat) (b : Byte) : (s.setByte k b).slices = s.slices := rfl
@[simp] theorem State.setByte_reqs (s : State) (k : Nat) (b : Byte) : (s.setByte k b).reqs = s.reqs := rfl
@[simp] theorem State.setByte_waiters (s : State) (k : Nat) (b : Byte) : (s.setByte k b).waiters = s.waiters := rfl
@[simp] theorem State.setByte_packets (s : State) (k : Nat) (b : Byte) : (s.setByte k b).packets = s.packets := rfl
@[simp] theorem State.setByte_pathDue (s : State) (k : Nat) (b : Byte) : (s.setByte k b).pathDue = s.pathDue := rfl
@[simp] theorem State.setByte_disp (s : State) (k : Nat) (b : Byte) : (s.setByte k b).disp = s.disp := rfl
@[simp] theorem State.setByte_ahead (s : State) (k : Nat) (b : Byte) : (s.setByte k b).ahead = s.ahead := rfl
@[simp] theorem State.setByte_portsUsed (s : State) (k : Nat) (b : Byte) : (s.setByte k b).portsUsed = s.portsUsed := rfl
@[simp] theorem State.setByte_banksUsed (s : State) (k : Nat) (b : Byte) : (s.setByte k b).banksUsed = s.banksUsed := rfl
@[simp] theorem State.setByte_portLast (s : State) (k : Nat) (b : Byte) : (s.setByte k b).portLast = s.portLast := rfl
@[simp] theorem State.setByte_portAsks (s : State) (k : Nat) (b : Byte) : (s.setByte k b).portAsks = s.portAsks := rfl
@[simp] theorem State.setByte_pkg (s : State) (k : Nat) (b : Byte) : (s.setByte k b).pkg = s.pkg := rfl

/-! ### setFull -/

@[simp] theorem State.setFull_cycle (s : State) (k : Nat) (b : Bool) : (s.setFull k b).cycle = s.cycle := rfl
@[simp] theorem State.setFull_cur (s : State) (k : Nat) (b : Bool) : (s.setFull k b).cur = s.cur := rfl
@[simp] theorem State.setFull_subj (s : State) (k : Nat) (b : Bool) : (s.setFull k b).subj = s.subj := rfl
@[simp] theorem State.setFull_phase (s : State) (k : Nat) (b : Bool) : (s.setFull k b).phase = s.phase := rfl
@[simp] theorem State.setFull_issueQ (s : State) (k : Nat) (b : Bool) : (s.setFull k b).issueQ = s.issueQ := rfl
@[simp] theorem State.setFull_tried (s : State) (k : Nat) (b : Bool) : (s.setFull k b).tried = s.tried := rfl
@[simp] theorem State.setFull_todo (s : State) (k : Nat) (b : Bool) : (s.setFull k b).todo = s.todo := rfl
@[simp] theorem State.setFull_timers (s : State) (k : Nat) (b : Bool) : (s.setFull k b).timers = s.timers := rfl
@[simp] theorem State.setFull_inputs (s : State) (k : Nat) (b : Bool) : (s.setFull k b).inputs = s.inputs := rfl
@[simp] theorem State.setFull_nextId (s : State) (k : Nat) (b : Bool) : (s.setFull k b).nextId = s.nextId := rfl
@[simp] theorem State.setFull_draws (s : State) (k : Nat) (b : Bool) : (s.setFull k b).draws = s.draws := rfl
@[simp] theorem State.setFull_mem (s : State) (k : Nat) (b : Bool) : (s.setFull k b).mem = s.mem := rfl
@[simp] theorem State.setFull_fe (s : State) (k : Nat) (b : Bool) : (s.setFull k b).fe = SMap.putD s.fe (k / 8) b true := rfl
@[simp] theorem State.setFull_oldBytes (s : State) (k : Nat) (b : Bool) : (s.setFull k b).oldBytes = s.oldBytes := rfl
@[simp] theorem State.setFull_rf (s : State) (k : Nat) (b : Bool) : (s.setFull k b).rf = s.rf := rfl
@[simp] theorem State.setFull_sregs (s : State) (k : Nat) (b : Bool) : (s.setFull k b).sregs = s.sregs := rfl
@[simp] theorem State.setFull_spend (s : State) (k : Nat) (b : Bool) : (s.setFull k b).spend = s.spend := rfl
@[simp] theorem State.setFull_threads (s : State) (k : Nat) (b : Bool) : (s.setFull k b).threads = s.threads := rfl
@[simp] theorem State.setFull_streams (s : State) (k : Nat) (b : Bool) : (s.setFull k b).streams = s.streams := rfl
@[simp] theorem State.setFull_nbr (s : State) (k : Nat) (b : Bool) : (s.setFull k b).nbr = s.nbr := rfl
@[simp] theorem State.setFull_nbrPops (s : State) (k : Nat) (b : Bool) : (s.setFull k b).nbrPops = s.nbrPops := rfl
@[simp] theorem State.setFull_nbrFree (s : State) (k : Nat) (b : Bool) : (s.setFull k b).nbrFree = s.nbrFree := rfl
@[simp] theorem State.setFull_nbrSent (s : State) (k : Nat) (b : Bool) : (s.setFull k b).nbrSent = s.nbrSent := rfl
@[simp] theorem State.setFull_nbrSync (s : State) (k : Nat) (b : Bool) : (s.setFull k b).nbrSync = s.nbrSync := rfl
@[simp] theorem State.setFull_cores (s : State) (k : Nat) (b : Bool) : (s.setFull k b).cores = s.cores := rfl
@[simp] theorem State.setFull_teams (s : State) (k : Nat) (b : Bool) : (s.setFull k b).teams = s.teams := rfl
@[simp] theorem State.setFull_engines (s : State) (k : Nat) (b : Bool) : (s.setFull k b).engines = s.engines := rfl
@[simp] theorem State.setFull_slices (s : State) (k : Nat) (b : Bool) : (s.setFull k b).slices = s.slices := rfl
@[simp] theorem State.setFull_reqs (s : State) (k : Nat) (b : Bool) : (s.setFull k b).reqs = s.reqs := rfl
@[simp] theorem State.setFull_waiters (s : State) (k : Nat) (b : Bool) : (s.setFull k b).waiters = s.waiters := rfl
@[simp] theorem State.setFull_packets (s : State) (k : Nat) (b : Bool) : (s.setFull k b).packets = s.packets := rfl
@[simp] theorem State.setFull_pathDue (s : State) (k : Nat) (b : Bool) : (s.setFull k b).pathDue = s.pathDue := rfl
@[simp] theorem State.setFull_disp (s : State) (k : Nat) (b : Bool) : (s.setFull k b).disp = s.disp := rfl
@[simp] theorem State.setFull_ahead (s : State) (k : Nat) (b : Bool) : (s.setFull k b).ahead = s.ahead := rfl
@[simp] theorem State.setFull_portsUsed (s : State) (k : Nat) (b : Bool) : (s.setFull k b).portsUsed = s.portsUsed := rfl
@[simp] theorem State.setFull_banksUsed (s : State) (k : Nat) (b : Bool) : (s.setFull k b).banksUsed = s.banksUsed := rfl
@[simp] theorem State.setFull_portLast (s : State) (k : Nat) (b : Bool) : (s.setFull k b).portLast = s.portLast := rfl
@[simp] theorem State.setFull_portAsks (s : State) (k : Nat) (b : Bool) : (s.setFull k b).portAsks = s.portAsks := rfl
@[simp] theorem State.setFull_pkg (s : State) (k : Nat) (b : Bool) : (s.setFull k b).pkg = s.pkg := rfl

/-! ### writeG -/

@[simp] theorem State.writeG_cycle (s : State) (tk i : Nat) (v : Word) : (s.writeG tk i v).cycle = s.cycle := rfl
@[simp] theorem State.writeG_cur (s : State) (tk i : Nat) (v : Word) : (s.writeG tk i v).cur = s.cur := rfl
@[simp] theorem State.writeG_subj (s : State) (tk i : Nat) (v : Word) : (s.writeG tk i v).subj = s.subj := rfl
@[simp] theorem State.writeG_phase (s : State) (tk i : Nat) (v : Word) : (s.writeG tk i v).phase = s.phase := rfl
@[simp] theorem State.writeG_issueQ (s : State) (tk i : Nat) (v : Word) : (s.writeG tk i v).issueQ = s.issueQ := rfl
@[simp] theorem State.writeG_tried (s : State) (tk i : Nat) (v : Word) : (s.writeG tk i v).tried = s.tried := rfl
@[simp] theorem State.writeG_todo (s : State) (tk i : Nat) (v : Word) : (s.writeG tk i v).todo = s.todo := rfl
@[simp] theorem State.writeG_timers (s : State) (tk i : Nat) (v : Word) : (s.writeG tk i v).timers = s.timers := rfl
@[simp] theorem State.writeG_inputs (s : State) (tk i : Nat) (v : Word) : (s.writeG tk i v).inputs = s.inputs := rfl
@[simp] theorem State.writeG_nextId (s : State) (tk i : Nat) (v : Word) : (s.writeG tk i v).nextId = s.nextId := rfl
@[simp] theorem State.writeG_draws (s : State) (tk i : Nat) (v : Word) : (s.writeG tk i v).draws = s.draws := rfl
@[simp] theorem State.writeG_mem (s : State) (tk i : Nat) (v : Word) : (s.writeG tk i v).mem = s.mem := rfl
@[simp] theorem State.writeG_fe (s : State) (tk i : Nat) (v : Word) : (s.writeG tk i v).fe = s.fe := rfl
@[simp] theorem State.writeG_oldBytes (s : State) (tk i : Nat) (v : Word) : (s.writeG tk i v).oldBytes = s.oldBytes := rfl
@[simp] theorem State.writeG_rf (s : State) (tk i : Nat) (v : Word) : (s.writeG tk i v).rf = SMap.putD s.rf (s.rfKey tk i) v 0 := rfl
@[simp] theorem State.writeG_sregs (s : State) (tk i : Nat) (v : Word) : (s.writeG tk i v).sregs = s.sregs := rfl
@[simp] theorem State.writeG_spend (s : State) (tk i : Nat) (v : Word) : (s.writeG tk i v).spend = s.spend := rfl
@[simp] theorem State.writeG_threads (s : State) (tk i : Nat) (v : Word) : (s.writeG tk i v).threads = s.threads := rfl
@[simp] theorem State.writeG_streams (s : State) (tk i : Nat) (v : Word) : (s.writeG tk i v).streams = s.streams := rfl
@[simp] theorem State.writeG_nbr (s : State) (tk i : Nat) (v : Word) : (s.writeG tk i v).nbr = s.nbr := rfl
@[simp] theorem State.writeG_nbrPops (s : State) (tk i : Nat) (v : Word) : (s.writeG tk i v).nbrPops = s.nbrPops := rfl
@[simp] theorem State.writeG_nbrFree (s : State) (tk i : Nat) (v : Word) : (s.writeG tk i v).nbrFree = s.nbrFree := rfl
@[simp] theorem State.writeG_nbrSent (s : State) (tk i : Nat) (v : Word) : (s.writeG tk i v).nbrSent = s.nbrSent := rfl
@[simp] theorem State.writeG_nbrSync (s : State) (tk i : Nat) (v : Word) : (s.writeG tk i v).nbrSync = s.nbrSync := rfl
@[simp] theorem State.writeG_cores (s : State) (tk i : Nat) (v : Word) : (s.writeG tk i v).cores = s.cores := rfl
@[simp] theorem State.writeG_teams (s : State) (tk i : Nat) (v : Word) : (s.writeG tk i v).teams = s.teams := rfl
@[simp] theorem State.writeG_engines (s : State) (tk i : Nat) (v : Word) : (s.writeG tk i v).engines = s.engines := rfl
@[simp] theorem State.writeG_slices (s : State) (tk i : Nat) (v : Word) : (s.writeG tk i v).slices = s.slices := rfl
@[simp] theorem State.writeG_reqs (s : State) (tk i : Nat) (v : Word) : (s.writeG tk i v).reqs = s.reqs := rfl
@[simp] theorem State.writeG_waiters (s : State) (tk i : Nat) (v : Word) : (s.writeG tk i v).waiters = s.waiters := rfl
@[simp] theorem State.writeG_packets (s : State) (tk i : Nat) (v : Word) : (s.writeG tk i v).packets = s.packets := rfl
@[simp] theorem State.writeG_pathDue (s : State) (tk i : Nat) (v : Word) : (s.writeG tk i v).pathDue = s.pathDue := rfl
@[simp] theorem State.writeG_disp (s : State) (tk i : Nat) (v : Word) : (s.writeG tk i v).disp = s.disp := rfl
@[simp] theorem State.writeG_ahead (s : State) (tk i : Nat) (v : Word) : (s.writeG tk i v).ahead = s.ahead := rfl
@[simp] theorem State.writeG_portsUsed (s : State) (tk i : Nat) (v : Word) : (s.writeG tk i v).portsUsed = s.portsUsed := rfl
@[simp] theorem State.writeG_banksUsed (s : State) (tk i : Nat) (v : Word) : (s.writeG tk i v).banksUsed = s.banksUsed := rfl
@[simp] theorem State.writeG_portLast (s : State) (tk i : Nat) (v : Word) : (s.writeG tk i v).portLast = s.portLast := rfl
@[simp] theorem State.writeG_portAsks (s : State) (tk i : Nat) (v : Word) : (s.writeG tk i v).portAsks = s.portAsks := rfl
@[simp] theorem State.writeG_pkg (s : State) (tk i : Nat) (v : Word) : (s.writeG tk i v).pkg = s.pkg := rfl

/-! ### modEngine -/

@[simp] theorem State.modEngine_cycle (s : State) (e : Nat) (f : CopyEngine → CopyEngine) : (s.modEngine e f).cycle = s.cycle := rfl
@[simp] theorem State.modEngine_cur (s : State) (e : Nat) (f : CopyEngine → CopyEngine) : (s.modEngine e f).cur = s.cur := rfl
@[simp] theorem State.modEngine_subj (s : State) (e : Nat) (f : CopyEngine → CopyEngine) : (s.modEngine e f).subj = s.subj := rfl
@[simp] theorem State.modEngine_phase (s : State) (e : Nat) (f : CopyEngine → CopyEngine) : (s.modEngine e f).phase = s.phase := rfl
@[simp] theorem State.modEngine_issueQ (s : State) (e : Nat) (f : CopyEngine → CopyEngine) : (s.modEngine e f).issueQ = s.issueQ := rfl
@[simp] theorem State.modEngine_tried (s : State) (e : Nat) (f : CopyEngine → CopyEngine) : (s.modEngine e f).tried = s.tried := rfl
@[simp] theorem State.modEngine_todo (s : State) (e : Nat) (f : CopyEngine → CopyEngine) : (s.modEngine e f).todo = s.todo := rfl
@[simp] theorem State.modEngine_timers (s : State) (e : Nat) (f : CopyEngine → CopyEngine) : (s.modEngine e f).timers = s.timers := rfl
@[simp] theorem State.modEngine_inputs (s : State) (e : Nat) (f : CopyEngine → CopyEngine) : (s.modEngine e f).inputs = s.inputs := rfl
@[simp] theorem State.modEngine_nextId (s : State) (e : Nat) (f : CopyEngine → CopyEngine) : (s.modEngine e f).nextId = s.nextId := rfl
@[simp] theorem State.modEngine_draws (s : State) (e : Nat) (f : CopyEngine → CopyEngine) : (s.modEngine e f).draws = s.draws := rfl
@[simp] theorem State.modEngine_mem (s : State) (e : Nat) (f : CopyEngine → CopyEngine) : (s.modEngine e f).mem = s.mem := rfl
@[simp] theorem State.modEngine_fe (s : State) (e : Nat) (f : CopyEngine → CopyEngine) : (s.modEngine e f).fe = s.fe := rfl
@[simp] theorem State.modEngine_oldBytes (s : State) (e : Nat) (f : CopyEngine → CopyEngine) : (s.modEngine e f).oldBytes = s.oldBytes := rfl
@[simp] theorem State.modEngine_rf (s : State) (e : Nat) (f : CopyEngine → CopyEngine) : (s.modEngine e f).rf = s.rf := rfl
@[simp] theorem State.modEngine_sregs (s : State) (e : Nat) (f : CopyEngine → CopyEngine) : (s.modEngine e f).sregs = s.sregs := rfl
@[simp] theorem State.modEngine_spend (s : State) (e : Nat) (f : CopyEngine → CopyEngine) : (s.modEngine e f).spend = s.spend := rfl
@[simp] theorem State.modEngine_threads (s : State) (e : Nat) (f : CopyEngine → CopyEngine) : (s.modEngine e f).threads = s.threads := rfl
@[simp] theorem State.modEngine_streams (s : State) (e : Nat) (f : CopyEngine → CopyEngine) : (s.modEngine e f).streams = s.streams := rfl
@[simp] theorem State.modEngine_nbr (s : State) (e : Nat) (f : CopyEngine → CopyEngine) : (s.modEngine e f).nbr = s.nbr := rfl
@[simp] theorem State.modEngine_nbrPops (s : State) (e : Nat) (f : CopyEngine → CopyEngine) : (s.modEngine e f).nbrPops = s.nbrPops := rfl
@[simp] theorem State.modEngine_nbrFree (s : State) (e : Nat) (f : CopyEngine → CopyEngine) : (s.modEngine e f).nbrFree = s.nbrFree := rfl
@[simp] theorem State.modEngine_nbrSent (s : State) (e : Nat) (f : CopyEngine → CopyEngine) : (s.modEngine e f).nbrSent = s.nbrSent := rfl
@[simp] theorem State.modEngine_nbrSync (s : State) (e : Nat) (f : CopyEngine → CopyEngine) : (s.modEngine e f).nbrSync = s.nbrSync := rfl
@[simp] theorem State.modEngine_cores (s : State) (e : Nat) (f : CopyEngine → CopyEngine) : (s.modEngine e f).cores = s.cores := rfl
@[simp] theorem State.modEngine_teams (s : State) (e : Nat) (f : CopyEngine → CopyEngine) : (s.modEngine e f).teams = s.teams := rfl
@[simp] theorem State.modEngine_slices (s : State) (e : Nat) (f : CopyEngine → CopyEngine) : (s.modEngine e f).slices = s.slices := rfl
@[simp] theorem State.modEngine_reqs (s : State) (e : Nat) (f : CopyEngine → CopyEngine) : (s.modEngine e f).reqs = s.reqs := rfl
@[simp] theorem State.modEngine_waiters (s : State) (e : Nat) (f : CopyEngine → CopyEngine) : (s.modEngine e f).waiters = s.waiters := rfl
@[simp] theorem State.modEngine_packets (s : State) (e : Nat) (f : CopyEngine → CopyEngine) : (s.modEngine e f).packets = s.packets := rfl
@[simp] theorem State.modEngine_pathDue (s : State) (e : Nat) (f : CopyEngine → CopyEngine) : (s.modEngine e f).pathDue = s.pathDue := rfl
@[simp] theorem State.modEngine_disp (s : State) (e : Nat) (f : CopyEngine → CopyEngine) : (s.modEngine e f).disp = s.disp := rfl
@[simp] theorem State.modEngine_ahead (s : State) (e : Nat) (f : CopyEngine → CopyEngine) : (s.modEngine e f).ahead = s.ahead := rfl
@[simp] theorem State.modEngine_portsUsed (s : State) (e : Nat) (f : CopyEngine → CopyEngine) : (s.modEngine e f).portsUsed = s.portsUsed := rfl
@[simp] theorem State.modEngine_banksUsed (s : State) (e : Nat) (f : CopyEngine → CopyEngine) : (s.modEngine e f).banksUsed = s.banksUsed := rfl
@[simp] theorem State.modEngine_portLast (s : State) (e : Nat) (f : CopyEngine → CopyEngine) : (s.modEngine e f).portLast = s.portLast := rfl
@[simp] theorem State.modEngine_portAsks (s : State) (e : Nat) (f : CopyEngine → CopyEngine) : (s.modEngine e f).portAsks = s.portAsks := rfl
@[simp] theorem State.modEngine_pkg (s : State) (e : Nat) (f : CopyEngine → CopyEngine) : (s.modEngine e f).pkg = s.pkg := rfl

/-! ### modSlice -/

@[simp] theorem State.modSlice_cycle (s : State) (k : Nat) (f : Slice → Slice) : (s.modSlice k f).cycle = s.cycle := rfl
@[simp] theorem State.modSlice_cur (s : State) (k : Nat) (f : Slice → Slice) : (s.modSlice k f).cur = s.cur := rfl
@[simp] theorem State.modSlice_subj (s : State) (k : Nat) (f : Slice → Slice) : (s.modSlice k f).subj = s.subj := rfl
@[simp] theorem State.modSlice_phase (s : State) (k : Nat) (f : Slice → Slice) : (s.modSlice k f).phase = s.phase := rfl
@[simp] theorem State.modSlice_issueQ (s : State) (k : Nat) (f : Slice → Slice) : (s.modSlice k f).issueQ = s.issueQ := rfl
@[simp] theorem State.modSlice_tried (s : State) (k : Nat) (f : Slice → Slice) : (s.modSlice k f).tried = s.tried := rfl
@[simp] theorem State.modSlice_todo (s : State) (k : Nat) (f : Slice → Slice) : (s.modSlice k f).todo = s.todo := rfl
@[simp] theorem State.modSlice_timers (s : State) (k : Nat) (f : Slice → Slice) : (s.modSlice k f).timers = s.timers := rfl
@[simp] theorem State.modSlice_inputs (s : State) (k : Nat) (f : Slice → Slice) : (s.modSlice k f).inputs = s.inputs := rfl
@[simp] theorem State.modSlice_nextId (s : State) (k : Nat) (f : Slice → Slice) : (s.modSlice k f).nextId = s.nextId := rfl
@[simp] theorem State.modSlice_draws (s : State) (k : Nat) (f : Slice → Slice) : (s.modSlice k f).draws = s.draws := rfl
@[simp] theorem State.modSlice_mem (s : State) (k : Nat) (f : Slice → Slice) : (s.modSlice k f).mem = s.mem := rfl
@[simp] theorem State.modSlice_fe (s : State) (k : Nat) (f : Slice → Slice) : (s.modSlice k f).fe = s.fe := rfl
@[simp] theorem State.modSlice_oldBytes (s : State) (k : Nat) (f : Slice → Slice) : (s.modSlice k f).oldBytes = s.oldBytes := rfl
@[simp] theorem State.modSlice_rf (s : State) (k : Nat) (f : Slice → Slice) : (s.modSlice k f).rf = s.rf := rfl
@[simp] theorem State.modSlice_sregs (s : State) (k : Nat) (f : Slice → Slice) : (s.modSlice k f).sregs = s.sregs := rfl
@[simp] theorem State.modSlice_spend (s : State) (k : Nat) (f : Slice → Slice) : (s.modSlice k f).spend = s.spend := rfl
@[simp] theorem State.modSlice_threads (s : State) (k : Nat) (f : Slice → Slice) : (s.modSlice k f).threads = s.threads := rfl
@[simp] theorem State.modSlice_streams (s : State) (k : Nat) (f : Slice → Slice) : (s.modSlice k f).streams = s.streams := rfl
@[simp] theorem State.modSlice_nbr (s : State) (k : Nat) (f : Slice → Slice) : (s.modSlice k f).nbr = s.nbr := rfl
@[simp] theorem State.modSlice_nbrPops (s : State) (k : Nat) (f : Slice → Slice) : (s.modSlice k f).nbrPops = s.nbrPops := rfl
@[simp] theorem State.modSlice_nbrFree (s : State) (k : Nat) (f : Slice → Slice) : (s.modSlice k f).nbrFree = s.nbrFree := rfl
@[simp] theorem State.modSlice_nbrSent (s : State) (k : Nat) (f : Slice → Slice) : (s.modSlice k f).nbrSent = s.nbrSent := rfl
@[simp] theorem State.modSlice_nbrSync (s : State) (k : Nat) (f : Slice → Slice) : (s.modSlice k f).nbrSync = s.nbrSync := rfl
@[simp] theorem State.modSlice_cores (s : State) (k : Nat) (f : Slice → Slice) : (s.modSlice k f).cores = s.cores := rfl
@[simp] theorem State.modSlice_teams (s : State) (k : Nat) (f : Slice → Slice) : (s.modSlice k f).teams = s.teams := rfl
@[simp] theorem State.modSlice_engines (s : State) (k : Nat) (f : Slice → Slice) : (s.modSlice k f).engines = s.engines := rfl
@[simp] theorem State.modSlice_reqs (s : State) (k : Nat) (f : Slice → Slice) : (s.modSlice k f).reqs = s.reqs := rfl
@[simp] theorem State.modSlice_waiters (s : State) (k : Nat) (f : Slice → Slice) : (s.modSlice k f).waiters = s.waiters := rfl
@[simp] theorem State.modSlice_packets (s : State) (k : Nat) (f : Slice → Slice) : (s.modSlice k f).packets = s.packets := rfl
@[simp] theorem State.modSlice_pathDue (s : State) (k : Nat) (f : Slice → Slice) : (s.modSlice k f).pathDue = s.pathDue := rfl
@[simp] theorem State.modSlice_disp (s : State) (k : Nat) (f : Slice → Slice) : (s.modSlice k f).disp = s.disp := rfl
@[simp] theorem State.modSlice_ahead (s : State) (k : Nat) (f : Slice → Slice) : (s.modSlice k f).ahead = s.ahead := rfl
@[simp] theorem State.modSlice_portsUsed (s : State) (k : Nat) (f : Slice → Slice) : (s.modSlice k f).portsUsed = s.portsUsed := rfl
@[simp] theorem State.modSlice_banksUsed (s : State) (k : Nat) (f : Slice → Slice) : (s.modSlice k f).banksUsed = s.banksUsed := rfl
@[simp] theorem State.modSlice_portLast (s : State) (k : Nat) (f : Slice → Slice) : (s.modSlice k f).portLast = s.portLast := rfl
@[simp] theorem State.modSlice_portAsks (s : State) (k : Nat) (f : Slice → Slice) : (s.modSlice k f).portAsks = s.portAsks := rfl
@[simp] theorem State.modSlice_pkg (s : State) (k : Nat) (f : Slice → Slice) : (s.modSlice k f).pkg = s.pkg := rfl

/-! ### modThread -/

@[simp] theorem State.modThread_cycle (s : State) (tk : Nat) (f : Thread → Thread) : (s.modThread tk f).cycle = s.cycle := by
  unfold State.modThread; cases SMap.get? s.threads tk <;> rfl
@[simp] theorem State.modThread_cur (s : State) (tk : Nat) (f : Thread → Thread) : (s.modThread tk f).cur = s.cur := by
  unfold State.modThread; cases SMap.get? s.threads tk <;> rfl
@[simp] theorem State.modThread_subj (s : State) (tk : Nat) (f : Thread → Thread) : (s.modThread tk f).subj = s.subj := by
  unfold State.modThread; cases SMap.get? s.threads tk <;> rfl
@[simp] theorem State.modThread_phase (s : State) (tk : Nat) (f : Thread → Thread) : (s.modThread tk f).phase = s.phase := by
  unfold State.modThread; cases SMap.get? s.threads tk <;> rfl
@[simp] theorem State.modThread_issueQ (s : State) (tk : Nat) (f : Thread → Thread) : (s.modThread tk f).issueQ = s.issueQ := by
  unfold State.modThread; cases SMap.get? s.threads tk <;> rfl
@[simp] theorem State.modThread_tried (s : State) (tk : Nat) (f : Thread → Thread) : (s.modThread tk f).tried = s.tried := by
  unfold State.modThread; cases SMap.get? s.threads tk <;> rfl
@[simp] theorem State.modThread_todo (s : State) (tk : Nat) (f : Thread → Thread) : (s.modThread tk f).todo = s.todo := by
  unfold State.modThread; cases SMap.get? s.threads tk <;> rfl
@[simp] theorem State.modThread_timers (s : State) (tk : Nat) (f : Thread → Thread) : (s.modThread tk f).timers = s.timers := by
  unfold State.modThread; cases SMap.get? s.threads tk <;> rfl
@[simp] theorem State.modThread_inputs (s : State) (tk : Nat) (f : Thread → Thread) : (s.modThread tk f).inputs = s.inputs := by
  unfold State.modThread; cases SMap.get? s.threads tk <;> rfl
@[simp] theorem State.modThread_nextId (s : State) (tk : Nat) (f : Thread → Thread) : (s.modThread tk f).nextId = s.nextId := by
  unfold State.modThread; cases SMap.get? s.threads tk <;> rfl
@[simp] theorem State.modThread_draws (s : State) (tk : Nat) (f : Thread → Thread) : (s.modThread tk f).draws = s.draws := by
  unfold State.modThread; cases SMap.get? s.threads tk <;> rfl
@[simp] theorem State.modThread_mem (s : State) (tk : Nat) (f : Thread → Thread) : (s.modThread tk f).mem = s.mem := by
  unfold State.modThread; cases SMap.get? s.threads tk <;> rfl
@[simp] theorem State.modThread_fe (s : State) (tk : Nat) (f : Thread → Thread) : (s.modThread tk f).fe = s.fe := by
  unfold State.modThread; cases SMap.get? s.threads tk <;> rfl
@[simp] theorem State.modThread_oldBytes (s : State) (tk : Nat) (f : Thread → Thread) : (s.modThread tk f).oldBytes = s.oldBytes := by
  unfold State.modThread; cases SMap.get? s.threads tk <;> rfl
@[simp] theorem State.modThread_rf (s : State) (tk : Nat) (f : Thread → Thread) : (s.modThread tk f).rf = s.rf := by
  unfold State.modThread; cases SMap.get? s.threads tk <;> rfl
@[simp] theorem State.modThread_sregs (s : State) (tk : Nat) (f : Thread → Thread) : (s.modThread tk f).sregs = s.sregs := by
  unfold State.modThread; cases SMap.get? s.threads tk <;> rfl
@[simp] theorem State.modThread_spend (s : State) (tk : Nat) (f : Thread → Thread) : (s.modThread tk f).spend = s.spend := by
  unfold State.modThread; cases SMap.get? s.threads tk <;> rfl
@[simp] theorem State.modThread_streams (s : State) (tk : Nat) (f : Thread → Thread) : (s.modThread tk f).streams = s.streams := by
  unfold State.modThread; cases SMap.get? s.threads tk <;> rfl
@[simp] theorem State.modThread_nbr (s : State) (tk : Nat) (f : Thread → Thread) : (s.modThread tk f).nbr = s.nbr := by
  unfold State.modThread; cases SMap.get? s.threads tk <;> rfl
@[simp] theorem State.modThread_nbrPops (s : State) (tk : Nat) (f : Thread → Thread) : (s.modThread tk f).nbrPops = s.nbrPops := by
  unfold State.modThread; cases SMap.get? s.threads tk <;> rfl
@[simp] theorem State.modThread_nbrFree (s : State) (tk : Nat) (f : Thread → Thread) : (s.modThread tk f).nbrFree = s.nbrFree := by
  unfold State.modThread; cases SMap.get? s.threads tk <;> rfl
@[simp] theorem State.modThread_nbrSent (s : State) (tk : Nat) (f : Thread → Thread) : (s.modThread tk f).nbrSent = s.nbrSent := by
  unfold State.modThread; cases SMap.get? s.threads tk <;> rfl
@[simp] theorem State.modThread_nbrSync (s : State) (tk : Nat) (f : Thread → Thread) : (s.modThread tk f).nbrSync = s.nbrSync := by
  unfold State.modThread; cases SMap.get? s.threads tk <;> rfl
@[simp] theorem State.modThread_cores (s : State) (tk : Nat) (f : Thread → Thread) : (s.modThread tk f).cores = s.cores := by
  unfold State.modThread; cases SMap.get? s.threads tk <;> rfl
@[simp] theorem State.modThread_teams (s : State) (tk : Nat) (f : Thread → Thread) : (s.modThread tk f).teams = s.teams := by
  unfold State.modThread; cases SMap.get? s.threads tk <;> rfl
@[simp] theorem State.modThread_engines (s : State) (tk : Nat) (f : Thread → Thread) : (s.modThread tk f).engines = s.engines := by
  unfold State.modThread; cases SMap.get? s.threads tk <;> rfl
@[simp] theorem State.modThread_slices (s : State) (tk : Nat) (f : Thread → Thread) : (s.modThread tk f).slices = s.slices := by
  unfold State.modThread; cases SMap.get? s.threads tk <;> rfl
@[simp] theorem State.modThread_reqs (s : State) (tk : Nat) (f : Thread → Thread) : (s.modThread tk f).reqs = s.reqs := by
  unfold State.modThread; cases SMap.get? s.threads tk <;> rfl
@[simp] theorem State.modThread_waiters (s : State) (tk : Nat) (f : Thread → Thread) : (s.modThread tk f).waiters = s.waiters := by
  unfold State.modThread; cases SMap.get? s.threads tk <;> rfl
@[simp] theorem State.modThread_packets (s : State) (tk : Nat) (f : Thread → Thread) : (s.modThread tk f).packets = s.packets := by
  unfold State.modThread; cases SMap.get? s.threads tk <;> rfl
@[simp] theorem State.modThread_pathDue (s : State) (tk : Nat) (f : Thread → Thread) : (s.modThread tk f).pathDue = s.pathDue := by
  unfold State.modThread; cases SMap.get? s.threads tk <;> rfl
@[simp] theorem State.modThread_disp (s : State) (tk : Nat) (f : Thread → Thread) : (s.modThread tk f).disp = s.disp := by
  unfold State.modThread; cases SMap.get? s.threads tk <;> rfl
@[simp] theorem State.modThread_ahead (s : State) (tk : Nat) (f : Thread → Thread) : (s.modThread tk f).ahead = s.ahead := by
  unfold State.modThread; cases SMap.get? s.threads tk <;> rfl
@[simp] theorem State.modThread_portsUsed (s : State) (tk : Nat) (f : Thread → Thread) : (s.modThread tk f).portsUsed = s.portsUsed := by
  unfold State.modThread; cases SMap.get? s.threads tk <;> rfl
@[simp] theorem State.modThread_banksUsed (s : State) (tk : Nat) (f : Thread → Thread) : (s.modThread tk f).banksUsed = s.banksUsed := by
  unfold State.modThread; cases SMap.get? s.threads tk <;> rfl
@[simp] theorem State.modThread_portLast (s : State) (tk : Nat) (f : Thread → Thread) : (s.modThread tk f).portLast = s.portLast := by
  unfold State.modThread; cases SMap.get? s.threads tk <;> rfl
@[simp] theorem State.modThread_portAsks (s : State) (tk : Nat) (f : Thread → Thread) : (s.modThread tk f).portAsks = s.portAsks := by
  unfold State.modThread; cases SMap.get? s.threads tk <;> rfl
@[simp] theorem State.modThread_pkg (s : State) (tk : Nat) (f : Thread → Thread) : (s.modThread tk f).pkg = s.pkg := by
  unfold State.modThread; cases SMap.get? s.threads tk <;> rfl

/-! ### modLaunch -/

@[simp] theorem State.modLaunch_cycle (s : State) (l : Nat) (f : Launch → Launch) : (s.modLaunch l f).cycle = s.cycle := by
  unfold State.modLaunch; cases SMap.get? s.disp.launches l <;> rfl
@[simp] theorem State.modLaunch_cur (s : State) (l : Nat) (f : Launch → Launch) : (s.modLaunch l f).cur = s.cur := by
  unfold State.modLaunch; cases SMap.get? s.disp.launches l <;> rfl
@[simp] theorem State.modLaunch_subj (s : State) (l : Nat) (f : Launch → Launch) : (s.modLaunch l f).subj = s.subj := by
  unfold State.modLaunch; cases SMap.get? s.disp.launches l <;> rfl
@[simp] theorem State.modLaunch_phase (s : State) (l : Nat) (f : Launch → Launch) : (s.modLaunch l f).phase = s.phase := by
  unfold State.modLaunch; cases SMap.get? s.disp.launches l <;> rfl
@[simp] theorem State.modLaunch_issueQ (s : State) (l : Nat) (f : Launch → Launch) : (s.modLaunch l f).issueQ = s.issueQ := by
  unfold State.modLaunch; cases SMap.get? s.disp.launches l <;> rfl
@[simp] theorem State.modLaunch_tried (s : State) (l : Nat) (f : Launch → Launch) : (s.modLaunch l f).tried = s.tried := by
  unfold State.modLaunch; cases SMap.get? s.disp.launches l <;> rfl
@[simp] theorem State.modLaunch_todo (s : State) (l : Nat) (f : Launch → Launch) : (s.modLaunch l f).todo = s.todo := by
  unfold State.modLaunch; cases SMap.get? s.disp.launches l <;> rfl
@[simp] theorem State.modLaunch_timers (s : State) (l : Nat) (f : Launch → Launch) : (s.modLaunch l f).timers = s.timers := by
  unfold State.modLaunch; cases SMap.get? s.disp.launches l <;> rfl
@[simp] theorem State.modLaunch_inputs (s : State) (l : Nat) (f : Launch → Launch) : (s.modLaunch l f).inputs = s.inputs := by
  unfold State.modLaunch; cases SMap.get? s.disp.launches l <;> rfl
@[simp] theorem State.modLaunch_nextId (s : State) (l : Nat) (f : Launch → Launch) : (s.modLaunch l f).nextId = s.nextId := by
  unfold State.modLaunch; cases SMap.get? s.disp.launches l <;> rfl
@[simp] theorem State.modLaunch_draws (s : State) (l : Nat) (f : Launch → Launch) : (s.modLaunch l f).draws = s.draws := by
  unfold State.modLaunch; cases SMap.get? s.disp.launches l <;> rfl
@[simp] theorem State.modLaunch_mem (s : State) (l : Nat) (f : Launch → Launch) : (s.modLaunch l f).mem = s.mem := by
  unfold State.modLaunch; cases SMap.get? s.disp.launches l <;> rfl
@[simp] theorem State.modLaunch_fe (s : State) (l : Nat) (f : Launch → Launch) : (s.modLaunch l f).fe = s.fe := by
  unfold State.modLaunch; cases SMap.get? s.disp.launches l <;> rfl
@[simp] theorem State.modLaunch_oldBytes (s : State) (l : Nat) (f : Launch → Launch) : (s.modLaunch l f).oldBytes = s.oldBytes := by
  unfold State.modLaunch; cases SMap.get? s.disp.launches l <;> rfl
@[simp] theorem State.modLaunch_rf (s : State) (l : Nat) (f : Launch → Launch) : (s.modLaunch l f).rf = s.rf := by
  unfold State.modLaunch; cases SMap.get? s.disp.launches l <;> rfl
@[simp] theorem State.modLaunch_sregs (s : State) (l : Nat) (f : Launch → Launch) : (s.modLaunch l f).sregs = s.sregs := by
  unfold State.modLaunch; cases SMap.get? s.disp.launches l <;> rfl
@[simp] theorem State.modLaunch_spend (s : State) (l : Nat) (f : Launch → Launch) : (s.modLaunch l f).spend = s.spend := by
  unfold State.modLaunch; cases SMap.get? s.disp.launches l <;> rfl
@[simp] theorem State.modLaunch_threads (s : State) (l : Nat) (f : Launch → Launch) : (s.modLaunch l f).threads = s.threads := by
  unfold State.modLaunch; cases SMap.get? s.disp.launches l <;> rfl
@[simp] theorem State.modLaunch_streams (s : State) (l : Nat) (f : Launch → Launch) : (s.modLaunch l f).streams = s.streams := by
  unfold State.modLaunch; cases SMap.get? s.disp.launches l <;> rfl
@[simp] theorem State.modLaunch_nbr (s : State) (l : Nat) (f : Launch → Launch) : (s.modLaunch l f).nbr = s.nbr := by
  unfold State.modLaunch; cases SMap.get? s.disp.launches l <;> rfl
@[simp] theorem State.modLaunch_nbrPops (s : State) (l : Nat) (f : Launch → Launch) : (s.modLaunch l f).nbrPops = s.nbrPops := by
  unfold State.modLaunch; cases SMap.get? s.disp.launches l <;> rfl
@[simp] theorem State.modLaunch_nbrFree (s : State) (l : Nat) (f : Launch → Launch) : (s.modLaunch l f).nbrFree = s.nbrFree := by
  unfold State.modLaunch; cases SMap.get? s.disp.launches l <;> rfl
@[simp] theorem State.modLaunch_nbrSent (s : State) (l : Nat) (f : Launch → Launch) : (s.modLaunch l f).nbrSent = s.nbrSent := by
  unfold State.modLaunch; cases SMap.get? s.disp.launches l <;> rfl
@[simp] theorem State.modLaunch_nbrSync (s : State) (l : Nat) (f : Launch → Launch) : (s.modLaunch l f).nbrSync = s.nbrSync := by
  unfold State.modLaunch; cases SMap.get? s.disp.launches l <;> rfl
@[simp] theorem State.modLaunch_cores (s : State) (l : Nat) (f : Launch → Launch) : (s.modLaunch l f).cores = s.cores := by
  unfold State.modLaunch; cases SMap.get? s.disp.launches l <;> rfl
@[simp] theorem State.modLaunch_teams (s : State) (l : Nat) (f : Launch → Launch) : (s.modLaunch l f).teams = s.teams := by
  unfold State.modLaunch; cases SMap.get? s.disp.launches l <;> rfl
@[simp] theorem State.modLaunch_engines (s : State) (l : Nat) (f : Launch → Launch) : (s.modLaunch l f).engines = s.engines := by
  unfold State.modLaunch; cases SMap.get? s.disp.launches l <;> rfl
@[simp] theorem State.modLaunch_slices (s : State) (l : Nat) (f : Launch → Launch) : (s.modLaunch l f).slices = s.slices := by
  unfold State.modLaunch; cases SMap.get? s.disp.launches l <;> rfl
@[simp] theorem State.modLaunch_reqs (s : State) (l : Nat) (f : Launch → Launch) : (s.modLaunch l f).reqs = s.reqs := by
  unfold State.modLaunch; cases SMap.get? s.disp.launches l <;> rfl
@[simp] theorem State.modLaunch_waiters (s : State) (l : Nat) (f : Launch → Launch) : (s.modLaunch l f).waiters = s.waiters := by
  unfold State.modLaunch; cases SMap.get? s.disp.launches l <;> rfl
@[simp] theorem State.modLaunch_packets (s : State) (l : Nat) (f : Launch → Launch) : (s.modLaunch l f).packets = s.packets := by
  unfold State.modLaunch; cases SMap.get? s.disp.launches l <;> rfl
@[simp] theorem State.modLaunch_pathDue (s : State) (l : Nat) (f : Launch → Launch) : (s.modLaunch l f).pathDue = s.pathDue := by
  unfold State.modLaunch; cases SMap.get? s.disp.launches l <;> rfl
@[simp] theorem State.modLaunch_ahead (s : State) (l : Nat) (f : Launch → Launch) : (s.modLaunch l f).ahead = s.ahead := by
  unfold State.modLaunch; cases SMap.get? s.disp.launches l <;> rfl
@[simp] theorem State.modLaunch_portsUsed (s : State) (l : Nat) (f : Launch → Launch) : (s.modLaunch l f).portsUsed = s.portsUsed := by
  unfold State.modLaunch; cases SMap.get? s.disp.launches l <;> rfl
@[simp] theorem State.modLaunch_banksUsed (s : State) (l : Nat) (f : Launch → Launch) : (s.modLaunch l f).banksUsed = s.banksUsed := by
  unfold State.modLaunch; cases SMap.get? s.disp.launches l <;> rfl
@[simp] theorem State.modLaunch_portLast (s : State) (l : Nat) (f : Launch → Launch) : (s.modLaunch l f).portLast = s.portLast := by
  unfold State.modLaunch; cases SMap.get? s.disp.launches l <;> rfl
@[simp] theorem State.modLaunch_portAsks (s : State) (l : Nat) (f : Launch → Launch) : (s.modLaunch l f).portAsks = s.portAsks := by
  unfold State.modLaunch; cases SMap.get? s.disp.launches l <;> rfl
@[simp] theorem State.modLaunch_pkg (s : State) (l : Nat) (f : Launch → Launch) : (s.modLaunch l f).pkg = s.pkg := by
  unfold State.modLaunch; cases SMap.get? s.disp.launches l <;> rfl

/-! ### modTask -/

@[simp] theorem State.modTask_cycle (s : State) (t : Nat) (f : Task → Task) : (s.modTask t f).cycle = s.cycle := by
  unfold State.modTask; cases SMap.get? s.disp.tasks t <;> rfl
@[simp] theorem State.modTask_cur (s : State) (t : Nat) (f : Task → Task) : (s.modTask t f).cur = s.cur := by
  unfold State.modTask; cases SMap.get? s.disp.tasks t <;> rfl
@[simp] theorem State.modTask_subj (s : State) (t : Nat) (f : Task → Task) : (s.modTask t f).subj = s.subj := by
  unfold State.modTask; cases SMap.get? s.disp.tasks t <;> rfl
@[simp] theorem State.modTask_phase (s : State) (t : Nat) (f : Task → Task) : (s.modTask t f).phase = s.phase := by
  unfold State.modTask; cases SMap.get? s.disp.tasks t <;> rfl
@[simp] theorem State.modTask_issueQ (s : State) (t : Nat) (f : Task → Task) : (s.modTask t f).issueQ = s.issueQ := by
  unfold State.modTask; cases SMap.get? s.disp.tasks t <;> rfl
@[simp] theorem State.modTask_tried (s : State) (t : Nat) (f : Task → Task) : (s.modTask t f).tried = s.tried := by
  unfold State.modTask; cases SMap.get? s.disp.tasks t <;> rfl
@[simp] theorem State.modTask_todo (s : State) (t : Nat) (f : Task → Task) : (s.modTask t f).todo = s.todo := by
  unfold State.modTask; cases SMap.get? s.disp.tasks t <;> rfl
@[simp] theorem State.modTask_timers (s : State) (t : Nat) (f : Task → Task) : (s.modTask t f).timers = s.timers := by
  unfold State.modTask; cases SMap.get? s.disp.tasks t <;> rfl
@[simp] theorem State.modTask_inputs (s : State) (t : Nat) (f : Task → Task) : (s.modTask t f).inputs = s.inputs := by
  unfold State.modTask; cases SMap.get? s.disp.tasks t <;> rfl
@[simp] theorem State.modTask_nextId (s : State) (t : Nat) (f : Task → Task) : (s.modTask t f).nextId = s.nextId := by
  unfold State.modTask; cases SMap.get? s.disp.tasks t <;> rfl
@[simp] theorem State.modTask_draws (s : State) (t : Nat) (f : Task → Task) : (s.modTask t f).draws = s.draws := by
  unfold State.modTask; cases SMap.get? s.disp.tasks t <;> rfl
@[simp] theorem State.modTask_mem (s : State) (t : Nat) (f : Task → Task) : (s.modTask t f).mem = s.mem := by
  unfold State.modTask; cases SMap.get? s.disp.tasks t <;> rfl
@[simp] theorem State.modTask_fe (s : State) (t : Nat) (f : Task → Task) : (s.modTask t f).fe = s.fe := by
  unfold State.modTask; cases SMap.get? s.disp.tasks t <;> rfl
@[simp] theorem State.modTask_oldBytes (s : State) (t : Nat) (f : Task → Task) : (s.modTask t f).oldBytes = s.oldBytes := by
  unfold State.modTask; cases SMap.get? s.disp.tasks t <;> rfl
@[simp] theorem State.modTask_rf (s : State) (t : Nat) (f : Task → Task) : (s.modTask t f).rf = s.rf := by
  unfold State.modTask; cases SMap.get? s.disp.tasks t <;> rfl
@[simp] theorem State.modTask_sregs (s : State) (t : Nat) (f : Task → Task) : (s.modTask t f).sregs = s.sregs := by
  unfold State.modTask; cases SMap.get? s.disp.tasks t <;> rfl
@[simp] theorem State.modTask_spend (s : State) (t : Nat) (f : Task → Task) : (s.modTask t f).spend = s.spend := by
  unfold State.modTask; cases SMap.get? s.disp.tasks t <;> rfl
@[simp] theorem State.modTask_threads (s : State) (t : Nat) (f : Task → Task) : (s.modTask t f).threads = s.threads := by
  unfold State.modTask; cases SMap.get? s.disp.tasks t <;> rfl
@[simp] theorem State.modTask_streams (s : State) (t : Nat) (f : Task → Task) : (s.modTask t f).streams = s.streams := by
  unfold State.modTask; cases SMap.get? s.disp.tasks t <;> rfl
@[simp] theorem State.modTask_nbr (s : State) (t : Nat) (f : Task → Task) : (s.modTask t f).nbr = s.nbr := by
  unfold State.modTask; cases SMap.get? s.disp.tasks t <;> rfl
@[simp] theorem State.modTask_nbrPops (s : State) (t : Nat) (f : Task → Task) : (s.modTask t f).nbrPops = s.nbrPops := by
  unfold State.modTask; cases SMap.get? s.disp.tasks t <;> rfl
@[simp] theorem State.modTask_nbrFree (s : State) (t : Nat) (f : Task → Task) : (s.modTask t f).nbrFree = s.nbrFree := by
  unfold State.modTask; cases SMap.get? s.disp.tasks t <;> rfl
@[simp] theorem State.modTask_nbrSent (s : State) (t : Nat) (f : Task → Task) : (s.modTask t f).nbrSent = s.nbrSent := by
  unfold State.modTask; cases SMap.get? s.disp.tasks t <;> rfl
@[simp] theorem State.modTask_nbrSync (s : State) (t : Nat) (f : Task → Task) : (s.modTask t f).nbrSync = s.nbrSync := by
  unfold State.modTask; cases SMap.get? s.disp.tasks t <;> rfl
@[simp] theorem State.modTask_cores (s : State) (t : Nat) (f : Task → Task) : (s.modTask t f).cores = s.cores := by
  unfold State.modTask; cases SMap.get? s.disp.tasks t <;> rfl
@[simp] theorem State.modTask_teams (s : State) (t : Nat) (f : Task → Task) : (s.modTask t f).teams = s.teams := by
  unfold State.modTask; cases SMap.get? s.disp.tasks t <;> rfl
@[simp] theorem State.modTask_engines (s : State) (t : Nat) (f : Task → Task) : (s.modTask t f).engines = s.engines := by
  unfold State.modTask; cases SMap.get? s.disp.tasks t <;> rfl
@[simp] theorem State.modTask_slices (s : State) (t : Nat) (f : Task → Task) : (s.modTask t f).slices = s.slices := by
  unfold State.modTask; cases SMap.get? s.disp.tasks t <;> rfl
@[simp] theorem State.modTask_reqs (s : State) (t : Nat) (f : Task → Task) : (s.modTask t f).reqs = s.reqs := by
  unfold State.modTask; cases SMap.get? s.disp.tasks t <;> rfl
@[simp] theorem State.modTask_waiters (s : State) (t : Nat) (f : Task → Task) : (s.modTask t f).waiters = s.waiters := by
  unfold State.modTask; cases SMap.get? s.disp.tasks t <;> rfl
@[simp] theorem State.modTask_packets (s : State) (t : Nat) (f : Task → Task) : (s.modTask t f).packets = s.packets := by
  unfold State.modTask; cases SMap.get? s.disp.tasks t <;> rfl
@[simp] theorem State.modTask_pathDue (s : State) (t : Nat) (f : Task → Task) : (s.modTask t f).pathDue = s.pathDue := by
  unfold State.modTask; cases SMap.get? s.disp.tasks t <;> rfl
@[simp] theorem State.modTask_ahead (s : State) (t : Nat) (f : Task → Task) : (s.modTask t f).ahead = s.ahead := by
  unfold State.modTask; cases SMap.get? s.disp.tasks t <;> rfl
@[simp] theorem State.modTask_portsUsed (s : State) (t : Nat) (f : Task → Task) : (s.modTask t f).portsUsed = s.portsUsed := by
  unfold State.modTask; cases SMap.get? s.disp.tasks t <;> rfl
@[simp] theorem State.modTask_banksUsed (s : State) (t : Nat) (f : Task → Task) : (s.modTask t f).banksUsed = s.banksUsed := by
  unfold State.modTask; cases SMap.get? s.disp.tasks t <;> rfl
@[simp] theorem State.modTask_portLast (s : State) (t : Nat) (f : Task → Task) : (s.modTask t f).portLast = s.portLast := by
  unfold State.modTask; cases SMap.get? s.disp.tasks t <;> rfl
@[simp] theorem State.modTask_portAsks (s : State) (t : Nat) (f : Task → Task) : (s.modTask t f).portAsks = s.portAsks := by
  unfold State.modTask; cases SMap.get? s.disp.tasks t <;> rfl
@[simp] theorem State.modTask_pkg (s : State) (t : Nat) (f : Task → Task) : (s.modTask t f).pkg = s.pkg := by
  unfold State.modTask; cases SMap.get? s.disp.tasks t <;> rfl

/-! ### fresh -/

@[simp] theorem State.fresh_fst (s : State) : s.fresh.1 = s.nextId := rfl
@[simp] theorem State.fresh_snd_cycle (s : State) : s.fresh.2.cycle = s.cycle := rfl
@[simp] theorem State.fresh_snd_cur (s : State) : s.fresh.2.cur = s.cur := rfl
@[simp] theorem State.fresh_snd_subj (s : State) : s.fresh.2.subj = s.subj := rfl
@[simp] theorem State.fresh_snd_phase (s : State) : s.fresh.2.phase = s.phase := rfl
@[simp] theorem State.fresh_snd_issueQ (s : State) : s.fresh.2.issueQ = s.issueQ := rfl
@[simp] theorem State.fresh_snd_tried (s : State) : s.fresh.2.tried = s.tried := rfl
@[simp] theorem State.fresh_snd_todo (s : State) : s.fresh.2.todo = s.todo := rfl
@[simp] theorem State.fresh_snd_timers (s : State) : s.fresh.2.timers = s.timers := rfl
@[simp] theorem State.fresh_snd_inputs (s : State) : s.fresh.2.inputs = s.inputs := rfl
@[simp] theorem State.fresh_snd_nextId (s : State) : s.fresh.2.nextId = s.nextId + 1 := rfl
@[simp] theorem State.fresh_snd_draws (s : State) : s.fresh.2.draws = s.draws := rfl
@[simp] theorem State.fresh_snd_mem (s : State) : s.fresh.2.mem = s.mem := rfl
@[simp] theorem State.fresh_snd_fe (s : State) : s.fresh.2.fe = s.fe := rfl
@[simp] theorem State.fresh_snd_oldBytes (s : State) : s.fresh.2.oldBytes = s.oldBytes := rfl
@[simp] theorem State.fresh_snd_rf (s : State) : s.fresh.2.rf = s.rf := rfl
@[simp] theorem State.fresh_snd_sregs (s : State) : s.fresh.2.sregs = s.sregs := rfl
@[simp] theorem State.fresh_snd_spend (s : State) : s.fresh.2.spend = s.spend := rfl
@[simp] theorem State.fresh_snd_threads (s : State) : s.fresh.2.threads = s.threads := rfl
@[simp] theorem State.fresh_snd_streams (s : State) : s.fresh.2.streams = s.streams := rfl
@[simp] theorem State.fresh_snd_nbr (s : State) : s.fresh.2.nbr = s.nbr := rfl
@[simp] theorem State.fresh_snd_nbrPops (s : State) : s.fresh.2.nbrPops = s.nbrPops := rfl
@[simp] theorem State.fresh_snd_nbrFree (s : State) : s.fresh.2.nbrFree = s.nbrFree := rfl
@[simp] theorem State.fresh_snd_nbrSent (s : State) : s.fresh.2.nbrSent = s.nbrSent := rfl
@[simp] theorem State.fresh_snd_nbrSync (s : State) : s.fresh.2.nbrSync = s.nbrSync := rfl
@[simp] theorem State.fresh_snd_cores (s : State) : s.fresh.2.cores = s.cores := rfl
@[simp] theorem State.fresh_snd_teams (s : State) : s.fresh.2.teams = s.teams := rfl
@[simp] theorem State.fresh_snd_engines (s : State) : s.fresh.2.engines = s.engines := rfl
@[simp] theorem State.fresh_snd_slices (s : State) : s.fresh.2.slices = s.slices := rfl
@[simp] theorem State.fresh_snd_reqs (s : State) : s.fresh.2.reqs = s.reqs := rfl
@[simp] theorem State.fresh_snd_waiters (s : State) : s.fresh.2.waiters = s.waiters := rfl
@[simp] theorem State.fresh_snd_packets (s : State) : s.fresh.2.packets = s.packets := rfl
@[simp] theorem State.fresh_snd_pathDue (s : State) : s.fresh.2.pathDue = s.pathDue := rfl
@[simp] theorem State.fresh_snd_disp (s : State) : s.fresh.2.disp = s.disp := rfl
@[simp] theorem State.fresh_snd_ahead (s : State) : s.fresh.2.ahead = s.ahead := rfl
@[simp] theorem State.fresh_snd_portsUsed (s : State) : s.fresh.2.portsUsed = s.portsUsed := rfl
@[simp] theorem State.fresh_snd_banksUsed (s : State) : s.fresh.2.banksUsed = s.banksUsed := rfl
@[simp] theorem State.fresh_snd_portLast (s : State) : s.fresh.2.portLast = s.portLast := rfl
@[simp] theorem State.fresh_snd_portAsks (s : State) : s.fresh.2.portAsks = s.portAsks := rfl
@[simp] theorem State.fresh_snd_pkg (s : State) : s.fresh.2.pkg = s.pkg := rfl

/-! ### delay -/

@[simp] theorem State.delay_fst (s : State) : s.delay.1 = Config.latency s.draws := rfl
@[simp] theorem State.delay_snd_cycle (s : State) : s.delay.2.cycle = s.cycle := rfl
@[simp] theorem State.delay_snd_cur (s : State) : s.delay.2.cur = s.cur := rfl
@[simp] theorem State.delay_snd_subj (s : State) : s.delay.2.subj = s.subj := rfl
@[simp] theorem State.delay_snd_phase (s : State) : s.delay.2.phase = s.phase := rfl
@[simp] theorem State.delay_snd_issueQ (s : State) : s.delay.2.issueQ = s.issueQ := rfl
@[simp] theorem State.delay_snd_tried (s : State) : s.delay.2.tried = s.tried := rfl
@[simp] theorem State.delay_snd_todo (s : State) : s.delay.2.todo = s.todo := rfl
@[simp] theorem State.delay_snd_timers (s : State) : s.delay.2.timers = s.timers := rfl
@[simp] theorem State.delay_snd_inputs (s : State) : s.delay.2.inputs = s.inputs := rfl
@[simp] theorem State.delay_snd_nextId (s : State) : s.delay.2.nextId = s.nextId := rfl
@[simp] theorem State.delay_snd_draws (s : State) : s.delay.2.draws = s.draws + 1 := rfl
@[simp] theorem State.delay_snd_mem (s : State) : s.delay.2.mem = s.mem := rfl
@[simp] theorem State.delay_snd_fe (s : State) : s.delay.2.fe = s.fe := rfl
@[simp] theorem State.delay_snd_oldBytes (s : State) : s.delay.2.oldBytes = s.oldBytes := rfl
@[simp] theorem State.delay_snd_rf (s : State) : s.delay.2.rf = s.rf := rfl
@[simp] theorem State.delay_snd_sregs (s : State) : s.delay.2.sregs = s.sregs := rfl
@[simp] theorem State.delay_snd_spend (s : State) : s.delay.2.spend = s.spend := rfl
@[simp] theorem State.delay_snd_threads (s : State) : s.delay.2.threads = s.threads := rfl
@[simp] theorem State.delay_snd_streams (s : State) : s.delay.2.streams = s.streams := rfl
@[simp] theorem State.delay_snd_nbr (s : State) : s.delay.2.nbr = s.nbr := rfl
@[simp] theorem State.delay_snd_nbrPops (s : State) : s.delay.2.nbrPops = s.nbrPops := rfl
@[simp] theorem State.delay_snd_nbrFree (s : State) : s.delay.2.nbrFree = s.nbrFree := rfl
@[simp] theorem State.delay_snd_nbrSent (s : State) : s.delay.2.nbrSent = s.nbrSent := rfl
@[simp] theorem State.delay_snd_nbrSync (s : State) : s.delay.2.nbrSync = s.nbrSync := rfl
@[simp] theorem State.delay_snd_cores (s : State) : s.delay.2.cores = s.cores := rfl
@[simp] theorem State.delay_snd_teams (s : State) : s.delay.2.teams = s.teams := rfl
@[simp] theorem State.delay_snd_engines (s : State) : s.delay.2.engines = s.engines := rfl
@[simp] theorem State.delay_snd_slices (s : State) : s.delay.2.slices = s.slices := rfl
@[simp] theorem State.delay_snd_reqs (s : State) : s.delay.2.reqs = s.reqs := rfl
@[simp] theorem State.delay_snd_waiters (s : State) : s.delay.2.waiters = s.waiters := rfl
@[simp] theorem State.delay_snd_packets (s : State) : s.delay.2.packets = s.packets := rfl
@[simp] theorem State.delay_snd_pathDue (s : State) : s.delay.2.pathDue = s.pathDue := rfl
@[simp] theorem State.delay_snd_disp (s : State) : s.delay.2.disp = s.disp := rfl
@[simp] theorem State.delay_snd_ahead (s : State) : s.delay.2.ahead = s.ahead := rfl
@[simp] theorem State.delay_snd_portsUsed (s : State) : s.delay.2.portsUsed = s.portsUsed := rfl
@[simp] theorem State.delay_snd_banksUsed (s : State) : s.delay.2.banksUsed = s.banksUsed := rfl
@[simp] theorem State.delay_snd_portLast (s : State) : s.delay.2.portLast = s.portLast := rfl
@[simp] theorem State.delay_snd_portAsks (s : State) : s.delay.2.portAsks = s.portAsks := rfl
@[simp] theorem State.delay_snd_pkg (s : State) : s.delay.2.pkg = s.pkg := rfl

/-! ### Requests ahead and bank ports (R95, R117) -/

/-- A request that goes first for its die changes only the list of those that are ahead. -/
theorem State.goAhead_eq (s : State) (r : Req) : ∃ l, s.goAhead r = { s with ahead := l } := by
  unfold State.goAhead; dsimp only; split
  · exact ⟨s.ahead, rfl⟩
  · exact ⟨_, rfl⟩
/-- Settling leaves some of the requests that were ahead, and everything else. -/
theorem State.settleAhead_eq (s : State) : ∃ p, s.settleAhead = { s with ahead := s.ahead.filter p } := by
  unfold State.settleAhead; dsimp only; split
  · exact ⟨fun _ => true, by rw [List.filter_true]⟩
  · exact ⟨_, rfl⟩
/-- An access that asks at engine ports changes nothing but what has been served and what waits there. -/
theorem State.askPorts_frame (s : State) (u : PortUser) (id : Nat) (banks : List Nat) :
    ∃ used last asks, (s.askPorts u id banks).2 = { s with banksUsed := used, portLast := last, portAsks := asks } := by
  unfold State.askPorts
  split
  · exact ⟨s.banksUsed, s.portLast, s.portAsks, rfl⟩
  · exact ⟨_, _, _, rfl⟩
/-- A list without repeats is what is left of it when repeats are dropped. -/
theorem eraseDups_of_nodup {l : List Nat} (h : l.Nodup) : l.eraseDups = l := by
  induction l with
  | nil => rfl
  | cons a l ih =>
    obtain ⟨ha, hl⟩ := List.nodup_cons.mp h
    have hf : (l.filter fun b => !b == a) = l := List.filter_eq_self.mpr fun b hb => by simp [ne_of_mem_of_not_mem hb ha]
    rw [List.eraseDups_cons, hf, ih hl]
/-- Dropping repeats leaves none. -/
theorem nodup_eraseDups : ∀ (n : Nat) (l : List Nat), l.length ≤ n → l.eraseDups.Nodup
  | _, [], _ => List.nodup_nil
  | n + 1, a :: l, h => by
    rw [List.eraseDups_cons, List.nodup_cons]
    refine ⟨fun hm => by simp at hm, nodup_eraseDups n _ ?_⟩
    exact (List.length_filter_le _ _).trans (Nat.le_of_succ_le_succ h)
/-- A list taken out of itself, element by element. -/
theorem foldl_erase_self (l : List Nat) : l.foldl List.erase l = [] := by
  induction l with
  | nil => rfl
  | cons a l ih => simpa using ih
/-- The banks of an access of one range are all different. -/
theorem banksOf_nodup (node off n : Nat) : (banksOf node off n).Nodup := nodup_eraseDups _ _ le_rfl
/-- So are those of a request. -/
theorem Req.banks_nodup (r : Req) : r.banks.Nodup := by
  unfold Req.banks
  split
  · exact banksOf_nodup _ _ _
  · exact List.nodup_nil
/-- An access is served at once at ports that are free and that nobody else waits for, when it needs each of them once. -/
theorem State.askPorts_free {s : State} {u : PortUser} {id : Nat} {banks : List Nat} (once : banks.Nodup)
    (free : ∀ b ∈ banks, b ∉ s.banksUsed) (none' : ∀ a ∈ s.portAsks, a.isOf u id = false ∧ ∀ b ∈ banks, b ∉ a.left) :
    s.askPorts u id banks = (true, { s with
      banksUsed := banks ++ s.banksUsed, portLast := banks.foldl (fun m b => SMap.put m b u.num) s.portLast }) := by
  unfold State.askPorts
  split
  · rename_i he; simp [List.isEmpty_iff.mp he]
  · have hf : (s.portAsks.find? fun a => a.isOf u id && a.banks == banks) = none :=
      List.find?_eq_none.mpr fun a ha => by simp [(none' a ha).1]
    have hg : (banks.eraseDups.filter fun b => !s.banksUsed.contains b && !s.portAhead u id b) = banks := by
      rw [eraseDups_of_nodup once]
      refine List.filter_eq_self.mpr fun b hb => ?_
      have ha : s.portAhead u id b = false := by
        simp only [State.portAhead, Bool.or_eq_false_iff, List.any_eq_false, Bool.and_eq_true, not_and]
        refine ⟨fun a h _ => ?_, fun a h h' => ?_⟩
        · simpa using (none' a (List.takeWhile_sublist _ |>.subset h)).2 b hb
        · simp [(none' a h).2 b hb] at h'
      simp [free b hb, ha]
    have hk : (s.portAsks.filter fun a => !a.isOf u id) = s.portAsks :=
      List.filter_eq_self.mpr fun a ha => by simp [(none' a ha).1]
    simp only [hf, hg, foldl_erase_self, hk, List.isEmpty_nil, if_true]

end Sys2Proof.Machine
end

