-- ==== Sys2Proof/Tests/Slice0.lean ====
section
/-! SUPPORT. The model's own tests: words of the manual and what they decode to, instructions that no word encodes, worked
examples of the manual, and for each statement concrete states that meet its hypotheses. -/

set_option maxRecDepth 20000
set_option Elab.async false

namespace Sys2Proof.Tests

open Sys2Proof Sys2Proof.Machine

/-! ### Hypotheses as tests -/

/-- `Canonical` as a Bool. -/
def canonB (s : State) : Bool :=
  Memory.wf s.mem && SMap.sortedFrom 0 s.rf && SMap.sortedFrom 0 s.sregs && SMap.sortedFrom 0 s.streams &&
    SMap.sortedFrom 0 s.fe && s.teams.all fun e => SMap.sortedFrom 0 e.2.mx.acc && SMap.sortedFrom 0 e.2.mx.corr
theorem canon_of {s : State} (h : canonB s = true) : Canonical s := by
  simpa [canonB, Canonical, and_assoc] using h

/-- `Sized` as a Bool, for a state whose chosen thread, if any, is ready. -/
def sizedB (s : State) : Bool :=
  (s.cores.all fun e => e.2.sized) && (s.teams.all fun e => e.2.sized) &&
    (s.disp.launches.all fun e => e.2.saved.all fun k => k.mx.sized && k.cores.all fun c => c.sized) &&
    s.pkg.rings.length == 8 && s.pkg.links.length == 8 && s.pkg.bucketMaps.length == 4 && s.pkg.mapGens.length == 4 &&
    (match s.cur.bind s.thread? with | some th => th.run == .ready | none => true)
theorem sized_of {s : State} (h : sizedB s = true) : Sized s := by
  simp only [sizedB, Bool.and_eq_true, List.all_eq_true, beq_iff_eq, and_assoc] at h
  obtain ⟨cores, teams, saved, pkg⟩ := h
  exact ⟨cores, teams, saved, pkg.1, pkg.2.1, pkg.2.2.1, pkg.2.2.2.1,
    fun tk th hc ht => .inl (by simpa [hc, ht] using pkg.2.2.2.2)⟩

/-- `Ready` as a Bool. -/
def readyB (i : Instr) (s : State) (tk : Nat) (th : Thread) : Bool :=
  s.cur == some tk && s.thread? tk == some th && prefixOk i th && inWindow i th.w && s.guardOk tk (prefixOf th) &&
    s.queueFault tk i == none && s.headToken tk i 2 == none && (!s.compat tk || s.headToken tk i 1 == none) &&
    s.popsReady tk i && s.roomReady tk i && s.popMarker tk i == none
theorem ready_of {i : Instr} {s : State} {tk : Nat} {th : Thread} (h : readyB i s tk th = true) : Ready i s tk th := by
  simp only [readyB, Bool.and_eq_true, beq_iff_eq, Bool.or_eq_true, Bool.not_eq_true', and_assoc] at h
  obtain ⟨cur, thread, pre, win, guard, nofault, head2, head1, rest⟩ := h
  exact ⟨⟨cur, thread⟩, pre, win, guard, nofault, head2, fun hc => head1.resolve_left (by simp [hc]),
    rest.1, rest.2.1, rest.2.2⟩

/-- Each of these instructions is ready at its state, which has the invariants, and the rest of the hypotheses holds. -/
def Runs (l : List (Instr × State × Bool)) : Prop := ∀ x ∈ l, ∃ tk th, Ready x.1 x.2.1 tk th ∧ Canonical x.2.1 ∧
  Sized x.2.1 ∧ th.carry = none ∧ SMap.sortedFrom 0 x.2.1.threads = true ∧ x.2.2 = true
def runsB (l : List (Instr × State × Bool)) : Bool := l.all fun x => match x.2.1.cur with
  | none => false
  | some tk => readyB x.1 x.2.1 tk (x.2.1.thread tk) && canonB x.2.1 && sizedB x.2.1 && (x.2.1.thread tk).carry.isNone &&
      SMap.sortedFrom 0 x.2.1.threads && x.2.2
theorem runs_of {l : List (Instr × State × Bool)} (h : runsB l = true) : Runs l := by
  intro x hx
  have h := List.all_eq_true.mp h x hx
  split at h
  · cases h
  · rename_i tk _
    simp only [Bool.and_eq_true, and_assoc] at h
    exact ⟨tk, _, ready_of h.1, canon_of h.2.1, sized_of h.2.2.1, by simpa using h.2.2.2.1, h.2.2.2.2⟩

/-- Each of these states has the invariants, and the rest of the hypotheses holds. -/
def Stands (l : List (State × Bool)) : Prop := ∀ x ∈ l, Canonical x.1 ∧ Sized x.1 ∧ SMap.sortedFrom 0 x.1.threads = true ∧
    x.2 = true
theorem stands_of {l : List (State × Bool)}
    (h : (l.all fun x => canonB x.1 && sizedB x.1 && SMap.sortedFrom 0 x.1.threads && x.2) = true) : Stands l := by
  intro x hx
  have h := List.all_eq_true.mp h x hx
  simp only [Bool.and_eq_true, and_assoc] at h
  exact ⟨canon_of h.1, sized_of h.2.1, h.2.2⟩

/-- `Arrives` as a Bool. -/
def arrives (s : State) (p : Payload) : Bool :=
  (SMap.get? s.packets s.subj.n).any fun q => q.id == s.subj.n && q.payload == p && !s.behind q
theorem arrives_of {s : State} {p : Payload} (h : arrives s p = true) : Arrives s p := by
  obtain ⟨q, hq, h⟩ := (Option.any_eq_true _ _).mp h
  simp only [Bool.and_eq_true, beq_iff_eq, Bool.not_eq_true'] at h
  exact ⟨q, hq, h.1.1, h.1.2, h.2⟩
/-- `Turn`, with the request found and its number the step's subject, as a Bool. -/
def turnsB (s : State) (r : Req) : Bool :=
  s.req? s.subj.n == some r && r.id == s.subj.n && decide (r.stage ≠ .performed ∧ r.stage ≠ .port ∧ r.stage ≠ .waiter) &&
    s.redirected r == r && (r.banks.all fun b => !s.banksUsed.contains b) &&
    (s.portAsks.all fun a => !a.isOf .fabric r.id && r.banks.all fun b => !a.left.contains b) && !s.mustWait r && match r.tgt with
      | some (.line _ _ _ _) => !s.lineBusy r
      | _ => !s.earlierSent r && !s.meetsAhead r
theorem turns_of {s : State} {r : Req} (h : turnsB s r = true) : s.req? s.subj.n = some r ∧ r.id = s.subj.n ∧ Turn s r := by
  simp only [turnsB, Bool.and_eq_true, beq_iff_eq, decide_eq_true_eq, List.all_eq_true, Bool.not_eq_true',
    and_assoc] at h
  obtain ⟨found, num, st1, st2, st3, redir, banks, asks, wait, line⟩ := h
  refine ⟨found, num, st1, st2, st3, redir, fun x hx => by simpa using banks x hx,
    fun a ha => ⟨(asks a ha).1, fun b hb => by simpa using (asks a ha).2 b hb⟩, wait, ?_⟩
  split at line <;> simp_all
/-- `TurnOf` in the same way. -/
def turnB (s : State) (r : Req) : Bool := turnsB s r && s.ownerCause r == 0
theorem turn_of {s : State} {r : Req} (h : turnB s r = true) : s.req? s.subj.n = some r ∧ r.id = s.subj.n ∧ TurnOf s r := by
  simp only [turnB, Bool.and_eq_true, beq_iff_eq] at h
  exact ⟨(turns_of h.1).1, (turns_of h.1).2.1, (turns_of h.1).2.2, h.2⟩
/-- `HostTakes` and `HostAccepts` as Bools. -/
def hostTakesB (s : State) (r code : Nat) (d : List Word) : Bool :=
  decide (r < 8) && (s.hring r).cmd == none && s.ringReady r && s.nextCommand r == d && (d.getD 0 0).toNat % 256 == code
theorem host_takes_of {s : State} {r code : Nat} {d : List Word} (h : hostTakesB s r code d = true) : HostTakes s r code d := by
  simpa [hostTakesB, HostTakes, and_assoc] using h
def hostAcceptsB (s : State) (code n : Nat) (d : List Word) : Bool :=
  (s.pkg.booted || code == 1 || code == 10) && s.pkg.lifecycle != 3 && (d.getD 0 0).toNat / 2 ^ 8 % 2 ^ 8 == 0 &&
    (d.getD 0 0).toNat / 2 ^ 32 == 0 && (d.drop (n + 1)).all fun w => w == 0
theorem host_accepts_of {s : State} {code n : Nat} {d : List Word} (h : hostAcceptsB s code n d = true) :
    HostAccepts s code n d := by
  simp only [hostAcceptsB, Bool.and_eq_true, beq_iff_eq, Bool.or_eq_true, bne_iff_ne, ne_eq, List.all_eq_true,
    and_assoc] at h
  obtain ⟨boot, life, flags, high, zeros⟩ := h
  refine ⟨by tauto, life, flags, high, fun i hi => ?_⟩
  rcases Nat.lt_or_ge i d.length with hl | hl
  · have := zeros (d[i]) (List.mem_iff_getElem.mpr ⟨i - (n + 1), by simp; omega, by simp; congr 1; omega⟩)
    simpa [List.getD_eq_getElem?_getD, List.getElem?_eq_getElem hl] using this
  · simp [List.getD_eq_getElem?_getD, List.getElem?_eq_none hl]

/-! ### Small states -/

/-- A launch whose partition is the whole package, with its page table at 0x10000. -/
def lch : Launch :=
  { handle := 5, root := 0x10000, wpdie := 0xFF, wpnode := List.replicate 8 0xFFFFFFFFFFFFFFFF, x := 4, y := 4, budget := 3,
    tasks := 16, groups := [{ core := 0, count := 2, w := 16, pc := 0x4000 }] }
/-- Reset, booted, in cycle 50, with one launch and one of its tasks on team 0. -/
def st0 : State :=
  { nextId := 100, cycle := 50, pkg := { booted := true },
    disp :=
      { launches := [(1, lch)], order := [1],
        tasks := [(1, { launch := 1, num := 0, x := 0, y := 0, team := 0, budget := 2, live := 1 })] } }
def thr : Thread := { born := 1, w := 64, pc := 0x1000, launch := 1, task := 1 }
/-- Window registers set. -/
def wrs (s : State) (tk : Nat) (l : List (Nat × Word)) : State := l.foldl (fun s e => s.writeG tk e.1 e.2) s
/-- A state in which the thread tk is about to issue. -/
def on (tk : Nat) (th : Thread) (l : List (Nat × Word)) : State := wrs { st0 with cur := some tk, threads := [(tk, th)] } tk l
/-- A status word in which a PRE is pending. -/
def preW (i : Instr) : Word := (encode i ++ (0 : BitVec 32)) ||| 8
def pre (fmt aux : BitVec 4) (ord : BitVec 2) : Thread := { thr with status := preW (.pre false (.g 3) 0 0 0 fmt aux ord) }
/-- Core 0 changed. -/
def c0 (f : Core → Core) (s : State) : State := s.modCore 0 f
/-- A page table: a page of 64 KB of ordinary memory at 0x20000, a host page at 0x30000, a bank page at 0x40000. -/
def pt (s : State) : State :=
  ([(0x10000, 0x11031), (0x11000, 0x12031), (0x12000, 0x13031), (0x13010, 0x500007), (0x13018, 0x90000F), (0x13020, 0x607007)] :
    List (Nat × Nat)).foldl (fun s e => s.store e.1 8 e.2) s
/-- Doublewords stored from a key on. -/
def put (key : Nat) (l : List Nat) (s : State) : State := l.zipIdx.foldl (fun s e => s.store (key + 8 * e.2) 8 e.1) s
/-- An arriving packet. -/
def pkt (p : Payload) (s : State) : State :=
  { s with subj := { s.subj with n := 33 }, packets := [(33, { id := 33, src := 5, dst := 0, chan := 1, payload := p })] }
/-- The thread 1, waiting. -/
def waits (w : Wait) (th : Thread) (s : State) : State := { s with threads := [(1, { th with run := .wait w })], cur := none }
def wt (i : Instr) : Wait := { id := 35, instr := i, vals := [0x11, 0x20010, 0x1234], deadline := some 70, req := 40 }
/-- A request of thread 1 to a line of memory. -/
def line (pa : Nat) : Target := .line pa none false 0
def rq (i : Instr) : Req :=
  { id := 40, stamp := 40, tk := 1, node := 0, launch := 1, instr := i, ea := 0x20010, bytes := 8, data := 3, exp := 0x1234,
    stage := .queued, tgt := some (line 0x50010), order := 9,
    dest := sliceNode (sliceUnder ((State.reset.team 0).maps) 0x50010 none) }
/-- The owner of a request, with the request in its slice's queue, and doublewords in memory. -/
def own (r : Req) (l : List (Nat × Nat)) : State :=
  let s : State := { st0 with reqs := [(r.id, r)], subj := { n := r.id, m := 35 }, threads := [(1, { thr with u := 4, amos := 2 })] }
  (l.foldl (fun s e => s.store e.1 8 e.2) (pt s)).modSlice (sliceOf r.dest) fun x => { x with queue := [r.id] }
/-- A request of an 8-byte word of a node's SRAM. -/
def toSram (r : Req) : Req := { r with tgt := some (.window 1 0x40), dest := 1, stage := .sent }
def gst : Instr := .gst false (.g 3) (.g 4) 0 3 0 0
def gld : Instr := .gld false (.st 2) (.g 4) 0 3 0 0 0
/-- Registers with which every word has what it reads. -/
def vals : List (Nat × Word) := [(3, 0x123456789ABCDEF0), (4, 0xFFFFFFFFFFFFFFF5), (5, 3), (8, 0x8000000000000000), (9, 7)]
def base : State := on 1 thr vals
/-- Queues of core 0. -/
def ro (en : Bool) (l : List QEntry) (w r : Nat := 1) : RoleQ := { entries := l, writer := w, reader := r, enabled := en }
/-- A stream with an element. -/
def landed : Stream := { entries := [{ serial := 7, landed := true, value := 77 }] }
/-- A local access at an address in g4. -/
def at' (tk a : Nat) : State := on tk thr [(3, 0xF1F2F3F4F5F6F788), (4, BitVec.ofNat 64 a), (5, 3)]
/-- A global access at the address in g4, with a page table. -/
def ga (th : Thread) (a : Nat) : State := pt (on 1 th [(3, 0xF1F2F3F4F5F6F788), (4, BitVec.ofNat 64 a), (5, 0x0001000200000008),
    (6, BitVec.allOnes 64)])
def bound (left : Nat) (next : Nat) : Stream :=
    { entries := [], bind := some { next := next, stride := -8, left := left, size := 3, ret := 1, nc := true } }
/-- Core 0 of team 0 with its TLB holding the two pages. -/
def tlbs (s : State) : State := s.modTeam 0 fun t =>
  { t with tlb := [{ root := 0x10000, launch := 1, va := 0x20000, size := 0x10000, leaf := 0x500007 }] }
/-- A barrier word. -/
def bw (phase expected count : Nat) : Nat := phase * 2 ^ 48 + expected * 2 ^ 32 + count
/-- An entry of the matrix engine. -/
def entry (t : List Word) : MEntry :=
  { id := 35, tcw := t, core := 0, slot := 1, gen := 0, seq := 9, pc := 0x500, stamp := 30, tk := 1, cycle := 40, fence := false }

def cmd4 (t : List Word) : List (Nat × Word) := (List.range 4).map fun k => (8 + k, t.getD k 0)
/-- The supervisor in slot 0 of core 0, with a thread in slot 9, and its operands in g3 and g4. -/
def halted : Thread := { thr with run := .halted 3, base := 8, w := 16, status := 0x125, pc := 0x3000 }
def supervising (a b : Nat) (v : Thread) : State :=
  wrs (wrs { st0 with cur := some 0, threads := [(0, { thr with w := 8 }), (9, v)] } 0 [(3, BitVec.ofNat 64 a),
      (4, BitVec.ofNat 64 b), (5, 1)]) 9 [(0, 11), (15, 22)]
def imaged (b : Nat) : State := let s := (supervising 9 b halted).modTeam 0 fun t =>
    { t with task := some 1 }; put (sramKey 0 b) ((s.image 9).map BitVec.toNat) s

/-- Ring 0, with one command waiting in its only free entry. -/
def hring (r : HRing) (s : State) : State := { s with pkg := { s.pkg with rings := [r] ++ List.replicate 7 {} } }
def hq : HRing := { rbase := 0x100000, rcfg := 0x20104, cbase := 0x200000, tail := 3, head := 1, chead := 17 }
def words8 (w : List Nat) : List Word := (w ++ List.replicate (8 - w.length) 0).map fun n => BitVec.ofNat 64 n
def cmdAt (w : List Nat) (s : State) (h : HRing := hq) : State :=
    hring h (put (hostKey (0x100000 + 64)) ((words8 w).map BitVec.toNat) s)
/-- What the commands act on: a page table, a thread of the launch waiting, a launch in each queue, log entries, host memory. -/
def host : State :=
  let s := wrs { pt st0 with threads := [(1, { thr with run := .wait (wt (.recv false (.g 20) (.g 4) 2)) }), (70, { thr with launch := 2 })] } 1 vals
  let s := put (hostKey 0x310000) [0x707007, 0x900017, 0x37] (put (hostKey 0x300000) [0x1122334455667788, 0x99AABBCCDDEEFF00] s)
  { s with
    pkg := { s.pkg with logEntries := [{ cycle := 5, w1 := 7 }, { cycle := 9, w1 := 8 }], lifecycle := 1 },
    disp := { s.disp with hostQ := [{ handle := 9, lpb := 0, root := 0, wpdie := 0, wpnode := [] }], devQ := [{ handle := 0x8001, lpb := 0, root := 0, wpdie := 0, wpnode := [] }] } }
/-- The entries that a walk reads lie outside a range of keys, and every level that it uses is one of a page of 2^p bytes. -/
def clear (s : State) (va lo hi p : Nat) : Nat → List (Nat × Nat × Option Nat) → Bool
  | _, [] => true
  | t, (l, len, z) :: rest =>
    let a := t + 8 * (va / 2 ^ l % 2 ^ len)
    let e := word (s.load a 8)
    decide (p ≤ l) && (decide (a + 8 ≤ lo) || decide (hi ≤ a)) &&
      ((match z with | some y => leafOk e && fld e 4 2 == y | none => false) ||
        match tableOf e with | some t' => clear s va lo hi p t' rest | none => true)
theorem load_same {s s' : State} (n : Nat) : ∀ key, (∀ a, key ≤ a → a < key + n → s'.byte a = s.byte a) → s'.load key n = s.load key n := by
  have : ∀ n key, (∀ a, key ≤ a → a < key + n → s'.byte a = s.byte a) → s'.bytes key n = s.bytes key n := by
    intro n
    induction n with
    | zero => intro _ _; rfl
    | succ n ih =>
      intro key h
      simp only [State.bytes]
      rw [h key (by omega) (by omega), ih (key + 1) fun a h1 h2 => h a (by omega) (by omega)]
  intro key h
  simp only [State.load, this n key h]
theorem walk_same {s s' : State} {va va' lo hi p : Nat} (hb : ∀ a, a < lo ∨ hi ≤ a → s'.byte a = s.byte a)
    (hp : va' / 2 ^ p = va / 2 ^ p) (ls : List (Nat × Nat × Option Nat)) :
    ∀ t, clear s va lo hi p t ls = true → s'.walk va' t ls = s.walk va t ls := by
  induction ls with
  | nil => intro _ _; rfl
  | cons e rest ih =>
    obtain ⟨l, len, z⟩ := e
    intro t h
    simp only [clear, Bool.or_eq_true, Bool.and_eq_true, decide_eq_true_eq] at h
    obtain ⟨⟨hl, ho⟩, h⟩ := h
    have hi' : va' / 2 ^ l = va / 2 ^ l := by
      obtain ⟨d, rfl⟩ := Nat.exists_eq_add_of_le hl
      rw [Nat.pow_add, ← Nat.div_div_eq_div_mul, ← Nat.div_div_eq_div_mul, hp]
    have he := load_same (s := s) (s' := s') 8 (t + 8 * (va / 2 ^ l % 2 ^ len)) fun a h1 h2 => hb a (by omega)
    simp only [State.walk, hi', he]
    cases z with
    | none =>
      simp only at h ⊢
      split
      · rename_i t' ht
        exact ih t' (by simpa [ht] using h)
      · rfl
    | some y =>
      simp only at h ⊢
      split
      · rfl
      · rename_i hf
        split
        · rename_i t' ht
          rcases h with h | h
          · exact absurd (by simpa using h) hf
          · exact ih t' (by simpa [ht] using h)
        · rfl
/-- A range of an ordinary page maps, whatever the range holds. -/
theorem maps_in_page {s : State} {root va key n p : Nat} {leaf : Word} (hw : s.walkFrom root va = some leaf)
    (hc : clear s va key (key + n) p root walkLevels = true)
    (hl : bitAt leaf 3 = false ∧ bitAt leaf 12 = false ∧ pageBytes (fld leaf 4 2) = 2 ^ p ∧
        fld leaf 20 32 * 2 ^ 16 + va % 2 ^ p = key)
    (hn : va % 2 ^ p + n ≤ 2 ^ p ∧ va + n ≤ 2 ^ 48 ∧ key + n ≤ 2 ^ 40) : MapsTo s root va key n := by
  refine ⟨by omega, fun m hb j hj => ?_⟩
  have hq : (va + j) / 2 ^ p = va / 2 ^ p ∧ (va + j) % 2 ^ p = va % 2 ^ p + j := by
    have h0 : 0 < 2 ^ p := Nat.two_pow_pos p
    have h1 := Nat.div_add_mod va (2 ^ p)
    rw [show va + j = (va % 2 ^ p + j) + 2 ^ p * (va / 2 ^ p) by omega]
    rw [Nat.add_mul_div_left _ _ h0, Nat.add_mul_mod_self_left, Nat.div_eq_of_lt (by omega), Nat.mod_eq_of_lt (by omega)]
    omega
  have hs := walk_same (s := s) (s' := { s with mem := m }) hb hq.1 walkLevels root hc
  have : ¬ 2 ^ 48 ≤ va + j := by omega
  simp only [State.deviceKey, this, if_false, State.walkFrom, hs]
  simp only [State.walkFrom] at hw
  simp only [hw, leafTarget, hl.1, hl.2.1, hl.2.2.1, hq.2]
  have h40 : ¬ 2 ^ 40 ≤ fld leaf 20 32 * 2 ^ 16 + (va % 2 ^ p + j) := by omega
  simp only [h40, if_false, Bool.false_eq_true]
  exact congrArg some (by omega)
theorem maps_less {s : State} {root va key n m : Nat} (h : MapsTo s root va key n) (hm : m ≤ n) : MapsTo s root va key m :=
  ⟨by have := h.1; omega, fun x hx j hj => h.2 x (fun a ha => hx a (by omega)) j (by omega)⟩

/-! ### Words of every constructor and what they decode to (from spec/02 to spec/18 and spec/opcode_table.json) -/

/-- Words of the integer class and what they stand for. -/
def wordsInteger0 : List (Nat × Instr) :=
  [(0x020C2050, .add false (.g 3) (.g 4) (.g 5)),
   (0x0240C201, .sub false (.g 16) (.g 24) (.g 32)),
   (0x0240C202, .and false (.g 16) (.g 24) (.g 32)),
   (0x023468E3, .or false (.g 13) (.g 13) (.g 14)),
   (0x0240C204, .xor false (.g 16) (.g 24) (.g 32)),
   (0x0240C205, .andn false (.g 16) (.g 24) (.g 32)),
   (0x0240C206, .min false (.g 16) (.g 24) (.g 32)),
   (0x0240C207, .max false (.g 16) (.g 24) (.g 32)),
   (0x0240C208, .minu false (.g 16) (.g 24) (.g 32)),
   (0x0240C209, .maxu false (.g 16) (.g 24) (.g 32)),
   (0x0440C200, .mul false (.g 16) (.g 24) (.g 32)),
   (0x0440C201, .mulh false (.g 16) (.g 24) (.g 32)),
   (0x04041032, .mulhu false (.g 1) (.g 2) (.g 3)),
   (0x0440C203, .div false (.g 16) (.g 24) (.g 32)),
   (0x0440C204, .divu false (.g 16) (.g 24) (.g 32)),
   (0x0440C205, .rem false (.g 16) (.g 24) (.g 32)),
   (0x0440C206, .remu false (.g 16) (.g 24) (.g 32)),
   (0x0640C200, .sll false (.g 16) (.g 24) (.g 32)),
   (0x0640C201, .srl false (.g 16) (.g 24) (.g 32)),
   (0x0640C202, .sra false (.g 16) (.g 24) (.g 32)),
   (0x0640C203, .rol false (.g 16) (.g 24) (.g 32)),
   (0x0640C204, .ror false (.g 16) (.g 24) (.g 32)),
   (0x0640C005, .clz false (.g 16) (.g 24)),
   (0x0640C006, .ctz false (.g 16) (.g 24))]
/-- Words of the integer class and what they stand for. -/
def wordsInteger1 : List (Nat × Instr) :=
  [(0x0640C007, .popc false (.g 16) (.g 24)),
   (0x0640C208, .bset false (.g 16) (.g 24) (.g 32)),
   (0x0640C209, .bclr false (.g 16) (.g 24) (.g 32)),
   (0x0640C20A, .btgl false (.g 16) (.g 24) (.g 32)),
   (0x0640C20B, .bfx false (.g 16) (.g 24) (.g 32)),
   (0x0610286C, .bfxu false (.g 4) (.g 5) (.g 6)),
   (0x0640C20D, .bfi false (.g 16) (.g 24) (.g 32)),
   (0x09880820, .cmpeq false (.s 2) (.g 1) (.g 2)),
   (0x0840C201, .cmpne false (.g 16) (.g 24) (.g 32)),
   (0x0840C202, .cmplt false (.g 16) (.g 24) (.g 32)),
   (0x0840C203, .cmpltu false (.g 16) (.g 24) (.g 32)),
   (0x0840C204, .cmple false (.g 16) (.g 24) (.g 32)),
   (0x0840C205, .cmpleu false (.g 16) (.g 24) (.g 32)),
   (0x8A1C3FFD, .addi true (.g 7) (.g 7) 0x7fd),
   (0x0C34680F, .andi false (.g 13) (.g 13) 0xf),
   (0x0E40C280, .ori false (.g 16) (.g 24) 0x280),
   (0x1040C280, .xori false (.g 16) (.g 24) 0x280),
   (0x12140806, .slli false (.g 5) (.g 1) 0x6),
   (0x12183082, .srli false (.g 6) (.g 6) 0x2),
   (0x12143103, .srai false (.g 5) (.g 6) 0x3),
   (0x1240C180, .roli false (.g 16) (.g 24) 0x0),
   (0x1240C200, .rori false (.g 16) (.g 24) 0x0),
   (0x1240C280, .bseti false (.g 16) (.g 24) 0x0),
   (0x1240C300, .bclri false (.g 16) (.g 24) 0x0)]
/-- Words of the integer class and what they stand for. -/
def wordsInteger2 : List (Nat × Instr) :=
  [(0x1240C380, .btgli false (.g 16) (.g 24) 0x0),
   (0x1440C080, .cmpeqi false (.g 16) (.g 24) 0x80),
   (0x1440C180, .cmpnei false (.g 16) (.g 24) 0x80),
   (0x1440C280, .cmplti false (.g 16) (.g 24) 0x80),
   (0x14084BC8, .cmpltui false (.g 2) (.g 9) 0xc8),
   (0x1440C480, .cmplei false (.g 16) (.g 24) 0x80),
   (0x1440C580, .cmpleui false (.g 16) (.g 24) 0x80),
   (0x16383000, .li false (.g 14) 0x3000),
   (0x18380000, .lis false (.g 14) 0x0),
   (0x1A2000A0, .mov false (.g 8) (.g 10)),
   (0x1A2048A1, .sel false (.g 8) (.g 9) (.g 10)),
   (0x1A0C50B2, .gadr false (.g 3) (.g 10) (.g 11))]
theorem test_decode_integer0 : (wordsInteger0.all fun p => decodeTableWord 32 p.1 == some p.2 && p.2.wellFormed) = true :=
    by decide +kernel
theorem test_decode_integer1 : (wordsInteger1.all fun p => decodeTableWord 32 p.1 == some p.2 && p.2.wellFormed) = true :=
    by decide +kernel
theorem test_decode_integer2 : (wordsInteger2.all fun p => decodeTableWord 32 p.1 == some p.2 && p.2.wellFormed) = true :=
    by decide +kernel
/-- Words of the control class and what they stand for. -/
def wordsControl : List (Nat × Instr) :=
  [(0x21FFFFF6, .j false 0x1fffff6),
   (0x22000400, .jl false 0x400),
   (0x24000800, .jr false (.g 1)),
   (0x24144801, .jlr false (.g 5) (.g 9)),
   (0x26305FFD, .bbs false (.g 12) 0x5 0xffd),
   (0x280FF004, .bbc false (.g 3) 0x3f 0x4),
   (0x2A1C0002, .bz false (.g 7) 0x2),
   (0x2A0C1005, .bnz false (.g 3) 0x5),
   (0x2A0C2FFD, .bloop false (.g 3) 0xffd),
   (0x2C305C00, .pre false (.g 12) 0x5 0x1 0x1 0x0 0x0 0x0),
   (0x2E000000, .nop false),
   (0x2E000001, .yield false)]
theorem test_decode_control : (wordsControl.all fun p => decodeTableWord 32 p.1 == some p.2 && p.2.wellFormed) = true :=
    by decide +kernel
/-- Words of the localMemory class and what they stand for. -/
def wordsLocalMemory : List (Nat × Instr) :=
  [(0x3040C000, .ldb false (.g 16) (.g 24) 0x0 0x0),
   (0x3040C080, .ldh false (.g 16) (.g 24) 0x0 0x0),
   (0x300C217E, .ldw false (.g 3) (.g 4) 0x0 0x7e),
   (0x30142182, .ldd false (.g 5) (.g 4) 0x0 0x2),
   (0x32241805, .ldbu false (.g 9) (.g 3) 0x0 0x5),
   (0x3240C080, .ldhu false (.g 16) (.g 24) 0x0 0x0),
   (0x3240C100, .ldwu false (.g 16) (.g 24) 0x0 0x0),
   (0x3440C000, .stb false (.g 16) (.g 24) 0x0 0x0),
   (0x3440C080, .sth false (.g 16) (.g 24) 0x0 0x0),
   (0x341C117F, .stw false (.g 7) (.g 2) 0x0 0x7f),
   (0x3440C180, .std false (.g 16) (.g 24) 0x0 0x0),
   (0x36403182, .ldv false (.g 16) (.g 6) 0x0 0x2),
   (0x38405980, .stv false (.g 16) (.g 11) 0x0 0x0)]
theorem test_decode_localMemory : (wordsLocalMemory.all fun p => decodeTableWord 32 p.1 == some p.2 && p.2.wellFormed) = true :=
    by decide +kernel
/-- Words of the globalMemory class and what they stand for. -/
def wordsGlobalMemory : List (Nat × Instr) :=
  [(0x41C855C2, .gld false (.st 2) (.g 10) 0x2 0x3 0x1 0x0 0x2),
   (0x421C513E, .gst false (.g 7) (.g 10) 0x0 0x2 0x1 0x1e),
   (0x45CC6041, .gldv false (.st 3) (.g 12) 0x0 0x1 0x0 0x1),
   (0x44603080, .gstv false (.g 24) (.g 6) 0x0 0x0 0x0),
   (0x47C4A000, .sbind false (.st 1) (.g 20)),
   (0x46178801, .scnt false (.g 5) (.st 1)),
   (0x46008002, .ginv false (.g 16)),
   (0x46008003, .gprf false (.g 16) 0x0),
   (0x46008004, .lclean false (.g 16)),
   (0x46008005, .lflush false (.g 16))]
theorem test_decode_globalMemory : (wordsGlobalMemory.all fun p => decodeTableWord 32 p.1 == some p.2 && p.2.wellFormed) = true :=
    by decide +kernel
/-- Words of the atomics class and what they stand for. -/
def wordsAtomics0 : List (Nat × Instr) :=
  [(0x48143070, .amoadd false (.g 5) (.g 6) (.g 7)),
   (0x4840C201, .amoand false (.g 16) (.g 24) (.g 32)),
   (0x4840C202, .amoor false (.g 16) (.g 24) (.g 32)),
   (0x4840C203, .amoxor false (.g 16) (.g 24) (.g 32)),
   (0x4840C204, .amomin false (.g 16) (.g 24) (.g 32)),
   (0x4840C205, .amomax false (.g 16) (.g 24) (.g 32)),
   (0x4840C206, .amominu false (.g 16) (.g 24) (.g 32)),
   (0x48081847, .amomaxu false (.g 2) (.g 3) (.g 4)),
   (0x4840C208, .amoswp false (.g 16) (.g 24) (.g 32)),
   (0x482048A9, .acas false (.g 8) (.g 9) (.g 10)),
   (0x4A003070, .redadd false (.g 6) (.g 7)),
   (0x4A008181, .redand false (.g 16) (.g 24)),
   (0x4A008182, .redor false (.g 16) (.g 24)),
   (0x4A008183, .redxor false (.g 16) (.g 24)),
   (0x4A003074, .redmin false (.g 6) (.g 7)),
   (0x4A008185, .redmax false (.g 16) (.g 24)),
   (0x4A008186, .redminu false (.g 16) (.g 24)),
   (0x4A008187, .redmaxu false (.g 16) (.g 24)),
   (0x4C105400, .ldfe false (.g 4) (.g 10) 0x8),
   (0x4C105781, .ldff false (.g 4) (.g 10) 0xf),
   (0x4C145782, .stfe false (.g 5) (.g 10) 0xf),
   (0x4C145183, .stff false (.g 5) (.g 10) 0x3),
   (0x4C0C5004, .feq false (.g 3) (.g 10)),
   (0x4C005015, .feset false (.g 10) 0x1)]
/-- Words of the atomics class and what they stand for. -/
def wordsAtomics1 : List (Nat × Instr) :=
  [(0x4E2C5000, .bari false (.g 11) (.g 10)),
   (0x4E0C5001, .bara false (.g 3) (.g 10)),
   (0x4E0C5502, .barw false (.g 3) (.g 10) 0xa),
   (0x4E0C5613, .waitw false (.g 3) (.g 10) 0xc 0x1),
   (0xCE000334, .fence true 0x6 0x3)]
theorem test_decode_atomics0 : (wordsAtomics0.all fun p => decodeTableWord 32 p.1 == some p.2 && p.2.wellFormed) = true :=
    by decide +kernel
theorem test_decode_atomics1 : (wordsAtomics1.all fun p => decodeTableWord 32 p.1 == some p.2 && p.2.wellFormed) = true :=
    by decide +kernel
/-- Words of the float class and what they stand for. -/
def wordsFloat : List (Nat × Instr) :=
  [(0x502048A0, .fadd false (.g 8) (.g 9) (.g 10)),
   (0x5040C201, .fsub false (.g 16) (.g 24) (.g 32)),
   (0x5040C202, .fmul false (.g 16) (.g 24) (.g 32)),
   (0x5040C203, .fmin false (.g 16) (.g 24) (.g 32)),
   (0x5040C204, .fmax false (.g 16) (.g 24) (.g 32)),
   (0x5040C005, .fabs false (.g 16) (.g 24)),
   (0x5040C006, .fneg false (.g 16) (.g 24)),
   (0x5040C207, .fcmpeq false (.g 16) (.g 24) (.g 32)),
   (0x51841038, .fcmplt false (.s 1) (.g 2) (.g 3)),
   (0x5040C209, .fcmple false (.g 16) (.g 24) (.g 32)),
   (0x5008180A, .fcls false (.g 2) (.g 3)),
   (0x5010286B, .ffma false (.g 4) (.g 5) (.g 6)),
   (0x5020480C, .fcvt false (.g 8) (.g 9))]
theorem test_decode_float : (wordsFloat.all fun p => decodeTableWord 32 p.1 == some p.2 && p.2.wellFormed) = true :=
    by decide +kernel
/-- Words of the vector class and what they stand for. -/
def wordsVector0 : List (Nat × Instr) :=
  [(0x5840C200, .vadd false (.g 16) (.g 24) (.g 32)),
   (0x5840C201, .vsub false (.g 16) (.g 24) (.g 32)),
   (0x5840C202, .vmul false (.g 16) (.g 24) (.g 32)),
   (0x5840C203, .vfma false (.g 16) (.g 24) (.g 32)),
   (0x5840C204, .vmin false (.g 16) (.g 24) (.g 32)),
   (0x5840C205, .vmax false (.g 16) (.g 24) (.g 32)),
   (0x5840C006, .vabs false (.g 16) (.g 24)),
   (0x5840C007, .vneg false (.g 16) (.g 24)),
   (0x5840C008, .vrcp false (.g 16) (.g 24)),
   (0x5840C009, .vrsq false (.g 16) (.g 24)),
   (0x5840C00A, .vexp2 false (.g 16) (.g 24)),
   (0x5A40C200, .vand false (.g 16) (.g 24) (.g 32)),
   (0x5A40C201, .vor false (.g 16) (.g 24) (.g 32)),
   (0x5A40C202, .vxor false (.g 16) (.g 24) (.g 32)),
   (0x5A40C203, .vshl false (.g 16) (.g 24) (.g 32)),
   (0x5A40C204, .vshr false (.g 16) (.g 24) (.g 32)),
   (0x5A40C205, .vsar false (.g 16) (.g 24) (.g 32)),
   (0x5C40C200, .vcmpeq false (.g 16) (.g 24) (.g 32)),
   (0x5CA08181, .vcmplt false (.g 40) (.g 16) (.g 24)),
   (0x5C40C202, .vcmple false (.g 16) (.g 24) (.g 32)),
   (0x5C40C203, .vsel false (.g 16) (.g 24) (.g 32)),
   (0x5E40C000, .vcvt false (.g 16) (.g 24)),
   (0x5E148021, .vred false (.g 5) (.g 16) 0x2),
   (0x5E40C202, .vdot false (.g 16) (.g 24) (.g 32))]
/-- Words of the vector class and what they stand for. -/
def wordsVector1 : List (Nat × Instr) :=
  [(0x5EC08073, .vqnt false (.g 48) (.g 16) (.g 7)),
   (0x6040C200, .vshuf false (.g 16) (.g 24) (.g 32)),
   (0x60401801, .vbcast false (.g 16) (.g 3)),
   (0x60248022, .vext false (.g 9) (.g 16) (.g 2)),
   (0x6040C203, .vins false (.g 16) (.g 24) (.g 32)),
   (0x6040C004, .vmov false (.g 16) (.g 24))]
theorem test_decode_vector0 : (wordsVector0.all fun p => decodeTableWord 32 p.1 == some p.2 && p.2.wellFormed) = true :=
    by decide +kernel
theorem test_decode_vector1 : (wordsVector1.all fun p => decodeTableWord 32 p.1 == some p.2 && p.2.wellFormed) = true :=
    by decide +kernel
/-- Words of the matrix class and what they stand for. -/
def wordsMatrix : List (Nat × Instr) :=
  [(0x640C40F0, .mpush false (.g 3) (.g 8) 0xf),
   (0xE41000F1, .mpop true (.g 4) 0xf),
   (0x640000F2, .mfence false 0xf),
   (0x6400A0F3, .mring false (.g 20) 0xf),
   (0x64143004, .mradv false (.g 5) (.g 6)),
   (0x641C3005, .mrstat false (.g 7) (.g 6))]
theorem test_decode_matrix : (wordsMatrix.all fun p => decodeTableWord 32 p.1 == some p.2 && p.2.wellFormed) = true :=
    by decide +kernel
/-- Words of the ports class and what they stand for. -/
def wordsPorts : List (Nat × Instr) :=
  [(0x68141A00, .put false (.g 5) 0x3 0x4),
   (0x68181781, .take false (.g 6) 0x2 0xf),
   (0x681C1002, .pbind false (.g 7) 0x2),
   (0x68001003, .pfree false 0x2),
   (0x6A0C50B0, .hload false (.g 3) (.g 10) (.g 11)),
   (0x6A0C5801, .hstop false (.g 3) (.g 11)),
   (0x6A105802, .hstat false (.g 4) (.g 11))]
theorem test_decode_ports : (wordsPorts.all fun p => decodeTableWord 32 p.1 == some p.2 && p.2.wellFormed) = true :=
    by decide +kernel
/-- Words of the queuesAndJoin class and what they stand for. -/
def wordsQueuesAndJoin : List (Nat × Instr) :=
  [(0x6C0C2010, .qcfg false (.g 3) (.g 4) 0x1),
   (0x6C140031, .qstat false (.g 5) 0x3),
   (0x6C1802A2, .taga false (.g 6) 0x5 0x2),
   (0x6C180023, .tagf false (.g 6) 0x2),
   (0x6C205004, .send false (.g 8) (.g 10)),
   (0x6C205015, .sendi false (.g 8) (.g 10) 0x1),
   (0x6C143506, .waitm false (.g 5) (.g 6) 0xa),
   (0x6C302787, .recv false (.g 12) (.g 4) 0xf),
   (0x6C0C2008, .mpcfg false (.g 3) (.g 4)),
   (0x6E00A030, .jpset false (.g 20) 0x3),
   (0x6E000031, .jpclr false 0x3),
   (0x6E1C0032, .jpstat false (.g 7) 0x3)]
theorem test_decode_queuesAndJoin : (wordsQueuesAndJoin.all fun p => decodeTableWord 32 p.1 == some p.2 && p.2.wellFormed) = true :=
    by decide +kernel
/-- Words of the threads class and what they stand for. -/
def wordsThreads : List (Nat × Instr) :=
  [(0x70143780, .spawn false (.g 5) (.g 6) 0xf),
   (0x70000001, .quit false),
   (0x70002002, .exit false (.g 4)),
   (0xF0001803, .migrate true (.g 3)),
   (0x701C4004, .launch false (.g 7) (.g 8)),
   (0x700C4805, .garr false (.g 3) (.g 9)),
   (0x700C4D06, .gwait false (.g 3) (.g 9) 0xa),
   (0x70140017, .slots false (.g 5) 0x1)]
theorem test_decode_threads : (wordsThreads.all fun p => decodeTableWord 32 p.1 == some p.2 && p.2.wellFormed) = true :=
    by decide +kernel
/-- Words of the engines class and what they stand for. -/
def wordsEngines : List (Nat × Instr) :=
  [(0x740C4000, .cpy false (.g 3) (.g 8)),
   (0x740C4781, .cpys false (.g 3) (.g 8) 0xf),
   (0x740C4502, .cpyx false (.g 3) (.g 8) 0xa),
   (0x740C4783, .bmv false (.g 3) (.g 8) 0xf),
   (0x74000784, .bfence false 0xf),
   (0x74140015, .bstat false (.g 5) 0x1)]
theorem test_decode_engines : (wordsEngines.all fun p => decodeTableWord 32 p.1 == some p.2 && p.2.wellFormed) = true :=
    by decide +kernel
/-- Words of the system class and what they stand for. -/
def wordsSystem : List (Nat × Instr) :=
  [(0x760C0010, .csrr false (.g 3) 0x10),
   (0x76143208, .csrw false (.g 5) (.g 6) 0x8),
   (0x76002420, .csrs false (.g 0) (.g 4) 0x20),
   (0x7640C620, .csrc false (.g 16) (.g 24) 0x20),
   (0x78000050, .trap false 0x5),
   (0x78002801, .eret false (.g 5)),
   (0x78000002, .brk false),
   (0x780C2083, .wfe false (.g 3) (.g 4) 0x8),
   (0x78002004, .tlbi false (.g 4) 0x0),
   (0x780C2055, .ctxsv false (.g 3) (.g 4) (.g 5)),
   (0x780C2056, .ctxld false (.g 3) (.g 4) (.g 5))]
theorem test_decode_system : (wordsSystem.all fun p => decodeTableWord 32 p.1 == some p.2 && p.2.wellFormed) = true :=
    by decide +kernel

/-! ### Instructions that no word encodes -/

/-- What is refused, and the reason of Table FM-12 for it: one for each check. The last is no word. -/
def illFormed : List (Instr × Option Nat) :=
  [(.mpush false (.nb .n) (.g 8) 0, some 3),        -- a field that takes no neighbour port (R203)
   (.qcfg false (.g 3) (.g 4) 7, some 3),           -- an index above 5
   (.fence false 3 7, some 3),                      -- a scope above 5
   (.send false (.g 95) (.g 4), some 3),            -- a pair that runs past g95
   (.pre false (.g 0) 5 0 0 0 0 0, some 4),         -- guard fields with the guard off (R27)
   (.pre false (.st 5) 0 1 0 0 0 0, some 5),
   (.bloop false (.q 0) 5, some 5),
   (.mov false (.st 0) (.g 4), some 5),
   (.sbind false (.g 2) (.g 4), some 5),
   (.vmov false (.st 0) (.g 8), some 5),
   (.vadd false (.g 8) (.g 16) (.g 25), some 6),    -- a group that does not start at a multiple of 8 (R26)
   (.mpush false (.g 3) (.g 94) 0, some 6),
   (.dividerWrite, none)]
/-- Each is ill-formed, with its reason. -/
theorem test_ill_formed_refused :
    (illFormed.all fun p => p.1.wellFormed == false && p.1.fieldReason true == p.2) = true := by decide +kernel
/-- Words that are no instruction, with the reason the manual gives (spec/02, three faulty words; R31). -/
theorem test_faulty_words :
    ([(0x00000000, 1), (0x020C205F, 3), (0x4E000074, 3), (0x7E000000, 1), (0x0640C205, 4)].all fun p : Nat × Nat =>
      (match decode (BitVec.ofNat 32 p.1) with | .error r => r == p.2 | .ok _ => false)) = true := by decide +kernel

/-! ### Worked examples of the manual -/

/-- Window register k of a thread in the next state. -/
def regAfter (o : Host.Outcome State Fault Refusal) (tk k : Nat) : Option Word :=
  match o with | .next t => some (t.readG tk k) | _ => none
/-- The doubleword at a key in the next state. -/
def wordAfter (o : Host.Outcome State Fault Refusal) (key : Nat) : Option Nat :=
  match o with | .next t => some (bytesAt t key 8) | _ => none
/-- spec/04, the example of R72. -/
theorem test_bfxu : regAfter (exec (.bfxu false (.g 4) (.g 5) (.g 6)) (on 1 thr [(6, 0x804), (5, 0xAB0)])) 1 4 = some 0xAB := by
  decide +kernel
theorem test_bfx : regAfter (exec (.bfx false (.g 4) (.g 5) (.g 6)) (on 1 thr [(6, 0x804), (5, 0xAB0)])) 1 4 =
    some 0xFFFFFFFFFFFFFFAB := by decide +kernel
/-- spec/04, the window of a team's second core (R78). -/
theorem test_gadr : regAfter (exec (.gadr false (.g 3) (.g 10) (.g 11)) (on 1 thr [(10, 0x0902), (11, 0x40100)])) 1 3 =
    some 0xE144800000040100 := by decide +kernel
/-- spec/03, the LIX sequence of R53: the last LIS of 0xE100_0000_0000_0000. -/
theorem test_lis : regAfter (exec (.lis false (.g 4) 0) (on 1 thr [(4, BitVec.ofInt 64 (-124 * 2 ^ 36))])) 1 4 =
    some 0xE100000000000000 := by decide +kernel
/-- spec/05, a counted loop: after the pass that leaves g3 = 0, BLOOP falls through. -/
theorem test_bloop : ([2, 1, 0].map fun n => match exec (.bloop false (.g 3) (-3)) (on 1 thr [(3, n)]) with
    | .next t => (t.readG 1 3, (t.thread 1).pc)
    | _ => (9, 0)) = [(1, 0xFF4), (0, 0x1004), (0, 0x1004)] := by decide +kernel
/-- spec/06, one line (R123): PA 0x4_0001_3040 has bucket 2 on MD0, and its channel is 6. -/
theorem test_line_map : bucketOf 0x400013040 none = (0, 2) ∧ channelOf 0x400013040 none = (4, 6) ∧
    sliceUnder (State.reset.team 0).maps 0x400013040 none = 2 := by decide +kernel
/-- spec/09, the first elements of a block (R160, R161): the codes of the example's tokens, and the first elements. -/
theorem test_block_tokens :
    let t : Word := 0x8888774213778888
    tableValid t = true ∧
      (tokens (codeTable t 8 1 0) 8 ([0x2D, 0xCF, 0x00].flatMap fun b => bitsOfByte b)).map (·.1) =
        some [7, 7, 8, 6, 9, 7, 4, 7] := by decide +kernel
/-- spec/03, a block of ones (R161): 272 bytes of which every element is 0x38, with scale 127. -/
theorem test_block_of_ones :
    (match decodeBlock ([0x00, 0x00, 0xD1, 0xDF] ++ List.replicate 128 0 ++ List.replicate 128 0x77 ++ List.replicate 12 0)
        none [] with
      | .ok x => x == (List.replicate 256 0x38, 127)
      | .error _ => false) = true := by decide +kernel
/-- spec/09, VDOT with fmt 5 (R181). -/
theorem test_vdot : vdotOf 5 10 0x04030201 0xFE02FF01 % 2 ^ 32 = 7 := by decide +kernel
/-- spec/10, requantised cells (R202): za = 3, zo = −5, m[0] = 2^30, s[0] = 35. -/
theorem test_requantised :
    ([1016, 1048, -2000, 2147483647].map fun c : Int => toSigned 8 (drainElem
      { e := entry [BitVec.ofNat 64 (7 * 2 ^ 58 + 2 * 2 ^ 36 + 5 * 2 ^ 40), 0, BitVec.ofNat 64 (3 * 2 ^ 32 + 0xFFFB * 2 ^ 16), 0],
        startAt := 0, doneAt := 0, opA := [0, 0, 0, 0x40] ++ List.replicate 60 0 ++ [35] }
      (BitVec.ofInt 36 c) 120 0)) = [15, 17, -79, 127] := by decide +kernel
/-- spec/08, Table AT-12, events 1 to 4 (R149, R150): the word after each. -/
theorem test_barrier_words :
    wordAfter (exec .barrierWordRequest (own (rq (.bari false (.g 3) (.g 4))) [(0x50010, 0)])) 0x50010 =
      some 0x0001000300000000 ∧
    wordAfter (exec .barrierArrival (own (rq (.barw false (.g 3) (.g 4) 2)) [(0x50010, 0x0001000300000000)])) 0x50010 =
      some 0x0001000300000001 ∧
    wordAfter (exec .barrierArrival (own (rq (.bara false (.g 3) (.g 4))) [(0x50010, 0x0001000300000001)])) 0x50010 =
      some 0x0001000300000002 ∧
    wordAfter (exec .barrierArrival (own (rq (.barw false (.g 3) (.g 4) 2)) [(0x50010, 0x0001000300000002)])) 0x50010 =
      some 0x0002000300000000 := by decide +kernel
/-- spec/15, Table TH-3 (R273): a 4 × 4 space, row-major with s = 1, and Hilbert. -/
theorem test_traversals :
    ((List.range 16).map (Launch.coords { lch with trav := 0, swz := 1 })) =
      [(0, 0), (0, 1), (1, 0), (1, 1), (2, 0), (2, 1), (3, 0), (3, 1), (0, 2), (0, 3), (1, 2), (1, 3), (2, 2), (2, 3), (3, 2),
        (3, 3)] ∧
    ((List.range 16).map (Launch.coords { lch with trav := 3 })) =
      [(0, 0), (1, 0), (1, 1), (0, 1), (0, 2), (0, 3), (1, 3), (1, 2), (2, 2), (2, 3), (3, 3), (3, 2), (3, 1), (2, 1), (2, 0),
        (3, 0)] := by decide +kernel
/-- spec/18, a software trap answered: the report of TRAP 5 in slot 17 at 0x1_0040, and where ERET resumes it. -/
theorem test_trap_report :
    (match exec (.trap false 5) (on 17 { thr with pc := 0x10040 } []) with
      | .next t => ((t.core 0).mport 31).msgs.map fun m => (m.w0, m.w1)
      | _ => []) = [(0x5811000000010040, 5)] := by decide +kernel
theorem test_eret_resumes :
    (match exec (.eret false (.g 5)) { on 0 thr [(5, 0x111)] with
        threads := [(0, thr), (17, { thr with pc := 0x10040, run := .halted 11 })] } with
      | .next t => (t.thread? 17).map fun v => (v.pc, v.run)
      | _ => none) = some (0x10044, .ready) := by decide +kernel

/-! ### Witnesses: concrete states and operands that meet the hypotheses of the statements -/

/-- The conversions take their formats from a prefix. -/
def converts (i : Instr) : Bool := match i with | .fcvt _ _ _ | .vcvt _ _ _ | .vqnt _ _ _ _ => true | _ => false
/-- Every word of the decode tests is ready at one small state: the hypotheses of the statements that ask for nothing else
(IntegerArithmetic, ProductsAndDivides, ShiftsBitsAndFields, Compares, ImmediatesMovesAndAddresses, RegisterOnlyFrame,
JumpsAndBranches, the NOP and YIELD of PrefixNopAndYield, TrapInstructions, ScalarFloat). -/
theorem witness_words0 : Runs ((wordsInteger0 ++ wordsInteger1 ++ wordsInteger2 ++ wordsControl ++ wordsLocalMemory ++
    wordsGlobalMemory ++ wordsAtomics0 ++ wordsAtomics1).map fun p => (p.2, base, true)) := runs_of (by decide +kernel)
theorem witness_words1 : Runs ((wordsFloat ++ wordsVector0 ++ wordsVector1 ++ wordsMatrix ++ wordsPorts ++ wordsQueuesAndJoin ++
    wordsThreads ++ wordsEngines ++ wordsSystem).map fun p =>
      (p.2, if converts p.2 then on 1 (pre 2 1 0) vals else base, true)) := runs_of (by decide +kernel)
/-- The classes of words that statements name. -/
theorem witness_classes : registerOnly (.add false (.g 3) (.g 4) (.g 5)) = true ∧ registerOnly (.jl false 4) = true ∧
    registerOnly (.gadr false (.g 3) (.g 4) (.g 5)) = true ∧
        (encode (.vadd false (.g 8) (.g 16) (.g 24))).extractLsb' 25 6 = 0x2C := by decide +kernel

/-- RoundTrip, DecodedWordsEncode, and the reserved opcodes and functions of SampleWordsAndReservedOpcodes, IntegerArithmetic and
Compares at the ends of their ranges. -/
theorem witness_encoding :
    (Instr.add false (.g 3) (.g 4) (.g 5)).wellFormed = true ∧
        decodeTableWord 32 0x020C2050 = some (.add false (.g 3) (.g 4) (.g 5)) ∧
    ((0x00000000 : BitVec 32).extractLsb' 25 6).toNat = 0 ∧ ((0x7E000000 : BitVec 32).extractLsb' 25 6).toNat = 0x3F ∧
    (0x0200000A : BitVec 32).extractLsb' 25 6 = 0x01 ∧ ((0x0200000A : BitVec 32).extractLsb' 0 4).toNat = 10 ∧
    (0x08000006 : BitVec 32).extractLsb' 25 6 = 0x04 ∧ ((0x08000006 : BitVec 32).extractLsb' 0 4).toNat = 6 ∧
    (0x14000600 : BitVec 32).extractLsb' 25 6 = 0x0A ∧ ((0x14000600 : BitVec 32).extractLsb' 8 3).toNat = 6 := by decide +kernel

/-- A word placed for the next step. -/
def placed (w : Nat) : State := State.reset.withFetchWord 32 w
/-- StepRunsTheDecodedInstruction: a word in the cache, one that is no instruction, no line in the cache, and a step of the
hardware. -/
theorem witness_StepRunsTheDecodedInstruction :
    ((placed 0x020C2050).cur = some 0 ∧ ((placed 0x020C2050).thread? 0).isSome = true ∧
      ((placed 0x020C2050).cached 0).bind wordOfBytes = some 0x020C2050 ∧
      (match decodeOn false 0x020C2050 with | .ok i => i == .add false (.g 3) (.g 4) (.g 5) | .error _ => false) = true) ∧
    ((placed 0).cur = some 0 ∧ ((placed 0).cached 0).bind wordOfBytes = some 0 ∧
      (match decodeOn false 0 with | .ok _ => false | .error r => r == 1) = true) ∧
    (base.cur = some 1 ∧ base.thread? 1 = some thr ∧ base.cached 1 = none) ∧
    (let s : State := { st0 with todo := [.ev .dividerWrite { n := 1 }] }
     s.cur = none ∧ s.pkg.answers = true ∧ s.todo = [.ev .dividerWrite { n := 1 }]) := by decide +kernel
/-- StepKeepsCanonical and StepKeepsSized: the small state, and reset. -/
theorem witness_StepKeepsCanonical_StepKeepsSized :
    (Canonical base ∧ Sized base ∧ (match Machine.step base with | .next _ => true | _ => false) = true) ∧ Canonical State.reset ∧ Sized State.reset :=
  ⟨⟨canon_of (by decide +kernel), sized_of (by decide +kernel), by decide +kernel⟩,
    canon_of (by decide +kernel), sized_of (by decide +kernel)⟩
/-- ChecksBeforeTheEffect: a false guard; a prefix with a field that ADD refuses; a window register at W. -/
theorem witness_ChecksBeforeTheEffect :
    let i : Instr := .add false (.g 8) (.g 4) (.g 5)
    let guarded : Thread := { thr with status := preW (.pre false (.g 3) 0 1 0 0 0 0) }
    i.isWord = true ∧
    ((on 1 guarded [(3, 0)]).thread? 1 = some guarded ∧ prefixOk i guarded = true ∧ inWindow i guarded.w = true ∧
      (on 1 guarded [(3, 0)]).guardOk 1 (prefixOf guarded) = false) ∧
    ((on 1 (pre 2 0 0) []).thread? 1 = some (pre 2 0 0) ∧ prefixOk i (pre 2 0 0) = false) ∧
    ((on 1 { thr with w := 8 } []).thread? 1 = some { thr with w := 8 } ∧ prefixOk i { thr with w := 8 } = true ∧
      inWindow i 8 = false) := by decide +kernel
/-- ParksForOperands: a role queue without an element, and one without room. -/
theorem witness_ParksForOperands :
    [(Instr.mov false (.g 3) (.q 0), c0 (fun k => { k with roles := [ro true [], {}, {}, {}] }) base),
      (.mov false (.q 0) (.g 3), c0 (fun k => { k with roles := [ro true (List.replicate 8 { v := 1 }), {}, {}, {}] }) base)].all
      (fun x => x.2.cur == some 1 && x.2.thread? 1 == some thr && x.1.isWord && prefixOk x.1 thr && inWindow x.1 thr.w &&
        x.2.guardOk 1 (prefixOf thr) && x.2.queueFault 1 x.1 == none && x.2.headToken 1 x.1 2 == none && !x.2.compat 1 &&
        !(x.2.popsReady 1 x.1 && x.2.roomReady 1 x.1)) = true := by decide +kernel
/-- TakingATrap: from slot 1 with trap port, spill area and reserve empty, and from slot 0. -/
theorem witness_TakingATrap : ((base.thread? 1).isSome = true ∧ slotOf 1 ≠ 0 ∧ base.reportOnWay 0 1 = false ∧
    (base.core 0).held = [] ∧ base.recvWaiter 0 31 = none ∧ (base.core 0).spill = [] ∧ (base.core 0).reserve = [] ∧
    (base.core 0).mports.length = 32 ∧ ((base.core 0).mport 31).msgs.length + ((base.core 0).mport 31).reserved < 4) ∧
    ((on 0 thr []).thread? 0).isSome = true ∧ slotOf 0 = 0 := by decide +kernel
/-- RegistersReadAndWritten: each kind of field, a write of a slot above and below another of the same write cycle, and queue
names read once and twice, by sources and as data. -/
theorem witness_RegistersReadAndWritten : Canonical { base with streams := [(10, landed)], spend := [{ key := 2, value := 5, cycle := 50, slot := 3, stamp := 30 }] } ∧
    (Instr.mov false (.g 3) (.g 4)).fields[1]? = some (.src, .g 4) ∧ (Instr.mov false (.g 3) (.s 4)).fields[1]? = some (.src,
        .s 4) ∧
    (Instr.mov false (.g 3) (.st 2)).fields[1]? = some (.src, .st 2) ∧
    (Instr.bfi false (.nb .n) (.g 4) (.g 5)).fields[0]? = some (.upd, .nb .n) ∧
    (Instr.bfi false (.q 1) (.g 4) (.g 5)).fields[0]? = some (.upd, .q 1) ∧
    (∀ e ∈ [({ key := 2, value := 5, cycle := 50, slot := 1, stamp := 30 } : SWrite), { key := 2, value := 6, cycle := 50, slot := 3, stamp := 200 }],
      e.key = 16 * coreOf 1 + 2 → e.cycle = base.cycle → slotOf 1 < e.slot ∨ (slotOf 1 = e.slot ∧ e.stamp ≤ base.nextId)) ∧
    coreOf 1 = coreOf 2 ∧ slotOf 1 < slotOf 2 ∧
    (∀ r ∈ [Reg.st 2, .nb .n, .q 1], isQueueName r = true ∧ (Instr.add false (.g 3) r r).fields[1]? = some (.src, r) ∧
      (Instr.add false (.g 3) r r).fields[2]? = some (.src, r)) ∧
    (∀ r ∈ [Reg.st 2, .nb .n, .q 1], (Instr.stfe false r (.g 4) 2).fields[0]? = some (.data, r) ∧
        (Instr.stfe false r r 2).fields[1]? = some (.src, r)) ∧
    Canonical base ∧ Sized base ∧ SMap.sortedFrom 0 base.nbr = true := by
  refine ⟨canon_of ?_, ?_, ?_, ?_, ?_, ?_, ?_, ?_, ?_, ?_, ?_, canon_of ?_, sized_of ?_, ?_⟩ <;> decide +kernel
/-- ProductsAndDivides: the divider's result for a thread in its slot, and for one that has gone. -/
theorem witness_ProductsAndDivides :
    (let s : State := { base with subj := { n := 1, m := 1 } }
     s.thread? s.subj.n = some thr ∧ thr.born = s.subj.m) ∧
    (let s : State := { base with subj := { n := 1, m := 3 } }
     s.thread? s.subj.n = some thr ∧ thr.born ≠ s.subj.m) ∧
    (let s : State := { base with subj := { n := 2, m := 1 } }
     s.thread? s.subj.n = none) := by decide +kernel
/-- PrefixNopAndYield: PRE with no prefix pending, with its guard register above W, and under a prefix. -/
theorem witness_PrefixNopAndYield :
    let i : Instr := .pre false (.g 8) 0 1 0 0 0 0
    (base.thread? 1 = some thr ∧ pending thr.status = none ∧ inWindow i thr.w = true) ∧
    ((on 1 { thr with w := 8 } []).thread? 1 = some { thr with w := 8 } ∧ inWindow i 8 = false) ∧
    ((on 1 (pre 2 0 0) []).thread? 1 = some (pre 2 0 0) ∧ (pending (pre 2 0 0).status).isSome = true) := by decide +kernel

/-! Local and global memory. -/

/-- LocalFaults: at the end of the team's share, one byte past an aligned address, and at the end of a channel core's SRAM. -/
theorem witness_LocalFaults :
    Runs [(.ldb false (.g 3) (.g 4) 0 0, at' 1 0x200000, decide (((at' 1 0x200000).team 0).s ≤ 0x200000)),
      (.ldd false (.g 3) (.g 4) 0 0, at' 1 0x101, decide (0x101 < ((at' 1 0x101).team 0).s ∧ 0x101 % 8 ≠ 0)),
      (.stv false (.g 8) (.g 4) 0 0, at' 1 0x120, decide (0x120 % 64 ≠ 0)),
      (.ldh false (.g 3) (.g 4) 0 0, at' 65922 0x80000, isChannel (coreOf 65922))] := runs_of (by decide +kernel)
/-- A local access in its bank cycle. -/
def inBank (k : LocalKind) : State :=
  { wrs { st0 with threads := [(1, thr)], mem := [(sramKey 0 0x100, 0x81), (sramKey 0 0x107, 0x83)] } 1 vals with
    todo := [.bank { tk := 1, born := 1, issued := 47, kind := k }], oldBytes := [(sramKey 0 0x107, 0x44)] }
/-- LocalAccesses: the last byte of the share, a group, and each kind of access in its bank cycle. -/
theorem witness_LocalAccesses :
    Runs [(.ldb false (.g 3) (.g 4) 0 0, at' 1 0x1FFFFF, decide (0x1FFFFF < base.scratchSize 0)),
      (.std false (.g 3) (.g 4) 0 0, at' 1 0x1FFFF8, true), (.ldv false (.g 8) (.g 4) 0 0, at' 1 0x1FFFC0, true),
      (.stv false (.g 8) (.g 4) 0 0, at' 65922 0x7FFC0, decide (0x7FFC0 < base.scratchSize 1030))] ∧
    Stands ([.load (sramKey 0 0x100) 2 true (.g 3), .load (sramKey 0 0x100) 1 false (.s 15),
        .load (sramKey 0 0x100) 8 true (.nb .w),
      .load (sramKey 0 0x100) 4 true (.q 3), .loadGroup (sramKey 0 0x100) (.g 88), .store (sramKey 0 0x100) [1, 0, 3]].map
      fun k => (inBank k, (inBank k).cur == none && (inBank k).pkg.answers && (inBank k).thread? 1 == some thr &&
        decide (88 % 8 = 0 ∧ 88 ≤ 88))) := ⟨runs_of (by decide +kernel), stands_of (by decide +kernel)⟩
/-- StreamLoads: an aligned load and group and a misaligned one; SBIND of a good descriptor, of a count of 0, and with a
reserved bit; SCNT; the last but one and the last request of a binding. -/
theorem witness_StreamLoads :
    Runs [(gld, ga thr 0x20010, decide (((ga thr 0x20010).stream 1 2).entries.length + 1 ≤ 8 ∧
        ((ga thr 0x20010).stream 1 2).bind = none)),
      (gld, ga thr 0x20011, decide (0x20011 % 8 ≠ 0)), (.gldv false (.st 2) (.g 4) 0 0 0 0, ga thr 0x20040, true),
      (.gldv false (.st 2) (.g 4) 0 0 0 0, ga thr 0x20010, true),
      (.sbind false (.st 2) (.g 4), ga thr 0x20010, decide (((ga thr 0x20010).readG 1 5).toNat / 2 ^ 53 = 0)),
      (.sbind false (.st 2) (.g 8), ga thr 0x20010, decide (((ga thr 0x20010).readG 1 9).extractLsb' 32 16 = 0)),
      (.sbind false (.st 2) (.g 5), ga thr 0x20010, decide (((ga thr 0x20010).readG 1 6).toNat / 2 ^ 53 ≠ 0)),
      (.scnt false (.g 3) (.st 2), { base with streams := [(10, landed)] }, true)] ∧
    Stands ([2, 1].map fun n => let s : State := { base with cur := none, streams := [(10, bound n 0x20010)], subj := { n := 10 } }
      (s, s.subj.n == 8 * 1 + 2 && (s.stream 1 2).bind == (bound n 0x20010).bind && s.bindingReady 1 2)) :=
  ⟨runs_of (by decide +kernel), stands_of (by decide +kernel)⟩
/-- GlobalStores: aligned, misaligned, a group, U at 254. -/
theorem witness_GlobalStores :
    Runs ([(gst, 0x20010), (gst, 0x20011), (.gstv false (.g 8) (.g 4) 0 0 0, 0x20040)].map fun p =>
      (p.1, ga { thr with u := 254 } p.2, decide (((ga { thr with u := 254 } p.2).core 0).storeBuf.length < 32 ∧ 254 < 255))) :=
  runs_of (by decide +kernel)
/-- LineControl: a line, all ones, and an address with no page; a page in the TLB and not, and a window address. -/
theorem witness_LineControl :
    Runs ([(4, 0x20010), (4, 0x99990000)].flatMap fun p => [(.ginv false (.g 4), ga thr p.2, true),
        (.gprf false (.g 4) 1, ga thr p.2, true),
      (.lclean false (.g 4), ga thr p.2, decide (thr.u < 255)), (.lflush false (.g 4), ga thr p.2, decide (thr.u < 255))] ++
        [(.ginv false (.g 6), ga thr p.2, (ga thr p.2).readG 1 6 == BitVec.allOnes 64)]) ∧
    (ga thr 0).lineXlat 0 1 0x20010 = .miss ∧
        ((ga thr 0).walkFrom 0x10000 0x20010).map (leafLine · 0x20010) = some (.ok (line 0x50010)) ∧
    (ga thr 0).lineXlat 0 1 0x99990000 = .miss ∧ (ga thr 0).walkFrom 0x10000 0x99990000 = none ∧
    (tlbs (ga thr 0)).lineXlat 0 1 0x20010 = .ok (line 0x50010) ∧ (ga thr 0).lineXlat 0 1 0xE100000000000000 = .fault 4 :=
  ⟨runs_of (by decide +kernel), by decide +kernel⟩
/-- AtomicsIssue: 8 bytes, 4 bytes under fmt INT32, a misaligned address, and one that makes no old value. -/
theorem witness_AtomicsIssue :
    Runs [(.amoadd false (.g 3) (.g 4) (.g 5), ga thr 0x20010, decide (((ga thr 0x20010).core 0).storeBuf.length < 32 ∧
        thr.u < 255)),
      (.acas false (.g 3) (.g 4) (.g 5), ga (pre 8 0 3) 0x20014, preFmt (prefixOf (pre 8 0 3)) == 8),
      (.redmaxu false (.g 4) (.g 5), ga thr 0x20014, decide (0x20014 % 8 ≠ 0))] := runs_of (by decide +kernel)
/-- AtomicsAtOwner: 8 bytes of a line, 4 bytes of team SRAM, and the reply. -/
theorem witness_AtomicsAtOwner :
    (let r := rq (.amoadd false (.g 3) (.g 4) (.g 5))
     let x := toSram { rq (.redmin false (.g 4) (.g 5)) with bytes := 4, data := 0xFFFFFFFF }
     Stands [(own r [(0x50010, 0x1234)], turnB (own r [(0x50010, 0x1234)]) r && r.data < 2 ^ 64 && isAmo r.instr),
       (own x [(sramKey 1 0x40, 0x80000000)], turnB (own x [(sramKey 1 0x40, 0x80000000)]) x && x.data < 2 ^ 32 &&
           isRed x.instr)]) ∧
    (let r := { rq (.amoadd false (.g 3) (.g 4) (.g 5)) with stage := .performed }
     let s := pkt (.old 40 77 0) (own r [])
     Stands [(s, arrives s (.old 40 77 0) && s.req? 40 == some r && ((s.thread? 1).any fun th => decide (th.born < r.id)) &&
       amoRd r.instr == .g 3)]) := ⟨stands_of (by decide +kernel), stands_of (by decide +kernel)⟩
/-- OwnerWaitsIssue: each kind of word at an aligned and a misaligned address, BARI refused, and BARI with an operand in range. -/
theorem witness_OwnerWaitsIssue :
    Runs ([0x20010, 0x20011].flatMap fun a => [.ldfe false (.g 3) (.g 4) 2, .stfe false (.g 5) (.g 4) 15, .feq false (.g 3) (.g 4),
      .feset false (.g 4) 1, .bara false (.g 3) (.g 4), .barw false (.g 3) (.g 4) 0, .waitw false (.g 3) (.g 4) 2 3].map fun i =>
        (i, ga thr a, true)) ∧
    Runs [(.bari false (.g 9) (.g 4), on 1 thr [(4, 0x20010), (9, 0xFFFF)], true),
      (.bari false (.g 9) (.g 4), on 1 thr [(4, 0x20010), (9, 0x10001)], decide (0x10001 / 2 ^ 16 ≠ 0)),
      (.bari false (.g 9) (.g 4), on 1 thr [(4, 0x20010), (9, 0)], decide (0 % 2 ^ 16 = 0))] :=
  ⟨runs_of (by decide +kernel), runs_of (by decide +kernel)⟩

/-- A full/empty request at its owner: an SRAM word whose bit is as given. -/
def feAt (i : Instr) (full waiting : Bool) : Req × State :=
  let r := { toSram (rq i) with waiting := waiting }
  (r, (own r [(sramKey 1 0x40, 0xABCD)]).setFull (sramKey 1 0x40) full)
/-- A barrier request at its owner, with the waiters of two phases when `waiters` says so. -/
def barAt (i : Instr) (w : Nat) (waiters : Bool) : Req × State :=
  let q (n ph : Nat) : Req :=
      { rq (.barw false (.g 3) (.g 4) 2) with id := n, tk := 64 + n, exp := ph, data := bw ph 4 1, stage := .waiter, node := 1 }
  let s := own (rq i) [(0x50010, w)]
  (rq i, if waiters then { s with waiters := [20, 21], reqs := (20, q 20 7) :: (21, q 21 6) :: s.reqs } else s)
/-- The target and owner of an access to another place than an ordinary page: a window, a host page, a bank page, a peer page. -/
def elsewhere : List (Target × Nat) :=
  [(.window 1 0x40, 1), (.host 0x90, ioNode), (.bank 0x60000 6 3, nodeAt 6 3), (.peer (2 ^ 40 + 0x10000) 0, ioNode)]
def withLinks (s : State) : State := { s with pkg := { s.pkg with links := List.replicate 8 2, routes := [(1, 3)] } }
def there (i : Instr) (x : Target × Nat) (w : Nat) : Req × State :=
  let r := { rq i with tgt := some x.1, dest := x.2, stage := .sent }
  (r, withLinks (own r [(x.1.key, w)]))
/-- A STFE at its owner, with two waiters of its empty word. -/
def pass (i : Instr) : Req × State :=
  let q (n : Nat) (j : Instr) : Req := { rq j with id := n, tk := 64 + n, stage := .waiter, node := 1, waiting := true }
  let r := rq (.stfe false (.g 3) (.g 4) 2)
  let s := (own r [(0x50010, 0x77)]).setFull 0x50010 false
  (r, { s with waiters := [20, 21], reqs := (20, q 20 i) :: (21, q 21 (.ldfe false (.g 3) (.g 4) 2)) :: s.reqs })
/-- FullEmptyAndBarriersAtOwner: every full/empty operation with its condition true; with it false and a waiter free, or not
allowed to wait; on a host page and on a peer page; a STFE before two waiters; an arrival at a word with expected 0, one that does
not complete the phase and one that does; BARI; WAITW on an equal and a different word; each of them at every other kind of place;
an arrival that only waits for its phase. -/
theorem witness_FullEmptyAndBarriersAtOwner :
    Stands (([(.ldfe false (.g 3) (.g 4) 2, true), (.ldff false (.g 3) (.g 4) 2, true), (.stfe false (.g 3) (.g 4) 2, false),
        (.stff false (.g 3) (.g 4) 2, true), (.feq false (.g 3) (.g 4), false),
            (.feset false (.g 4) 1, true)] : List (Instr × Bool)).map
      fun p => let x := feAt p.1 p.2 true
        (x.2, turnB x.2 x.1 && x.1.isFe && x.1.feReady (x.2.full x.1.key) && x.2.waiters == [])) ∧
    Stands ([true, false].map fun w => let x := feAt (.ldfe false (.g 3) (.g 4) 2) false w
      (x.2, turnB x.2 x.1 && x.1.isFe && !x.1.feReady (x.2.full x.1.key) && x.1.waiting == w && x.2.waiterFree x.1)) ∧
    Stands [let r := { rq (.feq false (.g 3) (.g 4)) with tgt := some (.host 0x90), dest := ioNode, stage := .sent }
      (own r [], turnB (own r []) r && r.isFe && r.tgt == some (.host 0x90))] ∧
    Stands (([(.barw false (.g 3) (.g 4) 2, bw 7 0 3, false), (.bara false (.g 3) (.g 4), bw 7 4 2, false),
        (.barw false (.g 3) (.g 4) 2, bw 65535 4 3, true), (.garr false (.g 3) (.g 4), bw 7 4 3, true),
        (.bari false (.g 3) (.g 4), bw 7 4 3, true), (.waitw false (.g 3) (.g 4) 2 0, 0x1234, false),
        (.waitw false (.g 3) (.g 4) 2 1, 0x1234, false), (.waitw false (.g 3) (.g 4) 2 2, 0x1235, false)] :
        List (Instr × Nat × Bool)).map fun p => let x := barAt p.1 p.2.1 p.2.2
      (x.2, turnB x.2 x.1 && x.1.tgt == some (line 0x50010) && bytesAt x.2 x.1.key 8 == p.2.1 && !x.1.waitOnly &&
          x.2.waiterFree x.1)) :=
  ⟨stands_of (by decide +kernel), stands_of (by decide +kernel), stands_of (by decide +kernel), stands_of (by decide +kernel)⟩
theorem witness_FullEmptyAndBarriersAtOwner_places :
    Stands (([.barw false (.g 3) (.g 4) 2, .bari false (.g 3) (.g 4), .waitw false (.g 3) (.g 4) 2 0,
        .gwait false (.g 3) (.g 4) 2] : List Instr).flatMap fun i =>
      elsewhere.map fun x => let p := there i x (bw 7 4 2)
        (p.2, turnB p.2 p.1 && p.1.tgt == some x.1 && bytesAt p.2 p.1.key 8 == bw 7 4 2)) ∧
    Stands ([true, false].map fun f => let p := there (.ldfe false (.g 3) (.g 4) 2) (.peer (2 ^ 40 + 0x10000) 0, ioNode) 0xABCD
      let s := p.2.setFull (2 ^ 40 + 0x10000) f
      (s, turnB s p.1 && p.1.isFe && p.1.feReady (s.full p.1.key) == f && s.waiters == [])) ∧
    Stands ([7, 8].map fun e => let r := { rq (.barw false (.g 3) (.g 4) 2) with waitOnly := true, exp := e, data := 0x55 }
      (own r [(0x50010, bw 7 4 2)], turnB (own r [(0x50010, bw 7 4 2)]) r && r.waitOnly &&
          State.waiterFree (own r [(0x50010, bw 7 4 2)]) r)) ∧
    Stands (([.ldfe false (.g 3) (.g 4) 2, .ldff false (.g 3) (.g 4) 2] : List Instr).map fun i => let p := pass i
      (p.2, turnB p.2 p.1 && !p.2.full p.1.key && p.2.waiters == [20, 21] && (p.2.waiting.all fun q => q.key == p.1.key) &&
          p.2.waiting.map (·.id) == [20, 21])) :=
  ⟨stands_of (by decide +kernel), stands_of (by decide +kernel), stands_of (by decide +kernel), stands_of (by decide +kernel)⟩
/-- OwnerAnswersAndBounds: the statuses 0, 7, 8, 9 and a fault on their way to the thread; a bound with the request at its
owner, and without one; a resend of an arrival, and resends of a full/empty operation around the retry count. -/
theorem witness_OwnerAnswersAndBounds :
    Stands ([0, 7, 8, 9, 18].flatMap fun st => [true, false].map fun wr =>
      let i : Instr := .ldfe false (.g 3) (.g 4) 2
      let r := { rq i with stage := .performed }
      let s := pkt (.answer 40 st 0xBEEF wr) (waits (wt i) thr (own r []))
      (s, arrives s (.answer 40 st 0xBEEF wr) && s.req? 40 == some r && s.thread? 1 == some { thr with run := .wait (wt i) } &&
        (wt i).req == r.id && !r.withdrawn && !(wt i).gone && thr.stopReq == none && waitRd i == .g 3)) ∧
    Stands (([.sent, .queued, .waiter] : List Stage).map fun sg =>
      let i : Instr := .barw false (.g 3) (.g 4) 2
      let s := { waits (wt i) thr (own { rq i with stage := sg } []) with subj := { n := 1, m := 35 } }
      (s, s.subj.n == 1 && s.subj.m == (wt i).id && s.req? 40 == some { rq i with stage := sg })) ∧
    Stands ([0, 1].map fun stage =>
      let w := { wt (.barw false (.g 3) (.g 4) 2) with req := 0, stage := stage, count := 3 }
      let s := waits w thr { st0 with subj := { n := 1, m := 35 } }
      (s, s.thread? 1 == some { thr with run := .wait w } && s.req? w.req == none && w.req == 0)) ∧
    Stands ([1, 4, 5].map fun n =>
      let w := { wt (.ldfe false (.g 3) (.g 4) 2) with req := 0, stage := 0, count := n }
      let s := waits w thr { st0 with subj := { n := 1, m := 35 } }
      (s, s.thread? 1 == some { thr with run := .wait w } && isFeInstr w.instr && decide (0 < n) &&
          (s.core 0).feretry == 0x0404)) :=
  ⟨stands_of (by decide +kernel), stands_of (by decide +kernel), stands_of (by decide +kernel), stands_of (by decide +kernel)⟩
/-- Fences: at issue with the least and no bound; waiting with nothing left, with a fault in the log, for each kind of scope. -/
theorem witness_Fences :
    Runs [(.fence false 0 0, base, true), (.fence true 15 5, base, true)] ∧
    Stands (([0, 3, 5] : List (BitVec 3)).flatMap fun c => [thr, { thr with log := some (5, 0x77) }].map fun th =>
      let w := wt (.fence false 2 c)
      let s := waits w th { st0 with subj := { n := 1, m := 35 } }
      (s, s.thread? 1 == some { th with run := .wait w } && s.subj.m == w.id && s.reqs == [] && th.u == 0 && !th.hostStore)) :=
  ⟨runs_of (by decide +kernel), stands_of (by decide +kernel)⟩
/-- Addresses of a launch on team 0, which has pages with and without each permission in its TLB and a partition without die 1 and
without team 5 of die 0: each with what the checks of R101, R102 and R128 give; team 9 is absent. -/
def windowAt (die node off : Nat) : Nat := 0xE1 * 2 ^ 56 + die * 2 ^ 53 + node * 2 ^ 47 + off
def checking : State :=
  let s := tlbs (pt st0)
  let s := s.modTeam 0 fun t => { t with tlb := t.tlb ++
    [{ root := 0x10000, launch := 1, va := 0x80000, size := 0x10000, leaf := 0x500003 }, { root := 0x10000, launch := 1, va := 0x90000, size := 0x10000, leaf := 0x500005 }] }
  { s with
    disp := { s.disp with launches := [(1, { lch with wpdie := 0xFD, wpnode := (2 ^ 64 - 1 - 32) :: List.replicate 7 (2 ^ 64 - 1) })] }
    pkg := { s.pkg with absent := [9] } }
def badStore : Req := { rq gst with stage := .buffered, tgt := none, order := 0, ea := 2 ^ 48 + 0x10 }
def badLoad : Req := { rq gld with stage := .port, tgt := none, order := 0, ea := windowAt 1 0 2, fault := 0 }
/-- AccessesOnTheWay: each outcome of the checks of an address. -/
theorem witness_AccessesOnTheWay_checks :
    (([(2 ^ 48, false, .fault 3), (2 ^ 63 + 0x20010, true, .fault 3), (0x70010, false, .miss), (0x80010, false, .fault 5),
        (0x90010, true, .fault 5),
        (0x90010, false, .ok (line 0x50010)), (0x2FFFF, true, .ok (line 0x5FFFF)), (windowAt 0 1 (2 ^ 21), true, .fault 3),
            (windowAt 0 1 (2 ^ 46), true, .fault 3),
        (windowAt 1 0 0, false, .fault 6), (windowAt 0 5 0, false, .fault 6), (windowAt 0 9 0, false, .fault 7),
            (windowAt 4 48 0, false, .fault 7),
        (windowAt 4 47 8, false, .ok (.window (nodeAt 4 47) 8)), (windowAt 0 6 (2 ^ 21 - 1), true, .ok (.window 6 (2 ^ 21 - 1)))] :
      List (Nat × Bool × Xlat)).all fun p => checking.translateFor 1 0 1 p.1 p.2.1 == p.2.2) = true ∧
    ({ checking with threads := [(64 * 1030, { thr with launch := 1 })] } : State).translateFor (64 * 1030) 1030 1 (windowAt 0 6 0) false = .fault 6 ∧
    ({ checking with threads := [(64 * 1030, { thr with launch := 1 }), (64 * 1030 + 1, thr)] } : State).translateFor (64 * 1030) 1030 1 (windowAt 0 6 0) false =
      .ok (.window 6 0) ∧
    Stands ((let s := c0 (fun k =>
        { k with storeBuf := [40, 41] }) { checking with reqs := [(40, badStore)], threads := [(1, { thr with u := 4 })] }
       (s, (s.core 0).storeBuf == [40, 41] && !s.leaveBlocked badStore && s.translateFor 1 0 1 badStore.ea true == .fault 3 &&
           !isAmo gst)) ::
      (let s := { checking with
        reqs := [(40, badLoad)], threads := [(1, thr)], todo := [.port 40],
        streams := [(10, { entries := landed.entries ++ [{ serial := 40 }] ++ [{ serial := 41 }] })] }
       (s, s.cur.isNone && s.pkg.answers && s.waiters == [] && badLoad.streamOf == 2 && !s.portBlocked badLoad &&
           s.translateFor 1 0 1 badLoad.ea false == .fault 6)) ::
      [0x1FFFFC, 0x200000].map fun off => let r := { toSram (rq gst) with tgt := some (.window 1 off) }
        (own r [], turnsB (own r []) r && (own r []).ownerCause r == 8 && decide ((State.team (own r []) 1).s < off + 8))) := by
  refine ⟨?_, ?_, ?_, stands_of ?_⟩ <;> decide +kernel
/-- AccessesOnTheWay: a store at the head of the buffer with its page in the TLB, a store at its owner, its acknowledgement
with and without a fault, and a load whose entries stand between others. -/
theorem witness_AccessesOnTheWay :
    Stands [(let r := { rq gst with stage := .buffered, tgt := none, order := 0 }
      let s := c0 (fun k => { k with storeBuf := [40, 41] }) (tlbs { pt st0 with reqs := [(40, r)], threads := [(1, { thr with u := 4 })] })
      (s, (s.core 0).storeBuf == [40, 41] && !s.leaveBlocked r && r.fault == 0 &&
          s.translateFor r.tk r.node r.launch r.ea true == .ok (line 0x50010) &&
        !s.moved r (line 0x50010) && s.portFree r.node && !s.portBehind r)),
      (let s := own (rq gst) [(0x50010, 0x1234)]
       (s, turnB s (rq gst) && isStore gst)),
      (let s := pkt (.ack 40 0) (own { rq gst with stage := .performed } [])
       (s, arrives s (.ack 40 0) && ((s.thread? 1).any fun th => decide (th.born < 40)) && !isLineOp gst)),
      (let s := pkt (.ack 40 5) (own { rq gst with stage := .performed } [])
       (s, arrives s (.ack 40 5))),
      (let s := pkt (.land 40 [0x55] 0 true (List.replicate 64 1)) { (own { rq gld with stage := .performed, serial := 40 } []) with
        streams := [(10, { entries := landed.entries ++ [{ serial := 40 }] ++ [{ serial := 41 }] })] }
       (s, arrives s (.land 40 [0x55] 0 true (List.replicate 64 1)) && (rq gld).streamOf == 2 &&
        (landed.entries ++ [({ serial := 41 } : Elem)]).all fun e => e.serial != 40))] := stands_of (by decide +kernel)
/-- Slices: a request that arrives at a slice with room and at a retired one, the next look-up with a hit and a miss, the fill,
a slice at each end of the range, and a map that arrives with a bounced request. -/
theorem witness_Slices :
    let r := { rq gst with stage := .sent }
    let k := sliceOf r.dest
    let b : State := (own r []).modSlice k fun x => { x with queue := [] }
    let q : State := { own (rq gst) [] with subj := { n := k } }
    [b, b.modSlice k fun x => { x with retired := true }].all (fun s => s.req? s.subj.n == some r && r.id == s.subj.n &&
      !s.earlierSent r && !s.unaccepted r && !s.meetsAhead r && !(s.slice k).draining && decide ((s.slice k).queue.length < 16) &&
      (s.slice k).accepted != some s.cycle) = true ∧
    q.nextLookup k = some (rq gst) ∧ (∀ l ∈ (q.slice k).lines, l.pa ≠ (rq gst).key / 64) ∧
    (let h := q.modSlice k fun x => { x with lines := [{ pa := 0x50010 / 64, enc := 1, dirty := false, cls := 0, used := 3 }] }
     h.nextLookup k = some (rq gst) ∧ ∃ l ∈ (h.slice k).lines, l.pa = (rq gst).key / 64) ∧
    (own { rq gst with stage := .filling } []).req? 40 = some { rq gst with stage := .filling } ∧
    (b.slice 0).retired = false ∧ (b.slice 0).queue = [] ∧ (b.slice 63).retired = false ∧ (b.slice 63).queue = [] ∧
    (let s := pkt (.map 2 (List.replicate 16 3) 5 (some 40)) (own { rq gst with stage := .bounced } [])
     arrives s (.map 2 (List.replicate 16 3) 5 (some 40)) = true ∧ (s.team 0).maps.length = 4 ∧ (s.team 0).mapGens.length = 4 ∧
      (s.team 0).mapGens.getD 2 0 ≠ 5 ∧ s.req? 40 = some { rq gst with stage := .bounced }) := by decide +kernel
/-- A walk of team 0. -/
def walkAt (va : Nat) : State :=
  State.modTeam { pt st0 with
    subj := { n := 0, m := 35 }, reqs :=
        [(41, { rq gld with id := 41, stage := .port, tgt := none, ea := va })] } 0 fun t => { t with walks :=
        [{ id := 34, launch := 1, root := 0x10000, va := 0x90000 }, { id := 35, launch := 1, root := 0x10000, va := va }] }
/-- A thread parked for an instruction line, with its page in the TLB. -/
def fetching (pc : BitVec 48) : State :=
    tlbs (pt { st0 with subj := { n := 1 }, threads := [(1, { thr with run := .fetch, pc := pc })] })
/-- WalksAndFetch: a walk that finds a leaf and one that finds none; a fetch of the last word of a line, one whose leaf faults, and
one whose page is not in the TLB; a window whose zeroing ends. -/
theorem witness_WalksAndFetch :
    (walkAt 0x20010).walkFrom 0x10000 0x20010 = some 0x500007 ∧ (walkAt 0x70010).walkFrom 0x10000 0x70010 = none ∧
    (((walkAt 0x70010).team 0).walks.map (·.id)) = [34, 35] ∧ (walkAt 0x70010).subj.m = 35 ∧
    ((fetching 0x2003C).launchOfThread 1).map (·.root) = some 0x10000 ∧
    ((fetching 0x2003C).tlbFind 0 1 lch 0x20000).map (·.leaf) = some 0x500007 ∧ (fetching 0x70000).tlbFind 0 1 lch 0x70000 = none ∧
    (match (fetching 0x2003C).fetchLine 0x500007 0x20000 with | .ok l => l.length == 64 | .error _ => false) = true ∧
    (let s : State := { fetching 0x2003C with pkg := { booted := true, poison := [0x50000 / 64] } }
     let peer : Word := BitVec.ofNat 64 (2 ^ 44 + 2 ^ 20 + 7)
     s.poisoned (leafTarget 0x500007 0x20000) 64 = true ∧ leafTarget peer 0x20000 = .peer (2 ^ 40 + 0x10000) 0 ∧
         SMap.get? s.pkg.routes 1 = none ∧
       SMap.get? (withLinks s).pkg.routes 1 = some 3 ∧ (withLinks s).pkg.links.getD 3 0 = 2) ∧
    (match (fetching 0x2003C).fetchLine 0x500001 0x20000 with | .ok _ => false | .error c => c == 4 || c == 5) = true ∧
    (let s := c0 (fun k => { k with zeroing := [{ slot := 2, base := 9, w := 8, till := 51 }, { slot := 1, base := 0, w := 8, till := 49 }] })
        { base with cur := none, subj := { n := 1 } }
     canonB s = true ∧ (s.core 0).zeroing.find? (fun y => y.slot == slotOf 1 && decide (y.till < s.cycle)) =
       some { slot := 1, base := 0, w := 8, till := 49 }) := by
  decide +kernel

/-! Float, vectors and the matrix engine. -/

/-- ScalarFloat: the forms are ready with a prefix for each format; the normaliser's result reaches its thread, or none. -/
theorem witness_ScalarFloat :
    Runs ([0, 1, 2, 3].flatMap fun f => [.fadd false (.g 3) (.g 4) (.g 5), .ffma false (.g 3) (.g 4) (.g 5),
        .fmin false (.g 3) (.g 4) (.g 5),
      .fcmple false (.g 3) (.g 4) (.g 5), .fabs false (.g 3) (.g 4), .fneg false (.s 3) (.g 4),
          .fcls false (.g 3) (.g 4)].map fun i =>
        (i, on 1 (pre f 0 0) vals, true)) ∧
    Runs ((.fabs false (.g 3) (.g 4), on 1 (pre 4 0 0) vals, true) :: [(1, 2), (4, 9), (8, 1), (9, 4)].map fun p =>
        (.fcvt false (.g 3) (.g 4), on 1 (pre p.1 p.2 0) vals, true)) ∧
    (let s : State := { base with subj := { n := 1, m := 1 } }
     s.thread? s.subj.n = some thr ∧ thr.born = s.subj.m ∧ thr.born ≠ 3) :=
  ⟨runs_of (by decide +kernel), runs_of (by decide +kernel), by decide +kernel⟩
/-- A job of the vector unit. -/
def vjob (i : Instr) (issued : Nat) : VJob :=
    { id := 35, tk := 1, instr := i, fmt := 1, aux := 0, scal := [none, none, some 5], issued := issued }
def handed (f : Team → Team) : State :=
  State.modTeam { base with cur := none, threads := [(1, { thr with run := .handed })], subj := { n := 0, m := 35 } } 0 f
/-- VectorUnitAndLanes: an issue with one entry taken; a grant after the last served core with a wrap; a result of one word and
of a group; lanes at the ends of their ranges. -/
theorem witness_VectorUnitAndLanes :
    Runs [(.vadd false (.g 8) (.g 16) (.g 24), base.modTeam 0 fun t =>
        { t with vq := [[vjob (.vmov false (.g 8) (.g 16)) 49], [], [], []] },
      decide (0x2C ≤ ((encode (.vadd false (.g 8) (.g 16) (.g 24))).extractLsb' 25 6).toNat)),
          (.vmov false (.g 8) (.g 88), on 1 { thr with w := 96 } vals, true)] ∧
    (let s := handed fun t => { t with vq := [[vjob (.vadd false (.g 8) (.g 16) (.g 24)) 49], [], [], []], vlast := 3 }
     (s.team 0).vq.length = 4 ∧ ((s.team 0).vlast + 1 + 0) % 4 = 0 ∧
         (s.team 0).vq.getD 0 [] = [vjob (.vadd false (.g 8) (.g 16) (.g 24)) 49]) ∧
    (let s := handed fun t =>
        { t with vq := [[vjob (.vadd false (.g 8) (.g 16) (.g 24)) 50], [], [], [vjob (.vmov false (.g 8) (.g 16)) 49]], vlast := 0 }
     (s.team 0).vq.length = 4 ∧ ([0, 1].all fun k => (s.team 0).vq.getD (((s.team 0).vlast + 1 + k) % 4) [] == []) = true ∧
      ((s.team 0).vlast + 1 + 2) % 4 = 3 ∧ (s.team 0).vq.getD 3 [] = [vjob (.vmov false (.g 8) (.g 16)) 49]) ∧
    (let s := handed fun t => { t with vq := [[vjob (.vadd false (.g 8) (.g 16) (.g 24)) 50], [], [], []], vlast := 3 }
     ([1, 2, 3].all fun k => (s.team 0).vq.getD k [] == []) = true ∧ s.cycle = 50) ∧
    Stands ([(.vred true (.g 3) (.g 16) 1, [77]), (.vadd false (.g 8) (.g 16) (.g 24), [1, 2, 3, 4, 5, 6, 7, 8])].map
      fun p : Instr × List Word =>
        let s := handed fun t => { t with vfly := [{ vjob p.1 3 with result := p.2 }] }
        (s, (s.team 0).vfly.find? (fun k => k.id == s.subj.m) == some { vjob p.1 3 with result := p.2 } &&
          s.thread? 1 == some { thr with run := .handed })) ∧
    (63 * widthOf 5 < 512 ∧ 7 * widthOf 9 < 512 ∧ 31 * widthOf 7 < 512 ∧ 15 * widthOf 8 < 512 ∧ floatOf 0 = some fp32 ∧
        floatOf 1 = some fp32 ∧
      floatOf 4 = some zf8 ∧ floatOf 5 = none ∧ floatOf 7 = none) :=
  ⟨runs_of (by decide +kernel), by decide +kernel, by decide +kernel, by decide +kernel, stands_of (by decide +kernel), by decide +kernel⟩
/-- TCW words: kind, accumulator, rings, types, amode; and masks. -/
def tw0 (k acc ra rb ta tb m : Nat) : Word :=
    BitVec.ofNat 64 (k * 2 ^ 58 + acc * 2 ^ 54 + ra * 2 ^ 51 + rb * 2 ^ 48 + ta * 2 ^ 44 + tb * 2 ^ 40 +
  (if ta = 5 then 2 ^ 35 else 0) + (if tb = 5 then 2 ^ 34 else 0) + m * 2 ^ 36)
def tw1 (r c d : Nat) : Word := BitVec.ofNat 64 (r * 2 ^ 48 + c * 2 ^ 32 + d * 2 ^ 16)
def mma : List Word := [tw0 1 2 1 2 5 6 1, tw1 0xFF0F 0x7FFF 0xF0FF, 0, 2 ^ 63 + 0x77]
def mdrn : List Word := [tw0 7 2 0 2 0 8 1, tw1 0xFFFF 0xFFFF 0xFFFF, 0, 2 ^ 63 + 0x78]
def rings : List Ring :=
    [{}, { b := 0x1000, e := 256, n := 4, h := 1, c := 1, t := 4, f := 4 }, { b := 0x2000, e := 1024, n := 4, h := 6, c := 6, t := 0, f := 0 },
  {}, { b := 0, e := 16, n := 2, h := 3, c := 3, t := 1, f := 1 }, { b := 0, e := 16, n := 2, h := 0, c := 0, t := 0, f := 1 }, {}, {}]
def mt (m : Matrix → Matrix) (s : State) : State := s.modTeam 0 fun t =>
    { t with mx := m { t.mx with rings := rings, credit := 7, creditAt := 50 } }
def descr (d0 : Nat) : State := mt id (on 1 thr [(8, BitVec.ofNat 64 d0), (4, 0x10102)])
def ringOp (k : LocalKind) : State :=
    { mt id { base with cur := none } with todo := [.ringOp { tk := 1, born := 1, issued := 47, kind := k }] }
/-- MatrixInstructions: MPUSH of a good command with room and with none, and of one whose word 1 is refused; MFENCE with and
without room; MRING of a good descriptor on an idle ring, a bad one, and on a ring in use; MPOP with three pending; MRADV and
MRSTAT at issue, and in their bank cycle taken at each end, refused, and by ring and by core. -/
theorem witness_MatrixInstructions :
    (let full := fun m : Matrix => { m with dq := [[entry mma, entry mma], [], [], []] }
     Runs [(.mpush false (.g 3) (.g 8) 2, mt id (on 1 thr (cmd4 mma)), tcwFault rings 0x200000 mma == none),
      (.mpush false (.g 3) (.g 8) 15, mt full (on 1 thr (cmd4 mma)), true),
      (.mpush false (.g 3) (.g 8) 2, mt id (on 1 thr (cmd4 [tw0 4 2 0 0 0 0 1, 0, 0, 0])),
          (tcwFault rings 0x200000 [tw0 4 2 0 0 0 0 1, 0, 0, 0]).isSome),
      (.mfence false 2, mt id base, true),
          (.mfence false 2, mt full base, decide (2 ≤ (((mt full base).team 0).mx.dq.getD 0 []).length)),
      (.mring false (.g 8) 2, descr (4 * 2 ^ 48 + 256 * 2 ^ 32 + 3 * 2 ^ 28 + 0x4000), !ringBad 0x200000 (BitVec.ofNat 64 (4 * 2 ^ 48 + 256 * 2 ^ 32 + 3 * 2 ^ 28 + 0x4000)) 0 && (descr 0).ringIdle 0 3),
      (.mring false (.g 8) 2, descr (4 * 2 ^ 48 + 256 * 2 ^ 32 + 3 * 2 ^ 28 + 0x4001), ringBad 0x200000 (BitVec.ofNat 64 (4 * 2 ^ 48 + 256 * 2 ^ 32 + 3 * 2 ^ 28 + 0x4001)) 0),
      (.mring false (.g 8) 15, mt full (descr (4 * 2 ^ 48 + 256 * 2 ^ 32 + 2 ^ 28 + 0x4000)), !(mt full (descr 0)).ringIdle 0 1),
      (.mpop false (.g 4) 15, on 1 { thr with mpops := List.replicate 3 { id := 7, rd := 3, deadline := none } } vals, true),
      (.mradv false (.g 3) (.g 4), descr 0, true), (.mrstat false (.s 3) (.g 4), descr 0, true)]) ∧
    Stands ([0x10001, 0x30101, 0x10004, 0x10104, 0x20001, 0x20104, 0x00001, 0x10000, 0x1010001, 0x10201, 0x10009].map fun a : Nat =>
      (ringOp (.ringAdvance (.g 3) (BitVec.ofNat 64 a)), (ringOp (.ringAdvance (.g 3) (BitVec.ofNat 64 a))).pkg.answers &&
        (ringOp (.ringAdvance (.g 3) (BitVec.ofNat 64 a))).thread? 1 == some thr)) ∧
    Stands ([0x001, 0x100, 0x209, 0x008].map fun a : Nat => (ringOp (.ringStatus (.g 3) (BitVec.ofNat 64 a)), true)) :=
  ⟨runs_of (by decide +kernel), stands_of (by decide +kernel), stands_of (by decide +kernel)⟩
/-- MatrixInstructions, the checks of Table MX-7: one command or descriptor for each condition, with the first word that fails. -/
theorem witness_MatrixInstructions_checks :
    let t1 := tw1 0xFFFF 0xFFFF 0xFFFF
    ([(mma, none), ([tw0 1 2 1 2 5 4 0, t1, 0, 0], some 0), ([tw0 1 2 3 2 5 5 0, t1, 0, 0], some 0),
        ([tw0 1 2 1 2 2 2 0 ||| 2 ^ 33, t1, 0, 0], some 0),
      ([tw0 1 2 1 2 5 5 2, t1, 0, 0], some 0), ([tw0 1 2 1 2 5 5 0, t1 + 1, 0, 0], some 1), ([tw0 1 2 1 2 5 5 0, t1, 1, 0], some 2),
      ([tw0 1 2 1 2 5 5 0, t1, 0, 2 ^ 32], some 3), ([tw0 1 2 1 2 5 5 0, t1, 2 ^ 63, 2 ^ 63], none),
      ([tw0 2 2 2 1 5 6 1, t1, 0, 0], none), ([tw0 2 2 2 1 5 6 1, tw1 0xFFFF 0xFFFF 0x7FFF, 0, 0], some 1),
          ([tw0 2 2 1 2 5 6 1, t1, 0, 0], some 0),
      ([tw0 3 2 2 2 4 4 0, t1, 0, 0], none), ([tw0 3 2 2 2 4 4 0, t1, 2 ^ 61, 0], some 2), ([tw0 3 2 2 0 4 0 1, t1, 0, 0], none),
      ([tw0 4 2 0 0 0 0 1, tw1 0xFFFF 1 2, 0, 0], some 1), ([tw0 4 2 0 0 0 0 1, tw1 0 1 0, 0, 0], some 1),
          ([tw0 4 2 0 0 0 0 0, t1, 0, 0], none),
      ([tw0 5 2 2 0 1 0 0, t1, 0, 0], none), ([tw0 5 2 1 0 8 0 0, t1, 0, 0], some 0), ([tw0 6 2 0 2 0 6 1, t1, 0, 0], none),
      ([tw0 6 2 0 2 0 6 1, t1, 2 ^ 63, 0], some 2), (mdrn, none), ([tw0 7 2 0 2 0 8 1, t1, 2 ^ 16, 0], some 2),
      ([tw0 7 2 0 2 0 2 2, t1, 0, 0], some 0), ([tw0 8 2 0 0 0 8 1, t1, 16 * 2 ^ 53 + 0x1000 * 2 ^ 32, 0], none),
      ([tw0 8 2 0 0 0 8 1, t1, 16 * 2 ^ 53 + 0x1002 * 2 ^ 32, 0], some 2),
          ([tw0 9 0 0 0 0 0 0, t1, 0, 0], some 0)] : List (List Word × Option Nat)).all
      (fun p => tcwFault rings 0x200000 p.1 == p.2) = true ∧
    ([(4 * 2 ^ 48 + 256 * 2 ^ 32 + 0x4000, 0, false), (0, 0, false), (16, 0, true), (4 * 2 ^ 48 + 256 * 2 ^ 32, 1, true),
        (2 ^ 48 + 8 * 2 ^ 32, 0, true),
      (2 ^ 48 + 4096 * 2 ^ 32 + 0x1FF000, 0, false), (2 ^ 48 + 4096 * 2 ^ 32 + 0x1FF010, 0, true),
          (2 ^ 48 + 4112 * 2 ^ 32, 0, true), (2 ^ 56, 0, true), (2 ^ 31, 0, true)] :
      List (Nat × Nat × Bool)).all (fun p => ringBad 0x200000 (BitVec.ofNat 64 p.1) (BitVec.ofNat 64 p.2.1) == p.2.2) = true :=
          by decide +kernel
def engine (f : Matrix → Matrix) : State := mt f { base with cur := none, subj := { n := 0, m := 35 } }
def op (t : List Word) : MOp := { e := entry t, startAt := 40, doneAt := 50, atW := 5 }
def popping (slot : Nat) : State :=
  let th : Thread := { thr with mpops := [{ id := 7, rd := 3, deadline := some 60 }, { id := 8, rd := 5, deadline := none }] }
  mt (fun m => { m with results := [[{ w0 := 0x55, w1 := 0x66, slot := slot, gen := 0, tcw0 := 0, pc := 0 }, { w0 := 0x56, w1 := 0x67, slot := 1, gen := 0, tcw0 := 0, pc := 0 }], [], [], []] })
    { base with cur := none, threads := [(1, th)], subj := { n := 1, m := 7 } }
/-- An operation of unchecked mode that completes, with what has happened to its cells since the last fence. -/
def banksOfOp (s : State) (t : List Word) : List Nat :=
    readBanks 0 (s.team 0).mx t (opPlaces (s.team 0).mx t).1 (opPlaces (s.team 0).mx t).2.1
def apart : List Ring := rings.set 2 { b := 0x2200, e := 1024, n := 4, h := 6, c := 6, t := 0, f := 0 }
def free (s : State) (banks : List Nat) : Bool := banks.Nodup && (banks.all fun b => !s.banksUsed.contains b) && s.portAsks == []
/-- An operation whose operands have still to be read, behind another that has read. -/
def late (checked : Bool) : State :=
  { engine fun m => { m with checked := checked, rings := apart, active := [{ op mdrn with e := { entry mdrn with id := 34 } }, { op mma with reading := true, atA := 1, atB := 6 }] } with
    todo := [.matrixRead 0 35] }
def finishing (t : List Word) (pop w : Nat) (hist : SMap (List CellEvent)) (checked : Bool) : State :=
  engine fun m => { m with
    active := [{ op t with atA := 1, atB := 6, atW := w, popA := pop, opA := List.replicate 256 3, opB := List.replicate 1024 5 }], hist := hist
    checked := checked, acc := [(512, 5), (800, 3)]
    rings := (rings.set 1 { b := 0x1000, e := 256, n := 4, h := 1, c := 2, t := 4, f := 4 }).set 2 { b := 0x2000, e := 1024, n := 4, h := 6, c := 7, t := 0, f := 1 } }
/-- MatrixEngine: a grant past empty queues; an integer MMA in checked mode and a fence that start; a completion with notify,
and of an MDRN of all cells; a record behind another slot's and at the head; a bound of MPOP and one of MPUSH. In unchecked mode an
operation that starts, and completions of the first operation on its cells and of a later one. An operation that starts while its two
operands lie in one bank, one that reads later, in either mode, one not read yet and one behind an unfinished one of its shape and
tile, and one whose bank another access has used in this cycle. -/
theorem witness_MatrixEngine :
    Stands [(let s := engine fun m => { m with dq := [[], [], [], [entry mma, entry mma]], grant := 0 }
      (s, !(s.team 0).stopped && (s.team 0).mx.dq.getD 1 [] == [] && (s.team 0).mx.dq.getD 3 [] == [entry mma, entry mma] &&
          decide (40 < s.cycle))),
      (let s := engine fun m => { m with startQ := [entry mma], checked := true, acc := [(512, 5), (800, 3)], rings := apart }
       (s, free s (banksOfOp s mma) && (s.team 0).mx.active == [] && (s.team 0).mx.startQ == [entry mma] &&
           s.canStart 0 (entry mma) && tKind mma == 1 && isInt8 (tTypeA mma) && isInt8 (tTypeB mma) &&
        tMode mma == 1 && !tSat mma && tRingA mma != tRingB mma)),
      (let e := { entry [0, 0, 0, 0] with fence := true }
       let s := engine fun m => { m with startQ := [e] }
       (s, s.canStart 0 e)),
      (let s := engine fun m => { m with active := [op mma], checked := true }
       (s, free s (writeBanks 0 {} (op mma)) && (s.team 0).mx.active.find? (fun p => p.e.id == s.subj.m) == some (op mma) &&
           !(s.team 0).mx.stalled s.cycle && s.waiters == [] &&
        tNotify mma && opCause (s.team 0).mx (op mma) == 0 && needW mma == 0 && s.slotGen 1 == 0)),
      (let s := engine fun m => { m with active := [op mdrn], checked := true }
       (s, free s (writeBanks 0 (rings.getD 2 {}) (op mdrn)) && !(s.team 0).mx.stalled s.cycle && tKind mdrn == 7 &&
           tMode mdrn == 1 && (List.range 16).all fun i => tRow mdrn i && tCol mdrn i)),
      (popping 2, ((popping 2).mResults 0).map (·.slot) == [2, 1] && slotOf 1 == 1),
          (popping 1, ((popping 1).mResults 0).map (·.slot) == [1, 1]),
      (waits { wt (.mpush false (.g 3) (.g 8) 2) with id := 7 } thr { base with subj := { n := 1, m := 7 } }, true)] ∧
    Stands [(let s := engine fun m =>
        { m with startQ := [entry mma], rings := rings.set 2 { b := 0x2100, e := 1024, n := 4, h := 6, c := 6, t := 0, f := 0 } }
       (s, !free s (banksOfOp s mma) && s.canStart 0 (entry mma) && !(s.team 0).mx.checked && needA mma != 0 && needB mma != 0 &&
           !tKeepA mma && !tKeepB mma)),
      (let s := engine fun m =>
          { m with startQ := [entry mdrn], rings := rings.set 2 { b := 0x2000, e := 1024, n := 4, h := 6, c := 6, t := 6, f := 6 } }
       (s, s.canStart 0 (entry mdrn) && needW mdrn != 0 && decide (tRingA mdrn ≠ tRingB mdrn)))] ∧
    Stands ([false, true].map fun ck => let s := late ck
      (s, s.cur.isNone && s.pkg.answers && s.waiters == [] && (s.team 0).mx.checked == ck && tAcc mdrn == tAcc mma &&
        ((s.team 0).mx.active.find? fun p => p.e.id == 35) == some { op mma with reading := true, atA := 1, atB := 6 } &&
        free s (readBanks 0 (s.team 0).mx mma 1 6))) ∧
    Stands ([[{ op mma with reading := true }], [{ op mma with e := { entry mma with id := 34 } }, op mma]].map fun l =>
      let s := engine fun m => { m with active := l }
      (s, (s.team 0).mx.active.any fun p => p.e.id == s.subj.m)) ∧
    (let s := { engine fun m => { m with active := [op mdrn] } with banksUsed := [0] }
     (s.askPorts .matrix 71 (writeBanks 0 (rings.getD 2 {}) (op mdrn))).1 = false) ∧
    Stands ([(mma, 1, 0, []),
        (mma, 1, 0, [(512, [{ shape := 0, value := 5, wrote := true }, { shape := 9, value := 7, wrote := true }])]),
      (mdrn, 0, 0, [])].map fun p : List Word × Nat × Nat × SMap (List CellEvent) =>
        let s := finishing p.1 p.2.1 p.2.2.1 p.2.2.2 false
        (s, free s (writeBanks 0 ((s.team 0).mx.rings.getD (tRingB p.1) {}) ((s.team 0).mx.active.headD (op mma))) &&
          ((s.team 0).mx.active.find? fun q => q.e.id == s.subj.m) == (s.team 0).mx.active.head? &&
              !(s.team 0).mx.stalled s.cycle && s.waiters == [] &&
          (s.team 0).mx.passed == [] && decide (512 ∈ cellsOf p.1) && decide (tRingA p.1 ≠ tRingB p.1) &&
              (p.2.1 == 0 || (s.team 0).mx.rings.getD 1 {} != {}))) :=
  by refine ⟨stands_of ?_, stands_of ?_, stands_of ?_, stands_of ?_, ?_, stands_of ?_⟩ <;> decide +kernel
/-- MatrixEngine, the kinds of command: each with types of its clause. -/
theorem witness_MatrixEngine_kinds :
    ([(tw0 1 2 1 2 4 3 1, 1, true, false), (tw0 1 2 1 2 5 6 0, 1, false, true),
        (tw0 2 2 1 2 5 6 3, 2, false, true)] : List (Word × Nat × Bool × Bool)).all (fun p =>
      tKind [p.1] == p.2.1 && (isFpOp (tTypeA [p.1]) && isFpOp (tTypeB [p.1])) == p.2.2.1 && (isInt8 (tTypeA [p.1]) &&
          isInt8 (tTypeB [p.1])) == p.2.2.2) = true ∧
    ([4, 5, 7, 8].all fun k => tKind [tw0 k 2 1 2 1 8 0] == k && tMode [tw0 k 2 1 2 1 8 0] == 0) = true ∧
    (tKind [tw0 6 2 0 2 0 5 1] = 6 ∧ isInt8 (tTypeB [tw0 6 2 0 2 0 5 1]) = true) ∧
    ([5, 6, 8].all fun b => tKind [tw0 7 2 0 2 0 b 2] == 7 && tMode [tw0 7 2 0 2 0 b 2] == 2 &&
        tTypeB [tw0 7 2 0 2 0 b 2] == b) = true := by decide +kernel

/-! Ports, queues, messages and join patterns. -/

/-- An image with four transitions: an offer buffered, a buffer emptied to a sink, an offer straight to the sink, and a drop. -/
def hdr (t p : Nat) : List Word := [BitVec.ofNat 64 (0x4843 * 2 ^ 48 + p * 2 ^ 40 + t * 2 ^ 32 + 2 ^ 17 + 7), 2, 0, 0]
def rt (l : List (Nat × Nat)) (lo hi : Nat) : Word :=
  BitVec.ofNat 64 (((List.range (hi - lo)).map fun k => ((l.find? (·.1 == lo + k)).map (·.2)).getD 31 * 2 ^ (5 * k)).sum)
def tr (e0 : Nat) (l : List (Nat × Nat)) : List Word := [BitVec.ofNat 64 e0, rt l 0 12, rt l 12 24, 0]
def img : List Word := hdr 4 0 ++ tr 3 [(1, 0)] ++ tr 0x1000004 [(16, 2)] ++ tr 0x10002 [(1, 16)] ++ tr 0x100000001 []
/-- The name of boundary port 1 of connector 1 of node 1, for slot 1. -/
def nm : Word := 0x01000100 ||| 0x1000 ||| (1 : Word)
def cp (b : Bool) (slot : Nat) (sink : Bool) : CPort := { bound := b, slot := slot, bport := 1, conn := 1, node := 1, sink := sink }
def ported (c : List CPort) : State :=
  c0 (fun k => { k with cports := c ++ List.replicate (16 - c.length) {} }) (on 1 thr [(3, nm), (4, 0x20040), (5, 0x01001000),
      (9, 0x0800FFFF000)])
/-- PortInstructions: each with the port it asks for and without, the names accepted and refused, and an image address that is
not a multiple of 32. -/
theorem witness_PortInstructions :
    (let good := ported [cp true 1 false, cp true 1 true]
     Runs [(.put false (.g 3) 0 2, good, ((good.core 0).cport 0).bound),
         (.put false (.g 3) 1 15, good, ((good.core 0).cport 1).sink),
      (.take false (.g 3) 1 2, good, true), (.take false (.g 3) 15 2, good, !((good.core 0).cport 15).bound),
      (.pbind false (.g 3) 2, good, !((good.core 0).cport 2).bound && !good.nameRefused 1 nm true),
      (.pbind false (.g 3) 0, good, true), (.pbind false (.g 9) 2, good, good.nameRefused 1 (good.readG 1 9) true),
      (.pfree false 0, good, !good.portBusy 0 0), (.pfree false 2, good, true),
      (.hload false (.g 3) (.g 4) (.g 5), good, !good.nameRefused 1 0x01001000 false && !(good.conn 1 1).loaded &&
          decide (0x20040 % 32 = 0)),
      (.hload false (.g 3) (.g 8) (.g 9), good, good.nameRefused 1 (good.readG 1 9) false),
          (.hstop false (.g 3) (.g 5), good, true),
      (.hstat false (.g 3) (.g 9), good, true)]) := runs_of (by decide +kernel)
/-- Thread 1 waiting on a port instruction, with its ports bound. -/
def portWait (i : Instr) (stage : Nat) : State :=
  State.modCore { waits { wt i with stage := stage, vals := [nm, 0x20040, 0x01001000], stamp := 30 } thr st0 with subj := { n := 1, m := 35 } } 0
    fun k => { k with cports := [cp true 1 false, cp true 1 true] ++ List.replicate 14 {} }
/-- PortAnswers: an offer that may be sent; a completion and a withdrawal answered; the bound before and after sending; the
answers to PBIND, PFREE and the hitch instructions; HLOAD with an accepted image and with one that is not. -/
theorem witness_PortAnswers :
    Stands ([(.put false (.g 3) 0 2, 0, .done 0 1 35 0 0 0), (.put false (.g 3) 0 2, 1, .done 0 1 35 0 3 0),
        (.take false (.g 3) 1 2, 1, .done 0 1 35 1 0 9),
      (.take false (.g 3) 1 2, 1, .done 1 1 35 1 1 0), (.pbind false (.g 3) 15, 0, .done 2 1 35 15 0 1), (.pbind false (.g 3) 15, 0,
          .done 2 1 35 15 4 0),
      (.pfree false 0, 0, .done 3 1 35 0 0 0), (.hload false (.g 3) (.g 4) (.g 5), 1, .done 5 1 35 0 0 4),
          (.hstat false (.g 3) (.g 4), 0, .done 7 1 35 0 4 0)].map
      fun p : Instr × Nat × Payload => let s := pkt p.2.2 (portWait p.1 p.2.1)
        (s, arrives s p.2.2 && (s.thread? 1).any fun th =>
            th.run == .wait { wt p.1 with stage := p.2.1, vals := [nm, 0x20040, 0x01001000], stamp := 30 } && th.stopReq == none)) ∧
    Stands ([0, 1].map fun g => (portWait (.put false (.g 3) 0 2) g, (portWait (.put false (.g 3) 0 2) g).released 1 35)) ∧
    Stands ([img, img.set 4 0x4000000000].map fun im =>
      let s := { put 0x50040 (im.map BitVec.toNat) (pt (portWait (.hload false (.g 3) (.g 4) (.g 5)) 0)) with todo := [.resume 1] }
      let rd := fun n len => match s.readDwords 1 n len with | .ok l => l | .error _ => []
      (s, s.released 1 35 && s.cur == none && s.pkg.answers && headerOk (rd 0x20040 4) &&
        imageOk (rd 0x20040 4 ++ rd 0x20060 (4 * (imT (rd 0x20040 4) + imP (rd 0x20040 4)))) == (im == img))) :=
  ⟨stands_of (by decide +kernel), stands_of (by decide +kernel), stands_of (by decide +kernel)⟩
/-- A connector of node 1 with the image: a buffer holding 7, two boundary ports bound. -/
def cn : Conn := { loaded := true, image := img, ages := [3, 63, 2, 4], bufs := [[7], [], [], [], [], [], [], []], binds := [some (5, 3), some (6, 4), some (7, 5)] ++ List.replicate 13 none, fired := 9 }
def atHome (c : Conn) : State := State.modTeam { st0 with subj := { n := 1, m := 1 }, cycle := 51 } 1 fun t =>
    { t with conns := [{}, c, {}, {}] }
def pend (p : Option Word) (core port : Nat) : Option Pend :=
    some { tk := 64 * core + 1, wid := 60 + port, port := port, offer := p, since := 40 }
/-- HitchEngine: an offer and a request from the port bound there and from another; a binding of a used free port and of a used
bound one; an unbinding; an image that fits and one for a connector in use; HSTOP of a connector that is quiet and of one that is
not loaded, in the connector's own cycle and in the other; HSTAT; a decision of four enabled transitions with the oldest in the
middle, with none, and with a stop that waits, with bindings and with none; a stop of a connector with bindings and pending operations,
and of one that is being stopped; an acknowledgement that is not the last, and the last; an unbinding of a core port. -/
theorem witness_HitchEngine :
    Stands (([(cn, .flit 0 1 1 0 321 35 3 77 [] 9), (cn, .flit 1 1 1 0 321 35 3 0 [] 9), (cn, .flit 0 1 1 15 321 35 2 77 [] 9), ({},
        .flit 0 1 1 0 321 35 3 77 [] 9),
      ({ cn with binds := List.replicate 16 none }, .flit 3 1 1 1 1 35 2 7 [] 9), (cn, .flit 3 1 1 0 1 35 2 7 [] 9), (cn,
          .flit 4 1 1 0 320 35 3 0 [] 9),
      ({}, .flit 5 1 1 0 1 35 0 0 img 9), (cn, .flit 5 1 1 0 1 35 0 0 img 9), ({}, .flit 6 1 1 0 1 35 0 0 [] 9),
      ({ cn with binds := List.replicate 16 none }, .flit 6 1 1 0 1 35 0 0 [] 9), (cn,
          .flit 7 1 1 0 1 35 0 0 [] 9)] : List (Conn × Payload)).map fun p =>
        (pkt p.2 (atHome p.1), arrives (pkt p.2 (atHome p.1)) p.2 && (pkt p.2 (atHome p.1)).conn 1 1 == p.1)) ∧
    imUsed img 1 = true ∧ (atHome {}).hitchFits 1 img = true ∧
    Stands [(let x := { cn with pend := [pend (some 5) 5 3, pend none 6 4, pend (some 9) 7 5] ++ List.replicate 13 none }
      (atHome x, x.withdraw == [] && imT img == 4 && ((List.range 4).filter fun i => x.enabled 51 i) == [0, 1, 2, 3])),
      (let x := { cn with pend := List.replicate 16 none }
       (atHome x, (List.range 4).all fun i => !x.enabled 51 i)),
      (let x := { cn with pend := List.replicate 16 none, binds := List.replicate 16 none, stops := [(1, 35)] }
       (atHome x, x.withdraw == [] && x.answerTo == [] && ((List.range 4).all fun i => !x.enabled 51 i))),
      (let x := { cn with binds := List.replicate 16 none }
       let s := { pkt (.flit 6 1 1 0 1 35 0 0 [] 9) (atHome x) with cycle := 52 }
       (s, arrives s (.flit 6 1 1 0 1 35 0 0 [] 9) && x.stops == [])),
      (let x := { cn with pend := [pend (some 5) 5 3, pend none 6 4] ++ List.replicate 14 none, answerTo := [(2, 34, 0)] }
       let s := { pkt (.flit 6 1 1 0 1 35 0 0 [] 9) (atHome x) with cycle := 52 }
       (s, arrives s (.flit 6 1 1 0 1 35 0 0 [] 9) && x.stops == [] && (x.binds.filterMap id).length == 3)),
      (let x := { cn with pend := List.replicate 16 none, stops := [(1, 35)] }
       (atHome x, x.withdraw == [] && (List.range 4).all fun i => !x.enabled 51 i)),
      (let x := { cn with stopping := true, unacked := 2, answerTo := [(1, 35, 1)] }
       let s := pkt (.flit 6 1 1 0 1 35 0 0 [] 9) (atHome x)
       (s, arrives s (.flit 6 1 1 0 1 35 0 0 [] 9))),
      (let x := { cn with stopping := true, unacked := 2, answerTo := [(1, 35, 1)] }
       let s := pkt (.flit 8 1 1 0 320 0 3 0 [] 0) (atHome x)
       (s, arrives s (.flit 8 1 1 0 320 0 3 0 [] 0))),
      (let x := { cn with stopping := true, unacked := 1, answerTo := [(1, 35, 1), (2, 34, 0)] }
       let s := pkt (.flit 8 1 1 0 320 0 3 0 [] 0) (atHome x)
       (s, arrives s (.flit 8 1 1 0 320 0 3 0 [] 0))),
      (let s := pkt (.unbind 5 3 1 1) (st0.modCore 5 fun k =>
          { k with cports := [{}, {}, {}, cp true 1 true] ++ List.replicate 12 {} })
       (s, arrives s (.unbind 5 3 1 1) && ((s.core 5).cport 3).bound && ((s.core 5).cport 3).node == 1 &&
           ((s.core 5).cport 3).conn == 1))] :=
  ⟨stands_of (by decide +kernel), by decide +kernel, by decide +kernel, stands_of (by decide +kernel)⟩
/-- Role queues and tag pools of core 0, and an operand in g4. -/
def queues (th : Thread) (v : Nat) : State :=
  c0 (fun k => { k with roles := [ro true [], ro true [{ v := 5, tag := 1, since := 49 }, { v := 6, since := 50 }] 3 1, ro false [], { ro true [] with reserved := 1 }], tags := [{ k := 8, mask := 0x5, a := 1 }, { k := 3, mask := 0x7, a := 2 }, {}, { k := 64, mask := 0x8000000000000000, a := 63 }] })
    (on 1 th [(3, 2), (4, BitVec.ofNat 64 v), (5, 63), (8, 64)])
def tagWait (n : Nat) : State :=
  { c0 (fun k => { k with tags := [{ k := 8, mask := 0x4, a := 2 }, {}, {}, {}] }) (on 1 thr [(3, 2), (4, 2)]) with
    threads := [(1, thr), (2, { thr with run := .wait { wt (.taga false (.s 5) n 0) with req := 0 } })] }
/-- QueuesAndTags: QCFG of an empty queue, of one that holds values, with a reserved bit; of the forward mask; of a pool that is
free, in use and too large; QSTAT of a neighbour queue and of role queues; TAGA with the next tag free, in flight, and no pool;
TAGF of a tag in flight at the end of the range, of one that is not, and with a waiter. -/
theorem witness_QueuesAndTags :
    Runs ([(0, 0x10101), (2, 0x3F3F), (1, 0x10101), (0, 0x40), (4, 0xFF), (4, 0x100), (5, 0x20040), (5, 0x10001),
        (5, 0x20041)].map fun p : Nat × Nat =>
      (.qcfg false (.g 3) (.g 4) (BitVec.ofNat 3 p.1), queues thr p.2, (Instr.qcfg false (.g 3) (.g 4) (BitVec.ofNat 3 p.1)).wellFormed)) ∧
    Runs [(.qstat false (.g 3) 3, base, !isChannel 0), (.qstat false (.g 3) 5, queues thr 0, true),
        (.qstat false (.g 3) 7, queues thr 0, true),
      (.taga false (.g 3) 2 0, queues thr 0, ((queues thr 0).core 0).pool 0 == { k := 8, mask := 0x5, a := 1 }),
          (.taga false (.g 3) 2 1, queues thr 0, true), (.taga false (.g 3) 15 2, queues thr 0, true),
      (.tagf false (.g 5) 3, queues thr 0, true), (.tagf false (.g 8) 3, queues thr 0, true),
          (.tagf false (.g 3) 0, queues thr 0, true), (.tagf false (.g 4) 0, tagWait 0, true)] ∧
    ((tagWait 0).tagWaiters 0 0).map (·.1) = [2] := ⟨runs_of (by decide +kernel), runs_of (by decide +kernel), by decide +kernel⟩

/-- Message ports of core 0. -/
def msg (n : Nat) (since : Nat := 40) : Msg := { w0 := BitVec.ofNat 64 n, w1 := BitVec.ofNat 64 (n + 1), since := since }
def ports (l : List (Nat × MPort)) : List MPort := (List.range 32).map fun p => ((l.find? (·.1 == p)).map (·.2)).getD {}
def om : OutMsg := { target := 0x04020301, w0 := 1, w1 := 2, slot := 1, launch := 1, stamp := 30 }
/-- Core 0 with an outbound queue of a length, message ports, and an operand in g4. -/
def mailed (v : Nat) (out : Nat) (others : List (Nat × Thread) := []) : State :=
  c0 (fun k => { k with
      outq := List.replicate out om,
      mports := ports [(5, { msgs := [msg 100, msg 200 50] }), (6, { msgs := [msg 7], owned := true, ownerSlot := 2 })],
      jp := { valid := true, ports := 0x10, slot := 9, w := 8 } :: List.replicate 15 {} })
    { on 1 thr [(3, 0x77), (4, BitVec.ofNat 64 v), (8, 0xAB), (9, 0xCD)] with threads := (1, thr) :: others }
def recv7 : Thread := { thr with run := .wait { wt (.recv false (.g 20) (.g 4) 2) with vals := [0, 7] } }
/-- Messages: SEND and SENDI to a good target with room and without, and to one that is refused; WAITM with a port that holds a
message, with none under a bound, with an empty mask and no bound, and with a reserved bit; RECV with a message, without, for a
join port and for another slot's port; MPCFG with a reserved bit, that drains, and with a RECV of another slot waiting. -/
theorem witness_Messages :
    Runs [(.send false (.g 8) (.g 4), mailed 0x04020301 7, !(mailed 0 7).targetRefused 1 0x04020301),
        (.sendi false (.g 3) (.g 4) 0x7F, mailed 0x04020301 8, true),
      (.send false (.g 8) (.g 4), mailed (2 ^ 40) 0, (mailed 0 0).targetRefused 1 (2 ^ 40))] ∧
    Runs ([(0x20, 2), (0x80, 2), (0, 15), (2 ^ 32, 2)].map fun p : Nat × BitVec 4 =>
        (.waitm false (.g 3) (.g 4) p.2, mailed p.1 0, true)) ∧
    ((mailed 0 0).core 0).waitMask 0x20 1 = 0x20 ∧ ((mailed 0 0).core 0).holding 0x20 50 = 0x20 ∧
        ((mailed 0 0).core 0).holding 0x80 50 = 0 ∧
    Runs ([5, 7, 4, 6, 32].map fun v => (.recv false (.g 8) (.g 4) 2, mailed v 0, true)) ∧
    ((mailed 0 0).core 0).isJoin 4 = true ∧ ((mailed 0 0).core 0).foreign 6 1 = true ∧ ((mailed 0 0).core 0).foreign 5 1 = false ∧
    Runs ([0x8005, 0x4105, 0x25, 0x10005].map fun v =>
        (.mpcfg false (.g 3) (.g 4), mailed v 0, decide (((mailed v 0).core 0).held = [] ∧ (mailed v 0).waitsOf 0 = []))) ∧
    Runs [(.mpcfg false (.g 3) (.g 4), mailed 0x4107 0 [(2, recv7)], (mailed 0 0 [(2, recv7)]).waitsOf 0 == [(2, { wt (.recv false (.g 20) (.g 4) 2) with vals := [0, 7] })] &&
      recvsOn 7 { wt (.recv false (.g 20) (.g 4) 2) with vals := [0, 7] })] := by
  refine ⟨runs_of ?_, runs_of ?_, ?_, ?_, ?_, runs_of ?_, ?_, ?_, ?_, runs_of ?_, runs_of ?_⟩ <;> decide +kernel
/-- A core's side of what is on the way. -/
def mail (f : Core → Core) : State := c0 f { base with cur := none, subj := { n := 0, m := 6 } }
def nbAt (k m : Nat) : State :=
    { st0 with subj := { n := k, m := m, v := 0x99 }, nbrSent := [(k, 10)], nbrPops := [(k, 8)], nbrFree := [(k, 2)], nbr := [(senderKey k, [{ v := 1 }, { v := 2 }])] }
def woken : State := c0 (fun k => { k with mports := ports [(2, { msgs := [msg 2] })] })
  { waits { wt (.waitm false (.g 3) (.g 4) 2) with vals := [0, 6] } thr st0 with todo := [.resume 1], subj := { n := 1 } }
def stopping (tag j : Nat) (mask : Nat) : State :=
  c0 (fun k => { k with roles := [ro true [], ro true [{ v := 3 }], {}, ro true []] })
    { st0 with subj := { n := 1 }, threads := [(1, { thr with status := BitVec.ofNat 64 mask, tokens := some (tag, j, 1, 8) })] }
/-- MessagesOnTheWay: a message that leaves; one that arrives at a port with a place, at one with a RECV waiting, and at a full
one, with the highest port; a refill; bounds of TAGA and WAITM; a WAITM that a message ends; neighbour values within a die and
across its edge; stop tokens all pushed, end-of-stream tokens all pushed, and a token for a role queue. -/
theorem witness_MessagesOnTheWay :
    Stands [(mail fun k => { k with outq := [om, om] }, (mail id).released (64 * 0 + om.slot) om.stamp)] ∧
    Stands ([(6, mail id), (31, mail id), (6, mail fun k =>
        { k with mports := ports [(6, { msgs := [msg 1, msg 2, msg 3], reserved := 1 })], spill := List.replicate 255 (6, 1, 2) }),
        (6, waits { wt (.recv false (.g 20) (.g 4) 2) with vals := [0, 6] } thr (mail id))].map fun p : Nat × State =>
      let s := pkt (.message 0 p.1 0x11 0x22 false 3 1) p.2
      (s, arrives s (.message 0 p.1 0x11 0x22 false 3 1) && (s.core 0).takes && (s.core 0).inputQ == [] && (s.core 0).held == [])) ∧
    Stands [(let s := mail fun k =>
        { k with mports := ports [(6, { msgs := [msg 1], reserved := 1 })], spill := [(5, 1, 2), (6, 3, 4), (6, 5, 6)] }
      (s, s.subj.m == 6 && decide (0 < ((s.core 0).mport 6).reserved) && (s.core 0).held == [] && s.recvWaiter 0 6 == none &&
        (s.core 0).spill.find? (fun z => z.1 == 6) == some (6, 3, 4)))] ∧
    Stands ([.taga false (.g 3) 1 2, .waitm false (.s 3) (.g 4) 2].map fun i =>
        (waits (wt i) thr { st0 with subj := { n := 1, m := 35 } }, true)) ∧
    Stands [(woken, woken.pkg.answers && (woken.core 0).holding 6 51 != 0)] ∧
    Stands ([4, 4 * (64 * 28) + 1, 4 * (64 * 31 + 63) + 3].map fun k => (nbAt k 8, ((nbAt k 8).core (coreOf (k / 4))).takes &&
        !(nbAt k 8).nbrInFlight k && !SMap.getD (nbAt k 8).nbrSync k false)) ∧
    Stands [({ nbAt (4 * (64 * 28) + 1) 8 with subj := { n := 4 * (64 * 28) + 1, m := 3, k := 1 } }, true)] ∧
    crossesDie 4 = false ∧ crossesDie (4 * (64 * 28) + 1) = true ∧
    Stands [(stopping 2 8 0, true), (stopping 1 4 0, (List.range 4).all fun b =>
        !((stopping 1 4 0).thread 1).status.getLsbD (8 + b)),
      (stopping 2 7 0x800, ((stopping 2 7 0x800).thread 1).status.getLsbD 11 && (stopping 2 7 0x800).roleCause 1 3 true == 0 &&
          decide ((((stopping 2 7 0x800).core 0).role 3).taken < 8))] := by
  refine ⟨stands_of ?_, stands_of ?_, stands_of ?_, stands_of ?_, stands_of ?_, stands_of ?_, stands_of ?_, ?_, ?_, stands_of ?_⟩ <;> decide +kernel
/-- Join-pattern entries, and JPSET's descriptor. -/
def jx (ports slot : Nat) (prio := 0) (pass := 0) : JEntry :=
    { valid := true, ports := BitVec.ofNat 32 ports, slot := slot, w := 16, pc := 0x4000, prio := prio, pass := pass, owner := 1, task := 1, since := 40 }
def jps (l : List (Nat × JEntry)) : List JEntry := (List.range 16).map fun p => ((l.find? (·.1 == p)).map (·.2)).getD {}
def d0v (pm slot prio w8 : Nat) : Nat := w8 * 2 ^ 44 + prio * 2 ^ 40 + slot * 2 ^ 32 + pm
def joined (tk : Nat) (d0 d1 : Nat) : State :=
  c0 (fun k => { k with jp := jps [(2, jx 0x30 9), (3, jx 0x30 0), (15, jx 0x40 5 3 16)], mports := ports [(5, { owned := true, ownerSlot := 1 })] })
    (on tk thr [(3, BitVec.ofNat 64 d0), (4, BitVec.ofNat 64 d1)])
def deciding (l : List (Nat × JEntry)) (p : Nat) : State :=
  c0 (fun k => { k with jp := jps l, mports := ports [(4, { msgs := [msg 10, msg 20] }), (5, { msgs := [msg 30] }), (6, { msgs := [msg 40] })], jptr := p, resv := [(9, (0, 16)), (10, (16, 16))] })
    { st0 with threads := [(1, thr)], subj := { n := 0 } }
/-- JoinAndPower: JPSET of an empty entry with a good descriptor, of one in use, with an owned port, with a bad address, and of
slot 0 at thread level; JPCLR and JPSTAT of entries of slot 9 and of slot 0, the last index; a decision between two candidates by
pass count, by priority and by the pointer; the gate at its first cycle and one before, and ungating. -/
theorem witness_JoinAndPower :
    Runs [(.jpset false (.g 3) 0, joined 1 (d0v 0x300 10 1 2) 0x4000, descriptorOk (BitVec.ofNat 64 (d0v 0x300 10 1 2)) 0x4000 &&
        ((joined 1 0 0).entryWindow 0 10 16).isSome),
      (.jpset false (.g 3) 2, joined 1 (d0v 0x300 10 1 2) 0x4000, (((joined 1 0 0).core 0).entry 2).valid),
          (.jpset false (.g 3) 0, joined 1 (d0v 0x20 10 1 2) 0x4000, true),
      (.jpset false (.g 3) 0, joined 1 (d0v 0x300 10 1 2) 0x4001, true),
          (.jpset false (.g 3) 0, joined 1 (d0v 0x300 0 1 2) 0x4000, decide (slotOf 1 ≠ 0)),
      (.jpset false (.g 3) 15, joined 0 (d0v 0x80000300 0 1 2) 0x4000, decide (slotOf 0 = 0)),
          (.jpclr false 3, joined 1 0 0, (((joined 1 0 0).core 0).entry 3).slot == 0),
      (.jpclr false 15, joined 1 0 0, true), (.jpstat false (.g 7) 15, joined 1 0 0, true),
          (.jpstat false (.g 7) 3, joined 1 0 0, true)] ∧
    Stands ([([(0, jx 0x30 9 0 16), (5, jx 0x40 10 3)], 0, 0), ([(0, jx 0x30 9), (5, jx 0x40 10 3)], 0, 5), ([(0, jx 0x30 9),
        (1, jx 0x40 10)], 0, 1), ([(0, jx 0x30 9), (15, jx 0x40 10)], 15, 0)].map
      fun x : List (Nat × JEntry) × Nat × Nat => (deciding x.1 x.2.1, x.1.all fun e =>
          (deciding x.1 x.2.1).candidate 0 (((deciding x.1 x.2.1).core 0).entry e.1))) ∧
    Stands [(c0 (fun k => { k with idle := 1024 }) st0, (c0 (fun k => { k with idle := 1024 }) st0).quiet 0), (c0 (fun k =>
        { k with idle := 1023 }) st0, true),
      (c0 (fun k => { k with idle := 1500, gated := some 3, ungateAt := some 49, inbox := [.resume 5] }) { st0 with subj := { n := 0 } }, true)] :=
  ⟨runs_of (by decide +kernel), stands_of (by decide +kernel), stands_of (by decide +kernel)⟩

/-! Threads, launches and tasks. -/

/-- A context on its way. -/
def cx (src serial : Nat) (ok : Option Nat := none) : Ctx :=
  { regs := (List.range 10).map fun k => BitVec.ofNat 64 (3 * k), status := 0x123, pc := 0x1004, launch := 1, task := 1, stamp := 30, src := src, serial := serial, okAt := ok }
/-- A launch with a SPAWN window of 8·spw registers, and a task with a budget, a live count and a group. -/
def inTask (tk spw budget live : Nat) (compat : Bool) (w : Nat := 16) (succ : Nat := 0) : State :=
  let s := wrs (pt (on tk { thr with w := w } [])) tk [(3, 5), (4, 0x40), (5, 0x41), (8, 0x20010), (9, 0x0001000000004000), (10, 2),
      (11, 7), (12, 0)]
  { s with disp := { launches := [(1, { lch with spw := spw, compat := compat, bars := 0x20000 })], order := [1], tasks := [(1, { launch := 1, num := 6, x := 0, y := 0, team := 0, budget := budget, live := live, succ := succ, member := [2, 5] })] } }
/-- ThreadInstructions: QUIT and EXIT with a multiple of 64, another, and 0 in compatibility mode, where a later EXIT with a successor acts as QUIT; SPAWN with leave and budget and
with neither; MIGRATE of 16 registers to a core and to nothing, and of 64; LAUNCH on a team core and a channel core; GARR and
GWAIT of a group of the task and of another; SLOTS of each index. -/
theorem witness_ThreadInstructions :
    Runs [(.quit false, inTask 1 2 5 3 false, !(inTask 1 2 5 3 false).compat 1), (.exit false (.g 4), inTask 1 2 5 3 false, true),
        (.exit false (.g 5), inTask 1 2 5 3 false, decide (0x41 % 64 ≠ 0)),
      (.quit false, inTask 1 2 5 3 true, (inTask 1 2 5 3 true).compat 1), (.exit false (.g 12), inTask 1 2 5 3 true, true),
      (.exit false (.g 4), inTask 1 2 5 3 true 16 0x80, true), (.exit false (.g 4), inTask 1 2 5 3 true, true),
      (.spawn false (.g 3) (.g 4) 2, inTask 1 2 1 3 false, !(inTask 1 2 1 3 false).spawnRefused 1 0x40),
          (.spawn false (.g 3) (.g 4) 2, inTask 1 2 0 3 false, (inTask 1 2 0 3 false).spawnRefused 1 0x40),
      (.spawn false (.g 3) (.g 4) 2, inTask 1 0 5 3 false, (inTask 1 0 5 3 false).spawnRefused 1 0x40),
          (.migrate false (.g 8), inTask 1 2 5 3 false, (inTask 1 2 5 3 false).ownerOf 1 0x20010 != .nobody),
      (.migrate false (.g 8), inTask 1 2 5 3 false 64, decide (64 ≠ 16)),
          (.launch false (.g 3) (.g 4), inTask 1 2 5 3 false, !isChannel 0),
          (.launch false (.g 3) (.g 4), inTask 65922 2 5 3 false, isChannel 1030),
      (.garr false (.g 3) (.g 10), inTask 1 2 5 3 false, ((inTask 1 2 5 3 false).groupAddress 1 2).isSome),
          (.gwait false (.g 3) (.g 10) 15, inTask 1 2 5 3 false, true),
      (.garr false (.g 3) (.g 11), inTask 1 2 5 3 false, ((inTask 1 2 5 3 false).groupAddress 1 7).isNone),
      (.slots false (.g 3) 0, inTask 1 2 5 3 false, true), (.slots false (.g 3) 1, inTask 1 2 5 3 false, true),
          (.slots false (.g 3) 2, inTask 1 2 5 3 false, true)] := runs_of (by decide +kernel)
/-- Thread 9 waiting, in a task with a live count and a successor. -/
def ending (i : Instr) (vs : List Word) (live succ : Nat) (log : Option (Nat × Word)) (n : Nat) (compat : Bool := false) : State :=
  let s := wrs { st0 with threads := [(9, { thr with w := 16, base := 4, log := log, run := .wait { wt i with vals := vs } })], subj := { n := n, m := 35 } } 9 [(0, 1)]
  { s with disp := { s.disp with launches := [(1, { lch with spw := 2, compat := compat })], tasks := [(1, { launch := 1, num := 6, x := 0, y := 0, team := 0, budget := 3, live := live, succ := succ })] } }
def launching (a n : Nat) : State :=
  let s := ending (.launch false (.g 5) (.g 4)) [0, BitVec.ofNat 64 a] 1 0 none 9
  { s with todo := [.resume 9], disp := { s.disp with devSeq := 32766, devQ := List.replicate n { handle := 32768, lpb := 0, root := 0x10000, wpdie := 0, wpnode := [] } } }
/-- ThreadEvents: the end of the last thread of a task, of one of several with EXIT's successor, with a fault in its log, and by a later EXIT in compatibility mode; a
SPAWN placed, with rd a window and a core-shared register, and at its bound; LAUNCH with a good address, a bad one, and at a full
queue. -/
theorem witness_ThreadEvents :
    Stands ([(.quit false, [], 1, 0, none), (.exit false (.g 4), [0x40], 3, 0, none), (.exit false (.g 4), [0x40], 3, 0x80, none),
        (.quit false, [], 3, 0, some (5, 0x77))].map
      fun p : Instr × List Word × Nat × Nat × Option (Nat × Word) =>
        let s := ending p.1 p.2.1 p.2.2.1 p.2.2.2.1 p.2.2.2.2 9
        (s, s.endReady 9 { wt p.1 with vals := p.2.1 } && (s.task? 1).isSome)) ∧
    Stands [(let w := { wt (.exit false (.g 4)) with vals := [0x40] }
      let s := ending (.exit false (.g 4)) [0x40] 3 0x80 none 9 true
      (s, s.endReady 9 w && s.compat 9))] ∧
    Stands ([.g 3, .s 3].map fun rd =>
      let i : Instr := .spawn false rd (.g 4) 2
      let s := ending i [0x4009, 1, 2, 3, 4] 3 0 none 0
      (s, s.spawnWaiters 0 == [(9, { wt i with vals := [0x4009, 1, 2, 3, 4] })] && (s.findSlot 0 (s.spawnW 9)).isSome)) ∧
    Stands [(ending (.spawn false (.g 3) (.g 4) 2) [0x4009, 1, 2, 3, 4] 3 0 none 9, true)] ∧
    Stands ([(0x20080, 63), (0x20081, 5), (2 ^ 63, 5), (0x20080, 64)].map fun p : Nat × Nat =>
      let s := launching p.1 p.2
      let w := { wt (.launch false (.g 5) (.g 4)) with vals := [0, BitVec.ofNat 64 p.1] }
      (s, s.pkg.answers && (s.thread 9).run == .wait w && !s.readDue 9 w && s.fenceReady 9 w && (s.launchOfThread 9).isSome)) := by
  refine ⟨stands_of ?_, stands_of ?_, stands_of ?_, stands_of ?_, stands_of ?_⟩ <;> decide +kernel
/-- Thread 1 waiting to migrate to an address. -/
def moving (a : Word) (st : SMap Stream) : State :=
  let w := { wt (.migrate false (.g 4)) with vals := [a] }
  { waits w { thr with w := 16, status := 0x125 } (pt base) with subj := { n := 1 }, streams := st }
def coreAt5000 (f : Core → Core) : State := c0 f { base with cur := none, cycle := 5000, subj := { n := 0, m := 7 } }
/-- The same on a team of 512 KB. -/
def small (a : Word) : State := State.modTeam (moving a []) 0 fun t => { t with s := 0x80000 }
def shadow (n d : Nat) : Shadow := { serial := n, ctx := cx 0 n, dst := 3, departed := d, addr := 0x20010, migPc := 0x1000 }
/-- Migration: a departure to another core, to its own, to an address that faults, and with a stream that holds data; an arrival
with room, with its queue full, with its paddock full, and outside the window; the three acknowledgements; a shadow at 4,096
cycles and one before; a release and a discard; a paddock move; an admission. -/
theorem witness_Migration :
    Stands ([(0x20010, []), (0x30080, []), (0xE100000000000100, []), (0x20010, [(10, landed)])].map fun p : Word × SMap Stream =>
      let s := moving p.1 p.2
      let w := { wt (.migrate false (.g 4)) with vals := [p.1] }
      (s, s.migrateReady 1 w && s.streamsHeld 1 == !p.2.isEmpty && decide ((s.core 0).shadows.length < 8))) ∧
    ((match (moving 0x20010 []).ownerOf 1 0x20010 with | .core k _ => k != 0 | _ => false) = true ∧
      (match (moving 0 []).ownerOf 1 0xE100000000000100 with | .core k none => k == 0 | .core k _ => k == 0 | _ => false) = true) ∧
    ([0xE10000000007FFFF, 0xE100000000080000].map fun a : Word => (small 0).ownerOf 1 a) = [.core 3 (some 0x7FFFF), .fault 8] ∧
    Stands ([(cx 5 7, id), (cx 5 7, fun k => { k with arrivals := List.replicate 16 (cx 5 9) }), (cx 5 7, fun k =>
        { k with paddock := List.replicate 1024 (cx 5 7), arrivals := List.replicate 16 (cx 5 9) }),
        ({ cx 5 7 with window := true, off := 0x200000 }, id)].map fun p : Ctx × (Core → Core) =>
      let s := pkt (.migrate 0 p.1) (coreAt5000 p.2)
      (s, arrives s (.migrate 0 p.1) && (s.core 0).takes && decide (s.arrivalLimit 0 ≤ 16))) ∧
    Stands ([0, 2, 8].map fun st =>
      let s := pkt (.migAck 0 7 st 3) (coreAt5000 fun k =>
          { k with shadows := [shadow 6 900, shadow 7 904, shadow 8 904], arrivals := [cx 5 7] })
      (s, arrives s (.migAck 0 7 st 3) && (s.core 0).shadows.find? (fun y => y.serial == 7) == some (shadow 7 904))) ∧
    Stands [(let s := coreAt5000 fun k => { k with shadows := [shadow 7 904] }
      (s, s.subj.m == 7 && decide (904 + 4096 ≤ s.cycle))),
      (let s := coreAt5000 fun k => { k with paddock := [cx 5 7, cx 5 8], moveDone := some 60 }
       (s, (s.core 0).moveDone.isSome)),
      (let s := coreAt5000 fun k => { k with paddock := [cx 5 7, cx 5 8], moveDone := some 7 }
       (s, (s.core 0).moveDone == some s.subj.m)),
      (let s := coreAt5000 fun k => { k with arrivals := [cx 5 7 (some 5000), cx 5 9] }
       (s, s.admissible 0 && (s.findSlot 0 16).isSome && (cx 5 7).fault == none))] ∧
    Stands ([false, true].map fun d =>
      let s := pkt (.migRelease 0 5 7 d) (coreAt5000 fun k => { k with arrivals := [cx 5 7, cx 5 9], paddock := [cx 5 7] })
      (s, arrives s (.migRelease 0 5 7 d))) := by
  refine ⟨stands_of ?_, ?_, ?_, stands_of ?_, stands_of ?_, stands_of ?_, stands_of ?_⟩ <;> decide +kernel

/-- TraversalOrders: the first and last task of a space, row-major and column-major. -/
theorem witness_TraversalOrders : ({ lch with trav := 1, swz := 2 } : Launch).trav < 2 ∧ 0 < lch.x * lch.y ∧ 15 < lch.x * lch.y ∧
    lch.trav = 0 ∧ lch.swz = 0 ∧ ({ lch with trav := 1 } : Launch).swz = 0 := by decide +kernel
def wdl (l : List Nat) : List Word := l.map fun n => BitVec.ofNat 64 n
/-- A launch parameter block at 0x20100, with its slot groups at 0x20200, and a request for it. -/
def lpb : List Nat := [4 + 3 * 2 ^ 24 + 7 * 2 ^ 53, 0x20200, 2 + 3 * 2 ^ 16 + 5 * 2 ^ 32, 0, 0, 0xABCD, 0x04000000 + 2 ^ 63, 0]
def groups : List Nat := [0 + 3 * 2 ^ 8 + 2 * 2 ^ 16, 0x4000, 3 + 2 ^ 8 + 4 * 2 ^ 16, 0x4000]
def taking (w : List Nat) (a : Nat) (host : Bool) : State :=
  let r : LaunchReq := { handle := 7, lpb := a, root := 0x10000, wpdie := 255, wpnode := List.replicate 8 0xFFFFFFFFFFFFFFFF }
  let s := put 0x50100 w (put 0x50200 groups (pt { st0 with threads := [(1, thr)] }))
  { s with disp := { s.disp with launches := [], order := [], tasks := [], hostQ := if host then [r] else [], devQ := [r] } }
def placingOn (last : Nat) : State :=
  { base with
    cur := none, threads := [], sregs := [(3, 99)],
    disp :=
      { launches := [(1, { lch with nextTask := 6, liveTasks := 6, budget := 9, s := 0x80000,
                                    groups := [{ core := 0, count := 3, w := 16, pc := 0x4000 }, { core := 2, count := 1, w := 96, pc := 0x8000 }] })],
        order := [1], lastTeam := last } }
/-- The team to be placed on next holds the launch's pattern entry, with a message in its port. -/
def keeping : State :=
  let s := placingOn 255
  let e : JEntry := { valid := true, ports := 0x30, slot := 40, w := 16, pc := 0x4000, owner := 1, pattern := true }
  let s := State.modCore s (coreAt (teamAt 0 0) 1) fun k =>
      { k with jp := e :: k.jp.tail, mports := (List.range 32).map fun p => if p = 4 then { msgs := [{ w0 := 10, w1 := 11, since := 40 }] } else {}, resv := [(40, (0, 16))] }
  { s with disp := { s.disp with launches := s.disp.launches.map fun x => (x.1, { x.2 with patterns := [{ core := 1, entry := 0, e := e }] }) } }
def placed1 (s : State) : State := match exec .taskPlacement s with | .next t => { t with todo := [.place ((t.disp.placing.flatMap fun p => p.todo.map (·.core)).headD 0)] } | _ => s
def succeeding (w : List Nat) : State :=
  let s := put 0x50100 w (put 0x50200 groups (pt { st0 with subj := { n := 7 } }))
  { s with disp := { s.disp with tasks := [(7, { launch := 1, num := 3, x := 0, y := 0, team := 0, budget := 1, live := 0, succ := 0x20100, ended := true })] } }
def overState (refused : Bool) : State :=
  { st0 with
    subj := { n := 7 },
    disp :=
      { launches := [(1, lch), (7, { lch with tasks := 4, nextTask := 4, notify := true, doneTarget := 0x04000000, dropped := 65537, handle := 65539, refused := refused })],
        order := [1, 7, 3] } }
/-- Dispatch: a launch taken from the host and from the device, with a good block, a malformed one and one that cannot be read;
one without a group table, and one not aligned; the placement of a task on a team that keeps the launch's entry, and with the last
team and a team in the middle before it; a seat that is taken; a successor that fits and
one that is dropped; a launch that is over, refused or not. -/
theorem witness_Dispatch :
    Stands ([(lpb, 0x20100, true), (lpb, 0x20100, false), (lpb.set 0 0, 0x20100, true),
        (lpb, 0x99999100, false)].map fun p : List Nat × Nat × Bool =>
      let s := taking p.1 p.2.1 p.2.2
      let s1 := State.addLaunch s 1 { handle := 7, root := 0x10000, wpdie := 255, wpnode := List.replicate 8 0xFFFFFFFFFFFFFFFF }
      (s, s.canTake && (match s1.readDwords 1 p.2.1 8 with | .ok w => lpbOk w == (p.1 == lpb) && targetOk (lpbDone w) | .error _ => p.2.1 == 0x99999100))) ∧
    Stands ([0x20100, 0x20108].map fun a =>
      let s := taking (lpb.set 6 0x04000000) a true
      let l0 : Launch := { handle := 7, root := 0x10000, wpdie := 255, wpnode := List.replicate 8 0xFFFFFFFFFFFFFFFF }
      let s1 := State.addLaunch { s with nextId := s.nextId + 1, disp := { s.disp with hostQ := [] } } s.nextId l0
      (s, s.canTake && (a % 64 != 0 || match s1.readDwords s.nextId a 8 with
        | .ok w => lpbOk w && targetOk (lpbDone w) && match s1.readDwords s.nextId 0x20200 4 with
            | .ok gw => (slotGroups gw).any fun gs => ((List.range 4).all fun c => decide ((groupNeed gs c).1 ≤ 63)) &&
                s1.groupsFit (l0.filled w) gs
            | .error _ => false
        | .error _ => false))) ∧
    Stands [(keeping, match keeping.nextPlacement with
      | some (k, n) => n == teamAt 0 0 && (keeping.launch? k).any fun l => match l.patterns with
          | [q] => keeping.keepsPattern k n q &&
              ((State.launchStart { keeping with nextId := keeping.nextId + 1 } n k l keeping.nextId).loadPatterns k n l.patterns).any fun s2 =>
              (s2.seatAll n l.groups.zipIdx []).isSome
          | _ => false
      | none => false)] ∧
    Stands ([255, 4].map fun n => let s := placingOn n
      (s, (s.nextPlacement.any fun p => (s.launch? p.1).isSome && p.2 == teamAt ((n + 1) % 256 / 16) ((n + 1) % 16)))) ∧
    Stands [(let s := placed1 (placingOn 4)
      (s, s.cur == none && s.pkg.answers && match s.todo with | [.place c] => (s.nextSeat c).isSome | _ => false))] ∧
    Stands ([([2, 0x20200, 0x77, 0, 0, 0, 0, 0], true), ([0, 0x20200, 0x77, 0, 0, 0, 0, 0], false)].map fun p : List Nat × Bool =>
      let s := succeeding p.1
      (s, (s.task? 7).isSome && match s.successorOf lch 1 0x20100 with | some x => p.2 && (s.seatAll 0 x.1.zipIdx []).isSome | none => !p.2)) ∧
    Stands ([false, true].map fun b => (overState b, (overState b).launchOver 7)) := by
  refine ⟨stands_of ?_, stands_of ?_, stands_of ?_, stands_of ?_, stands_of ?_, stands_of ?_, stands_of ?_⟩ <;> decide +kernel
/-- Launch blocks and slot groups that are accepted and refused: each boundary of a field. -/
theorem witness_Dispatch_blocks :
    (([lpb, lpb.set 0 (4 + 7 * 2 ^ 50), lpb.set 0 (4 + 3 * 2 ^ 24 + 2 ^ 60), lpb.set 1 8, lpb.set 2 17, lpb.set 2 (16 + 16 * 2 ^ 8 + 12 * 2 ^ 16), lpb.set 2 (16 + 17 * 2 ^ 8),
      lpb.set 3 8, lpb.set 6 (2 ^ 29), lpb.set 7 64].map fun w => lpbOk (wdl w)) =
      [true, false, false, false, false, true, false, false, false, false]) ∧
    (slotGroups (wdl [3 + 63 * 2 ^ 8 + 12 * 2 ^ 16, 0xFFFFFFFFFFFC]) = some [{ core := 3, count := 63, w := 96, pc := 0xFFFFFFFFFFFC }]) ∧
    (([[4, 0], [3 + 2 ^ 8 + 13 * 2 ^ 16, 0], [3 + 2 ^ 16, 0], [3 + 2 ^ 8 + 2 ^ 16, 2]].map fun w =>
        slotGroups (wdl w)) = [none, none, none, none]) := by decide +kernel

/-! Engines, the system class and the host. -/

/-- Commands: a copy of rows of 5 bytes, a reduction of 4 FP32 elements into a window, one that waits its turn, and a bank product;
a number of words is refused when it is 0. -/
def win (node off : Nat) : Nat := 2 ^ 48 + node / 64 * 2 ^ 45 + node % 64 * 2 ^ 39 + off
def ccmd (k dst w1 src w3 : Nat) (hi : Nat := 0) : List Word := [k * 2 ^ 60 + hi + dst, w1, src, w3].map fun n => BitVec.ofNat 64 n
def rows : List Word := ccmd 1 0x20050 (5 + 3 * 2 ^ 16 + 4 * 2 ^ 32 + 2 * 2 ^ 48) 0x20010 0
def reduce : List Word := ccmd 3 (win 1 0x40) 16 0x20010 0 (1 * 2 ^ 56)
def inTurn : List Word := ccmd 3 (win 1 0x40) (16 + 3 * 2 ^ 32 + 77 * 2 ^ 36) 0x20010 0 (1 * 2 ^ 56 + 2 ^ 53)
def linear : List Word := ccmd 0 0x20010 7 0x30080 0
def near : List Word := linear.set 2 0x20080
def toWindow : List Word := ccmd 0 (win 1 0x40) 7 0x20080 0
def product : List Word := [2 * 2 ^ 60 + 2 ^ 51 + 2 ^ 42 + 0x40, 2 ^ 60 + 0x100, 2 ^ 60 + 0x200, 0].map fun n => BitVec.ofNat 64 n
def cmdOf (c : List Word) (tk : Nat) (id : Nat := 36) : Cmd :=
    { id := id, words := c, tk := tk, pc := 0x1000, seq := 3, gen := 0, launch := 1, stamp := id }
/-- A core with n commands in each FIFO, and a command in g8 to g11. -/
def pushing (tk : Nat) (c : List Word) (n : Nat) (others : List (Nat × Thread) := []) : State :=
  let s := State.modCore (pt (on tk { thr with bankCount := 70000 } (cmd4 c))) (tk / 64) fun k =>
      { k with copyQ := List.replicate n (cmdOf c tk), bankQ := List.replicate n (cmdOf c tk), copySeq := 65535, bankSeq := 65535 }
  { s with threads := s.threads ++ others }
def pusher : Thread := { thr with run := .wait (wt (.cpys false (.g 3) (.g 8) 2)) }
/-- EngineInstructions: CPY, CPYS, CPYX and BMV with room, without, with a thread of the core waiting before, and with a command of
which a word is refused; BFENCE; BSTAT on each kind of core. -/
theorem witness_EngineInstructions :
    Runs ([(pushing 1 linear 3), (pushing 1 linear 4), (pushing 1 linear 3 [(2, pusher)]),
        (pushing 1 (linear.set 1 0) 0)].flatMap fun s =>
      [(.cpy false (.g 3) (.g 8), s, true), (.cpys false (.g 3) (.g 8) 15, s, true), (.cpyx false (.s 3) (.g 8) 2, s, true)]) ∧
    Runs ([(pushing 65922 product 7), (pushing 65922 product 8), (pushing 65922 product 7 [(65923, pusher)]),
        (pushing 65922 (product.set 0 0) 0)].map fun s => (.bmv false (.g 3) (.g 8) 2, s, true)) ∧
    (pushing 1 linear 0).copyFault 1 linear false = none ∧ (pushing 1 linear 0).copyFault 1 (linear.set 1 0) false = some 1 ∧
        (pushing 1 linear 0).copyFault 1 linear true = none ∧
    (pushing 65922 product 0).bankFault 65922 product = none ∧
        (pushing 65922 product 0).bankFault 65922 (product.set 0 0) = some 0 ∧
    (pushing 1 linear 3 [(2, pusher)]).pushWaiting 0 = true ∧ (pushing 65922 product 7 [(65923, pusher)]).pushWaiting 1030 = true ∧
    Runs ([1, 65922].flatMap fun tk => (.bfence false 2, pushing tk product 3, true) :: [0, 1].map fun x =>
        (.bstat false (.g 3) x, pushing tk product 3, true)) := by
  refine ⟨runs_of ?_, runs_of ?_, ?_, ?_, ?_, ?_, ?_, ?_, ?_, runs_of ?_⟩ <;> decide +kernel
/-- Engine 0 with a command under way, and the pages of its addresses in team 0's TLB. -/
def engaged (a : Active) : State :=
    tlbs { pt { base with cur := none, subj := { n := 0, m := 36 } } with engines := [(0, { active := [a], last := 3 })] }
def act (c : List Word) : Active := { cmd := cmdOf c 1 }
/-- A copy that moves in this cycle. -/
def beats (a : Active) : State := { engaged a with todo := [.beat 0 36] }
def gather (src : Nat) : List Word := ccmd 2 0x20040 (2 + 3 * 2 ^ 16 + 0x100 * 2 ^ 22) src 0
def beatB (s : State) (a : Active) : Bool :=
  s.cur.isNone && s.pkg.answers && s.copyMoves 0 a && s.waiters.isEmpty && decide (cpKind a.cmd.words ≤ 2)
/-- What the engine moves next, with its targets, or the fault that it meets. -/
def planAt (s : State) (a : Active) : Except (Nat × Nat) (List (Nat × Target × Target)) :=
  let c := a.cmd.words
  let size := cpSize c
  let j := a.pos % size
  let src := s.cpSource 0 c (a.pos / size) % 2 ^ 64
  let dst := cpDest c (a.pos / size) % 2 ^ 64
  if cpKind c = 0 then s.rowPlan 0 a.cmd 1 (src + j) (dst + j) (size - j)
  else if j ≠ 0 then .ok a.plan
  else if cpKind c = 2 ∧ src % size ≠ 0 then .error (2, src)
  else s.rowPlan 0 a.cmd size src dst size
/-- The bytes that the engine moves next are mapped, and the L2 has room for their lines. -/
def chunkB (s : State) (a : Active) : Bool :=
  let c := a.cmd.words
  let index := if cpKind c = 2 ∧
      a.pos % cpSize c = 0 then banksOf 0 (cpIndexAt c (a.pos / cpSize c)).1 (cpIndexAt c (a.pos / cpSize c)).2 else []
  beatB s a && decide (a.pos < cpPieces c * cpSize c) && s.banksUsed.isEmpty && s.portAsks.isEmpty && match planAt s a with
    | .ok ((m, x, y) :: _) =>
      decide (0 < m) && (index ++ x.banks (min 128 m) ++ y.banks (min 128 m)).Nodup &&
          (s.engineMove x y (s.localBytes (Target.key x) (min 128 m)) (cpRet c)).isSome &&
        match y with
        | .window nd _ => s.savedTeam nd a.cmd.id == none
        | _ => true
    | _ => false
def faultB (s : State) (a : Active) (walks : Bool) : Bool :=
  let c := a.cmd.words
  beatB s a && decide (a.pos < cpPieces c * cpSize c) && match planAt s a with
    | .error x => (x.1 == 4 && s.translate 0 1 x.2 false == .miss && a.noLeaf != some (x.2 / 65536)) == walks
    | .ok _ => false
/-- The bytes that follow in the plan of a row under way. -/
def restOf (c : List Word) (n : Nat) : List (Nat × Target × Target) :=
  match planAt (beats (act c)) (act c) with
  | .ok ((m, x, y) :: rest) => (m - n, x.plus n, y.plus n) :: rest
  | _ => []
/-- Copies of each kind: at their end, before a piece that faults, before a page that is to be walked, and at the start and within a
piece; the lines of a row, with a fault of its source, of its destination, and none. -/
theorem witness_Engines_copies :
    Stands ([linear, rows, gather 0x20010].map fun c => let a :=
        { act c with pos := cpPieces c * cpSize c }; (beats a, beatB (beats a) a)) ∧
    Stands ([(act (gather 0x20011), false), ({ act (rows.set 2 0x70000) with noLeaf := some 7 }, false),
        (act (rows.set 2 0x70000), true)].map fun p : Active × Bool =>
      (beats p.1, faultB (beats p.1) p.1 p.2)) ∧
    Stands ([act near, { act near with pos := 3 }, act rows, { act rows with pos := 2, plan := restOf rows 2 }, act (gather 0x20010)].map fun a =>
      (beats a, chunkB (beats a) a)) ∧
    (let s := beats (act rows)
     ((s.engineXlat 0 1 36 0x70000 16 false).toOption.isNone ∧ (s.engineXlat 0 1 36 0x70000 16 true).toOption.isNone) ∧
      (s.engineXlat 0 1 36 0x20010 16 false).toOption.isSome ∧ (s.engineXlat 0 1 36 0x20050 16 true).toOption.isSome ∧
      (s.rowPlan 0 (act rows).cmd 7 0x20020 0x20060 0).toOption = some [] ∧
          (s.rowPlan 0 (act rows).cmd 7 0x2FFF0 0x20060 32).toOption = none) :=
  ⟨stands_of (by decide +kernel), stands_of (by decide +kernel), stands_of (by decide +kernel), by decide +kernel⟩
/-- A copy whose next bytes share a bank with another access of the cycle. -/
theorem witness_Engines_waits :
    let s := beats (act toWindow)
    (match planAt s (act toWindow) with
      | .ok ((m, x, y) :: _) => beatB s (act toWindow) && decide (0 < m) &&
        !(State.askPorts { s with banksUsed := y.banks (min 128 m) } .copy 36 (x.banks (min 128 m) ++ y.banks (min 128 m))).1
      | _ => false) = true := by decide +kernel
/-- Updates of kind 3: at the end, and of an element of each number format. -/
theorem witness_Engines_updates :
    Stands (({ act reduce with pos := 4 }, true) :: [1, 2, 3, 8].map (fun f =>
        (act (ccmd 3 (win 1 0x40) 16 0x20010 0 (f * 2 ^ 56)), false)) |>.map fun p =>
      let s := engaged p.1
      let c := p.1.cmd.words
      let n := cpElem c
      (s, !p.1.finished && cpKind c == 3 && s.waiters.isEmpty && s.banksUsed.isEmpty && s.portAsks.isEmpty &&
          (p.2 == decide (cpPieces c ≤ p.1.pos)) &&
        (p.2 || match s.engineXlat 0 1 36 (s.cpSource 0 c 0) n false, s.engineXlat 0 1 36 (cpDest c 0) n true with
          | .ok _, .ok (.window nd _) => s.savedTeam nd 36 == none
          | _, _ => false))) :=
  stands_of (by decide +kernel)
def fifo (c : List Word) (core : Nat) (f : Team → Team) : State :=
    State.modTeam (State.modCore { base with cur := none, subj := { n := 0 } } core fun k =>
    { k with copyQ := [cmdOf c (64 * core + 1)] }) 1 f
def ended (wid fault : Nat) : Active :=
    { cmd := { cmdOf rows 1 with wid := wid }, finished := true, fault := fault, written := 64, addr := 0x1234 }
def channel (f : Core → Core) : State :=
    State.modCore (wrs { pt st0 with threads := [(65922, { thr with bankCount := 3 })], subj := { n := 1030, m := 36 } } 65922 vals) 1030 f
def skipping : State := State.modCore (fifo rows 0 id) (engineCore 0 1) fun k => { k with copyQ := [cmdOf inTurn 1] }
/-- Engines: a grant from the first FIFO after the last granted and from the last; the answer of a sequenced command's domain; the
end of a command that a CPYX waits for, with and without a fault, and of one that notifies; a bank command that starts, and one
that is complete; bounds of BFENCE and of CPYX before and after it entered; a BFENCE whose last command is complete. -/
theorem witness_Engines :
    Stands [(let s := fifo rows (engineCore 0 0) id; (s, (s.engine 0).active == [] &&
        engineCore 0 (((s.engine 0).last + 1 + 7) % 8) == engineCore 0 ((s.engine 0).last))),
      (let s := fifo rows (engineCore 0 ((0 + 1) % 8)) id; (s, !(cmdOf rows 1).gatedBy && !(s.team 0).stopped)),
      (skipping, (cmdOf inTurn 1).gatedBy && engineCore 0 ((0 + 1 + 7) % 8) == 0)] ∧
    Stands [(let s := fifo inTurn 0 fun t => { t with domains := [0, 0, 0, 77] ++ List.replicate 12 0 }
      (s, (cmdOf inTurn 1).gatedBy && cpTeam inTurn == 1 && (s.team 1).domains.getD (cpDom inTurn) 0 == cpNum inTurn &&
          s.savedTeam 1 36 == none))] ∧
    Stands ([ended 35 0, ended 35 9, ended 0 0, ended 0 9, { ended 0 0 with cmd := cmdOf (rows.set 3 0x20000022) 1 }].map fun a : Active =>
      let s := { waits (wt (.cpyx false (.g 3) (.g 8) 2)) thr (engaged a) with reqs := [] }
      (s, (s.engine 0).active.find? (fun y => y.cmd.id == s.subj.m) == some a && s.copyDone 0 a &&
        s.savedTeam (nodeOf (targetCore (cmdTarget a.cmd.words))) 36 == none)) ∧
    Stands [(let s := channel fun k => { k with bankQ := [cmdOf product 65922] }
      (s, s.bankStarts 1030 && bmOp product == 0 && s.banksUsed.isEmpty && s.portAsks.isEmpty && (match s.bankRead 1030 1 36 false (cw product 1) 0 (16 * bmCols product) with | .ok _ => true | .error _ => false))),
      (channel fun k => { k with bankRun := some { cmd := cmdOf product 65922, finished := true, readAt := 50 } }, decide (thr.born < 36) && !cmdNotify product),
      (channel fun k => { k with bankRun := some { cmd := cmdOf product 65922, finished := true, readAt := 50, fault := 9 } }, !cmdNotify product),
      (let c := product.set 3 (0x20000022 + 2 ^ 62)
       let s := channel fun k => { k with bankRun := some { cmd := cmdOf c 65922, finished := true, readAt := 50, fault := 9 } }
       (s, cmdNotify c && s.savedTeam (nodeOf (targetCore (cmdTarget c))) 36 == none))] ∧
    Stands ([(.cpyx false (.g 3) (.g 8) 2, 0), (.cpyx false (.g 3) (.g 8) 2, 1), (.bfence false 2, 0)].map fun p : Instr × Nat =>
      (waits { wt p.1 with stage := p.2, count := 99 } thr { base with subj := { n := 1, m := 35 } }, true)) ∧
    Stands ([false, true].map fun f =>
        ({ waits (wt (.bfence false 2)) { thr with bankFault := f } base with todo := [.resume 1] }, base.pkg.answers &&
        thr.bankCount == 0)) := by
  refine ⟨stands_of ?_, stands_of ?_, stands_of ?_, stands_of ?_, stands_of ?_, stands_of ?_⟩ <;> decide +kernel

/-- The page of the engine's channel in its node's TLB. -/
def tileTlb : State := st0.modTeam (nodeOf 1027) fun t =>
  { t with tlb := [{ root := 0x10000, launch := 1, va := 0x40000, size := 0x10000, leaf := 0x607007 }] }
/-- A bank engine that runs a command of its own channel's page: a product with a vector of 16 elements, and a table load. -/
def bcmd (w0 w3 : Nat) : List Word := [w0 + 0x1000, 2 ^ 60 + 0x100, 2 ^ 60 + 0x200, w3].map fun n => BitVec.ofNat 64 n
def banking (c : List Word) : State :=
  let a : Active := { cmd := { cmdOf c 65730 with launch := 1 }, pos := 0x40000, vec := (List.range 16).map fun i => 0x3F80 + 77 * i }
  let s := State.modCore (wrs { tileTlb with threads := [(65730, { thr with bankCount := 3 })] } 65730 vals) 1027 fun k =>
      { k with bankRun := some a }
  { s with todo := [.beat 1027 0], subj := { n := 1027, m := 36 } }
def oneTile : List Word := bcmd (2 * 2 ^ 60 + 2 ^ 51 + 2 ^ 42) 0
/-- A bank command's step: a table load's word is read, a tile of the product decodes, its place lies in the engine's SRAM; a tile's
bytes lie in a page of the engine's channel. -/
theorem witness_Engines_bank :
    Stands ([oneTile, bcmd (4 * 2 ^ 60) (2 ^ 62), bcmd (4 * 2 ^ 60) (3 * 2 ^ 62)].map fun c =>
      (banking c, (match (Machine.State.core (banking c) 1027).bankRun with
          | some a => !a.finished && decide (a.readAt ≤ (banking c).cycle) && a.vec.length == 16
          | none => false) &&
        (banking c).cur.isNone && (banking c).waiters.isEmpty && (banking c).banksUsed.isEmpty && (banking c).portAsks.isEmpty &&
            (banking c).pkg.answers)) ∧
    ((banking oneTile).bankTile 1027 1 2 0x40000).toOption.map (fun x => x.2) = some 0x200 ∧
    ((banking (bcmd (4 * 2 ^ 60) (2 ^ 62))).matrixBytes 1027 1 0x40000 8).toOption.isSome = true ∧
    (∀ m i write update, i < 16 → State.bankPlace { banking oneTile with mem := m } 1027 1 36 (cw oneTile 2) ((0 + i) * 4) 4 write update =
      .ok (sramKey (nodeOf 1027) 0x200 + i * 4)) :=
  ⟨stands_of (by decide +kernel), by decide +kernel, by decide +kernel,
    fun m i write update _ => by
      have h : bitAt (cw oneTile 2) 48 = false := by decide +kernel
      have h' : fld (cw oneTile 2) 0 19 = 0x200 := by decide +kernel
      simp only [State.bankPlace, h, h', sramKey, Bool.false_eq_true, if_false]; congr 1; omega⟩
def mappedTile (j : Nat) : Bool := match tileTlb.engineXlat (nodeOf 1027) 1 0 ((0x40000 + j) % 2 ^ 64) 1 false with
  | .ok (.bank k 4 3) => k == 0x60000 + j && channelCore 4 3 == 1027
  | _ => false
theorem witness_Engines_tile : (List.range 512).all mappedTile = true := by decide +kernel
/-- A ZF8 block of 17 granules at the page's start, all of whose 256 tokens and nibbles are 0, by a table of 4-bit codes or by table 3. -/
def zfBlock (t : Nat) : State := tileTlb.store 0x60000 4 (t * 2 ^ 30 + 127 * 2 ^ 22 + 17 * 2 ^ 16)
/-- A ZF8 tile: its header, its table, its tokens and the padding after them. -/
theorem witness_Engines_block :
    ([0, 3].all fun t =>
      let s := zfBlock t
      let b := fun (j : Nat) => (s.byte (0x60000 + j)).toNat
      let h := b 0 + 2 ^ 8 * b 1 + 2 ^ 16 * b 2 + 2 ^ 24 * b 3
      let len := fun (k : Nat) => if t = 3 then 4 else ((s.core 1027).bankTables.getD t 0).toNat / 16 ^ k % 16
      let code := fun (k : Nat) => if t = 3 then k else (((List.range 16).filter fun y =>
          decide (len y < len k) || (len y == len k && decide (y < k))).map
        fun y => 2 ^ (8 - len y)).sum / 2 ^ (8 - len k)
      ((List.range 5).all fun m => (List.range 16).all fun y => (len y == m && code y == 0) == (m == 4 && y == 0)) &&
      h / 2 ^ 30 == t && h % 2 ^ 16 == 0 && h / 2 ^ 16 % 64 == 17 && ((List.range 16).all fun k => len k == 4) &&
        ((List.range 16).map fun k => 2 ^ (8 - len k)).sum == 256 && decide (1056 + 4 * 256 ≤ 128 * 17) &&
        (List.range 140).all fun j => b (132 + j) == 0) = true := by decide +kernel
/-- Commands of which each word in turn is refused, and one that none is: a copy, and a bank product. -/
def wd (l : List Nat) : List Word := l.map fun n => BitVec.ofNat 64 n
theorem witness_EngineChecks :
    (([[4 * 2 ^ 60, 7, 0x20010, 0], [0x20010, 0, 0x20010, 0], [3 * 2 ^ 60 + 2 ^ 56 + 2 ^ 48 + 0x40, 16, 0x20011, 0], [0x20010, 7, 0x20010, 2 ^ 48],
      [0x20010, 7, 0x20010, 0]].map fun c => base.copyFault 1 (wd c) false) = [some 0, some 1, some 2, some 3, none]) ∧
    base.copyFault 1 (wd [0x20010, 7, 0x20010, 1]) true = some 3 ∧
    (([[2 ^ 60, 0, 0, 0], [2 * 2 ^ 60 + 2 ^ 51 + 2 ^ 42, 2 ^ 60 + 0x101, 2 ^ 60, 0], [2 * 2 ^ 60 + 2 ^ 51 + 2 ^ 42, 2 ^ 60, 2 ^ 60 + 0x7FFF0, 0],
      [2 * 2 ^ 60 + 2 ^ 51 + 2 ^ 42, 2 ^ 60, 2 ^ 60, 2 ^ 48], [2 * 2 ^ 60 + 2 ^ 51 + 2 ^ 42, 2 ^ 60, 2 ^ 60, 0], [4 * 2 ^ 60, 0, 0, 2 ^ 62],
      [4 * 2 ^ 60, 1, 0, 2 ^ 62], [4 * 2 ^ 60, 0, 1, 2 ^ 62]].map fun c => base.bankFault 65922 (wd c)) =
      [some 0, some 1, some 2, some 3, none, none, some 1, some 2]) := by decide +kernel

/-- ControlRegisters: each CSR that the statement names, in slot 0 and slot 1 and in slot 0 of a channel core that runs no launch's
thread, the ends of the partition's range, and numbers that are not listed. -/
theorem witness_ControlRegisters :
    Runs ([0, 8, 0x10, 0x20, 0x30, 0x31, 0x38, 0x40, 0x48, 0x49, 0x50, 0x51].flatMap fun n => [1, 0, 65920].flatMap fun tk =>
      [(.csrr false (.g 3) n, on tk { thr with status := 0xA5 } vals, csrListed n),
          (.csrw false (.s 3) (.g 4) n, on tk thr vals, csrListed n)]) ∧
    csrListed 0x039 = false ∧ csrListed 0x1FF = false ∧
    Runs [(.csrs false (.g 3) (.g 4) 0x20, on 0 thr vals, true), (.csrc false (.g 3) (.g 4) 0x20, base, true)] :=
  ⟨runs_of (by decide +kernel), by decide, by decide, runs_of (by decide +kernel)⟩
/-- A free slot for the image. -/
def freed (b : Nat) : State := { imaged b with threads := [(0, { thr with w := 8 })] }
/-- The supervisor of a channel core, whose node's TLB holds an entry of its launch and one of another. -/
def channelTlb : State := State.modTeam (on 65920 thr [(3, 0x20000)]) (nodeOf 1030) fun t =>
  { t with tlb := [1, 2].map fun k => { root := 0x10000, launch := k, va := 0x20000, size := 0x10000, leaf := 0x500007 } }
/-- SupervisorInstructions: all four in slot 1; ERET with each action of a halted slot, with its stores acknowledged and not, and with
an action word that is refused; TLBI by entry and of all, with a walk in progress; CTXSV of a slot whose accesses are over and
not, and at a misaligned address; CTXLD of an image for a halted slot and a free one, and of none; a context image. -/
theorem witness_SupervisorInstructions :
    Runs [(.eret false (.g 3), base, decide (slotOf 1 ≠ 0)), (.tlbi false (.g 3) 1, base, true),
        (.ctxsv false (.g 5) (.g 3) (.g 4), base, true), (.ctxld false (.g 5) (.g 3) (.g 4), base, true)] ∧
    Runs ([0x009, 0x109, 0x209].map fun a =>
        (.eret false (.g 3), supervising a 0 halted, !(supervising a 0 halted).eretRefused 0 (BitVec.ofNat 64 a))) ∧
    Runs [(.eret false (.g 3), supervising 0x209 0 { halted with u := 2 }, !(supervising 0x209 0 { halted with u := 2 }).freeReady 9), (.eret false (.g 3), supervising 0x309 0 halted, (supervising 0 0 halted).eretRefused 0 0x309)] ∧
    (supervising 0 0 halted).freeReady 9 = true ∧
    Runs [(.tlbi false (.g 3) 1, tlbs (supervising 9 0 halted), true),
        (.tlbi false (.g 3) 0, supervising 0x20000 0 halted, ((supervising 0 0 halted).team 0).walks == []),
      (.tlbi false (.g 3) 1, (supervising 9 0 halted).modTeam 0 fun t =>
          { t with walks := [{ id := 30, launch := 1, root := 0x10000, va := 0x20000 }] }, decide (30 < st0.nextId))] ∧
    Runs [(.ctxsv false (.g 5) (.g 3) (.g 4), supervising 9 0x400 halted, !(supervising 9 0x400 halted).saveRefused 0 9 0x400 &&
        (supervising 9 0x400 halted).saveReady 9),
      (.ctxsv false (.g 5) (.g 3) (.g 4), supervising 9 0x401 halted, (supervising 9 0x401 halted).saveRefused 0 9 0x401),
      (.ctxsv false (.g 5) (.g 3) (.g 4), supervising 9 0x400 { halted with u := 2 }, !(supervising 9 0x400 { halted with u := 2 }).saveReady 9)] ∧
    Runs [(.ctxld false (.g 5) (.g 3) (.g 4), imaged 0x400, ((imaged 0x400).loadImage 0 9 0x400).isSome),
        (.ctxld false (.g 5) (.g 3) (.g 4), supervising 9 0x400 halted, ((supervising 9 0x400 halted).loadImage 0 9 0x400).isNone),
      (.ctxld false (.g 5) (.g 3) (.g 4), freed 0x400, ((freed 0x400).loadImage 0 9 0x400).isSome &&
          (freed 0x400).thread? 9 == none)] ∧
    Runs ([0, 1].map fun e => (.tlbi false (.g 3) e, channelTlb, (channelTlb.team (nodeOf 1030)).walks == [])) ∧
    (match (imaged 0x400).thread? 9 with | some v => decide (v.w / 8 < 2 ^ 4) && v.log == none | none => false) = true := by
  refine ⟨runs_of ?_, runs_of ?_, runs_of ?_, ?_, runs_of ?_, runs_of ?_, runs_of ?_, runs_of ?_, ?_⟩ <;> decide +kernel
/-- A core with events, and a WFE of thread 2 or 5. -/
def events (m : Nat) : State := c0 (fun k =>
    { k with evt := 0x203, evtAt := some 49, evtWas := 0x302, evtNew := 1 }) (on 1 thr [(3, 0x77), (4, BitVec.ofNat 64 m)])
def wfeWait (m : Nat) : State :=
  let w := { wt (.wfe false (.g 3) (.g 4) 2) with vals := [0, BitVec.ofNat 64 m] }
  c0 (fun k => { k with evt := 0x203 }) { base with cur := none, threads := [(5, { thr with run := .wait w })], subj := { n := 5, m := 35 } }
/-- EventsAndSteward: WFE with a bit of its mask set, with none, and with the lowest reserved bit; a WFE that waits, with and
without its bit; a halt of a slot in each run state; a halted slot resumed and freed; a role queue with room; a neighbour with
room. -/
theorem witness_EventsAndSteward :
    Runs [(.wfe false (.g 3) (.g 4) 2, events 0x2, (events 2).wfeFinds 1 2 != 0),
        (.wfe false (.g 3) (.g 4) 15, events 0x80, (events 0x80).wfeFinds 1 0x80 == 0),
        (.wfe false (.g 3) (.g 4) 2, events 0x10000, decide (0x10000 / 2 ^ 16 ≠ 0))] ∧
    Stands [(wfeWait 2, (wfeWait 2).wfeFinds 5 2 != 0), (wfeWait 0x80, (wfeWait 0x80).wfeFinds 5 0x80 == 0)] ∧
    Stands (([.ready, .switch, .fetch, .operand (.mov false (.g 3) (.q 0)), .wait (wt (.wfe false (.g 3) (.g 4) 2)),
        .halted 3] : List Run).map fun r =>
      ({ base with cur := none, threads := [(1, { thr with run := r })] }, true)) ∧
    Stands [(c0 (fun k => { k with roles := [ro true (List.replicate 7 { v := 1 }), {}, {}, ro true []] }) { base with cur := none }, true), (c0 (fun k => { k with roles := [{}, {}, {}, ro true []] }) st0, true)] ∧
    (neighbour (nodeOf (coreOf 1)) .e).isSome = true ∧ 0 < st0.nbrRoom (nbrKey (nbrSlot 1 .e) (Dir.opposite .e)) ∧
        SMap.getD st0.nbrSync (nbrKey (nbrSlot 1 .e) (Dir.opposite .e)) false = false := by
  refine ⟨runs_of ?_, stands_of ?_, stands_of ?_, stands_of ?_, ?_, ?_, ?_⟩ <;> decide +kernel

/-- HostRegisters: a ring that is on and one that is off, TAIL as far ahead as it may be and one farther, EVTDOOR of a team that is
present, one that is absent, and a channel core at the end of its range, and offsets at the edges. -/
theorem witness_HostRegisters :
    Stands [(hring hq st0, ((hring hq st0).hring 0).rcfg.getLsbD 8),
        (hring { hq with rcfg := 4 } st0, !((hring { hq with rcfg := 4 } st0).hring 7).rcfg.getLsbD 8),
      ({ st0 with pkg := { st0.pkg with absent := [70] } }, !st0.absent (nodeAt 3 63) &&
          decide ((33 + 2 ^ 16 - 17) % 2 ^ 16 ≤ 2 ^ 4 ∧ 2 ^ 4 < (34 + 2 ^ 16 - 17) % 2 ^ 16))] ∧
    (let p := st0.pkg
     p.clkbin < 2 ^ 8 ∧ p.lifecycle < 2 ^ 8 ∧ p.fwVersion < 2 ^ 32 ∧ p.bootFail < 2 ^ 8 ∧ p.bootImage < 2 ^ 8 ∧
         (∀ x ∈ p.links, x < 2 ^ 8) ∧
       p.serial.length = 32) ∧
    ({ st0 with pkg := { st0.pkg with absent := [70] } } : State).absent (nodeAt 1 6) = true ∧ 0xFF8 < 0x1000 ∧ 0x1001 % 8 ≠ 0 ∧
        0x18 < 0x1020 % 0x40 := by
  refine ⟨stands_of ?_, ?_, ?_, ?_, ?_, ?_⟩ <;> decide +kernel
/-- HostCommands, refusals: a dword that is not listed, a reserved bit of the header, a retired device, and an opcode outside the
table. -/
theorem witness_HostCommands_refused :
    Stands ([([1, 0x300000, 1], 1, 1), ([0x101, 0x300000], 1, 1), ([9, 2, 1], 9, 1),
        ([5, 5, 0, 0, 0, 1, 0, 1], 5, 6)].map fun p : List Nat × Nat × Nat =>
      (cmdAt p.1 host, hostTakesB (cmdAt p.1 host) 0 p.2.1 (words8 p.1) &&
          !hostAcceptsB (cmdAt p.1 host) p.2.1 p.2.2 (words8 p.1))) ∧
    Stands ([0, 0x0C, 0xFF].map fun c => (cmdAt [c] host, hostTakesB (cmdAt [c] host) 0 c (words8 [c]))) :=
  ⟨stands_of (by decide +kernel), stands_of (by decide +kernel)⟩
/-- HostCommands: each command taken and accepted, with operands in range and out of range; LOAD rests on what Config leaves open, so
its operands alone are shown. -/
theorem witness_HostCommands :
    Stands ([([1, 0x300000], 1, 1), ([1, 0x300001], 1, 1), ([2, 0x300000, 8, 0x10000, 0x20000, 64], 2, 5),
        ([3, 0x20010, 0x10000, 0x300000, 4], 3, 4), ([3, 0x20011, 0x10000, 0x300000, 4], 3, 4),
        ([3, 0x20010, 0x10000, 0x300000, 4097], 3, 4), ([4, 0x20100, 0x10000, 0xFF, 0x300000], 4, 4),
            ([4, 0x20100, 0x10001, 0x3F, 0x300000], 4, 4), ([4, 0x99990000, 0x10000, 0xFF, 0x300000], 4, 4), ([7, 5], 7, 1),
            ([7, 9], 7, 1), ([7, 0x8001], 7, 1), ([7, 77], 7, 1),
        ([8, 0xFFFF, 0x10000, 0x50000, 1, 0x310000], 8, 5), ([8, 5, 0x10000, 0x50000, 1, 0x310000], 8, 5),
            ([8, 9, 0x10000, 0x50000, 1, 0x310000], 8, 5), ([8, 5, 0x10000, 0x50010, 1, 0x310000], 8, 5),
            ([8, 5, 0x10000, 0x50000, 0, 0x310000], 8, 5),
        ([9, 2], 9, 1), ([9, 0], 9, 1), ([0x0A, 0x300000, 16], 10, 2), ([0x0B, 0x320000, 32, 0], 11, 3),
            ([0x0B, 0x320000, 33, 0], 11, 3)].map fun p : List Nat × Nat × Nat =>
      (cmdAt p.1 host, hostTakesB (cmdAt p.1 host) 0 p.2.1 (words8 p.1) && hostAcceptsB (cmdAt p.1 host) p.2.1 p.2.2 (words8 p.1) &&
          (cmdAt p.1 host).waiters == [])) ∧
    (host.launchByHandle 5).isSome = true ∧ host.launchByHandle 9 = none ∧ host.launchByHandle 77 = none ∧
        host.launchByHandle 0xFFFF = none ∧
    (host.queued? 9).isSome = true ∧ host.queued? 77 = none ∧ host.walkFrom 0x10000 0x20100 ≠ none ∧
        host.walkFrom 0x10000 0x99990000 = none ∧
    (leafOk 0x707007 = true ∧ fld 0x707007 4 2 ≠ 3 ∧ 0x50000 % pageBytes (fld 0x707007 4 2) = 0 ∧
        host.walksOf 1 lch host.nextId = false ∧
      tableOf (word (host.load 0x10000 8)) = some 0x11000 ∧ tableOf (word (host.load 0x11000 8)) = some 0x12000 ∧
          tableOf (word (host.load 0x12000 8)) = some 0x13000) ∧
    (completionKey (cmdAt [] host) 0 + 16 ≤ hostKey 0x300000) := by
  refine ⟨stands_of ?_, ?_, ?_, ?_, ?_, ?_, ?_, ?_, ?_, ?_, ?_⟩ <;> decide +kernel
/-- HostCommands, an object's parts: a relocation of each kind that fits its field and one that does not, pattern records that load
and that do not, alone and beside another, and a launch's membership word. -/
theorem witness_HostCommands_objects :
    (let run := fun (k : RelocKind) (v : Int) =>
        (applyReloc { kind := k, site := 0x1000, value := v } (Machine.bytesAt 0x1000 (toBytes 16 0))).isSome
     [run .disp12 (0x1000 + 4 * 2047), run .disp12 (0x1000 + 4 * 2048), run .disp12 0x1002, run .disp25 (0x1000 - 2 ^ 26), run .disp25 (0x1000 - 2 ^ 26 - 4),
      run .imm11 1023, run .imm11 1024, run .abs32 (2 ^ 32 - 1), run .abs32 (-1), run .abs64 (-2 ^ 63), run .abs64 (2 ^ 64), run .lix64 (2 ^ 64 - 1), run .lix64 (2 ^ 64)] =
      [true, false, false, true, false, true, false, true, false, true, false, true, false]) ∧
    (let d := fun (ports slot w : Nat) => BitVec.ofNat 64 (w * 2 ^ 44 + slot * 2 ^ 32 + ports)
     [patternList [(3, 14, d 0x300 10 1, 0x4000)], patternList [(4, 0, d 0x300 10 1, 0x4000)], patternList [(0, 15, d 0x300 10 1, 0x4000)],
       patternList [(0, 0, d 0x80000000 10 1, 0x4000)], patternList [(0, 0, d 0x300 10 1, 0x4000), (0, 1, d 0x300 10 2, 0x4000)],
       patternList [(0, 0, d 0x300 10 1, 0x4000),
           (1, 0, d 0x300 10 2, 0x4000)]].map (·.isSome) = [true, false, false, false, false, true]) ∧
    (let g := fun (i : Nat) (m : List Nat) => ({ index := i, expected := 5, members := m } : GroupRecord)
     memberWord { keys := [], slots := [], groups := [g 3 [0, 6], g 255 [6]], sglAt := 0, gtabAt := 0, membAt := 0, barsAt := 0, lpbAt := 0 } 6 = 0x80FF8003) := by
  decide +kernel

/-- HostCommands: the ranges of PATCH, LOAD and MAP lie at successive keys, whatever they hold. -/
theorem witness_HostCommands_mapped : MapsTo host 0x10000 0x20010 0x50010 16 ∧ MapsTo host 0x10000 0x20000 0x50000 64 ∧
    (∀ n, ∀ l ∈ (host.team n).icache, l.root < 2 ^ 48) :=
  ⟨maps_in_page (p := 16) (leaf := 0x500007) (by decide +kernel) (by decide +kernel) (by decide +kernel) (by decide +kernel),
    maps_in_page (p := 16) (leaf := 0x500007) (by decide +kernel) (by decide +kernel) (by decide +kernel) (by decide +kernel),
    fun n l hl => by
      simp only [State.team, SMap.getD, SMap.get?, show host.teams = [] from rfl, Option.getD_none, Team.fresh] at hl
      split at hl <;> cases hl⟩
/-- A task of launch 1 on team 0 whose threads have these run states, with a stage's role queues, and a launch 2 beside it. -/
def staged (held : Bool) (empty : Bool) (runs : List Run) : State :=
  let s : State := pt { st0 with
    threads := runs.zipIdx.map (fun e =>
        (1 + 65 * e.2, { thr with base := 2 * e.2, w := 16, run := e.1, status := 0x125, task := 7 })) ++
        [(64 * 4, { thr with launch := 2, task := 8 })],
    disp :=
      { st0.disp with
        launches := [(1, { lch with s := 0x1000, teams := [0], held := held }), (2, { lch with handle := 6 })],
        tasks := [(7, { launch := 1, num := 3, x := 1, y := 2, team := 0, budget := 2, live := runs.length }),
            (8, { launch := 2, num := 3, x := 1, y := 2, team := 1, budget := 2, live := 1 })] } }
  let s := (s.modTeam 0 fun t => { t with s := 0x4000, task := some 7, lastLaunch := some 1, stopped := held }).modTeam 1 fun t =>
      { t with task := some 8, lastLaunch := some 2 }
  c0 (fun k => { k with roles := [ro true [], ro true (if empty then [] else [{ v := 3 }]), {}, ro true []] }) s
/-- The loader's entry, and a PREEMPT that firmware has taken. -/
def loader : Nat := 0x7C * 2 ^ 32 + 2 ^ 24
def loaded (s : State) : State := put (hostKey 0x400000) [loader, 0] s
def taken (s : State) (w : List Nat) (dl : Option Nat) : State :=
    cmdAt w s { hq with cmd := some (words8 w), stage := 1, deadline := dl }
def pre0 : List Nat := [5, 5, 0, 2, 0, 1, 0x400000]
def pre1 : List Nat := [5, 5, 1, 2, 0x20000]
def launch1 (s : State) : Launch := (s.launch? 1).getD lch
def resumable : State := State.modLaunch { imaged 0x400 with cur := none } 1 fun l =>
    { l with pipe := some { loaders := [BitVec.ofNat 64 loader], offset := 0, slots := [(9, 0x400)], sregs := [] } }
/-- The general path once every thread has stopped, with a page of 2 MB at 0x200000 for the save area. -/
def stopped : State := (taken (staged true true [.halted 31, .halted 3]) [5, 5, 1, 2, 0x200000] none).store 0x12008 8 0x2000017
/-- PreemptAndResume, path 0: a PREEMPT of one loader, and with a count of loaders of 0; the stopped pipeline with its queues empty and
not, and at its bound; a RESUME of what was saved, and of a launch with nothing saved. -/
theorem witness_PreemptAndResume_pipeline :
    Stands ([pre0, pre0.set 5 0, pre0.set 5 257].map fun w => let s := cmdAt w (loaded (staged false false [.ready, .halted 7]))
      (s, hostTakesB s 0 5 (words8 w) && hostAcceptsB s 5 6 (words8 w) && (s.launchByHandle 5).isSome)) ∧
    Stands [(let s := cmdAt pre0 (loaded (staged false false [.ready, .halted 7]))
      (s, s.loaders 0x400000 1 == [(BitVec.ofNat 64 loader, 0)] && s.loaderOk false (BitVec.ofNat 64 loader) 0 &&
          !(launch1 s).held && s.imagesFit (s.imagePlaces 0 (saveOrder (s.stageSlots 1)) []) &&
        ((s.core 0).role 0).enabled && decide (((s.core 0).role 0).taken < 8)))] ∧
    Stands ([false, true].map fun e => let s := loaded (taken (staged false e [.halted 7, .halted 7]) pre0 (some 40))
      (s, (s.hring 0).cmd == some (words8 pre0) && s.pipeStopped 1 (s.stageSlots 1) && s.queuesEmpty 1 == e &&
        let places := s.imagePlaces 0 (saveOrder (s.stageSlots 1)) []
        s.imagesFit places && places.length == 2 && places.all fun x => decide (x.1 < 64 * 1216 ∧
            x.2 + imageBytes (s.thread x.1).w ≤ 2 ^ 21))) ∧
    Stands [(let w := [6, 5, 0, 0, 0, 1, 0x400000]; (cmdAt w (loaded (staged false true [.halted 7])), hostTakesB (cmdAt w (loaded (staged false true [.halted 7]))) 0 6 (words8 w)))] ∧
    Stands [(let w := [6, 5, 0, 0, 0, 1, 0x400000]
      let s := loaded (cmdAt w resumable)
      (s, hostTakesB s 0 6 (words8 w) && hostAcceptsB s 6 6 (words8 w) && !(launch1 s).aborted && match (launch1 s).pipe with
        | some x => x.loaders == (s.loaders 0x400000 1).map (·.1) && x.offset == 0 && ((s.loaders 0x400000 1).all fun e =>
            s.loaderOk true e.1 e.2) && (s.loadImages x.slots).isSome
        | none => false))] := by
  refine ⟨stands_of ?_, stands_of ?_, stands_of ?_, stands_of ?_, stands_of ?_⟩ <;> decide +kernel
/-- PreemptAndResume, path 1: a PREEMPT, one at a misaligned address, and one of a launch that is held; all quiet, with a page for the save
area; at its bound, for each path; a RESUME of a launch that is not held, and what the save area holds first. -/
theorem witness_PreemptAndResume_general :
    Stands ([(pre1, false), ([5, 5, 1, 0, 0x20001], false), (pre1, true)].map fun p : List Nat × Bool =>
      let s := cmdAt p.1 (staged p.2 true [.ready, .wait (wt (.recv false (.g 20) (.g 4) 2))])
      (s, hostTakesB s 0 5 (words8 p.1) && hostAcceptsB s 5 6 (words8 p.1) && (s.launchByHandle 5).isSome &&
          (launch1 s).held == p.2 && (s.deviceKey 0x10000 0x20000).isSome)) ∧
    Stands [(stopped, (stopped.hring 0).cmd == some (words8 [5, 5, 1, 2, 0x200000]) && (stopped.launchByHandle 5).isSome &&
        ((stopped.launchThreads 1).all fun t => stopped.isStopped t) && stopped.generalQuiet 1)] ∧
    (∀ n, 8 * n ≤ 2 ^ 21 → MapsTo stopped 0x10000 0x200000 0x200000 (8 * n)) ∧
    Stands [(taken (staged false true [.ready]) pre0 (some 50), (taken (staged false true [.ready]) pre0 (some 50)).subj.n == 0),
        (taken (staged true true [.ready]) pre1 (some 40), true)] ∧
    Stands [(let w := [6, 5, 1, 0, 0x20000]; (cmdAt w (staged false true [.ready]), hostTakesB (cmdAt w (staged false true [.ready])) 0 6 (words8 w) && !(launch1 (cmdAt w (staged false true [.ready]))).held))] :=
  ⟨stands_of (by decide +kernel), stands_of (by decide +kernel), fun n hn => maps_less (maps_in_page (p := 21) (leaf :=
      0x2000017) (by decide +kernel) (by decide +kernel) (by decide +kernel) (by decide +kernel)) hn,
    stands_of (by decide +kernel), stands_of (by decide +kernel)⟩
/-- Two accesses on two links, with their answers on the way, and a barrier wait of the first link's peer. -/
def linked : State :=
  let q (n pa : Nat) : Nat × Req := (n, { rq gst with id := n, tgt := some (.peer pa 0) })
  let p (n : Nat) (x : Payload) : Nat × Packet := (n, { id := n, src := 5, dst := 0, chan := 1, payload := x })
  { st0 with
    reqs := [q 40 (2 ^ 40 + 64), q 41 (2 ^ 41),
        (42, { rq (.barw false (.g 3) (.g 4) 2) with id := 42, tgt := some (.peer (2 ^ 40 + 128) 0), stage := .waiter })],
    waiters := [42], packets := [p 50 (.land 40 [1] 0 true [5]), p 51 (.ack 41 3)],
    pkg := { st0.pkg with routes := [(1, 3), (2, 5)], links := List.replicate 8 2 } }
/-- BootAndLinks: a link that carries an access's answer and that of an access which waits at its owner, and one that does not, and the links at the ends of the range. Whether the
images verify is the opaque part of Config, so those hypotheses have no witness that Lean can evaluate. -/
theorem witness_BootAndLinks :
    Stands [(linked, linked.onLink 3 40 && !linked.onLink 5 40 && linked.onLink 5 41 && decide (0 < 8 ∧ 7 < 8) &&
        (linked.waiting.map (·.id)) == [42] && linked.onLink 3 42 &&
      ((SMap.get? linked.packets 50).any fun u => u.payload == .land 40 [1] 0 true [5]))] := stands_of (by decide +kernel)

/-- A launch that waits in the host queue, and the header that firmware wrote for it at 0x20000. -/
def queuedCmd (w : List Nat) (held : Bool) : State :=
  let s := put 0x50000 [0x45564153 + 2 ^ 32, 9, 0, 64, 0, 0, 0, 0] (cmdAt w (pt st0))
  { s with disp := { s.disp with hostQ := [{ handle := 9, lpb := 0, root := 0x10000, wpdie := 0, wpnode := [], held := held }] } }
/-- PreemptAndResume of a launch that waits to be taken: PREEMPT, RESUME, with path 0, of one that is held already, and of none. -/
theorem witness_PreemptAndResume_queued :
    Stands ([([5, 9, 1, 2, 0x20000], false), ([5, 9, 1, 2, 0x20000], true), ([6, 9, 1, 0, 0x20000], true),
        ([6, 9, 1, 0, 0x20000], false), ([5, 9, 0, 2, 0], false),
        ([5, 77, 1, 2, 0x20000], false), ([6, 77, 1, 0, 0x20000], false)].map fun p : List Nat × Bool =>
      let s := queuedCmd p.1 p.2
      (s, hostTakesB s 0 (p.1.headD 0) (words8 p.1) && hostAcceptsB s (p.1.headD 0) 6 (words8 p.1) && s.waiters == [] &&
          s.launchByHandle (p.1.getD 1 0) == none &&
        (s.queued? (p.1.getD 1 0)).isSome == (p.1.getD 1 0 == 9))) ∧
    (let s := queuedCmd [6, 9, 1, 0, 0x20000] true
     [bytesAt s 0x50000 8, bytesAt s 0x50008 8, bytesAt s 0x50010 8, bytesAt s 0x50018 8, bytesAt s 0x50020 32] = [0x45564153 + 2 ^ 32, 9, 0, 64, 0]) ∧
    (∀ w, w = [5, 9, 1, 2, 0x20000] ∨ w = [6, 9, 1, 0, 0x20000] → MapsTo (queuedCmd w (w.headD 0 == 6)) 0x10000 0x20000 0x50000 64) :=
  ⟨stands_of (by decide +kernel), by decide +kernel, fun w hw => by
    rcases hw with rfl | rfl <;>
      exact maps_in_page (p := 16) (leaf :=
          0x500007) (by decide +kernel) (by decide +kernel) (by decide +kernel) (by decide +kernel)⟩
/-- A launch saved from team 0, with the directory and the record's header of its save area at 0x20000. -/
def savedArea (die : Nat) : State :=
  let w := [6, 5, 1, 0, 0x20000]
  let s := put 0x50000 ([0x45564153 + 2 ^ 32, 5, 1, 256] ++ List.replicate 4 0 ++ [128] ++ List.replicate 7 0 ++
      [1 + 2 ^ 32 * 64] ++ List.replicate 7 0 ++ [5]) (cmdAt w (pt st0))
  { s with
    disp :=
      { s.disp with
        launches := [(1, { lch with s := 0x200, wpdie := die, held := true, preempted := true, savedAt := 0x20000, saved := [{ team := 0, task := 7 }] })],
        tasks := [(7, { launch := 1, num := 3, x := 1, y := 2, team := 0, budget := 2, live := 0 })] } }
/-- PreemptAndResume, path 1: a RESUME of what was saved, with a team free for it and with none; the save area of a stopped launch. -/
theorem witness_PreemptAndResume_resumed :
    Stands ([255, 0].map fun die =>
      let s := savedArea die
      let w := [6, 5, 1, 0, 0x20000]
      (s, hostTakesB s 0 6 (words8 w) && hostAcceptsB s 6 6 (words8 w) && match s.launch? 1, s.areaRead 0x10000 0x20000 8 with
        | some l, some head => l.held && l.preempted && areaMatches l head && (match s.areaRead 0x10000 0x20000 ((head.getD 3 0).toNat / 8) with
          | some area => directoryMatches l area && (s.restoreTeams 1 l l.saved []).isSome == (die == 255)
          | none => false)
        | _, _ => false)) ∧
    (stopped.taskTeams 1 = [0] ∧ (stopped.team 0).task = some 7 ∧ (stopped.task? 7).isSome = true ∧ (stopped.team 0).s % 512 = 0 ∧
      (stopped.team 0).s < 2 ^ 21) :=
  ⟨stands_of (by decide +kernel), by decide +kernel⟩

end Sys2Proof.Tests
end

section
/-! Local accesses (R95 to R99): what leads from their issue to their bank cycle, and what they leave there. -/

namespace Sys2Proof.Machine

/-! ### What the pops of an instruction and the step past it leave -/

/-- What every step of a fold keeps, the fold keeps. -/
theorem foldl_keeps {α β σ : Type} (field : σ → β) (g : σ → α → σ) (h : ∀ s a, field (g s a) = field s) (l : List α)
    (s : σ) : field (l.foldl g s) = field s :=
  List.foldlRecOn (motive := fun u => field u = field s) l g rfl fun u hu a _ => (h u a).trans hu

@[simp] theorem State.popReg_threads (s : State) (tk : Nat) (r : Reg) : (s.popReg tk r).threads = s.threads := by
  cases r <;> rfl
@[simp] theorem State.popReg_cycle (s : State) (tk : Nat) (r : Reg) : (s.popReg tk r).cycle = s.cycle := by
  cases r <;> rfl
@[simp] theorem State.popReg_rf (s : State) (tk : Nat) (r : Reg) : (s.popReg tk r).rf = s.rf := by
  cases r <;> rfl

@[simp] theorem State.popAll_threads (s : State) (tk : Nat) (rs : List Reg) : (s.popAll tk rs).threads = s.threads :=
  foldl_keeps State.threads _ (fun s r => s.popReg_threads tk r) rs s
@[simp] theorem State.popAll_cycle (s : State) (tk : Nat) (rs : List Reg) : (s.popAll tk rs).cycle = s.cycle :=
  foldl_keeps State.cycle _ (fun s r => s.popReg_cycle tk r) rs s
@[simp] theorem State.popAll_rf (s : State) (tk : Nat) (rs : List Reg) : (s.popAll tk rs).rf = s.rf :=
  foldl_keeps State.rf _ (fun s r => s.popReg_rf tk r) rs s

@[simp] theorem State.advance_cycle (s : State) (tk : Nat) : (s.advance tk).cycle = s.cycle := State.modThread_cycle ..
@[simp] theorem State.advance_rf (s : State) (tk : Nat) : (s.advance tk).rf = s.rf := State.modThread_rf ..

@[simp] theorem State.reserveReg_threads (s : State) (tk : Nat) (r : Reg) : (s.reserveReg tk r).threads = s.threads := by
  cases r <;> rfl
@[simp] theorem State.reserveReg_cycle (s : State) (tk : Nat) (r : Reg) : (s.reserveReg tk r).cycle = s.cycle := by
  cases r <;> rfl

theorem State.thread_of_thread? {s : State} {tk : Nat} {th : Thread} (h : s.thread? tk = some th) : s.thread tk = th := by
  show (s.thread? tk).getD {} = th
  rw [h, Option.getD_some]

/-- The state in which the effect of an issuing instruction begins: its sources are popped and its pc has stepped on. -/
def State.afterPops (s : State) (i : Instr) (tk : Nat) : State := (s.popAll tk (popList i)).advance tk

@[simp] theorem State.afterPops_cycle (s : State) (i : Instr) (tk : Nat) : (s.afterPops i tk).cycle = s.cycle := by
  simp [State.afterPops]
@[simp] theorem State.afterPops_rf (s : State) (i : Instr) (tk : Nat) : (s.afterPops i tk).rf = s.rf := by
  simp [State.afterPops]

/-- The thread that issues, in the state in which its instruction's effect begins. -/
theorem State.thread_afterPops {s : State} {tk : Nat} {th : Thread} (i : Instr) (h : s.thread? tk = some th) :
    (s.afterPops i tk).thread tk =
      { th with pc := th.pc + 4, status := clearPrefix th.status, run := .ready, carry := none } := by
  have hp : (s.popAll tk (popList i)).thread? tk = some th := by
    show SMap.get? (s.popAll tk (popList i)).threads tk = some th
    rw [State.popAll_threads]; exact h
  refine State.thread_of_thread? ?_
  rw [State.afterPops, State.advance, State.thread?_modThread, hp, Option.map_some]

theorem State.born_afterPops {s : State} {tk : Nat} {th : Thread} (i : Instr) (h : s.thread? tk = some th) :
    ((s.afterPops i tk).thread tk).born = th.born := by
  rw [State.thread_afterPops i h]

/-- Two effects that agree on the state in which they begin are the same to an issuing instruction. -/
theorem issued_congr {i : Instr} {s : State} {tk : Nat} {eff eff' : State → State}
    (h : eff (s.afterPops i tk) = eff' (s.afterPops i tk)) : issued i s tk eff = issued i s tk eff' := by
  unfold State.afterPops at h
  rw [issued, issued, h]

/-- Neither the pops nor the step past an instruction change the registers of a group. -/
theorem State.readGroup_afterPops {s : State} {tk : Nat} {th : Thread} (i : Instr) (r : Reg) (h : s.thread? tk = some th) :
    (s.afterPops i tk).readGroup tk r = s.readGroup tk r := by
  simp only [State.readGroup, State.readG, State.rfKey, State.thread_afterPops i h, State.thread_of_thread? h,
    State.afterPops_rf]

/-! ### A local access at issue (R95 to R99) -/

/-- The effective address of R96, over the integers. -/
theorem localEa_eq_ofInt (a : Word) (t : BitVec 7) (unit : Nat) :
    localEa a t unit = BitVec.ofInt 64 (a.toInt + t.toInt * unit) := by
  rw [BitVec.ofInt_add, BitVec.ofInt_mul, BitVec.ofInt_toInt, BitVec.ofInt_natCast]
  rfl

/-- An address below the scratchpad's size, and a multiple of the unit, passes both checks of R100. -/
theorem localCheck_go {s : State} {core unit : Nat} {ea : Word} (hs : ea.toNat < s.scratchSize core)
    (ha : ea.toNat % unit = 0) : localCheck s core ea unit = .go := by
  rw [localCheck, if_neg (Nat.not_le.mpr hs), if_neg (not_not.mpr ha)]

/-- An access that a thread issues in cycle c, set for its bank in cycle c + 3. -/
def State.setForBank (u : State) (c tk born : Nat) (k : LocalKind) : State :=
  { u with timers := u.timers ++ [{ due := c + 3, mv := .bank { tk := tk, born := born, issued := c, stamp := u.nextId, kind := k } }] }

/-- An access sent on by a state that has the issue's cycle and its thread is the one set for its bank. -/
theorem State.sendBank_eq {u : State} {x : Issue} {c born : Nat} (k : LocalKind) (hc : u.cycle = c)
    (hb : (u.thread x.tk).born = born) : u.sendBank x k = u.setForBank c x.tk born k := by
  subst hc hb; rfl

section LocalIssue

variable {i : Instr} {rd : Reg} {n : Nat} {t : BitVec 7} {s : State} {tk : Nat} {th : Thread} {ea : Word}
  (hr : Ready i s tk th) (hf : i.fields.length = 2)
  (hea : BitVec.ofInt 64 ((s.operand tk i 1).toInt + t.toInt * n) = ea)
  (hs : ea.toNat < s.scratchSize (coreOf tk)) (ha : ea.toNat % n = 0)

include hf hea in
/-- The address that an issuing access computes. -/
theorem localEa_issueOf : localEa ((s.issueOf tk th i).val 1) t n = ea := by
  rw [issueOf_val (by omega), localEa_eq_ofInt, hea]

include hr hf hea hs ha

/-- An access that is in range and aligned has its effect. -/
theorem issue_local (eff : Issue → State → State) :
    issue i (fun x s => localCheck s x.core (localEa (x.val 1) t n) n) eff s =
      .next (issued i s tk (eff (s.issueOf tk th i))) :=
  issue_ready hr (by rw [localEa_issueOf hf hea]; exact localCheck_go hs ha)

/-- A load reserves the place of its push, and is set for its bank (R97, R247). -/
theorem issueLoad_fits (signed : Bool) : issueLoad i rd n t signed s = .next (issued i s tk fun u =>
    (u.reserveReg tk rd).setForBank s.cycle tk th.born
      (.load (sramKey (nodeOf (coreOf tk)) ea.toNat) n signed rd)) := by
  rw [issueLoad, issue_local hr hf hea hs ha, localEa_issueOf hf hea]
  refine congrArg _ (issued_congr (State.sendBank_eq _ (by simp) ?_))
  show (State.thread _ tk).born = _
  rw [State.thread, State.reserveReg_threads]
  exact State.born_afterPops i hr.issuing.2

/-- A store is set for its bank with the low bytes of the value read from rd (R98). -/
theorem issueStore_fits : issueStore i n t s = .next (issued i s tk fun u =>
    u.setForBank s.cycle tk th.born
      (.store (sramKey (nodeOf (coreOf tk)) ea.toNat) (toBytes n (s.operand tk i 0).toNat))) := by
  rw [issueStore, issue_local hr hf hea hs ha, localEa_issueOf hf hea, issueOf_val (by omega)]
  exact congrArg _ (issued_congr (State.sendBank_eq _ (by simp) (State.born_afterPops i hr.issuing.2)))

end LocalIssue

/-- A group load is set for its bank (R99). -/
theorem execLdv_fits {sm : Bool} {rd ra : Reg} {r : BitVec 2} {t : BitVec 7} {s : State} {tk : Nat} {th : Thread} {ea : Word}
    (hr : Ready (.ldv sm rd ra r t) s tk th)
    (hea : BitVec.ofInt 64 ((s.operand tk (.ldv sm rd ra r t) 1).toInt + t.toInt * (64 : Nat)) = ea)
    (hs : ea.toNat < s.scratchSize (coreOf tk)) (ha : ea.toNat % 64 = 0) :
    execLdv sm rd ra r t s = .next (issued (.ldv sm rd ra r t) s tk fun u =>
      u.setForBank s.cycle tk th.born (.loadGroup (sramKey (nodeOf (coreOf tk)) ea.toNat) rd)) := by
  rw [execLdv, issue_local hr rfl hea hs ha, localEa_issueOf rfl hea]
  exact congrArg _ (issued_congr (State.sendBank_eq _ (by simp) (State.born_afterPops _ hr.issuing.2)))

theorem bytesOfDwords_eq_flatMap (ws : List Word) : bytesOfDwords ws = ws.flatMap fun w => toBytes 8 w.toNat := by
  induction ws with
  | nil => rfl
  | cons w ws ih => rw [bytesOfDwords, ih, List.flatMap_cons]

/-- A group store is set for its bank with the doublewords of its group (R99). -/
theorem execStv_fits {sm : Bool} {rd ra : Reg} {r : BitVec 2} {t : BitVec 7} {s : State} {tk : Nat} {th : Thread} {ea : Word}
    (hr : Ready (.stv sm rd ra r t) s tk th)
    (hea : BitVec.ofInt 64 ((s.operand tk (.stv sm rd ra r t) 1).toInt + t.toInt * (64 : Nat)) = ea)
    (hs : ea.toNat < s.scratchSize (coreOf tk)) (ha : ea.toNat % 64 = 0) :
    execStv sm rd ra r t s = .next (issued (.stv sm rd ra r t) s tk fun u =>
      u.setForBank s.cycle tk th.born (.store (sramKey (nodeOf (coreOf tk)) ea.toNat)
        ((s.readGroup tk rd).flatMap fun v => toBytes 8 v.toNat))) := by
  rw [execStv, issue_local hr rfl hea hs ha, localEa_issueOf rfl hea]
  refine congrArg _ (issued_congr ?_)
  rw [← bytesOfDwords_eq_flatMap, ← State.readGroup_afterPops (.stv sm rd ra r t) rd hr.issuing.2]
  exact State.sendBank_eq _ (by simp) (State.born_afterPops _ hr.issuing.2)

/-- The loads of one value, each with its unit and whether it extends the sign (R97). -/
def localLoads (sm : Bool) (rd ra : Reg) (r : BitVec 2) (t : BitVec 7) : List (Instr × Nat × Bool) :=
  [(.ldb sm rd ra r t, 1, true), (.ldh sm rd ra r t, 2, true), (.ldw sm rd ra r t, 4, true), (.ldd sm rd ra r t, 8, true),
    (.ldbu sm rd ra r t, 1, false), (.ldhu sm rd ra r t, 2, false), (.ldwu sm rd ra r t, 4, false)]

/-- The stores of one value, each with its unit (R98). -/
def localStores (sm : Bool) (rd ra : Reg) (r : BitVec 2) (t : BitVec 7) : List (Instr × Nat) :=
  [(.stb sm rd ra r t, 1), (.sth sm rd ra r t, 2), (.stw sm rd ra r t, 4), (.std sm rd ra r t, 8)]

/-- Each load of one value runs as `issueLoad`, and names rd and ra. -/
theorem exec_of_mem_localLoads {sm : Bool} {rd ra : Reg} {r : BitVec 2} {t : BitVec 7} {i : Instr} {n : Nat} {signed : Bool}
    (h : (i, n, signed) ∈ localLoads sm rd ra r t) :
    (∀ s, Machine.exec i s = issueLoad i rd n t signed s) ∧ i.fields.length = 2 := by
  simp only [localLoads, List.mem_cons, List.not_mem_nil, or_false, Prod.mk.injEq] at h
  rcases h with ⟨rfl, rfl, rfl⟩ | ⟨rfl, rfl, rfl⟩ | ⟨rfl, rfl, rfl⟩ | ⟨rfl, rfl, rfl⟩ | ⟨rfl, rfl, rfl⟩ | ⟨rfl, rfl, rfl⟩ |
    ⟨rfl, rfl, rfl⟩ <;> exact ⟨fun _ => rfl, rfl⟩

/-- Each store of one value runs as `issueStore`, and names rd and ra. -/
theorem exec_of_mem_localStores {sm : Bool} {rd ra : Reg} {r : BitVec 2} {t : BitVec 7} {i : Instr} {n : Nat}
    (h : (i, n) ∈ localStores sm rd ra r t) : (∀ s, Machine.exec i s = issueStore i n t s) ∧ i.fields.length = 2 := by
  simp only [localStores, List.mem_cons, List.not_mem_nil, or_false, Prod.mk.injEq] at h
  rcases h with ⟨rfl, rfl⟩ | ⟨rfl, rfl⟩ | ⟨rfl, rfl⟩ | ⟨rfl, rfl⟩ <;> exact ⟨fun _ => rfl, rfl⟩

/-! ### Bytes and numbers (R3, R97, R99) -/

/-- Bytes as a local access reads them are the number of R3. -/
theorem ofBytes_localBytes (s : State) (key n : Nat) :
    ofBytes (s.localBytes key n) = ((List.range n).map fun k => (s.localByte (key + k)).toNat * 256 ^ k).sum := by
  induction n generalizing key with
  | zero => rfl
  | succ n ih =>
    rw [State.localBytes, ofBytes, ih, List.range_succ_eq_map, List.map_cons, List.sum_cons, List.map_map,
      ← List.sum_map_mul_left]
    simp only [Function.comp_def, Nat.pow_succ, Nat.add_zero, Nat.pow_zero, Nat.mul_one]
    congr 2
    refine List.map_congr_left fun k _ => ?_
    rw [show key + 1 + k = key + k.succ by omega]; ring

@[simp] theorem State.length_localBytes (s : State) (key n : Nat) : (s.localBytes key n).length = n := by
  induction n generalizing key with
  | zero => rfl
  | succ n ih => rw [State.localBytes, List.length_cons, ih]

theorem State.localBytes_add (s : State) (key m n : Nat) :
    s.localBytes key (m + n) = s.localBytes key m ++ s.localBytes (key + m) n := by
  induction m generalizing key with
  | zero => rw [Nat.zero_add, Nat.add_zero]; rfl
  | succ m ih => rw [Nat.succ_add, State.localBytes, State.localBytes, ih, List.cons_append, Nat.add_assoc, Nat.add_comm 1 m]

theorem ofBytes_append (a b : List Byte) : ofBytes (a ++ b) = ofBytes a + 256 ^ a.length * ofBytes b := by
  induction a with
  | nil => simp [ofBytes]
  | cons x a ih => rw [List.cons_append, ofBytes, ih, ofBytes, List.length_cons, Nat.pow_succ]; ring

theorem ofBytes_lt (l : List Byte) : ofBytes l < 256 ^ l.length := by
  induction l with
  | nil => exact Nat.one_pos
  | cons b l ih =>
    have hb := b.isLt
    rw [ofBytes, List.length_cons, Nat.pow_succ]
    omega

theorem State.ofBytes_localBytes_lt (s : State) (key n : Nat) : ofBytes (s.localBytes key n) < 256 ^ n := by
  simpa using ofBytes_lt (s.localBytes key n)

/-- Without its low bytes a number is the number of the bytes above them. -/
theorem ofBytes_localBytes_div (s : State) (key m n : Nat) :
    ofBytes (s.localBytes key (m + n)) / 256 ^ m = ofBytes (s.localBytes (key + m) n) := by
  rw [State.localBytes_add, ofBytes_append, State.length_localBytes, Nat.add_mul_div_left _ _ (by positivity),
    Nat.div_eq_of_lt (s.ofBytes_localBytes_lt key m), Nat.zero_add]

/-- A word holds the low eight bytes of a number. -/
theorem word_ofBytes_localBytes (s : State) (key n : Nat) :
    word (ofBytes (s.localBytes key (8 + n))) = word (ofBytes (s.localBytes key 8)) := by
  refine BitVec.eq_of_toNat_eq ?_
  rw [State.localBytes_add, ofBytes_append, State.length_localBytes, word, word, BitVec.toNat_ofNat, BitVec.toNat_ofNat]
  exact Nat.add_mul_mod_self_left ..

theorem dwordsOf_getD (v : Nat) {n j : Nat} (h : j < n) : (dwordsOf v n).getD j 0 = word (v / 2 ^ (64 * j)) := by
  induction n generalizing v j with
  | zero => omega
  | succ n ih =>
    cases j with
    | zero => simp [dwordsOf]
    | succ j =>
      rw [dwordsOf, List.getD_cons_succ, ih _ (by omega), Nat.div_div_eq_div_mul, ← Nat.pow_add, Nat.mul_succ, Nat.add_comm 64]

/-- Doubleword j of a group's 64 bytes: the eight bytes from the j-th multiple of 8 on, lowest first (R99). -/
theorem dwordsOf_localBytes_getD (s : State) (key : Nat) {j : Nat} (h : j < 8) :
    (dwordsOf (ofBytes (s.localBytes key 64)) 8).getD j 0 = BitVec.ofNat 64
      ((List.range 8).map fun b => (s.localByte (key + 8 * j + b)).toNat * 256 ^ b).sum := by
  have h64 : (2 : Nat) ^ (64 * j) = 256 ^ (8 * j) := by
    rw [show (256 : Nat) = 2 ^ 8 from rfl, ← Nat.pow_mul]; congr 1; omega
  have hsplit : (64 : Nat) = 8 * j + (8 + (56 - 8 * j)) := by omega
  rw [dwordsOf_getD _ h, h64]
  conv_lhs => rw [hsplit]
  rw [ofBytes_localBytes_div, word_ofBytes_localBytes, ofBytes_localBytes]
  rfl

/-- What a load of n bytes makes of their number: with the sign bit set and the sign extended, the number less 2^(8n) (R97). -/
theorem loadValue_eq {n v : Nat} (signed : Bool) (h : v < 256 ^ n) : loadValue n signed v =
    if signed ∧ 2 ^ (8 * n) ≤ 2 * v then BitVec.ofInt 64 ((v : Int) - 2 ^ (8 * n)) else BitVec.ofNat 64 v := by
  cases signed with
  | false => simp [loadValue, word]
  | true =>
    have h' : v < 2 ^ (8 * n) := by rwa [Nat.pow_mul]
    cases n with
    | zero =>
      obtain rfl : v = 0 := by simpa using h
      simp [loadValue, signedOf, u64]
    | succ n =>
      have hhalf : 2 ^ (8 * (n + 1)) = 2 * 2 ^ (8 * (n + 1) - 1) := by
        rw [← Nat.pow_succ']; rfl
      simp only [loadValue, signedOf, u64, Nat.mod_eq_of_lt h', if_true, true_and]
      by_cases hv : v < 2 ^ (8 * (n + 1) - 1)
      · rw [if_neg (by omega), if_pos hv, if_neg (by omega), BitVec.ofInt_natCast]
      · rw [if_neg (by omega), if_neg hv, if_pos (by omega)]
        push_cast; rfl

/-! ### What an access leaves in its bank cycle (R95) -/

/-- An entry that is read at a key is one of the map. -/
theorem SMap.mem_of_get? {α : Type} {m : SMap α} {k : Nat} {v : α} (h : SMap.get? m k = some v) : (k, v) ∈ m := by
  induction m with
  | nil => exact absurd h (by simp)
  | cons e m ih =>
    obtain ⟨j, w⟩ := e
    rw [SMap.get?] at h
    split at h
    · next hj => obtain rfl := Option.some.inj h; exact hj ▸ List.mem_cons_self
    · split at h
      · exact absurd h (by simp)
      · exact List.mem_cons_of_mem _ (ih h)

/-- Every core has its four role queues. -/
theorem State.roles_length_of_sized {s : State} (h : Sized s) (k : Nat) : (s.core k).roles.length = 4 := by
  show ((SMap.get? s.cores k).getD {}).roles.length = 4
  cases hc : SMap.get? s.cores k with
  | none => rfl
  | some c =>
    obtain ⟨hcores, -⟩ := h
    have hsz := hcores _ (SMap.mem_of_get? hc)
    simp only [Core.sized, Bool.and_eq_true, beq_iff_eq] at hsz
    simp only [Option.getD_some, hsz]

/-- A role queue changed is what is read there, and its core has as many as before. -/
theorem State.role_modRole {s : State} {core i : Nat} (f : RoleQ → RoleQ) (hi : i < (s.core core).roles.length) :
    ((s.modRole core i f).core core).role i = f ((s.core core).role i) ∧
      ((s.modRole core i f).core core).roles.length = (s.core core).roles.length := by
  rw [State.modRole, State.core_modCore, if_pos rfl]
  simp [Core.role, List.getD, hi]

/-- A result written in the bank cycle: an s register has the issue cycle as write cycle, a push takes effect `late` cycles
later in the place reserved for it (R66, R95, R247). -/
theorem State.writeBank_writesAt {s : State} (hz : Sized s) (tk : Nat) (r : Reg) (v : Word) (issued stamp late : Nat) :
    WritesAt s (s.writeBank tk r v issued stamp late) tk r v issued stamp late := by
  refine ⟨?_, ?_, ?_, ?_⟩
  · rintro k rfl; rfl
  · rintro k rfl; rfl
  · rintro d rfl; rfl
  · rintro k rfl
    have hk : k.val < (s.core (coreOf tk)).roles.length := by rw [State.roles_length_of_sized hz]; exact k.isLt
    refine ⟨rfl, rfl, ?_⟩
    obtain ⟨hfree, hlen⟩ := State.role_modRole (fun q => { q with reserved := q.reserved - 1 }) hk
    rw [State.writeBank, State.rolePush, (State.role_modRole _ (hlen ▸ hk)).1, hfree]

@[simp] theorem State.writeBank_mem (s : State) (tk : Nat) (r : Reg) (v : Word) (issued stamp late : Nat) :
    (s.writeBank tk r v issued stamp late).mem = s.mem := by
  cases r with
  | s k =>
    show (State.putSWrite s _).mem = s.mem
    unfold State.putSWrite
    dsimp only
    split <;> rfl
  | _ => rfl

/-- A register written leaves the other registers of its thread. -/
theorem State.readG_writeG_other (s : State) (tk : Nat) {i j : Nat} (v : Word) (h : SMap.sortedFrom 0 s.rf = true)
    (hij : j ≠ i) : (s.writeG tk i v).readG tk j = s.readG tk j := by
  show SMap.getD (s.writeG tk i v).rf (s.rfKey tk j) 0 = s.readG tk j
  rw [s.getD_writeG tk i v _ h, if_neg (by simp only [State.rfKey]; omega)]
  rfl

@[simp] theorem State.writeGroup_mem (s : State) (tk : Nat) (r : Reg) (vs : List Word) : (s.writeGroup tk r vs).mem = s.mem :=
  foldl_keeps State.mem (fun u k => u.writeG tk (Reg.gnum r + k) (vs.getD k 0)) (fun _ _ => rfl) _ s

/-- Registers written in rising order: the file's keys still rise, and each register reads its value. -/
theorem State.readG_foldl_writeG {s : State} (tk base : Nat) (f : Nat → Word) (h : SMap.sortedFrom 0 s.rf = true) (n : Nat) :
    let u := (List.range n).foldl (fun s k => s.writeG tk (base + k) (f k)) s
    SMap.sortedFrom 0 u.rf = true ∧ ∀ j, j < n → u.readG tk (base + j) = f j := by
  induction n with
  | zero => exact ⟨h, fun j hj => absurd hj (Nat.not_lt_zero j)⟩
  | succ n ih =>
    obtain ⟨hs, hread⟩ := ih
    simp only [List.range_succ, List.foldl_append, List.foldl_cons, List.foldl_nil]
    refine ⟨State.sorted_writeG _ tk _ _ hs, fun j hj => ?_⟩
    by_cases hjn : j = n
    · subst hjn; exact State.readG_writeG _ tk _ _ hs
    · rw [State.readG_writeG_other _ tk _ hs (by omega)]; exact hread j (by omega)

/-- Each register of a group that is written holds its doubleword. -/
theorem State.readG_writeGroup {s : State} (tk : Nat) (r : Reg) (vs : List Word) {j : Nat}
    (h : SMap.sortedFrom 0 s.rf = true) (hj : j < 8) : (s.writeGroup tk r vs).readG tk (Reg.gnum r + j) = vs.getD j 0 :=
  (State.readG_foldl_writeG tk (Reg.gnum r) (fun k => vs.getD k 0) h 8).2 j hj

/-- After a group load, register j of the group reads doubleword j of the bytes (R99). -/
theorem State.readG_loadGroup {s : State} (tk : Nat) (k : Fin 96) (key : Nat) {j : Nat} (h : SMap.sortedFrom 0 s.rf = true)
    (hj : j < 8) : (s.writeGroup tk (.g k) (dwordsOf (ofBytes (s.localBytes key 64)) 8)).readG tk (k.val + j) =
      BitVec.ofNat 64 ((List.range 8).map fun b => (s.localByte (key + 8 * j + b)).toNat * 256 ^ b).sum := by
  rw [← dwordsOf_localBytes_getD s key hj]
  exact State.readG_writeGroup tk (.g k) _ h hj

@[simp] theorem State.wakeWords_oldBytes (s : State) (key n : Nat) : (s.wakeWords key n).oldBytes = s.oldBytes :=
  foldl_keeps State.oldBytes _ (fun s r => by dsimp only; split <;> rfl) _ s

/-- What a local access reads depends on memory and on the bytes of before the cycle's stores alone. -/
theorem State.localByte_congr {s t : State} (hm : t.mem = s.mem) (ho : t.oldBytes = s.oldBytes) (a : Nat) :
    t.localByte a = s.localByte a := by
  simp only [State.localByte, State.byte, hm, ho]

/-- The value of a byte before the cycle's stores is recorded, unless one is. -/
def State.keepOld (s : State) (key : Nat) : State :=
  match SMap.get? s.oldBytes key with
  | some _ => s
  | none => { s with oldBytes := SMap.put s.oldBytes key (s.byte key) }

/-- A local store records each byte's old value and then writes the byte. -/
theorem State.localStore_cons (s : State) (key : Nat) (b : Byte) (bs : List Byte) :
    s.localStore key (b :: bs) = ((s.keepOld key).setByte key b).localStore (key + 1) bs := rfl

@[simp] theorem State.keepOld_mem (s : State) (key : Nat) : (s.keepOld key).mem = s.mem := by
  unfold State.keepOld; split <;> rfl

/-- A byte's old value is recorded as what a local access reads there. -/
theorem State.get?_keepOld_same (s : State) (key : Nat) : SMap.get? (s.keepOld key).oldBytes key = some (s.localByte key) := by
  unfold State.keepOld State.localByte
  cases ho : SMap.get? s.oldBytes key with
  | some old => exact ho
  | none => exact SMap.get?_put_same ..

/-- The record of every other byte is as before. -/
theorem State.get?_keepOld_other (s : State) {key a : Nat} (ha : a ≠ key) :
    SMap.get? (s.keepOld key).oldBytes a = SMap.get? s.oldBytes a := by
  unfold State.keepOld
  split
  · rfl
  · exact SMap.get?_put_other _ _ _ _ ha

/-- Once its old value is recorded, a byte may be written: local accesses read what they read before. -/
theorem State.localByte_keepOld_setByte (s : State) (key : Nat) (b : Byte) (a : Nat) (h : Memory.wf s.mem = true) :
    ((s.keepOld key).setByte key b).localByte a = s.localByte a := by
  by_cases ha : a = key
  · subst ha
    rw [State.localByte, State.setByte_oldBytes, State.get?_keepOld_same]
  · have hbyte : ((s.keepOld key).setByte key b).byte a = s.byte a := by
      rw [State.byte_setByte _ _ _ _ (by rwa [State.keepOld_mem]), if_neg ha]
      simp only [State.byte, State.keepOld_mem]
    rw [State.localByte, State.setByte_oldBytes, State.get?_keepOld_other s ha, hbyte, State.localByte]

/-- A store keeps what the cycle's other accesses read, byte by byte (R95). -/
theorem State.localByte_localStore (s : State) (key : Nat) (bs : List Byte) (a : Nat) (h : Memory.wf s.mem = true) :
    (s.localStore key bs).localByte a = s.localByte a := by
  induction bs generalizing s key with
  | nil => rfl
  | cons b bs ih =>
    rw [State.localStore_cons, ih _ _ (State.wf_setByte _ _ _ (by rwa [State.keepOld_mem])),
      State.localByte_keepOld_setByte s key b a h]

theorem State.localByte_scratchStore (s : State) (key : Nat) (bs : List Byte) (a : Nat) (h : Memory.wf s.mem = true) :
    (s.scratchStore key bs).localByte a = s.localByte a := by
  rw [State.scratchStore, State.localByte_congr (State.wakeWords_mem ..) (State.wakeWords_oldBytes ..),
    s.localByte_localStore key bs a h]

/-- A store writes its bytes, and every byte outside them reads as before (R98). -/
theorem State.byte_scratchStore (s : State) (key : Nat) (bs : List Byte) (a : Nat) (h : Memory.wf s.mem = true) :
    (s.scratchStore key bs).byte a = if key ≤ a ∧ a < key + bs.length then bs.getD (a - key) 0 else s.byte a := by
  rw [← s.byte_setBytes key a bs h]
  show SMap.getD (s.scratchStore key bs).mem a unlisted = SMap.getD (s.setBytes key bs).mem a unlisted
  rw [State.scratchStore, State.wakeWords_mem, State.mem_localStore]

/-! ### The step of an access in its bank cycle -/

/-- An access that is next takes effect in its bank. -/
theorem step_bank {s : State} {op : LocalOp} {rest : List Move} (hc : s.cur = none) (ha : s.pkg.answers = true)
    (ht : s.todo = .bank op :: rest) : Machine.step s = .next (State.bankStep { s with todo := rest } op) := by
  simp only [Machine.step, State.oneStep, hc, State.hardwareStep, ha, ht, Bool.not_true, Bool.false_eq_true, if_false]
  rfl

/-- The thread that issued an access is still in its slot. -/
theorem State.opLive_of_born {s : State} {op : LocalOp} {th : Thread} (h : s.thread? op.tk = some th) (hb : th.born = op.born) :
    s.opLive op = true := by
  simp only [State.opLive, h, hb, beq_self_eq_true]

section BankStep

variable {s : State} {tk born issued stamp : Nat} {th : Thread} {rest : List Move} (hc : s.cur = none)
  (ha : s.pkg.answers = true) (hth : s.thread? tk = some th) (hb : th.born = born)
include hc ha hth hb

/-- A load whose thread is still there writes what its bytes make. -/
theorem step_load {key n : Nat} {signed : Bool} {rd : Reg}
    (ht : s.todo = .bank { tk := tk, born := born, issued := issued, stamp := stamp, kind := .load key n signed rd } :: rest) :
    Machine.step s = .next (State.writeBank { s with todo := rest } tk rd
      (loadValue n signed (ofBytes (State.localBytes { s with todo := rest } key n))) issued stamp 2) := by
  refine (step_bank hc ha ht).trans (congrArg _ (if_pos ?_))
  exact State.opLive_of_born hth hb

/-- A group load whose thread is still there writes the doublewords of its bytes. -/
theorem step_loadGroup {key : Nat} {rd : Reg}
    (ht : s.todo = .bank { tk := tk, born := born, issued := issued, stamp := stamp, kind := .loadGroup key rd } :: rest) :
    Machine.step s = .next (State.writeGroup { s with todo := rest } tk rd
      (dwordsOf (ofBytes (State.localBytes { s with todo := rest } key 64)) 8)) := by
  refine (step_bank hc ha ht).trans (congrArg _ (if_pos ?_))
  exact State.opLive_of_born hth hb

end BankStep

end Sys2Proof.Machine

namespace Sys2Proof

open Sys2Proof.Machine

/-- Settles O23: at issue an access passes both checks of R100 and is set for its bank; in its bank cycle a load reads the bytes
that stood before the cycle's stores, and a store keeps those readable. -/
theorem localAccesses : Obligations.LocalAccesses := by
  unfold Obligations.LocalAccesses
  refine ⟨fun sm rd ra r t s tk th => ⟨?_, ?_, ?_, ?_⟩,
    fun s tk born issued stamp th key n rest ⟨hmem, hrf, _⟩ hsz hcur hans => ⟨?_, ?_, ?_⟩⟩
  · intro i n signed hi hr ⟨hrange, halign⟩
    obtain ⟨hexec, hfields⟩ := exec_of_mem_localLoads hi
    rw [hexec]
    exact issueLoad_fits hr hfields rfl hrange halign signed
  · intro i n hi hr ⟨hrange, halign⟩
    obtain ⟨hexec, hfields⟩ := exec_of_mem_localStores hi
    rw [hexec]
    exact issueStore_fits hr hfields rfl hrange halign
  · rintro i rfl hr ⟨hrange, halign⟩
    exact execLdv_fits hr rfl hrange halign
  · rintro i rfl hr ⟨hrange, halign⟩
    exact execStv_fits hr rfl hrange halign
  · intro rd signed hth hb htodo v x
    have hx : loadValue n signed (ofBytes (State.localBytes { s with todo := rest } key n)) = x := by
      rw [loadValue_eq signed (State.ofBytes_localBytes_lt ..), ofBytes_localBytes]; rfl
    refine ⟨_, step_load hcur hans hth hb htodo, State.writeBank_mem .., ?_, ?_⟩
    · rintro k rfl
      exact (State.readG_writeG { s with todo := rest } tk k.val _ hrf).trans hx
    · rw [hx]
      exact State.writeBank_writesAt (s := { s with todo := rest }) hsz tk rd x issued stamp 2
  · intro k hth hb _ _ htodo
    refine ⟨_, step_loadGroup hcur hans hth hb htodo, State.writeGroup_mem .., fun j hj => ?_⟩
    exact State.readG_loadGroup (s := { s with todo := rest }) tk k key hrf hj
  · intro bs htodo
    have hbyte := fun a => State.byte_scratchStore { s with todo := rest } key bs a hmem
    refine ⟨_, step_bank hcur hans htodo, fun j b hj => ?_, fun a ha => ?_, fun a => ?_⟩
    · obtain ⟨hlt, -⟩ := List.getElem?_eq_some_iff.mp hj
      refine (hbyte (key + j)).trans ?_
      rw [if_pos (by omega), Nat.add_sub_cancel_left, List.getD, hj, Option.getD_some]
    · exact (hbyte a).trans (if_neg (by omega))
    · exact State.localByte_scratchStore { s with todo := rest } key bs a hmem

end Sys2Proof
end

section
/-! Encoding and decoding (R19 to R41): the decoder and the encoder agree in both directions. -/

namespace Sys2Proof

open Laws

/-- A row with no word has the all-zero word, which is no instruction. -/
theorem isWord_or_encode_eq_zero (i : Instr) : i.isWord = true ∨ encode i = 0#32 := by
  cases i <;> simp [Instr.isWord, encode]

/-- No check of a word's fields passes when a bit that the instruction does not use is 1. -/
theorem Instr.fieldReason_false_ne_none (i : Instr) : i.fieldReason false ≠ none := by
  unfold Instr.fieldReason
  split <;> simp

/-- The round trip, instruction by instruction. -/
theorem roundTrip_statement (i : Instr) (h : i.wellFormed = true) : Laws.RoundTrip.Statement i := by
  have hw : i.isWord = true := by
    rw [Instr.wellFormed, Bool.and_eq_true] at h; exact h.1
  cases i with
  | add => exact RoundTrip.add _ _ _ _ | sub => exact RoundTrip.sub _ _ _ _ | and => exact RoundTrip.and _ _ _ _
  | or => exact RoundTrip.or _ _ _ _ | xor => exact RoundTrip.xor _ _ _ _ | andn => exact RoundTrip.andn _ _ _ _
  | min => exact RoundTrip.min _ _ _ _ | max => exact RoundTrip.max _ _ _ _ | minu => exact RoundTrip.minu _ _ _ _
  | maxu => exact RoundTrip.maxu _ _ _ _ | mul => exact RoundTrip.mul _ _ _ _ | mulh => exact RoundTrip.mulh _ _ _ _
  | mulhu => exact RoundTrip.mulhu _ _ _ _ | div => exact RoundTrip.div _ _ _ _ | divu => exact RoundTrip.divu _ _ _ _
  | rem => exact RoundTrip.rem _ _ _ _ | remu => exact RoundTrip.remu _ _ _ _ | sll => exact RoundTrip.sll _ _ _ _
  | srl => exact RoundTrip.srl _ _ _ _ | sra => exact RoundTrip.sra _ _ _ _ | rol => exact RoundTrip.rol _ _ _ _
  | ror => exact RoundTrip.ror _ _ _ _ | clz => exact RoundTrip.clz _ _ _ | ctz => exact RoundTrip.ctz _ _ _
  | popc => exact RoundTrip.popc _ _ _ | bset => exact RoundTrip.bset _ _ _ _ | bclr => exact RoundTrip.bclr _ _ _ _
  | btgl => exact RoundTrip.btgl _ _ _ _ | bfx => exact RoundTrip.bfx _ _ _ _ | bfxu => exact RoundTrip.bfxu _ _ _ _
  | bfi => exact RoundTrip.bfi _ _ _ _ | cmpeq => exact RoundTrip.cmpeq _ _ _ _ | cmpne => exact RoundTrip.cmpne _ _ _ _
  | cmplt => exact RoundTrip.cmplt _ _ _ _ | cmpltu => exact RoundTrip.cmpltu _ _ _ _ | cmple => exact RoundTrip.cmple _ _ _ _
  | cmpleu => exact RoundTrip.cmpleu _ _ _ _ | addi => exact RoundTrip.addi _ _ _ _ | andi => exact RoundTrip.andi _ _ _ _
  | ori => exact RoundTrip.ori _ _ _ _ | xori => exact RoundTrip.xori _ _ _ _ | slli => exact RoundTrip.slli _ _ _ _
  | srli => exact RoundTrip.srli _ _ _ _ | srai => exact RoundTrip.srai _ _ _ _ | roli => exact RoundTrip.roli _ _ _ _
  | rori => exact RoundTrip.rori _ _ _ _ | bseti => exact RoundTrip.bseti _ _ _ _ | bclri => exact RoundTrip.bclri _ _ _ _
  | btgli => exact RoundTrip.btgli _ _ _ _ | cmpeqi => exact RoundTrip.cmpeqi _ _ _ _
  | cmpnei => exact RoundTrip.cmpnei _ _ _ _ | cmplti => exact RoundTrip.cmplti _ _ _ _
  | cmpltui => exact RoundTrip.cmpltui _ _ _ _ | cmplei => exact RoundTrip.cmplei _ _ _ _
  | cmpleui => exact RoundTrip.cmpleui _ _ _ _ | li => exact RoundTrip.li _ _ _ | lis => exact RoundTrip.lis _ _ _
  | mov => exact RoundTrip.mov _ _ _ | sel => exact RoundTrip.sel _ _ _ _ | gadr => exact RoundTrip.gadr _ _ _ _
  | j => exact RoundTrip.j _ _ | jl => exact RoundTrip.jl _ _ | jr => exact RoundTrip.jr _ _ | jlr => exact RoundTrip.jlr _ _ _
  | bbs => exact RoundTrip.bbs _ _ _ _ | bbc => exact RoundTrip.bbc _ _ _ _ | bz => exact RoundTrip.bz _ _ _
  | bnz => exact RoundTrip.bnz _ _ _ | bloop => exact RoundTrip.bloop _ _ _ | pre => exact RoundTrip.pre _ _ _ _ _ _ _ _
  | nop => exact RoundTrip.nop _ | yield => exact RoundTrip.yield _ | ldb => exact RoundTrip.ldb _ _ _ _ _
  | ldh => exact RoundTrip.ldh _ _ _ _ _ | ldw => exact RoundTrip.ldw _ _ _ _ _ | ldd => exact RoundTrip.ldd _ _ _ _ _
  | ldbu => exact RoundTrip.ldbu _ _ _ _ _ | ldhu => exact RoundTrip.ldhu _ _ _ _ _ | ldwu => exact RoundTrip.ldwu _ _ _ _ _
  | stb => exact RoundTrip.stb _ _ _ _ _ | sth => exact RoundTrip.sth _ _ _ _ _ | stw => exact RoundTrip.stw _ _ _ _ _
  | std => exact RoundTrip.std _ _ _ _ _ | ldv => exact RoundTrip.ldv _ _ _ _ _ | stv => exact RoundTrip.stv _ _ _ _ _
  | gld => exact RoundTrip.gld _ _ _ _ _ _ _ _ | gst => exact RoundTrip.gst _ _ _ _ _ _ _
  | gldv => exact RoundTrip.gldv _ _ _ _ _ _ _ | gstv => exact RoundTrip.gstv _ _ _ _ _ _
  | sbind => exact RoundTrip.sbind _ _ _ | scnt => exact RoundTrip.scnt _ _ _ | ginv => exact RoundTrip.ginv _ _
  | gprf => exact RoundTrip.gprf _ _ _ | lclean => exact RoundTrip.lclean _ _ | lflush => exact RoundTrip.lflush _ _
  | amoadd => exact RoundTrip.amoadd _ _ _ _ | amoand => exact RoundTrip.amoand _ _ _ _
  | amoor => exact RoundTrip.amoor _ _ _ _ | amoxor => exact RoundTrip.amoxor _ _ _ _
  | amomin => exact RoundTrip.amomin _ _ _ _ | amomax => exact RoundTrip.amomax _ _ _ _
  | amominu => exact RoundTrip.amominu _ _ _ _ | amomaxu => exact RoundTrip.amomaxu _ _ _ _
  | amoswp => exact RoundTrip.amoswp _ _ _ _ | acas => exact RoundTrip.acas _ _ _ _ | redadd => exact RoundTrip.redadd _ _ _
  | redand => exact RoundTrip.redand _ _ _ | redor => exact RoundTrip.redor _ _ _ | redxor => exact RoundTrip.redxor _ _ _
  | redmin => exact RoundTrip.redmin _ _ _ | redmax => exact RoundTrip.redmax _ _ _ | redminu => exact RoundTrip.redminu _ _ _
  | redmaxu => exact RoundTrip.redmaxu _ _ _ | ldfe => exact RoundTrip.ldfe _ _ _ _ | ldff => exact RoundTrip.ldff _ _ _ _
  | stfe => exact RoundTrip.stfe _ _ _ _ | stff => exact RoundTrip.stff _ _ _ _ | feq => exact RoundTrip.feq _ _ _
  | feset => exact RoundTrip.feset _ _ _ | bari => exact RoundTrip.bari _ _ _ | bara => exact RoundTrip.bara _ _ _
  | barw => exact RoundTrip.barw _ _ _ _ | waitw => exact RoundTrip.waitw _ _ _ _ _ | fence => exact RoundTrip.fence _ _ _
  | fadd => exact RoundTrip.fadd _ _ _ _ | fsub => exact RoundTrip.fsub _ _ _ _ | fmul => exact RoundTrip.fmul _ _ _ _
  | fmin => exact RoundTrip.fmin _ _ _ _ | fmax => exact RoundTrip.fmax _ _ _ _ | fabs => exact RoundTrip.fabs _ _ _
  | fneg => exact RoundTrip.fneg _ _ _ | fcmpeq => exact RoundTrip.fcmpeq _ _ _ _ | fcmplt => exact RoundTrip.fcmplt _ _ _ _
  | fcmple => exact RoundTrip.fcmple _ _ _ _ | fcls => exact RoundTrip.fcls _ _ _ | ffma => exact RoundTrip.ffma _ _ _ _
  | fcvt => exact RoundTrip.fcvt _ _ _ | vadd => exact RoundTrip.vadd _ _ _ _ | vsub => exact RoundTrip.vsub _ _ _ _
  | vmul => exact RoundTrip.vmul _ _ _ _ | vfma => exact RoundTrip.vfma _ _ _ _ | vmin => exact RoundTrip.vmin _ _ _ _
  | vmax => exact RoundTrip.vmax _ _ _ _ | vabs => exact RoundTrip.vabs _ _ _ | vneg => exact RoundTrip.vneg _ _ _
  | vrcp => exact RoundTrip.vrcp _ _ _ | vrsq => exact RoundTrip.vrsq _ _ _ | vexp2 => exact RoundTrip.vexp2 _ _ _
  | vand => exact RoundTrip.vand _ _ _ _ | vor => exact RoundTrip.vor _ _ _ _ | vxor => exact RoundTrip.vxor _ _ _ _
  | vshl => exact RoundTrip.vshl _ _ _ _ | vshr => exact RoundTrip.vshr _ _ _ _ | vsar => exact RoundTrip.vsar _ _ _ _
  | vcmpeq => exact RoundTrip.vcmpeq _ _ _ _ | vcmplt => exact RoundTrip.vcmplt _ _ _ _
  | vcmple => exact RoundTrip.vcmple _ _ _ _ | vsel => exact RoundTrip.vsel _ _ _ _ | vcvt => exact RoundTrip.vcvt _ _ _
  | vred => exact RoundTrip.vred _ _ _ _ | vdot => exact RoundTrip.vdot _ _ _ _ | vqnt => exact RoundTrip.vqnt _ _ _ _
  | vshuf => exact RoundTrip.vshuf _ _ _ _ | vbcast => exact RoundTrip.vbcast _ _ _ | vext => exact RoundTrip.vext _ _ _ _
  | vins => exact RoundTrip.vins _ _ _ _ | vmov => exact RoundTrip.vmov _ _ _ | mpush => exact RoundTrip.mpush _ _ _ _
  | mpop => exact RoundTrip.mpop _ _ _ | mfence => exact RoundTrip.mfence _ _ | mring => exact RoundTrip.mring _ _ _
  | mradv => exact RoundTrip.mradv _ _ _ | mrstat => exact RoundTrip.mrstat _ _ _ | put => exact RoundTrip.put _ _ _ _
  | take => exact RoundTrip.take _ _ _ _ | pbind => exact RoundTrip.pbind _ _ _ | pfree => exact RoundTrip.pfree _ _
  | hload => exact RoundTrip.hload _ _ _ _ | hstop => exact RoundTrip.hstop _ _ _ | hstat => exact RoundTrip.hstat _ _ _
  | qcfg => exact RoundTrip.qcfg _ _ _ _ | qstat => exact RoundTrip.qstat _ _ _ | taga => exact RoundTrip.taga _ _ _ _
  | tagf => exact RoundTrip.tagf _ _ _ | send => exact RoundTrip.send _ _ _ | sendi => exact RoundTrip.sendi _ _ _ _
  | waitm => exact RoundTrip.waitm _ _ _ _ | recv => exact RoundTrip.recv _ _ _ _ | mpcfg => exact RoundTrip.mpcfg _ _ _
  | jpset => exact RoundTrip.jpset _ _ _ | jpclr => exact RoundTrip.jpclr _ _ | jpstat => exact RoundTrip.jpstat _ _ _
  | spawn => exact RoundTrip.spawn _ _ _ _ | quit => exact RoundTrip.quit _ | exit => exact RoundTrip.exit _ _
  | migrate => exact RoundTrip.migrate _ _ | launch => exact RoundTrip.launch _ _ _ | garr => exact RoundTrip.garr _ _ _
  | gwait => exact RoundTrip.gwait _ _ _ _ | slots => exact RoundTrip.slots _ _ _ | cpy => exact RoundTrip.cpy _ _ _
  | cpys => exact RoundTrip.cpys _ _ _ _ | cpyx => exact RoundTrip.cpyx _ _ _ _ | bmv => exact RoundTrip.bmv _ _ _ _
  | bfence => exact RoundTrip.bfence _ _ | bstat => exact RoundTrip.bstat _ _ _ | csrr => exact RoundTrip.csrr _ _ _
  | csrw => exact RoundTrip.csrw _ _ _ _ | csrs => exact RoundTrip.csrs _ _ _ _ | csrc => exact RoundTrip.csrc _ _ _ _
  | trap => exact RoundTrip.trap _ _ | eret => exact RoundTrip.eret _ _ | brk => exact RoundTrip.brk _
  | wfe => exact RoundTrip.wfe _ _ _ _ | tlbi => exact RoundTrip.tlbi _ _ _ | ctxsv => exact RoundTrip.ctxsv _ _ _ _
  | ctxld => exact RoundTrip.ctxld _ _ _ _
  | _ => cases hw

/-- A word that decodes passes the check that every bit it does not use is 0, and the checks of its fields. -/
theorem decode_ok {w : BitVec 32} {i : Instr} (h : decode w = .ok i) : encode i = w ∧ i.fieldReason true = none := by
  unfold decode at h
  split at h
  · cases h
  · rename_i j hj
    unfold checkFields at h
    split at h
    · cases h
    · rename_i hr
      cases h
      cases he : encode i == w with
      | false => rw [he] at hr; exact absurd hr (Instr.fieldReason_false_ne_none i)
      | true => rw [he] at hr; exact ⟨eq_of_beq he, hr⟩

/-- The all-zero word is no instruction: its major opcode is reserved. -/
theorem decode_zero : decode 0#32 = .error 1 := rfl

/-- What a word decodes to is an instruction that has words. -/
theorem isWord_of_decode {w : BitVec 32} {i : Instr} (h : decode w = .ok i) : i.isWord = true := by
  refine (isWord_or_encode_eq_zero i).resolve_right fun hz => ?_
  rw [← (decode_ok h).1, hz, decode_zero] at h
  cases h

/-- The major opcodes that Table FM-7 reserves. -/
def reservedOps : List Nat := [0x00, 0x0E, 0x0F, 0x1D, 0x1E, 0x1F, 0x29, 0x2A, 0x2B, 0x31, 0x33, 0x39, 0x3D, 0x3E, 0x3F]

/-- A word with a reserved major opcode is no instruction, with reason 1 (R31, R41). -/
theorem decode_of_reserved {w : BitVec 32} (h : wordOp w ∈ reservedOps) : decode w = .error 1 := by
  have hraw : decodeRaw w = .error 1 := by
    unfold decodeRaw
    generalize wordOp w = op at h
    simp only [reservedOps, List.mem_cons, List.not_mem_nil, or_false] at h
    rcases h with rfl | rfl | rfl | rfl | rfl | rfl | rfl | rfl | rfl | rfl | rfl | rfl | rfl | rfl | rfl <;> rfl
  rw [decode, hraw]

/-- Settles O1: the round trip of every instruction with a word, by cases on the instruction. -/
theorem roundTrip : Obligations.RoundTrip := fun i h => roundTrip_statement i h h

/-- Settles O2: the decoder's check of reason 4 compares the word with the encoder's, and no row without a word is decoded. -/
theorem decodedWordsEncode : Obligations.DecodedWordsEncode := by
  intro w i h
  obtain ⟨hw, hr⟩ := decode_ok h
  exact ⟨by rw [Instr.wellFormed, isWord_of_decode h, hr]; rfl, hw⟩

/-- Settles O3: the sample words are decoded by evaluation, the reserved opcodes by cases on the opcode. -/
theorem sampleWordsAndReservedOpcodes : Obligations.SampleWordsAndReservedOpcodes := by
  unfold Obligations.SampleWordsAndReservedOpcodes
  exact ⟨by decide, fun _ h => decode_of_reserved h⟩

end Sys2Proof
end

section
/-! The step of the machine: what it runs when a thread is about to issue, and what when none is. -/

namespace Sys2Proof.Machine

/-- With the bytes at its pc in the instruction cache, a thread that is about to issue has the meaning of its word. -/
theorem step_of_cached {s : State} {tk : Nat} {th : Thread} {bs : List Byte} {w : BitVec 32} (h : Issuing s tk th)
    (hb : s.cached tk = some bs) (hw : wordOfBytes bs = some w) : step s = exec (wordInstr (isChannel (coreOf tk)) w) s := by
  obtain ⟨hc, ht⟩ := h
  simp only [step, State.oneStep, hc, State.issueStep, ht, hb, Option.bind_some, hw]

/-- With no line for its pc, a thread that is about to issue parks for it (R81). -/
theorem step_of_not_cached {s : State} {tk : Nat} {th : Thread} (h : Issuing s tk th) (hb : s.cached tk = none) :
    step s = .next (s.fetchMiss tk) := by
  obtain ⟨hc, ht⟩ := h
  simp only [step, State.oneStep, hc, State.issueStep, ht, hb, Option.bind_none]

/-- With no thread about to issue, the row that is next runs on its subject. -/
theorem step_ev {s : State} {i : Instr} {subj : Subj} {rest : List Move} (hc : s.cur = none) (ha : s.pkg.answers = true)
    (ht : s.todo = .ev i subj :: rest) : step s = exec i { s with todo := rest, subj := subj } := by
  simp only [step, State.oneStep, hc, State.hardwareStep, ha, ht, State.runMove, Bool.not_true, Bool.false_eq_true, if_false]

end Sys2Proof.Machine

namespace Sys2Proof

open Sys2Proof.Machine

/-- Settles O4: a step reads the instruction cache at the pc, or takes the first row of the list of what is next. -/
theorem stepRunsTheDecodedInstruction : Obligations.StepRunsTheDecodedInstruction := by
  refine ⟨fun s tk th h => ⟨fun bs w i hb hw hi => ?_, fun bs w r hb hw hr => ?_, step_of_not_cached h⟩,
    fun s i subj rest hc ha ht => step_ev hc ha ht⟩
  · rw [step_of_cached h hb hw, wordInstr, hi]
  · rw [step_of_cached h hb hw, wordInstr, hr]

end Sys2Proof
end

section
/-! The checks of an issuing word (R24, R29, R30), what each of them answers when those before it pass, and PRE. -/

namespace Sys2Proof.Machine

/-! ### Reports and the pending prefix -/

/-- Word 1 of a report is the prefix, above the word (R42). -/
theorem wordReport_eq (p w : BitVec 32) : wordReport p w = p ++ w := by
  rw [BitVec.append_def, wordReport, BitVec.shiftLeftZeroExtend_eq]
  rfl

/-- The status word below the prefix, with the pending bit cleared and set again. -/
theorem clearPrefix_or_pending (v : Word) : clearPrefix v ||| 8 = (v.extractLsb' 0 32 ||| 8).zeroExtend 64 := by
  have hmask : ∀ i : Fin 64, ((0x00000000FFFFFFF7 : Word)[i.val] || (8 : Word)[i.val]) = decide (i.val < 32) := by decide
  have hbit : ∀ i : Fin 64, (8 : Word)[i.val] = (8 : BitVec 32).getLsbD i.val := by decide
  ext i hi
  have hm := hmask ⟨i, hi⟩
  simp only [clearPrefix, BitVec.getElem_or, BitVec.getElem_and, BitVec.getElem_setWidth, BitVec.getLsbD_or,
    BitVec.getLsbD_extractLsb', ← hbit ⟨i, hi⟩, Nat.zero_add, BitVec.getLsbD_eq_getElem hi] at hm ⊢
  cases h : (8 : Word)[i] with
  | true => simp
  | false => rw [h, Bool.or_false] at hm; rw [hm]; simp [Bool.and_comm]

/-- A PRE word set pending is the upper half of the status word (Table FM-4). -/
theorem pendPrefix_eq (v : Word) (p : BitVec 32) : pendPrefix v p = p ++ (v.extractLsb' 0 32 ||| 8) := by
  rw [← wordReport_eq, wordReport, BitVec.or_comm, ← clearPrefix_or_pending]
  rfl

theorem prefixOf_of_pending {th : Thread} {p : BitVec 32} (h : pending th.status = some p) : prefixOf th = p := by
  rw [prefixOf, h, Option.getD_some]

theorem prefixOf_of_not_pending {th : Thread} (h : pending th.status = none) : prefixOf th = 0 := by
  rw [prefixOf, h, Option.getD_none]

/-! ### Verdicts -/

/-- A thread that is about to issue carries out the verdict on its word. -/
theorem issue_verdict {i : Instr} {s : State} {tk : Nat} {th : Thread} {chk : Issue → State → Check}
    {eff : Issue → State → State} {v : Verdict} (h : Issuing s tk th) (hv : verdict i chk th (s.issueOf tk th i) s = v) :
    issue i chk eff s = .next (carryOut i eff (s.issueOf tk th i) s v) := by
  simp only [issue, h.1, h.2, hv]

section Verdict

variable {i : Instr} {s : State} {tk : Nat} {th : Thread} (chk : Issue → State → Check)

/-- A prefix with a field that the instruction refuses is the first check (R29). -/
theorem verdict_badPrefix (hp : prefixOk i th = false) : verdict i chk th (s.issueOf tk th i) s = .badPrefix := by
  unfold prefixOk prefixOf at hp
  simp only [verdict, State.issueOf, hp, Bool.not_false, if_true]

/-- The window is the second check (R23). -/
theorem verdict_window (hp : prefixOk i th = true) (hw : inWindow i th.w = false) :
    verdict i chk th (s.issueOf tk th i) s = .trap 2 0 (prefixOf th ++ encode i) := by
  rw [← wordReport_eq]
  unfold prefixOk prefixOf at hp
  simp only [verdict, State.issueOf, hp, hw, Bool.not_true, Bool.not_false, Bool.false_eq_true, if_false, if_true]
  rfl

/-- The guard is the third (R29). -/
theorem verdict_off (hp : prefixOk i th = true) (hw : inWindow i th.w = true) (hg : s.guardOk tk (prefixOf th) = false) :
    verdict i chk th (s.issueOf tk th i) s = .off := by
  unfold prefixOk prefixOf at hp
  unfold prefixOf at hg
  simp only [verdict, State.issueOf, hp, hw, hg, Bool.not_true, Bool.not_false, Bool.false_eq_true, if_false, if_true]

/-- A word that passes the checks of the prefix, the window, the guard, the queue names and the tokens, and lacks an element or
room, parks (R24). -/
theorem verdict_park (hp : prefixOk i th = true) (hw : inWindow i th.w = true) (hg : s.guardOk tk (prefixOf th) = true)
    (hn : s.queueFault tk i = none) (hs : s.headToken tk i 2 = none) (he : s.compat tk = true → s.headToken tk i 1 = none)
    (hr : (s.popsReady tk i && s.roomReady tk i) = false) : verdict i chk th (s.issueOf tk th i) s = .park := by
  unfold prefixOk prefixOf at hp
  unfold prefixOf at hg
  cases hq : s.compat tk with
  | false =>
    simp only [verdict, State.issueOf, hp, hw, hg, hn, hs, hq, hr, Bool.not_true, Bool.not_false, Bool.false_eq_true, if_false,
      if_true]
  | true =>
    simp only [verdict, State.issueOf, hp, hw, hg, hn, hs, hq, he hq, hr, Bool.not_true, Bool.not_false, Bool.false_eq_true,
      if_false, if_true]

end Verdict

/-- Parking changes nothing outside threads and the lists of the scheduler. -/
theorem State.untouched_parkOperand (s : State) (tk : Nat) (i : Instr) : Untouched s (s.parkOperand tk i) where
  mem := State.modThread_mem ..
  fe := State.modThread_fe ..
  oldBytes := State.modThread_oldBytes ..
  sregs := State.modThread_sregs ..
  teams := State.modThread_teams ..
  engines := State.modThread_engines ..
  slices := State.modThread_slices ..
  reqs := State.modThread_reqs ..
  waiters := State.modThread_waiters ..
  packets := State.modThread_packets ..
  disp := State.modThread_disp ..
  pkg := State.modThread_pkg ..
  cycle := State.modThread_cycle ..

/-! ### PRE (R27, R29, R85, R87) -/

/-- A word that names no queue and has no prefix pending is ready when it is in the window. -/
theorem ready_of_no_queues {i : Instr} {s : State} {tk : Nat} {th : Thread} (h : Issuing s tk th)
    (hpop : popList i = []) (hpush : pushList i = []) (hp : prefixOk i th = true) (hw : inWindow i th.w = true)
    (hg : s.guardOk tk (prefixOf th) = true) : Ready i s tk th where
  issuing := h
  pre := hp
  window := hw
  guard := hg
  names := by simp [State.queueFault, hpop, hpush]
  noStop := by simp [State.headToken, hpop]
  noEnd _ := by simp [State.headToken, hpop]
  pops := by simp [State.popsReady, hpop]
  room := by simp [State.roomReady, hpush]
  noMarker := by simp [State.popMarker, hpop]

/-- With no prefix pending no word is guarded. -/
theorem State.guardOk_zero (s : State) (tk : Nat) : s.guardOk tk 0 = true := by
  simp [State.guardOk, preG]

section Pre

variable {sm : Bool} {g : Reg} {b : BitVec 6} {e n : BitVec 1} {f x : BitVec 4} {o : BitVec 2} {s : State} {tk : Nat} {th : Thread}
  (h : Issuing s tk th)
include h

/-- With no prefix pending PRE issues as other words do. -/
theorem exec_pre_of_not_pending (hp : pending th.status = none) : exec (.pre sm g b e n f x o) s =
    issue (.pre sm g b e n f x o) noCheck (fun y s =>
      s.modThread y.tk fun th => { th with status := pendPrefix th.status (encode (.pre sm g b e n f x o)) }) s := by
  simp only [exec, execPre, h.1, h.2, Option.bind_some, hp]

/-- A PRE under a pending PRE raises reason 7. -/
theorem exec_pre_of_pending {p : BitVec 32} (hp : pending th.status = some p) : exec (.pre sm g b e n f x o) s =
    .next ((s.trap tk 1 7 (p ++ encode (.pre sm g b e n f x o))).takeTurn tk) := by
  simp only [exec, execPre, h.1, h.2, Option.bind_some, hp, wordReport_eq]

end Pre

end Sys2Proof.Machine

namespace Sys2Proof

open Sys2Proof.Machine

/-- Settles O9: every word but PRE runs through `issue`, whose verdict is that of the first check that fails. -/
theorem checksBeforeTheEffect : Obligations.ChecksBeforeTheEffect := by
  refine ⟨fun i s tk th hword hpre h hp hw hg => ?_, fun i s tk th hword hpre h => ⟨fun hp => ?_, fun hp hw => ?_⟩⟩
  · obtain ⟨chk, eff, hx⟩ := exec_word i s hword hpre
    exact hx.trans (issue_verdict h (verdict_off chk hp hw hg))
  · obtain ⟨chk, eff, hx⟩ := exec_word i s hword hpre
    rw [hx, issue_verdict h (verdict_badPrefix chk hp), ← wordReport_eq]
    rfl
  · obtain ⟨chk, eff, hx⟩ := exec_word i s hword hpre
    exact hx.trans (issue_verdict h (verdict_window chk hp hw))

/-- Settles O10: the verdict is to park, and parking changes the thread's run state and the lists of the scheduler alone. -/
theorem parksForOperands : Obligations.ParksForOperands := by
  intro i s tk th hword hpre h hp hw hg hn hs he hr
  obtain ⟨chk, eff, hx⟩ := exec_word i s hword hpre
  refine ⟨s.parkOperand tk i, hx.trans (issue_verdict h (verdict_park chk hp hw hg hn hs he hr)), ?_, rfl, ?_⟩
  · refine (State.thread?_modThread s tk _).trans ?_
    rw [h.2, Option.map_some]
  · exact ⟨State.modThread_rf .., State.modThread_spend .., State.modThread_streams .., State.modThread_nbr ..,
      State.modThread_nbrFree .., State.modThread_cores .., State.modThread_timers .., s.untouched_parkOperand tk i⟩

/-- Settles O20: PRE is ready when its guard register is in the window, as it names no queue; NOP and YIELD have no check. -/
theorem prefixNopAndYield : Obligations.PrefixNopAndYield := by
  refine ⟨fun sm g b e n f x o s tk th h => ⟨fun hp hw => ?_, fun hp hw => ?_, fun p hp => exec_pre_of_pending h hp⟩,
    fun sm => ⟨?_, ?_⟩⟩
  · have hready : Ready (.pre sm g b e n f x o) s tk th :=
      ready_of_no_queues h rfl rfl rfl hw (by rw [prefixOf_of_not_pending hp]; exact s.guardOk_zero tk)
    rw [exec_pre_of_not_pending h hp, issue_noCheck hready]
    simp only [pendPrefix_eq]
    rfl
  · rw [exec_pre_of_not_pending h hp, issue_verdict h (verdict_window noCheck rfl hw), prefixOf_of_not_pending hp]
    rfl
  · exact does_noCheck (eff := fun _ u => u) (fun _ => rfl) fun _ _ _ _ => rfl
  · exact does_noCheck (eff := fun x u => u.forfeitTurns x.tk 1) (fun _ => rfl) fun _ _ _ _ => rfl

end Sys2Proof
end

section
/-! Taking a trap (R319, R320): a state in which two threads stand under one key. -/

namespace Sys2Proof.Machine

/-- The thread of slot 1 of core 0 about to trap, with status code 1. -/
def trapper : Thread := { status := 1 }

/-- A second entry of the same key: a thread that waits in a RECV on the trap port. -/
def secondOfSlot : Thread := { run := .wait { id := 1, instr := .recv false (.g 0) (.g 2) 0, vals := [0, 31] } }

/-- A state whose list of threads has both under one key, so that its keys do not rise. -/
def twoOfOneSlot : State := { threads := [(1, trapper), (1, secondOfSlot)] }

/-- The report of the first thread ends the RECV of the second, and its status OK is written to the first: the slot does not keep
its status word. -/
theorem status_trap_twoOfOneSlot : ((twoOfOneSlot.trap 1 1 0 0).thread? 1).map (·.status) = some 0 := by decide

end Sys2Proof.Machine

namespace Sys2Proof

open Sys2Proof.Machine

/-- Refutes O11: nothing in it says that the keys of the threads rise. Where a second thread stands under the key of the slot that
traps, and waits in a RECV on the trap port, the report ends that RECV, and the status OK goes to the slot that trapped. -/
theorem not_takingATrap : ¬ Obligations.TakingATrap := by
  intro h
  obtain ⟨hth, -⟩ := h twoOfOneSlot 1 1 0 0 trapper rfl (by decide) (by decide)
  have hst := status_trap_twoOfOneSlot
  rw [hth] at hst
  exact absurd hst (by decide)

end Sys2Proof
end

section
/-! Registers and queue names (R22, R24, R64, R66, R68, R242, R247): what a field reads, what a pop takes, and where a result goes. -/

namespace Sys2Proof.Machine

/-! ### How often a value stands in a list -/

/-- A value that stands in a list at one place alone is counted once. -/
theorem count_eq_one {α : Type} [BEq α] [LawfulBEq α] {l : List α} {a : α} {m : Nat} (h : l[m]? = some a)
    (hu : ∀ k, k ≠ m → l[k]? ≠ some a) : l.count a = 1 := by
  obtain ⟨hm, hlm⟩ := List.getElem?_eq_some_iff.mp h
  have hbefore : a ∉ l.take m := fun ha => by
    obtain ⟨k, hk⟩ := List.mem_iff_getElem?.mp ha
    obtain ⟨hkl, -⟩ := List.getElem?_eq_some_iff.mp hk
    rw [List.getElem?_take_of_lt (by simp at hkl; omega)] at hk
    exact hu k (by simp at hkl; omega) hk
  have hafter : a ∉ l.drop (m + 1) := fun ha => by
    obtain ⟨k, hk⟩ := List.mem_iff_getElem?.mp ha
    rw [List.getElem?_drop] at hk
    exact hu (m + 1 + k) (by omega) hk
  rw [← List.take_append_drop m l, List.drop_eq_getElem_cons hm, hlm, List.count_append, List.count_cons_self,
    List.count_eq_zero.mpr hbefore, List.count_eq_zero.mpr hafter]

/-- A value that stands nowhere in a list is not counted. -/
theorem count_eq_zero_of_getElem? {α : Type} [BEq α] [LawfulBEq α] {l : List α} {a : α} (h : ∀ k : Nat, l[k]? ≠ some a) :
    l.count a = 0 :=
  List.count_eq_zero.mpr fun ha => by
    obtain ⟨k, hk⟩ := List.mem_iff_getElem?.mp ha
    exact h k hk

/-! ### What a field reads (R22, R24, R64, R66, R68) -/

/-- The number of fields of a list that are sources and name a register. -/
theorem length_filter_src (l : List (Role × Reg)) (r : Reg) :
    (l.filter fun f => f.1 == .src && f.2 == r).length = l.count (.src, r) := by
  rw [List.count_eq_length_filter]
  rfl

section Operand

variable {s : State} {tk n : Nat} {i : Instr} {role : Role} {r : Reg}

theorem State.operand_window {k : Fin 96} (h : i.fields[n]? = some (role, .g k)) (hd : role ≠ .dst) (hd' : role ≠ .dstGS) :
    s.operand tk i n = s.readG tk k.val := by
  simp [State.operand, List.getD_eq_getElem?_getD, h, hd, hd']

theorem State.operand_shared {k : Fin 16} (h : i.fields[n]? = some (role, .s k)) (hd : role ≠ .dst) (hd' : role ≠ .dstGS) :
    s.operand tk i n = s.readS (coreOf tk) k.val := by
  simp [State.operand, List.getD_eq_getElem?_getD, h, hd, hd']

/-- A field that is read and written reads a queue name as zero (R68). -/
theorem State.operand_upd_queue (h : i.fields[n]? = some (.upd, r)) (hq : isQueueName r = true) : s.operand tk i n = 0 := by
  cases r <;> simp_all [State.operand, List.getD_eq_getElem?_getD, isQueueName]

/-- A source that names a queue reads the element behind those of the earlier sources that name it. -/
theorem State.operand_src_queue (h : i.fields[n]? = some (.src, r)) (hq : isQueueName r = true) :
    s.operand tk i n = (s.peek tk r ((i.fields.take n).count (.src, r))).1 := by
  rw [← length_filter_src]
  cases r <;> simp_all [State.operand, List.getD_eq_getElem?_getD, isQueueName]

/-- A first field read as data that names a queue reads the element behind those of all sources that name it. -/
theorem State.operand_data_queue (h : i.fields[n]? = some (.data, r)) (hq : isQueueName r = true) :
    s.operand tk i n = (s.peek tk r (i.fields.count (.src, r))).1 := by
  rw [← length_filter_src]
  cases r <;> simp_all [State.operand, List.getD_eq_getElem?_getD, isQueueName]

theorem State.operand_src_first (h : i.fields[n]? = some (.src, r)) (hq : isQueueName r = true)
    (hno : ∀ k, k < n → i.fields[k]? ≠ some (.src, r)) : s.operand tk i n = (s.peek tk r 0).1 := by
  rw [State.operand_src_queue h hq, count_eq_zero_of_getElem? fun k hk => ?_]
  rw [List.getElem?_take] at hk
  split at hk
  · exact hno k ‹_› hk
  · cases hk

theorem State.operand_src_second {m : Nat} (h : i.fields[n]? = some (.src, r)) (hq : isQueueName r = true) (hm : m < n)
    (hf : i.fields[m]? = some (.src, r)) (hno : ∀ k, k < n → k ≠ m → i.fields[k]? ≠ some (.src, r)) :
    s.operand tk i n = (s.peek tk r 1).1 := by
  rw [State.operand_src_queue h hq, count_eq_one (m := m) (by rw [List.getElem?_take_of_lt hm, hf]) fun k hne hk => ?_]
  rw [List.getElem?_take] at hk
  split at hk
  · exact hno k ‹_› hne hk
  · cases hk

end Operand

/-! ### Core-shared registers (R66) -/

/-- A write of a key that a read issued in cycle c sees. -/
def SWrite.ripe (c key : Nat) (e : SWrite) : Bool := decide (e.cycle + 3 ≤ c) && e.key == key

/-- Of writes that become visible in order, the last of a key is what it reads. -/
theorem SMap.getD_foldl_putD (l : List SWrite) {m : SMap Word} (key : Nat) (h : SMap.sortedFrom 0 m = true) :
    SMap.getD (l.foldl (fun m e => SMap.putD m e.key e.value 0) m) key 0 =
      ((l.filter fun e => e.key == key).getLast?.map (·.value)).getD (SMap.getD m key 0) := by
  induction l generalizing m with
  | nil => rfl
  | cons e l ih =>
    rw [List.foldl_cons, ih (SMap.sortedFrom_putD m e.key e.value 0 h), SMap.getD_putD m e.key key e.value 0 h]
    by_cases he : e.key = key
    · rw [if_pos he.symm, List.filter_cons_of_pos (by simpa using he), List.getLast?_cons]
      cases (l.filter fun e => e.key == key).getLast? <;> rfl
    · rw [if_neg (Ne.symm he), List.filter_cons_of_neg (by simpa using he)]

/-- A read issued in cycle c sees the last write of its register among those that are ripe. -/
theorem State.getD_settleS {s : State} (c key : Nat) (h : SMap.sortedFrom 0 s.sregs = true) :
    SMap.getD (s.settleS c).sregs key 0 =
      ((s.spend.filter (SWrite.ripe c key)).getLast?.map (·.value)).getD (SMap.getD s.sregs key 0) := by
  have hripe : ((s.spend.filter fun e => decide (e.cycle + 3 ≤ c)).filter fun e => e.key == key) =
      s.spend.filter (SWrite.ripe c key) := by
    rw [List.filter_filter]
    exact List.filter_congr fun e _ => Bool.and_comm ..
  rw [← hripe]
  exact SMap.getD_foldl_putD _ key h

/-- A write of an s register changes the list of those not yet visible, and nothing else. -/
theorem State.putSWrite_eq (s : State) (w : SWrite) : ∃ l, s.putSWrite w = { s with spend := l } := by
  unfold State.putSWrite
  dsimp only
  split
  · exact ⟨s.spend, rfl⟩
  · exact ⟨_, rfl⟩
@[simp] theorem State.putSWrite_sregs (s : State) (w : SWrite) : (s.putSWrite w).sregs = s.sregs := by
  obtain ⟨l, hl⟩ := s.putSWrite_eq w
  rw [hl]
@[simp] theorem State.putSWrite_mem (s : State) (w : SWrite) : (s.putSWrite w).mem = s.mem := by
  obtain ⟨l, hl⟩ := s.putSWrite_eq w
  rw [hl]
@[simp] theorem State.putSWrite_threads (s : State) (w : SWrite) : (s.putSWrite w).threads = s.threads := by
  obtain ⟨l, hl⟩ := s.putSWrite_eq w
  rw [hl]
@[simp] theorem State.putSWrite_cores (s : State) (w : SWrite) : (s.putSWrite w).cores = s.cores := by
  obtain ⟨l, hl⟩ := s.putSWrite_eq w
  rw [hl]
@[simp] theorem State.putSWrite_cycle (s : State) (w : SWrite) : (s.putSWrite w).cycle = s.cycle := by
  obtain ⟨l, hl⟩ := s.putSWrite_eq w
  rw [hl]

/-- A write of a register changes nothing among those of other registers or write cycles. -/
theorem State.filter_putSWrite {s : State} {w : SWrite} {p : SWrite → Bool}
    (hp : ∀ e : SWrite, e.key = w.key → e.cycle = w.cycle → p e = false) :
    (s.putSWrite w).spend.filter p = s.spend.filter p := by
  unfold State.putSWrite
  dsimp only
  split
  · rfl
  · rw [List.filter_append, List.filter_filter, List.filter_cons_of_neg (by simp [hp w rfl rfl]), List.filter_nil,
      List.append_nil]
    refine List.filter_congr fun e _ => ?_
    by_cases h : e.key = w.key ∧ e.cycle = w.cycle
    · simp [hp e h.1 h.2]
    · have : (e.key == w.key && e.cycle == w.cycle) = false := by simpa using h
      simp [this]

/-- A write that no write of its register and cycle beats is the last. -/
theorem State.spend_putSWrite_of_not_beaten {s : State} {w : SWrite}
    (h : ∀ e ∈ s.spend, e.key = w.key → e.cycle = w.cycle → e.beats w = false) :
    ∃ l, (s.putSWrite w).spend = l ++ [w] := by
  unfold State.putSWrite
  dsimp only
  rw [if_neg]
  · exact ⟨_, rfl⟩
  · simpa using h

/-- A write that one of its register and cycle beats leaves no trace. -/
theorem State.putSWrite_of_beaten {s : State} {w e : SWrite} (he : e ∈ s.spend) (hk : e.key = w.key)
    (hc : e.cycle = w.cycle) (hb : e.beats w = true) : s.putSWrite w = s := by
  unfold State.putSWrite
  dsimp only
  rw [if_pos]
  exact List.any_eq_true.mpr ⟨e, he, by simp [hk, hc, hb]⟩

/-- After a write of a register, a write of its register and cycle stands that is no later in slot order. -/
theorem State.exists_mem_spend_putSWrite (s : State) (w : SWrite) :
    ∃ e ∈ (s.putSWrite w).spend, e.key = w.key ∧ e.cycle = w.cycle ∧ e.slot ≤ w.slot := by
  unfold State.putSWrite
  dsimp only
  split
  · obtain ⟨e, he, h⟩ := List.any_eq_true.mp ‹_›
    simp only [SWrite.beats, Bool.and_eq_true, Bool.or_eq_true, beq_iff_eq, decide_eq_true_eq] at h
    obtain ⟨⟨hk, hc⟩, hb⟩ := h
    exact ⟨e, he, hk, hc, by omega⟩
  · exact ⟨w, by simp, rfl, rfl, le_rfl⟩

section Shared

variable {s : State} {tk : Nat} {k : Fin 16} {v : Word}

/-- What a key reads after a write of an s register, where the write is not ripe or is of another key. -/
theorem State.getD_settleS_writeS (h : SMap.sortedFrom 0 s.sregs = true) {c key : Nat}
    (hc : c < s.cycle + 3 ∨ key ≠ 16 * coreOf tk + k.val) :
    SMap.getD ((s.writeReg tk (.s k) v).settleS c).sregs key 0 = SMap.getD (s.settleS c).sregs key 0 := by
  have hsregs : (s.writeReg tk (.s k) v).sregs = s.sregs := State.putSWrite_sregs ..
  rw [State.getD_settleS c key (hsregs ▸ h), State.getD_settleS c key h, hsregs]
  have hfilter : (s.writeReg tk (.s k) v).spend.filter (SWrite.ripe c key) = s.spend.filter (SWrite.ripe c key) :=
    State.filter_putSWrite fun e hk hcy => by
      simp only [SWrite.ripe, hk, hcy, Bool.and_eq_false_iff, decide_eq_false_iff_not, beq_eq_false_iff_ne]
      exact hc.imp (by omega) Ne.symm
  rw [hfilter]

/-- A write of an s register that none beats is what the register reads from the third cycle on. -/
theorem State.readS_writeS (h : SMap.sortedFrom 0 s.sregs = true)
    (hw : ∀ e ∈ s.spend, e.key = 16 * coreOf tk + k.val → e.cycle = s.cycle → slotOf tk < e.slot ∨
      (slotOf tk = e.slot ∧ e.stamp ≤ s.nextId)) :
    ((s.writeReg tk (.s k) v).settleS (s.cycle + 3)).readS (coreOf tk) k.val = v := by
  have hsregs : (s.writeReg tk (.s k) v).sregs = s.sregs := State.putSWrite_sregs ..
  obtain ⟨l, hl⟩ : ∃ l, (s.writeReg tk (.s k) v).spend = l ++ [_] := State.spend_putSWrite_of_not_beaten fun e he hk hc => by
    have := hw e he hk hc
    simp only [SWrite.beats, Bool.or_eq_false_iff, decide_eq_false_iff_not, Bool.and_eq_false_iff, beq_eq_false_iff_ne]
    omega
  refine (State.getD_settleS _ _ (hsregs ▸ h)).trans ?_
  rw [hl, List.filter_append, List.filter_cons_of_pos (by simp [SWrite.ripe]), List.filter_nil, List.getLast?_concat]
  rfl

/-- Of two writes of one write cycle that of the lower slot remains. -/
theorem State.writeS_writeS {tk' : Nat} {v' : Word} (hcore : coreOf tk' = coreOf tk) (hslot : slotOf tk' < slotOf tk) :
    (s.writeReg tk' (.s k) v').writeReg tk (.s k) v = s.writeReg tk' (.s k) v' := by
  obtain ⟨e, he, hk, hc, hle⟩ := s.exists_mem_spend_putSWrite
    { key := 16 * coreOf tk' + k.val, value := v', cycle := s.cycle, slot := slotOf tk', stamp := s.nextId }
  have hcycle : (s.writeReg tk' (.s k) v').cycle = s.cycle := State.putSWrite_cycle ..
  refine State.putSWrite_of_beaten he (by rw [hk, hcore]) (hc.trans hcycle.symm) ?_
  simp only [SWrite.beats, Bool.or_eq_true, decide_eq_true_eq]
  exact .inl (lt_of_le_of_lt hle hslot)

end Shared

/-! ### Queue names (R22, R24, R239, R242, R244, R247) -/

/-- A stream register set is what is read there. -/
theorem State.stream_setStream {s : State} (tk k : Nat) (x : Stream) (h : SMap.sortedFrom 0 s.streams = true) :
    (s.setStream tk k x).stream tk k = x :=
  (SMap.getD_putD s.streams (8 * tk + k) (8 * tk + k) x {} h).trans (if_pos rfl)

/-- A pop of a stream takes its head. -/
theorem State.entries_popReg_stream {s : State} (tk : Nat) (k : Fin 8) (h : SMap.sortedFrom 0 s.streams = true) :
    ((s.popReg tk (.st k)).stream tk k.val).entries = (s.stream tk k.val).entries.tail := by
  show ((s.setStream tk k.val _).stream tk k.val).entries = _
  rw [State.stream_setStream tk k.val _ h]

/-- A pop of a stream keeps the keys of the stream registers rising. -/
theorem State.sorted_popReg_stream {s : State} (tk : Nat) (k : Fin 8) (h : SMap.sortedFrom 0 s.streams = true) :
    SMap.sortedFrom 0 (s.popReg tk (.st k)).streams = true := s.sorted_setStream tk k.val _ h

/-- A pop of a neighbour port takes the head of its queue. -/
theorem State.nbrQueue_nbrPop {s : State} (tk : Nat) (d : Dir) (h : SMap.sortedFrom 0 s.nbr = true) :
    (s.nbrPop tk d).nbrQueue (nbrKey tk d) = (s.nbrQueue (nbrKey tk d)).tail :=
  (SMap.getD_putD s.nbr (nbrKey tk d) (nbrKey tk d) (s.nbrQueue (nbrKey tk d)).tail [] h).trans (if_pos rfl)

/-- The value placed is what is read at its key, whatever the default. -/
theorem SMap.getD_put_same {α : Type} (m : SMap α) (k : Nat) (v d : α) : SMap.getD (SMap.put m k v) k d = v := by
  rw [SMap.getD, SMap.get?_put_same, Option.getD_some]

/-- A role queue of a sized core changed is what is read there. -/
theorem State.role_modRole_of_sized {s : State} (h : Sized s) (core : Nat) (k : Fin 4) (f : RoleQ → RoleQ) :
    ((s.modRole core k.val f).core core).role k.val = f ((s.core core).role k.val) :=
  (State.role_modRole f (by rw [State.roles_length_of_sized h]; exact k.isLt)).1

end Sys2Proof.Machine

namespace Sys2Proof

open Sys2Proof.Machine

/-- Settles O12: a field that names a queue reads the element behind those that earlier fields of its name take, as many as are
counted among them; and of the writes of an s register a read sees the last that is ripe. -/
theorem registersReadAndWritten : Obligations.RegistersReadAndWritten := by
  refine ⟨fun s tk i n role hd hd' => ⟨fun k h => State.operand_window h hd hd', fun k h => State.operand_shared h hd hd',
      fun d h => State.operand_upd_queue h rfl, fun k h => State.operand_upd_queue h rfl, fun k h hno => ?_⟩,
    fun s tk k v hcan => ?_, fun s tk k v hcan => ?_, fun s tk v hcan hsized hnbr => ?_⟩
  · rw [State.operand_src_first h rfl hno, List.head?_eq_getElem?]
    exact (Option.getD_map Elem.value _ (s.stream tk k.val).entries[0]?).symm
  · obtain ⟨-, hrf, -⟩ := hcan
    exact ⟨s.readG_writeG tk k.val v hrf, fun key hne => (s.getD_writeG tk k.val v key hrf).trans (if_neg hne)⟩
  · obtain ⟨-, -, hsregs, -⟩ := hcan
    refine ⟨fun c hc => State.getD_settleS_writeS hsregs (.inl hc), State.readS_writeS hsregs, fun tk' v' hcore hslot => ?_,
      fun c key hne => State.getD_settleS_writeS hsregs (.inr hne)⟩
    rw [State.writeS_writeS hcore hslot]
  · obtain ⟨-, -, -, hstreams, -⟩ := hcan
    intro core element away other
    have hpeek : ∀ r n, isQueueName r = true → (s.peek tk r n).1 = element r n := fun r n hq => by
      cases r with
      | g | s => cases hq
      | st k => exact (Option.getD_map Elem.value _ (s.stream tk k.val).entries[n]?).symm
      | nb d => exact (Option.getD_map QEntry.v _ (s.nbrQueue (nbrKey tk d))[n]?).symm
      | q k => exact (Option.getD_map QEntry.v _ ((s.core core).role k.val).entries[n]?).symm
    refine ⟨fun i n m r h hq => ⟨fun hno => ?_, fun hm hf hno => ?_⟩, fun i n m r h hq => ⟨fun hno => ?_, fun hf hno => ?_⟩,
      fun k => ⟨?_, ?_⟩, fun d => ⟨?_, ?_, ?_⟩, fun k => ?_, fun d => ⟨?_, ?_, ?_⟩, fun k => ?_⟩
    · rw [State.operand_src_first h hq hno, hpeek r 0 hq]
    · rw [State.operand_src_second h hq hm hf hno, hpeek r 1 hq]
    · rw [State.operand_data_queue h hq, count_eq_zero_of_getElem? hno, hpeek r 0 hq]
    · rw [State.operand_data_queue h hq, count_eq_one hf hno, hpeek r 1 hq]
    · rw [List.drop_one]
      exact State.entries_popReg_stream tk k hstreams
    · rw [← List.tail_drop, List.drop_one, ← State.entries_popReg_stream tk k hstreams]
      exact State.entries_popReg_stream tk k (State.sorted_popReg_stream tk k hstreams)
    · rw [List.drop_one]
      exact State.nbrQueue_nbrPop tk d hnbr
    · exact SMap.getD_put_same ..
    · rfl
    · rw [List.drop_one]
      exact State.role_modRole_of_sized hsized core k fun q => { q with entries := q.entries.tail }
    · exact SMap.getD_put_same ..
    · exact SMap.getD_put_same ..
    · rfl
    · exact State.role_modRole_of_sized hsized core k _

end Sys2Proof
end

section
/-! Command words of the copy and bank engines (R38, R297, R298, R307, R308): which word is the first faulty one. -/

namespace Sys2Proof.Machine

/-! ### The first faulty word -/

/-- The first of four words whose check fails. -/
def firstFault (b0 b1 b2 b3 : Bool) : Option Nat :=
  if !b0 then some 0 else if !b1 then some 1 else if !b2 then some 2 else if !b3 then some 3 else none

/-- What the first fault is, when each check stands for a condition where those before it hold. -/
theorem firstFault_cases {b0 b1 b2 b3 : Bool} {p0 p1 p2 p3 : Prop} (h0 : b0 = true ↔ p0) (h1 : p0 → (b1 = true ↔ p1))
    (h2 : p0 → p1 → (b2 = true ↔ p2)) (h3 : b3 = true ↔ p3) :
    (¬p0 → firstFault b0 b1 b2 b3 = some 0) ∧ (p0 → ¬p1 → firstFault b0 b1 b2 b3 = some 1) ∧
      (p0 → p1 → ¬p2 → firstFault b0 b1 b2 b3 = some 2) ∧ (p0 → p1 → p2 → ¬p3 → firstFault b0 b1 b2 b3 = some 3) ∧
      (p0 → p1 → p2 → p3 → firstFault b0 b1 b2 b3 = none) := by
  refine ⟨fun n0 => ?_, fun y0 n1 => ?_, fun y0 y1 n2 => ?_, fun y0 y1 y2 n3 => ?_, fun y0 y1 y2 y3 => ?_⟩
  · simp [firstFault, mt h0.mp n0]
  · simp [firstFault, h0.mpr y0, mt (h1 y0).mp n1]
  · simp [firstFault, h0.mpr y0, (h1 y0).mpr y1, mt (h2 y0 y1).mp n2]
  · simp [firstFault, h0.mpr y0, (h1 y0).mpr y1, (h2 y0 y1).mpr y2, mt h3.mp n3]
  · simp [firstFault, h0.mpr y0, (h1 y0).mpr y1, (h2 y0 y1).mpr y2, h3.mpr y3]

/-- A bit of a word is its field of one bit. -/
theorem bitAt_iff (w : Word) (n : Nat) : bitAt w n = true ↔ fld w n 1 = 1 := by
  rw [bitAt, BitVec.getLsbD, Nat.testBit_eq_decide_div_mod_eq, decide_eq_true_eq]
  rfl

/-- The bytes of an element of a format that a copy reduces or a bank command reads or writes. -/
theorem widthOf_div {c : Nat} (h : c ∈ [1, 2, 3, 8]) : widthOf c / 8 = if c = 1 ∨ c = 8 then 4 else 2 := by
  simp only [List.mem_cons, List.not_mem_nil, or_false] at h
  rcases h with rfl | rfl | rfl | rfl <;> rfl

/-- The window part of a compact address, field by field (R296). -/
theorem compactOk_iff (w : Word) : compactOk w = true ↔
    (fld w 48 1 = 1 → fld w 21 18 = 0 ∧ (fld w 45 3 < 4 ∨ fld w 39 6 < 48)) := by
  rw [← bitAt_iff, compactOk]
  cases bitAt w 48 <;> simp

/-- The target of a completion message is accepted, and the bits above it are zero. -/
def State.TargetOk (s : State) (tk : Nat) (w : Word) : Prop :=
  fld w 30 2 = 0 ∧ (fld w 29 1 = 1 → s.targetRefused tk (word (fld w 0 29)) = false)

theorem State.targetOk_iff (s : State) (tk : Nat) (w : Word) :
    s.TargetOk tk w ↔ fld w 30 2 = 0 ∧ (bitAt w 29 && s.targetRefused tk (word (fld w 0 29))) = false := by
  rw [State.TargetOk, ← bitAt_iff]
  cases bitAt w 29 <;> simp

/-! ### Copy commands (R297, R298) -/

/-- The bytes of an element, by its format (Table CB-1). -/
def elemBytes (c : Nat) : Nat := if c = 1 ∨ c = 8 then 4 else 2

/-- The bytes of an index, by word 1 of a gather. -/
def indexBytes (w : Word) : Nat := if fld w 20 1 = 1 then 8 else 4

section Copy

variable (c : List Word)

theorem cpSeq_iff : cpSeq c = true ↔ fld (cw c 0) 53 1 = 1 := bitAt_iff _ _

theorem not_cpSeq_iff : (!cpSeq c) = true ↔ fld (cw c 0) 53 1 = 0 := by
  rw [Bool.not_eq_true', ← Bool.not_eq_true, cpSeq_iff]
  simp only [fld]
  omega

/-- Word 0 of a copy command, field by field. -/
theorem copyOk0_iff : copyOk0 c = true ↔
    cpKind c ≤ 3 ∧ fld (cw c 0) 49 2 = 0 ∧
      (fld (cw c 0) 48 1 = 1 → fld (cw c 0) 21 18 = 0 ∧ (fld (cw c 0) 45 3 < 4 ∨ fld (cw c 0) 39 6 < 48)) ∧
      (cpKind c = 3 → cpFmt c ∈ [1, 2, 3, 8] ∧ cpRop c ≠ 3 ∧ fld (cw c 0) 48 1 = 1 ∧ fld (cw c 0) 45 3 < 4 ∧
        fld (cw c 0) 0 21 % elemBytes (cpFmt c) = 0) ∧
      (cpKind c ≠ 3 → cpFmt c = 0 ∧ cpRop c = 0 ∧ fld (cw c 0) 53 1 = 0) := by
  have hfmt : (cpFmt c == 1 || cpFmt c == 2 || cpFmt c == 3 || cpFmt c == 8) = true ↔ cpFmt c ∈ [1, 2, 3, 8] := by
    simp [or_assoc]
  rw [← compactOk_iff]
  by_cases hk : cpKind c = 3
  · have helem : cpFmt c ∈ [1, 2, 3, 8] → cpElem c = elemBytes (cpFmt c) := widthOf_div
    simp only [copyOk0, if_pos hk, Bool.and_eq_true, hfmt, decide_eq_true_eq, beq_iff_eq, bne_iff_ne, bitAt_iff]
    constructor
    · rintro ⟨⟨⟨hle, hz⟩, hc⟩, ⟨⟨⟨hf, hr⟩, hw⟩, hd⟩, ha⟩
      exact ⟨hle, hz, hc, fun _ => ⟨hf, hr, hw, hd, helem hf ▸ ha⟩, fun hne => absurd hk hne⟩
    · rintro ⟨hle, hz, hc, h3, -⟩
      obtain ⟨hf, hr, hw, hd, ha⟩ := h3 hk
      exact ⟨⟨⟨hle, hz⟩, hc⟩, ⟨⟨⟨hf, hr⟩, hw⟩, hd⟩, (helem hf).symm ▸ ha⟩
  · simp only [copyOk0, if_neg hk, Bool.and_eq_true, decide_eq_true_eq, beq_iff_eq, not_cpSeq_iff]
    constructor
    · rintro ⟨⟨⟨hle, hz⟩, hc⟩, ⟨hf, hr⟩, hs⟩
      exact ⟨hle, hz, hc, fun h3 => absurd h3 hk, fun _ => ⟨hf, hr, hs⟩⟩
    · rintro ⟨hle, hz, hc, -, hn⟩
      obtain ⟨hf, hr, hs⟩ := hn hk
      exact ⟨⟨⟨hle, hz⟩, hc⟩, ⟨hf, hr⟩, hs⟩

/-- Word 1 of a copy command of kind 0 to 3, field by field; for kind 3 with its format in range. -/
theorem copyOk1_iff (size : Nat) (hk : cpKind c ≤ 3) (h3 : cpKind c = 3 → cpFmt c ∈ [1, 2, 3, 8]) :
    copyOk1 size c = true ↔
      (cpKind c = 0 → 1 ≤ fld (cw c 1) 0 32 ∧ fld (cw c 1) 32 32 = 0) ∧
      (cpKind c = 1 → 1 ≤ fld (cw c 1) 0 16 ∧ 1 ≤ fld (cw c 1) 16 16) ∧
      (cpKind c = 2 → 1 ≤ fld (cw c 1) 0 16 ∧ fld (cw c 1) 16 4 ≤ 12 ∧ fld (cw c 1) 21 1 = 0 ∧ fld (cw c 1) 43 21 = 0 ∧
        fld (cw c 1) 22 21 % indexBytes (cw c 1) = 0 ∧
        fld (cw c 1) 22 21 + fld (cw c 1) 0 16 * indexBytes (cw c 1) ≤ size) ∧
      (cpKind c = 3 → fld (cw c 1) 0 32 % elemBytes (cpFmt c) = 0 ∧ fld (cw c 1) 52 12 = 0 ∧
        (fld (cw c 0) 53 1 = 1 ∨ fld (cw c 1) 32 20 = 0)) := by
  have hkind : cpKind c = 0 ∨ cpKind c = 1 ∨ cpKind c = 2 ∨ cpKind c = 3 := by omega
  unfold copyOk1
  rcases hkind with h | h | h | h
  · simp [h]
  · simp [h]
  · have hisz : (if bitAt (cw c 1) 20 = true then 8 else 4) = indexBytes (cw c 1) := by simp only [bitAt_iff, indexBytes]
    simp only [h, hisz, Bool.and_eq_true, decide_eq_true_eq, beq_iff_eq]
    simp [and_assoc]
  · have helem : cpElem c = elemBytes (cpFmt c) := widthOf_div (h3 h)
    simp [h, helem, and_assoc, cpSeq_iff]

/-- Word 2 of a copy command with its format in range. -/
theorem copyOk2_iff (h3 : cpKind c = 3 → cpFmt c ∈ [1, 2, 3, 8]) : copyOk2 c = true ↔
    (cpKind c = 3 → (cw c 2).toNat % elemBytes (cpFmt c) = 0) := by
  by_cases h : cpKind c = 3
  · have helem : cpElem c = elemBytes (cpFmt c) := widthOf_div (h3 h)
    simp [copyOk2, h, helem]
  · simp [copyOk2, h]

/-- Word 3 of a copy command, field by field. -/
theorem State.copyOk3_iff (s : State) (tk : Nat) (x : Bool) : s.copyOk3 tk c x = true ↔
    s.TargetOk tk (cw c 3) ∧ fld (cw c 3) 48 16 = 0 ∧ (x = true → fld (cw c 3) 0 30 = 0) := by
  rw [State.targetOk_iff]
  simp only [State.copyOk3, cmdNotify, cmdTarget, Bool.and_eq_true, beq_iff_eq, Bool.not_eq_true', Bool.or_eq_true]
  cases x <;> simp <;> tauto

end Copy

/-! ### Bank commands (R307, R308) -/

/-- A vector or result location of n elements, field by field. -/
def BankPlace (w : Word) (n : Nat) : Prop :=
  fld w 60 4 ∈ [1, 2, 3] ∧ (fld w 48 1 = 1 → fld w 21 18 = 0 ∧ (fld w 45 3 < 4 ∨ fld w 39 6 < 48)) ∧
    (fld w 48 1 = 1 → fld w 0 21 % elemBytes (fld w 60 4) = 0) ∧
    (¬ fld w 48 1 = 1 → fld w 19 29 = 0 ∧ fld w 0 19 % elemBytes (fld w 60 4) = 0 ∧
      fld w 0 19 + n * elemBytes (fld w 60 4) ≤ 0x80000)

theorem bankPlaceOk_iff (w : Word) (n : Nat) : bankPlaceOk w n = true ↔ BankPlace w n := by
  unfold BankPlace
  by_cases hf : fld w 60 4 ∈ [1, 2, 3]
  · have helem : widthOf (fld w 60 4) / 8 = elemBytes (fld w 60 4) := widthOf_div (List.mem_of_mem_dropLast (l := [1, 2, 3, 8]) hf)
    have hor : fld w 60 4 = 1 ∨ fld w 60 4 = 2 ∨ fld w 60 4 = 3 := by simpa using hf
    rw [← compactOk_iff]
    by_cases hb : fld w 48 1 = 1
    · simp [bankPlaceOk, helem, hf, (bitAt_iff w 48).mpr hb, hb, hor, or_assoc]
    · have hb' : bitAt w 48 = false := by rw [← Bool.not_eq_true, bitAt_iff]; exact hb
      simp [bankPlaceOk, helem, hf, hb', hb, hor, or_assoc, compactOk, and_assoc]
  · have hor : ¬ (fld w 60 4 = 1 ∨ fld w 60 4 = 2 ∨ fld w 60 4 = 3) := by simpa using hf
    simp [bankPlaceOk, hf, or_assoc, hor]

/-- A check that differs for table loads and products. -/
theorem loadOr_iff {n : Nat} {a b : Bool} : (if (n != 0) = true then a else b) = true ↔
    (n ≠ 0 → a = true) ∧ (¬ n ≠ 0 → b = true) := by
  by_cases h : n = 0 <;> simp [h]

section Bank

variable (c : List Word)

/-- Word 0 of a bank command, field by field. -/
theorem bankOk0_iff : (if (bmOp c != 0) = true then bmFmt c == 4 && bmRows c == 0 && bmCols c == 0
      else (bmFmt c == 2 || bmFmt c == 3 || bmFmt c == 4) && decide (1 ≤ bmRows c) && decide (1 ≤ bmCols c)) = true ↔
    (bmOp c ≠ 0 → bmFmt c = 4 ∧ bmRows c = 0 ∧ bmCols c = 0) ∧
      (¬ bmOp c ≠ 0 → bmFmt c ∈ [2, 3, 4] ∧ 1 ≤ bmRows c ∧ 1 ≤ bmCols c) := by
  rw [loadOr_iff]
  simp [and_assoc, or_assoc]

/-- Words 1 and 2 of a bank command: zero for a table load, else bits that are zero and a location. -/
theorem bankOk_place_iff (w : Word) (lo len n : Nat) :
    (if (bmOp c != 0) = true then w == 0 else fld w lo len == 0 && bankPlaceOk w n) = true ↔
      (bmOp c ≠ 0 → w = 0) ∧ (¬ bmOp c ≠ 0 → fld w lo len = 0 ∧ BankPlace w n) := by
  rw [loadOr_iff, Bool.and_eq_true, beq_iff_eq, beq_iff_eq, bankPlaceOk_iff]

/-- Word 3 of a bank command, field by field. -/
theorem State.bankOk3_iff (s : State) (tk : Nat) :
    (fld (cw c 3) 30 2 == 0 && fld (cw c 3) 48 14 == 0 && !(cmdNotify c && s.targetRefused tk (cmdTarget c))) = true ↔
      s.TargetOk tk (cw c 3) ∧ fld (cw c 3) 48 14 = 0 := by
  rw [State.targetOk_iff]
  simp only [cmdNotify, cmdTarget, Bool.and_eq_true, beq_iff_eq, Bool.not_eq_true']
  exact and_right_comm

end Bank

end Sys2Proof.Machine
end

section
/-! The instructions of the copy and bank engines at issue (R40, R305, R306, R310 to R312). -/

namespace Sys2Proof.Machine

/-! ### What the end of an issue leaves -/

@[simp] theorem State.settleSwitch_mem (s : State) (i : Instr) (tk : Nat) : (s.settleSwitch i tk).mem = s.mem := by
  unfold State.settleSwitch; split
  · exact State.modThread_mem ..
  · rfl
@[simp] theorem State.settleSwitch_rf (s : State) (i : Instr) (tk : Nat) : (s.settleSwitch i tk).rf = s.rf := by
  unfold State.settleSwitch; split
  · exact State.modThread_rf ..
  · rfl
@[simp] theorem State.settleSwitch_spend (s : State) (i : Instr) (tk : Nat) : (s.settleSwitch i tk).spend = s.spend := by
  unfold State.settleSwitch; split
  · exact State.modThread_spend ..
  · rfl
@[simp] theorem State.settleSwitch_cores (s : State) (i : Instr) (tk : Nat) : (s.settleSwitch i tk).cores = s.cores := by
  unfold State.settleSwitch; split
  · exact State.modThread_cores ..
  · rfl

@[simp] theorem State.takeTurn_mem (s : State) (tk : Nat) : (s.takeTurn tk).mem = s.mem := rfl
@[simp] theorem State.takeTurn_rf (s : State) (tk : Nat) : (s.takeTurn tk).rf = s.rf := rfl
@[simp] theorem State.takeTurn_spend (s : State) (tk : Nat) : (s.takeTurn tk).spend = s.spend := rfl

/-- The switch marker changes a thread's run state alone, and only when the thread is ready. -/
theorem State.thread?_settleSwitch {s : State} {tk : Nat} {u : Thread} (i : Instr) (h : s.thread? tk = some u) :
    ∃ r, (s.settleSwitch i tk).thread? tk = some { u with run := r } ∧ (u.run ≠ .ready → r = u.run) := by
  unfold State.settleSwitch
  rw [State.thread_of_thread? h]
  split
  · rename_i hs
    exact ⟨.switch, by rw [State.thread?_modThread, h, Option.map_some], fun hne => absurd hs.2.1 hne⟩
  · exact ⟨u.run, h, fun _ => rfl⟩

/-- The parts of a core that belong to its engines are as in another. -/
structure SameEngines (c d : Core) : Prop where
  copyQ : c.copyQ = d.copyQ
  copySeq : c.copySeq = d.copySeq
  bankQ : c.bankQ = d.bankQ
  bankSeq : c.bankSeq = d.bankSeq

/-- The slot's turn is all that the end of an issue changes in its core. -/
theorem State.core_takeTurn (s : State) (tk : Nat) : (s.takeTurn tk).core (coreOf tk) =
    { s.core (coreOf tk) with turn := (s.core (coreOf tk)).turn.set (slotOf tk / 8) (slotOf tk) } :=
  (s.core_modCore (coreOf tk) (coreOf tk) fun c => { c with turn := c.turn.set (slotOf tk / 8) (slotOf tk) }).trans (if_pos rfl)

/-- The state t in which an issue ends has memory, registers and engines of the state v that its effect has left. -/
structure Follows (v t : State) (tk : Nat) : Prop where
  mem : t.mem = v.mem
  rf : t.rf = v.rf
  spend : t.spend = v.spend
  engines : SameEngines (t.core (coreOf tk)) (v.core (coreOf tk))

theorem State.follows_takeTurn (v : State) (i : Instr) (tk : Nat) : Follows v ((v.settleSwitch i tk).takeTurn tk) tk where
  mem := by simp
  rf := by simp
  spend := by simp
  engines := by
    have hc : (v.settleSwitch i tk).core (coreOf tk) = v.core (coreOf tk) := by simp [State.core]
    rw [State.core_takeTurn, hc]
    exact ⟨rfl, rfl, rfl, rfl⟩

/-- A ready instruction completes with what its effect leaves. -/
theorem completes_issued {i : Instr} {s : State} {tk : Nat} {eff : State → State} {v : State} {u : Thread}
    {P : State → Thread → Prop} (hx : exec i s = .next (issued i s tk eff)) (hv : eff (s.afterPops i tk) = v)
    (hu : v.thread? tk = some u)
    (hP : ∀ t r, Follows v t tk → t.thread? tk = some { u with run := r } → (u.run ≠ .ready → r = u.run) →
      P t { u with run := r }) : Completes i s tk P := by
  obtain ⟨r, hr, hrun⟩ := State.thread?_settleSwitch i hu
  refine ⟨(v.settleSwitch i tk).takeTurn tk, { u with run := r }, ?_, hr, rfl, hP _ r (v.follows_takeTurn i tk) hr hrun⟩
  rw [hx, ← hv]
  rfl

/-- A completion with one property is one with every weaker property. -/
theorem completes_mono {i : Instr} {s : State} {tk : Nat} {P Q : State → Thread → Prop} (h : Completes i s tk P)
    (hPQ : ∀ t u, P t u → Q t u) : Completes i s tk Q := by
  obtain ⟨t, u, hx, hu, hc, hP⟩ := h
  exact ⟨t, u, hx, hu, hc, hPQ t u hP⟩

/-! ### Results with a status -/

/-- A state p inside the effect of an instruction that a thread th of s issues: the thread is now u, past the word, and registers
and memory are as at issue. -/
structure Within (s p : State) (tk : Nat) (th u : Thread) : Prop where
  thread : p.thread? tk = some u
  pc : u.pc = th.pc + 4
  base : u.base = th.base
  launch : u.launch = th.launch
  mem : p.mem = s.mem
  rf : p.rf = s.rf
  spend : p.spend = s.spend
  cycle : p.cycle = s.cycle
  nextId : s.nextId ≤ p.nextId

/-- A write of an s register depends on the writes that are not yet visible alone. -/
theorem State.spend_putSWrite_congr {s p : State} (h : p.spend = s.spend) (w : SWrite) :
    (p.putSWrite w).spend = (s.putSWrite w).spend := by
  unfold State.putSWrite
  dsimp only
  rw [h]
  split
  · exact h
  · rfl

@[simp] theorem State.writeReg_threads (s : State) (tk : Nat) (r : Reg) (v : Word) : (s.writeReg tk r v).threads = s.threads := by
  cases r with
  | s k => exact State.putSWrite_threads ..
  | _ => rfl
@[simp] theorem State.writeReg_mem (s : State) (tk : Nat) (r : Reg) (v : Word) : (s.writeReg tk r v).mem = s.mem := by
  cases r with
  | s k => exact State.putSWrite_mem ..
  | _ => rfl

@[simp] theorem State.core_modThread (s : State) (tk : Nat) (f : Thread → Thread) (k : Nat) :
    (s.modThread tk f).core k = s.core k := by
  simp [State.core]

/-- A result leaves the engines' part of every core as it is. -/
theorem State.sameEngines_writeReg (s : State) (tk : Nat) (r : Reg) (v : Word) (core : Nat) :
    SameEngines ((s.writeReg tk r v).core core) (s.core core) := by
  cases r with
  | s k =>
    have hcore : (s.writeReg tk (.s k) v).core core = s.core core :=
      congrArg (fun m : SMap Core => SMap.getD m core {}) (s.putSWrite_cores _)
    rw [hcore]
    exact ⟨rfl, rfl, rfl, rfl⟩
  | q k =>
    have hcore : (s.writeReg tk (.q k) v).core core = _ := s.core_modCore (coreOf tk) core _
    rw [hcore]
    split
    · subst core
      exact ⟨rfl, rfl, rfl, rfl⟩
    · exact ⟨rfl, rfl, rfl, rfl⟩
  | _ => exact ⟨rfl, rfl, rfl, rfl⟩

theorem SameEngines.trans {a b c : Core} (h : SameEngines a b) (h' : SameEngines b c) : SameEngines a c :=
  ⟨h.copyQ.trans h'.copyQ, h.copySeq.trans h'.copySeq, h.bankQ.trans h'.bankQ, h.bankSeq.trans h'.bankSeq⟩

/-- The code of a status word after a status has been written. -/
theorem code_setStatusField (v : Word) {code : Nat} (h : code < 8) :
    (setStatusField v code).extractLsb' 0 3 = BitVec.ofNat 3 code := by
  have hmask : ∀ i : Fin 3, (~~~(7 : Word)).getLsbD i.val = false := by decide
  ext i hi
  have hi' : i < 64 := by omega
  simp only [setStatusField, BitVec.getElem_extractLsb', Nat.zero_add, BitVec.getLsbD_or, BitVec.getLsbD_and, hmask ⟨i, hi⟩,
    word, Nat.mod_eq_of_lt h, Bool.and_false, Bool.false_or, BitVec.getLsbD_ofNat, hi', decide_true, Bool.true_and]
  rw [← BitVec.getLsbD_eq_getElem hi, BitVec.getLsbD_ofNat]
  simp [hi]

section Status

variable {i : Instr} {s p : State} {tk : Nat} {th u : Thread} {rd : Reg} {v : Word} {code : Nat}

/-- A result with a status that an effect writes last stands in its register when the instruction has completed. -/
theorem Within.puts {t : State} {u' : Thread} (hw : Within s p tk th u) (hrf : SMap.sortedFrom 0 s.rf = true)
    (ht : t.thread? tk = some u') (hbase : u'.base = u.base)
    (hf : Follows (p.writeStatus tk rd v code) t tk) : Puts s t tk rd v := by
  constructor
  · rintro k rfl
    have hkey : t.rfKey tk k.val = p.rfKey tk k.val := by
      simp only [State.rfKey, State.thread_of_thread? ht, State.thread_of_thread? hw.thread, hbase]
    have hrf' : t.rf = (p.writeG tk k.val v).rf := hf.rf.trans (State.modThread_rf ..)
    rw [State.readG, hkey, hrf']
    exact p.readG_writeG tk k.val v (hw.rf ▸ hrf)
  · rintro k rfl
    refine ⟨p.nextId, hw.nextId, ?_⟩
    rw [hf.spend, ← hw.cycle]
    exact (State.modThread_spend ..).trans (State.spend_putSWrite_congr hw.spend _)

/-- An effect that ends with a result and a status. -/
theorem Within.completes {eff : State → State} (hw : Within s p tk th u) (hrf : SMap.sortedFrom 0 s.rf = true)
    (hcode : code < 8) (hx : exec i s = .next (issued i s tk eff))
    (hv : eff (s.afterPops i tk) = p.writeStatus tk rd v code) : Completes i s tk fun t u' =>
      (u'.pc = th.pc + 4 ∧ codeOf u' = BitVec.ofNat 3 code ∧ t.mem = s.mem ∧ Puts s t tk rd v) ∧
        u'.bankCount = u.bankCount ∧ SameEngines (t.core (coreOf tk)) (p.core (coreOf tk)) := by
  have hu : (p.writeStatus tk rd v code).thread? tk = some { u with status := setStatusField u.status code } := by
    have hth : (p.writeReg tk rd v).thread? tk = some u := by
      rw [State.thread?, State.writeReg_threads]; exact hw.thread
    rw [State.writeStatus, State.setStatus, State.thread?_modThread, hth, Option.map_some]
  refine completes_issued hx hv hu fun t r hf ht _ =>
    ⟨⟨hw.pc, code_setStatusField u.status hcode, ?_, hw.puts hrf ht rfl hf⟩, rfl, hf.engines.trans ?_⟩
  · rw [hf.mem, State.writeStatus, State.setStatus, State.modThread_mem, State.writeReg_mem, hw.mem]
  · rw [State.writeStatus, State.setStatus, State.core_modThread]
    exact p.sameEngines_writeReg tk rd v _

end Status

/-! ### Waits -/

/-- The wait that an instruction begins, with a number of its own. -/
def newWait (i : Instr) (x : Issue) (id stage : Nat) (deadline : Option Nat) : Wait :=
  { id := id, instr := i, vals := x.vals, stage := stage, stamp := id, pre := x.pre, deadline := deadline }

section Wait

variable {s p : State} {i : Instr} {x : Issue} {tk : Nat} {u : Thread} {d : Option Nat} {stage : Nat}

/-- A wait that begins changes its thread and the next number alone. -/
theorem State.beginWait_eq (hc : x.carry = none) : p.beginWait i x d stage =
    State.modThread { p with nextId := p.nextId + 1 } x.tk fun th =>
      { th with pc := x.pc, run := .wait (newWait i x p.nextId stage d) } := by
  rw [State.beginWait, hc]
  rfl

theorem State.thread?_beginWait (hc : x.carry = none) (hu : p.thread? x.tk = some u) :
    (p.beginWait i x d stage).thread? x.tk = some { u with pc := x.pc, run := .wait (newWait i x p.nextId stage d) } := by
  rw [State.beginWait_eq hc, State.thread?_modThread]
  exact congrArg (Option.map _) hu

@[simp] theorem State.beginWait_rf : (p.beginWait i x d stage).rf = p.rf := State.modThread_rf ..
@[simp] theorem State.beginWait_mem : (p.beginWait i x d stage).mem = p.mem := State.modThread_mem ..
@[simp] theorem State.beginWait_cores : (p.beginWait i x d stage).cores = p.cores := State.modThread_cores ..

/-- A wait changed is its thread's run state changed. -/
theorem State.modWait_eq {w : Wait} (f : Wait → Wait) (hu : s.thread? tk = some u) (hw : u.run = .wait w) :
    s.modWait tk f = s.modThread tk fun th => { th with run := .wait (f w) } := by
  rw [State.modWait, State.thread_of_thread? hu, Thread.wait?, hw]

end Wait

/-- The bound of Table FM-2 at a state of the same cycle. -/
theorem State.bound_eq {s p : State} (h : p.cycle = s.cycle) (e : BitVec 4) : p.bound e.toNat = boundOf s e := by
  have he : e.toNat = 15 ↔ e = 15 := ⟨fun h15 => BitVec.eq_of_toNat_eq h15, fun h15 => congrArg BitVec.toNat h15⟩
  simp only [State.bound, boundOf, he, h]

/-! ### Threads that wait to push (log 105) -/

/-- A value placed where one stands changes nothing for a reading that tells the two not apart. -/
theorem SMap.filterMap_put {α β : Type} {m : SMap α} {k : Nat} {v v' : α} (g : Nat × α → Option β)
    (h : SMap.get? m k = some v) (hg : g (k, v') = g (k, v)) : (SMap.put m k v').filterMap g = m.filterMap g := by
  induction m with
  | nil => cases h
  | cons e m ih =>
    obtain ⟨j, w⟩ := e
    simp only [SMap.get?] at h
    simp only [SMap.put]
    split at h
    · subst j
      cases h
      rw [if_pos rfl, List.filterMap_cons, List.filterMap_cons, hg]
    · split at h
      · cases h
      · rw [if_neg ‹_›, if_neg ‹_›, List.filterMap_cons, List.filterMap_cons, ih h]

/-- A thread that waits neither before a change nor after it is no waiting thread of its core. -/
theorem State.waitsOf_modThread {s : State} {tk : Nat} {th : Thread} {f : Thread → Thread} (core : Nat)
    (h : s.thread? tk = some th) (hw : th.wait? = none) (hw' : (f th).wait? = none) :
    (s.modThread tk f).waitsOf core = s.waitsOf core := by
  have hput : (s.modThread tk f).threads = SMap.put s.threads tk (f th) := by
    unfold State.thread? at h
    simp only [State.modThread, h]
  unfold State.waitsOf
  dsimp only
  rw [hput, SMap.filterMap_put _ h]
  simp only [hw, hw', Option.map_none]

/-! ### Commands at issue -/

/-- A command whose word n is the first faulty one traps with reason 16 + n (R40). -/
theorem issue_commandFault {i : Instr} {s : State} {tk : Nat} {th : Thread} {chk : Issue → State → Check}
    {eff : Issue → State → State} {f : Option Nat} {n : Nat} (h : Ready i s tk th)
    (hc : chk (s.issueOf tk th i) s = commandCheck i (s.issueOf tk th i) f) (hf : f = some n) :
    issue i chk eff s = .next ((s.trap tk 1 (16 + n) (prefixOf th ++ encode i)).takeTurn tk) := by
  rw [← wordReport_eq]
  exact issue_trap h (by rw [hc, hf]; rfl)

/-- A command with no faulty word has its effect. -/
theorem issue_command {i : Instr} {s : State} {tk : Nat} {th : Thread} {chk : Issue → State → Check}
    {eff : Issue → State → State} {f : Option Nat} (h : Ready i s tk th)
    (hc : chk (s.issueOf tk th i) s = commandCheck i (s.issueOf tk th i) f) (hf : f = none) :
    issue i chk eff s = .next (issued i s tk (eff (s.issueOf tk th i))) :=
  issue_ready h (by rw [hc, hf]; rfl)

/-- Neither the pops nor the step past an instruction change the registers of a command. -/
theorem State.readQuad_afterPops {s : State} {tk : Nat} {th : Thread} (i : Instr) (r : Reg) (hth : s.thread? tk = some th) :
    (s.afterPops i tk).readQuad tk r = s.readQuad tk r := by
  simp only [State.readQuad, State.readG, State.rfKey, State.thread_afterPops i hth, State.thread_of_thread? hth,
    State.afterPops_rf]

section NoPops

variable {i : Instr} {s : State} {tk : Nat} {th : Thread} (hpop : popList i = []) (hth : s.thread? tk = some th)
include hpop

/-- With nothing to pop, an effect begins where the pc has stepped on. -/
theorem State.afterPops_of_no_pops : s.afterPops i tk = s.advance tk := by
  rw [State.afterPops, hpop]
  rfl

theorem State.core_afterPops (core : Nat) : (s.afterPops i tk).core core = s.core core := by
  rw [State.afterPops_of_no_pops hpop]
  exact State.core_modThread ..

include hth

/-- An effect begins with registers and memory as at issue, and with its thread past the word. -/
theorem within_afterPops : Within s (s.afterPops i tk) tk th
    { th with pc := th.pc + 4, status := clearPrefix th.status, run := .ready, carry := none } := by
  rw [State.afterPops_of_no_pops hpop]
  refine ⟨?_, rfl, rfl, rfl, State.modThread_mem .., State.modThread_rf .., State.modThread_spend .., State.modThread_cycle ..,
    (State.modThread_nextId ..).ge⟩
  rw [State.advance, State.thread?_modThread, hth, Option.map_some]

/-- A thread that issues is none of those that wait. -/
theorem State.pushWaiting_afterPops (hrun : th.wait? = none) (core : Nat) :
    (s.afterPops i tk).pushWaiting core = s.pushWaiting core := by
  rw [State.afterPops_of_no_pops hpop, State.pushWaiting, State.pushWaiting, State.advance,
    State.waitsOf_modThread core hth hrun rfl]

end NoPops

/-! ### Commands pushed, and pushes that wait -/

/-- A copy command pushed changes its core and the next number alone. -/
theorem Within.pushCopy {s p : State} {tk : Nat} {th u : Thread} (h : Within s p tk th u) (pc : BitVec 48) (c : List Word)
    (wid : Nat) : Within s (p.pushCopy tk pc c wid) tk th u :=
  ⟨h.thread, h.pc, h.base, h.launch, h.mem, h.rf, h.spend, h.cycle, h.nextId.trans (Nat.le_succ _)⟩

/-- A copy command pushed is the last of its core's FIFO, and takes the core's sequence number. -/
theorem State.core_pushCopy (p : State) (tk : Nat) (pc : BitVec 48) (c : List Word) (wid : Nat) :
    (p.pushCopy tk pc c wid).core (coreOf tk) = { p.core (coreOf tk) with
      copyQ := (p.core (coreOf tk)).copyQ ++ [(p.command tk pc c (p.core (coreOf tk)).copySeq wid).1]
      copySeq := ((p.core (coreOf tk)).copySeq + 1) % 65536 } :=
  (State.core_modCore (p.command tk pc c (p.core (coreOf tk)).copySeq wid).2 (coreOf tk) (coreOf tk) _).trans (if_pos rfl)

/-- A bank command pushed changes its core, the count of its thread and the next number alone. -/
theorem Within.pushBank {s p : State} {tk : Nat} {th u : Thread} (h : Within s p tk th u) (pc : BitVec 48) (c : List Word) :
    Within s (p.pushBank tk pc c) tk th { u with bankCount := u.bankCount + 1 } :=
  ⟨by
    refine (State.thread?_modThread _ tk _).trans ?_
    exact congrArg (Option.map _) h.thread,
    h.pc, h.base, h.launch, (State.modThread_mem ..).trans h.mem, (State.modThread_rf ..).trans h.rf,
    (State.modThread_spend ..).trans h.spend, (State.modThread_cycle ..).trans h.cycle,
    by
      rw [State.pushBank, State.modThread_nextId]
      exact h.nextId.trans (Nat.le_succ _)⟩

/-- A bank command pushed is the last of its core's FIFO, and takes the core's sequence number. -/
theorem State.core_pushBank (p : State) (tk : Nat) (pc : BitVec 48) (c : List Word) :
    (p.pushBank tk pc c).core (coreOf tk) = { p.core (coreOf tk) with
      bankQ := (p.core (coreOf tk)).bankQ ++ [(p.command tk pc c (p.core (coreOf tk)).bankSeq 0).1]
      bankSeq := ((p.core (coreOf tk)).bankSeq + 1) % 65536 } :=
  (State.core_modThread ..).trans
    ((State.core_modCore (p.command tk pc c (p.core (coreOf tk)).bankSeq 0).2 (coreOf tk) (coreOf tk) _).trans (if_pos rfl))

/-- A command that a thread has entered, with the registers it read and a sequence number. -/
def Entered (tk : Nat) (th : Thread) (c : List Word) (m : Cmd) (seq : Nat) : Prop :=
  m.words = c ∧ m.tk = tk ∧ m.pc = th.pc ∧ m.seq = seq ∧ m.launch = th.launch

/-- The command that a thread enters. -/
theorem entered {p : State} {tk : Nat} {th u : Thread} (hu : p.thread? tk = some u) (hl : u.launch = th.launch)
    (c : List Word) (seq wid : Nat) : Entered tk th c (p.command tk th.pc c seq wid).1 seq :=
  ⟨rfl, rfl, rfl, rfl, (congrArg Thread.launch (State.thread_of_thread? hu)).trans hl⟩

/-! ### An effect that leaves its thread waiting -/

/-- A state v inside the effect of an instruction that a thread th of s issues: the thread waits at the word with the wait w, and
registers and memory are as at issue. -/
structure Parked (s v : State) (tk : Nat) (th : Thread) (w : Wait) : Prop where
  thread : ∃ u, v.thread? tk = some u ∧ u.run = .wait w ∧ u.pc = th.pc ∧ u.launch = th.launch
  mem : v.mem = s.mem
  rf : v.rf = s.rf

section Parked

variable {s p v : State} {tk : Nat} {th u : Thread} {w : Wait}

/-- An effect that begins a wait parks its thread. -/
theorem Within.beginWait (h : Within s p tk th u) (i : Instr) (d : Option Nat) (hcarry : th.carry = none) :
    Parked s (p.beginWait i (s.issueOf tk th i) d 0) tk th (newWait i (s.issueOf tk th i) p.nextId 0 d) :=
  ⟨⟨_, State.thread?_beginWait (x := s.issueOf tk th i) hcarry h.thread, rfl, rfl, h.launch⟩,
    State.beginWait_mem.trans h.mem, State.beginWait_rf.trans h.rf⟩

theorem Parked.wait? (h : Parked s v tk th w) : (v.thread tk).wait? = some w := by
  obtain ⟨u, hu, hrun, -, -⟩ := h.thread
  rw [State.thread_of_thread? hu, Thread.wait?, hrun]

/-- A wait changed stays its thread's wait. -/
theorem Parked.modWait (h : Parked s v tk th w) (f : Wait → Wait) : Parked s (v.modWait tk f) tk th (f w) := by
  obtain ⟨u, hu, hrun, hpc, hl⟩ := h.thread
  rw [State.modWait_eq f hu hrun]
  refine ⟨⟨{ u with run := .wait (f w) }, ?_, rfl, hpc, hl⟩, (State.modThread_mem ..).trans h.mem,
    (State.modThread_rf ..).trans h.rf⟩
  rw [State.thread?_modThread, hu, Option.map_some]

/-- A copy command pushed leaves the wait as it is. -/
theorem Parked.pushCopy (h : Parked s v tk th w) (pc : BitVec 48) (c : List Word) (wid : Nat) :
    Parked s (v.pushCopy tk pc c wid) tk th w := ⟨h.thread, h.mem, h.rf⟩

theorem State.core_modWait (v : State) (tk : Nat) (f : Wait → Wait) (core : Nat) : (v.modWait tk f).core core = v.core core := by
  unfold State.modWait
  split
  · rfl
  · exact State.core_modThread ..

theorem State.core_beginWait (v : State) (i : Instr) (x : Issue) (d : Option Nat) (stage core : Nat) :
    (v.beginWait i x d stage).core core = v.core core :=
  congrArg (fun m : SMap Core => SMap.getD m core {}) State.beginWait_cores

/-- The state in which an issuing instruction waits to push with the registers of its command. -/
def State.waitToPush (p : State) (i : Instr) (x : Issue) (d : Option Nat) (c : List Word) : State :=
  (p.beginWait i x d 0).modWait x.tk fun w => { w with vals := c }

theorem Within.waitToPush (h : Within s p tk th u) (i : Instr) (d : Option Nat) (c : List Word) (hcarry : th.carry = none) :
    Parked s (p.waitToPush i (s.issueOf tk th i) d c) tk th
      { newWait i (s.issueOf tk th i) p.nextId 0 d with vals := c } :=
  (h.beginWait i d hcarry).modWait fun w => { w with vals := c }

theorem State.core_waitToPush (p : State) (i : Instr) (x : Issue) (d : Option Nat) (c : List Word) (core : Nat) :
    (p.waitToPush i x d c).core core = p.core core :=
  (State.core_modWait ..).trans (State.core_beginWait ..)

/-- An instruction whose effect parks its thread completes with the thread waiting. -/
theorem Parked.completes {i : Instr} {eff : State → State} (h : Parked s v tk th w)
    (hx : exec i s = .next (issued i s tk eff)) (hv : eff (s.afterPops i tk) = v) :
    Completes i s tk fun t u => u.run = .wait w ∧ u.pc = th.pc ∧ t.rf = s.rf ∧ t.mem = s.mem ∧
      SameEngines (t.core (coreOf tk)) (v.core (coreOf tk)) := by
  obtain ⟨u, hu, hrun, hpc, -⟩ := h.thread
  exact completes_issued hx hv hu fun t r hf _ hr => ⟨(hr (by simp [hrun])).trans hrun, hpc, hf.rf.trans h.rf,
    hf.mem.trans h.mem, hf.engines⟩

end Parked

section Push

variable {i : Instr} {s : State} {tk : Nat} {th : Thread} {eff : State → State} {rd : Reg} {c : List Word} {e : BitVec 4}
  (hpop : popList i = []) (hth : s.thread? tk = some th) (hx : exec i s = .next (issued i s tk eff))
include hpop hth hx

/-- CPY and CPYS with room enter their command and write its sequence number (R305). -/
theorem completes_pushCopy (hrf : SMap.sortedFrom 0 s.rf = true)
    (hv : eff (s.afterPops i tk) = ((s.afterPops i tk).pushCopy tk th.pc c 0).writeStatus tk rd
      (word (s.core (coreOf tk)).copySeq) 0) :
    Completes i s tk fun t u => (u.pc = th.pc + 4 ∧ codeOf u = 0 ∧ t.mem = s.mem ∧
      Puts s t tk rd (BitVec.ofNat 64 (s.core (coreOf tk)).copySeq)) ∧
      (t.core (coreOf tk)).copySeq = ((s.core (coreOf tk)).copySeq + 1) % 2 ^ 16 ∧
      ∃ m : Cmd, (t.core (coreOf tk)).copyQ = (s.core (coreOf tk)).copyQ ++ [m] ∧
        Entered tk th c m (s.core (coreOf tk)).copySeq ∧ m.wid = 0 := by
  have hw := within_afterPops hpop hth
  refine completes_mono ((hw.pushCopy th.pc c 0).completes hrf (by decide) hx hv) fun t u ⟨hdone, _, heng⟩ => ⟨hdone, ?_⟩
  rw [State.core_pushCopy, State.core_afterPops hpop] at heng
  exact ⟨heng.copySeq, _, heng.copyQ, entered hw.thread hw.launch c _ 0, rfl⟩

/-- CPY without room writes FULL and no register (R305). -/
theorem completes_full (hv : eff (s.afterPops i tk) = (s.afterPops i tk).setStatus tk 2) :
    Completes i s tk fun t u => u.pc = th.pc + 4 ∧ codeOf u = 2 ∧ t.rf = s.rf ∧
      (t.core (coreOf tk)).copyQ = (s.core (coreOf tk)).copyQ := by
  have hw := within_afterPops hpop hth
  have hu := (State.thread?_modThread (s.afterPops i tk) tk
    fun u => { u with status := setStatusField u.status 2 }).trans (congrArg (Option.map _) hw.thread)
  refine completes_issued hx hv hu fun t r hf _ _ => ⟨hw.pc, code_setStatusField _ (by decide), ?_, ?_⟩
  · rw [hf.rf, State.setStatus, State.modThread_rf, hw.rf]
  · rw [hf.engines.copyQ, State.setStatus, State.core_modThread, State.core_afterPops hpop]

/-- BMV with room enters its command, counts it, and writes its sequence number (R310). -/
theorem completes_pushBank (hrf : SMap.sortedFrom 0 s.rf = true)
    (hv : eff (s.afterPops i tk) = ((s.afterPops i tk).pushBank tk th.pc c).writeStatus tk rd
      (word (s.core (coreOf tk)).bankSeq) 0) :
    Completes i s tk fun t u => (u.pc = th.pc + 4 ∧ codeOf u = 0 ∧ t.mem = s.mem ∧
      Puts s t tk rd (BitVec.ofNat 64 (s.core (coreOf tk)).bankSeq)) ∧ u.bankCount = th.bankCount + 1 ∧
      (t.core (coreOf tk)).bankSeq = ((s.core (coreOf tk)).bankSeq + 1) % 2 ^ 16 ∧
      ∃ m : Cmd, (t.core (coreOf tk)).bankQ = (s.core (coreOf tk)).bankQ ++ [m] ∧
        Entered tk th c m (s.core (coreOf tk)).bankSeq := by
  have hw := within_afterPops hpop hth
  refine completes_mono ((hw.pushBank th.pc c).completes hrf (by decide) hx hv) fun t u ⟨hdone, hcount, heng⟩ =>
    ⟨hdone, hcount, ?_⟩
  rw [State.core_pushBank, State.core_afterPops hpop] at heng
  exact ⟨heng.bankSeq, _, heng.bankQ, entered hw.thread hw.launch c _ 0⟩

variable (hcarry : th.carry = none)
include hcarry

/-- A push without room waits with its command (R305, R306, R310). -/
theorem completes_waitToPush (hv : eff (s.afterPops i tk) =
      (s.afterPops i tk).waitToPush i (s.issueOf tk th i) ((s.afterPops i tk).bound e.toNat) c) :
    Completes i s tk fun t u => t.rf = s.rf ∧ SameEngines (t.core (coreOf tk)) (s.core (coreOf tk)) ∧
      ∃ w, u.run = .wait w ∧ u.pc = th.pc ∧ w.instr = i ∧ w.vals = c ∧ w.deadline = boundOf s e ∧ w.stage = 0 := by
  have hw := within_afterPops hpop hth
  refine completes_mono ((hw.waitToPush i _ c hcarry).completes hx hv) fun t u ⟨hrun, hpc, hrf, _, heng⟩ =>
    ⟨hrf, ?_, _, hrun, hpc, rfl, rfl, State.bound_eq hw.cycle e, rfl⟩
  rwa [State.core_waitToPush, State.core_afterPops hpop] at heng

/-- CPYX with room enters its command and waits for its completion (R306). -/
theorem completes_pushedX (hv : eff (s.afterPops i tk) =
      (((s.afterPops i tk).waitToPush i (s.issueOf tk th i) ((s.afterPops i tk).bound e.toNat) c).pushCopy tk th.pc c
        (s.afterPops i tk).nextId).pushedX tk (s.core (coreOf tk)).copySeq) :
    Completes i s tk fun t u => t.rf = s.rf ∧
      ∃ w, u.run = .wait w ∧ u.pc = th.pc ∧ w.instr = i ∧ w.vals = c ∧ w.deadline = boundOf s e ∧
        w.stage = 1 ∧ w.count = (s.core (coreOf tk)).copySeq ∧
        ∃ m : Cmd, (t.core (coreOf tk)).copyQ = (s.core (coreOf tk)).copyQ ++ [m] ∧
          Entered tk th c m (s.core (coreOf tk)).copySeq ∧ m.wid = w.id := by
  have hw := within_afterPops hpop hth
  have hpark := hw.waitToPush i ((s.afterPops i tk).bound e.toNat) c hcarry
  have hpushed := (hpark.pushCopy th.pc c (s.afterPops i tk).nextId).modWait fun w =>
    { w with stage := 1, count := (s.core (coreOf tk)).copySeq }
  refine completes_mono (hpushed.completes hx hv) fun t u ⟨hrun, hpc, hrf, _, heng⟩ => ?_
  rw [State.core_modWait, State.core_pushCopy, State.core_waitToPush, State.core_afterPops hpop] at heng
  obtain ⟨v, hv, -, -, hl⟩ := hpark.thread
  exact ⟨hrf, _, hrun, hpc, rfl, rfl, State.bound_eq hw.cycle e, rfl, rfl, _, heng.copyQ, entered hv hl c _ _, rfl⟩

/-- BFENCE waits (R311). -/
theorem completes_fence (hv : eff (s.afterPops i tk) =
      (s.afterPops i tk).beginWait i (s.issueOf tk th i) ((s.afterPops i tk).bound e.toNat) 0) :
    Completes i s tk fun t u => t.rf = s.rf ∧ t.mem = s.mem ∧ Waits s tk th u i (boundOf s e) fun _ => True := by
  have hw := within_afterPops hpop hth
  refine completes_mono ((hw.beginWait i _ hcarry).completes hx hv) fun t u ⟨hrun, hpc, hrf, hmem, _⟩ =>
    ⟨hrf, hmem, _, hrun, hpc, rfl, State.bound_eq hw.cycle e, fun n hn => ?_, trivial⟩
  simp [newWait, State.issueOf, hn]

end Push

end Sys2Proof.Machine
end

section
/-! The engine instructions one by one, and the statement (R40, R305 to R308, R310 to R312). -/

namespace Sys2Proof.Machine

/-- A wait that an effect begins is what follows sees. -/
theorem State.waitThen_eq {p : State} {i : Instr} {x : Issue} {d : Option Nat} {u : Thread} (f : Wait → State → State)
    (hc : x.carry = none) (hu : p.thread? x.tk = some u) :
    p.waitThen i x d f = f (newWait i x p.nextId 0 d) (p.beginWait i x d 0) := by
  rw [State.waitThen]
  rw [State.thread_of_thread? (State.thread?_beginWait hc hu)]
  rfl

theorem State.copyRoom_iff {s : State} {core : Nat} : s.copyRoom core = true ↔ (s.core core).copyQ.length < 4 :=
  decide_eq_true_iff
theorem State.bankRoom_iff {s : State} {core : Nat} : s.bankRoom core = true ↔ (s.core core).bankQ.length < 8 :=
  decide_eq_true_iff

/-- A push is entered when its FIFO has room and no other push waits (R305, log 105). -/
theorem free_iff {room waiting : Bool} {p : Prop} (hroom : room = true ↔ p) :
    (room && !waiting) = true ↔ p ∧ waiting = false := by
  rw [Bool.and_eq_true, Bool.not_eq_true', hroom]

/-- A push waits when its FIFO is full or another push waits. -/
theorem not_free {room waiting : Bool} {n k : Nat} (hroom : room = true ↔ n < k) (h : k ≤ n ∨ waiting = true) :
    ¬ (room && !waiting) = true := fun hfree =>
  have ⟨hlt, hwait⟩ := (free_iff hroom).mp hfree
  h.elim (Nat.not_le.mpr hlt) (by simp [hwait])

section Commands

variable {sm : Bool} {rd : Reg} {a : Fin 96} {e : BitVec 4} {x : BitVec 3} {s : State} {tk : Nat} {th : Thread}

/-- A thread that issues does not wait. -/
theorem wait?_eq_none_of_sized (hs : Sized s) (h : Issuing s tk th) : th.wait? = none := by
  obtain ⟨_, _, _, _, _, _, _, hrun⟩ := hs
  obtain hr | ⟨i, hr⟩ := hrun tk th h.1 h.2 <;> rw [Thread.wait?, hr]

theorem State.copyRoom_afterPops {i : Instr} (hpop : popList i = []) (core : Nat) :
    (s.afterPops i tk).copyRoom core = s.copyRoom core :=
  congrArg (fun k : Core => decide (k.copyQ.length < 4)) (State.core_afterPops hpop core)
theorem State.bankRoom_afterPops {i : Instr} (hpop : popList i = []) (core : Nat) :
    (s.afterPops i tk).bankRoom core = s.bankRoom core :=
  congrArg (fun k : Core => decide (k.bankQ.length < 8)) (State.core_afterPops hpop core)

theorem issueOf_tk (i : Instr) : (s.issueOf tk th i).tk = tk := rfl
theorem issueOf_core (i : Instr) : (s.issueOf tk th i).core = coreOf tk := rfl
theorem issueOf_pc (i : Instr) : (s.issueOf tk th i).pc = th.pc := rfl

/-- CPY with a faultless command (R305). -/
theorem exec_cpy (h : Ready (.cpy sm rd (.g a)) s tk th) (hf : s.copyFault tk (s.readQuad tk (.g a)) false = none) :
    exec (.cpy sm rd (.g a)) s = .next (issued (.cpy sm rd (.g a)) s tk fun p =>
      if s.copyRoom (coreOf tk) then
        (p.pushCopy tk th.pc (s.readQuad tk (.g a)) 0).writeStatus tk rd (word (s.core (coreOf tk)).copySeq) 0
      else p.setStatus tk 2) := by
  refine (issue_command h rfl hf).trans (congrArg Host.Outcome.next (issued_congr ?_))
  have hpop : popList (.cpy sm rd (.g a)) = [] := rfl
  simp only [issueOf_tk, issueOf_core, issueOf_pc, State.copyRoom_afterPops hpop, State.core_afterPops hpop,
    State.readQuad_afterPops _ _ h.issuing.2]

/-- CPYS with a faultless command (R305). -/
theorem exec_cpys (hs : Sized s) (h : Ready (.cpys sm rd (.g a) e) s tk th)
    (hf : s.copyFault tk (s.readQuad tk (.g a)) false = none) :
    exec (.cpys sm rd (.g a) e) s = .next (issued (.cpys sm rd (.g a) e) s tk fun p =>
      if s.copyRoom (coreOf tk) && !s.pushWaiting (coreOf tk) then
        (p.pushCopy tk th.pc (s.readQuad tk (.g a)) 0).writeStatus tk rd (word (s.core (coreOf tk)).copySeq) 0
      else p.waitToPush (.cpys sm rd (.g a) e) (s.issueOf tk th (.cpys sm rd (.g a) e)) (p.bound e.toNat)
        (s.readQuad tk (.g a))) := by
  refine (issue_command h rfl hf).trans (congrArg Host.Outcome.next (issued_congr ?_))
  have hpop : popList (.cpys sm rd (.g a) e) = [] := rfl
  have hwait := wait?_eq_none_of_sized hs h.issuing
  simp only [issueOf_tk, issueOf_core, issueOf_pc, State.copyRoom_afterPops hpop, State.core_afterPops hpop,
    State.pushWaiting_afterPops hpop h.issuing.2 hwait, State.readQuad_afterPops _ _ h.issuing.2, State.waitToPush]

/-- CPYX with a faultless command (R306). -/
theorem exec_cpyx (hs : Sized s) (hcarry : th.carry = none) (h : Ready (.cpyx sm rd (.g a) e) s tk th)
    (hf : s.copyFault tk (s.readQuad tk (.g a)) true = none) :
    exec (.cpyx sm rd (.g a) e) s = .next (issued (.cpyx sm rd (.g a) e) s tk fun p =>
      let parked := p.waitToPush (.cpyx sm rd (.g a) e) (s.issueOf tk th (.cpyx sm rd (.g a) e)) (p.bound e.toNat)
        (s.readQuad tk (.g a))
      if s.copyRoom (coreOf tk) && !s.pushWaiting (coreOf tk) then
        (parked.pushCopy tk th.pc (s.readQuad tk (.g a)) p.nextId).pushedX tk (s.core (coreOf tk)).copySeq
      else parked) := by
  refine (issue_command h rfl hf).trans (congrArg Host.Outcome.next (issued_congr ?_))
  have hpop : popList (.cpyx sm rd (.g a) e) = [] := rfl
  have hwait := wait?_eq_none_of_sized hs h.issuing
  have hthen := State.waitThen_eq (x := s.issueOf tk th (.cpyx sm rd (.g a) e)) (i := .cpyx sm rd (.g a) e)
    (d := (s.afterPops (.cpyx sm rd (.g a) e) tk).bound e.toNat)
    (p := s.afterPops (.cpyx sm rd (.g a) e) tk) (hc := hcarry) (hu := (within_afterPops hpop h.issuing.2).thread)
  simp only [hthen, issueOf_tk, issueOf_core, issueOf_pc, State.copyRoom_afterPops hpop, State.core_modWait,
    State.core_beginWait, State.core_afterPops hpop,
    State.pushWaiting_afterPops hpop h.issuing.2 hwait, State.readQuad_afterPops _ _ h.issuing.2, State.waitToPush, newWait]

/-- BMV with a faultless command (R310). -/
theorem exec_bmv (hs : Sized s) (h : Ready (.bmv sm rd (.g a) e) s tk th)
    (hf : s.bankFault tk (s.readQuad tk (.g a)) = none) :
    exec (.bmv sm rd (.g a) e) s = .next (issued (.bmv sm rd (.g a) e) s tk fun p =>
      if s.bankRoom (coreOf tk) && !s.pushWaiting (coreOf tk) then
        (p.pushBank tk th.pc (s.readQuad tk (.g a))).writeStatus tk rd (word (s.core (coreOf tk)).bankSeq) 0
      else p.waitToPush (.bmv sm rd (.g a) e) (s.issueOf tk th (.bmv sm rd (.g a) e)) (p.bound e.toNat)
        (s.readQuad tk (.g a))) := by
  refine (issue_command h rfl hf).trans (congrArg Host.Outcome.next (issued_congr ?_))
  have hpop : popList (.bmv sm rd (.g a) e) = [] := rfl
  have hwait := wait?_eq_none_of_sized hs h.issuing
  simp only [issueOf_tk, issueOf_core, issueOf_pc, State.bankRoom_afterPops hpop, State.core_afterPops hpop,
    State.pushWaiting_afterPops hpop h.issuing.2 hwait, State.readQuad_afterPops _ _ h.issuing.2, State.waitToPush]

/-- The snapshot that BSTAT writes for the bank engine (R312). -/
theorem State.bankStat_afterPops {i : Instr} (hpop : popList i = []) (hth : s.thread? tk = some th) :
    (s.afterPops i tk).bankStat tk = BitVec.ofNat 64 ((s.core (coreOf tk)).bankQ.length +
      2 ^ 4 * (if (s.core (coreOf tk)).bankRun.isSome then 1 else 0) + 2 ^ 8 * (th.bankCount % 2 ^ 16) +
      2 ^ 24 * (if th.bankFault then 1 else 0) + 2 ^ 32 * (s.core (coreOf tk)).bankSeq) := by
  simp only [State.bankStat, State.core_afterPops hpop, State.thread_afterPops i hth, word, at', bit, Nat.mul_comm]
  rfl

/-- The snapshot that BSTAT writes for the copy engine (R312). -/
theorem State.copyStat_afterPops {i : Instr} (hpop : popList i = []) (core : Nat) :
    (s.afterPops i tk).copyStat core = BitVec.ofNat 64 ((s.core core).copyQ.length +
      2 ^ 3 * ((s.engine (engineOf core)).active.filter fun y => coreOf y.cmd.tk == core).length +
      2 ^ 32 * (s.core core).copySeq) := by
  have hengines : (s.afterPops i tk).engines = s.engines := by
    rw [State.afterPops_of_no_pops hpop, State.advance, State.modThread_engines]
  simp only [State.copyStat, State.core_afterPops hpop, State.engine, hengines, word, at', Nat.mul_comm]

section Bstat

variable (hrf : SMap.sortedFrom 0 s.rf = true) (h : Ready (.bstat sm rd x) s tk th)
include hrf h

/-- BSTAT completes with the value and the code that its effect writes. -/
theorem completes_bstat {v : Word} {code : Nat} (hcode : code < 8)
    (hv : (if isChannel (coreOf tk) = (x == 0) then
        (s.afterPops (.bstat sm rd x) tk).writeStatus tk rd (if x = 0 then (s.afterPops (.bstat sm rd x) tk).bankStat tk
          else (s.afterPops (.bstat sm rd x) tk).copyStat (coreOf tk)) 0
      else (s.afterPops (.bstat sm rd x) tk).writeStatus tk rd 0 4) =
        (s.afterPops (.bstat sm rd x) tk).writeStatus tk rd v code) :
    Completes (.bstat sm rd x) s tk fun t u =>
      u.pc = th.pc + 4 ∧ codeOf u = BitVec.ofNat 3 code ∧ t.mem = s.mem ∧ Puts s t tk rd v :=
  completes_mono ((within_afterPops rfl h.issuing.2).completes hrf hcode (issue_noCheck h) hv) fun _ _ => And.left

/-- BSTAT of the bank engine on a core that has one (R312). -/
theorem completes_bstat_bank (hchannel : isChannel (coreOf tk) = true) (hx : x = 0) :
    Completes (.bstat sm rd x) s tk fun t u => u.pc = th.pc + 4 ∧ codeOf u = 0 ∧ t.mem = s.mem ∧
      Puts s t tk rd (BitVec.ofNat 64 ((s.core (coreOf tk)).bankQ.length +
        2 ^ 4 * (if (s.core (coreOf tk)).bankRun.isSome then 1 else 0) + 2 ^ 8 * (th.bankCount % 2 ^ 16) +
        2 ^ 24 * (if th.bankFault then 1 else 0) + 2 ^ 32 * (s.core (coreOf tk)).bankSeq)) := by
  refine completes_bstat hrf h (by decide) ?_
  rw [if_pos (by rw [hchannel, hx]; rfl), if_pos hx, State.bankStat_afterPops rfl h.issuing.2]

/-- BSTAT of the copy engine on a core that has one (R312). -/
theorem completes_bstat_copy (hchannel : isChannel (coreOf tk) = false) (hx : x = 1) :
    Completes (.bstat sm rd x) s tk fun t u => u.pc = th.pc + 4 ∧ codeOf u = 0 ∧ t.mem = s.mem ∧
      Puts s t tk rd (BitVec.ofNat 64 ((s.core (coreOf tk)).copyQ.length +
        2 ^ 3 * ((s.engine (engineOf (coreOf tk))).active.filter fun y => coreOf y.cmd.tk == coreOf tk).length +
        2 ^ 32 * (s.core (coreOf tk)).copySeq)) := by
  refine completes_bstat hrf h (by decide) ?_
  rw [if_pos (by rw [hchannel, hx]; rfl), if_neg (by rw [hx]; decide), State.copyStat_afterPops rfl]

/-- BSTAT of an engine that the core does not have is refused (R312). -/
theorem completes_bstat_refused (hx : isChannel (coreOf tk) ≠ (x == 0)) :
    Completes (.bstat sm rd x) s tk fun t u => u.pc = th.pc + 4 ∧ codeOf u = 4 ∧ Puts s t tk rd 0 := by
  refine completes_mono (completes_bstat (v := 0) (code := 4) hrf h (by decide) (if_neg hx)) ?_
  exact fun t u ⟨hpc, hcode, _, hputs⟩ => ⟨hpc, hcode, hputs⟩

end Bstat

/-- BFENCE (R311). -/
theorem completes_bfence (hcarry : th.carry = none) (h : Ready (.bfence sm e) s tk th) :
    Completes (.bfence sm e) s tk fun t u => t.rf = s.rf ∧ t.mem = s.mem ∧
      Waits s tk th u (.bfence sm e) (boundOf s e) fun _ => True :=
  completes_fence rfl h.issuing.2 (issue_noCheck h) hcarry rfl

end Commands

end Sys2Proof.Machine

namespace Sys2Proof
open Sys2Proof.Machine

/-- Settles O52: CPY, CPYS, CPYX, BMV, BFENCE and BSTAT by the effect that each has once its command passes, and the faulty words
by the check of each word. -/
theorem engineInstructions : Obligations.EngineInstructions := by
  unfold Obligations.EngineInstructions
  constructor
  · intro sm rd a e x s tk th ⟨_, hrf, _⟩ hs hcarry core k cmd cpy cpys cpyx bmv fence stat entry copied done waits bad
    refine ⟨fun h => ⟨fun n hn => issue_commandFault h rfl hn, fun hf => ⟨fun hroom => ?_, fun hfull => ?_⟩⟩,
      fun h => ⟨fun n hn => issue_commandFault h rfl hn, fun hf => ⟨fun hroom hwait => ?_, fun hfull => ?_⟩⟩,
      fun h => ⟨fun n hn => issue_commandFault h rfl hn, fun hf => ⟨fun hroom hwait => ?_, fun hfull => ?_⟩⟩,
      fun h => ⟨fun n hn => issue_commandFault h rfl hn, fun hf => ⟨fun hroom hwait => ?_, fun hfull => ?_⟩⟩,
      completes_bfence hcarry, fun h _ =>
        ⟨completes_bstat_bank hrf h, completes_bstat_copy hrf h, completes_bstat_refused hrf h⟩⟩
    · exact completes_pushCopy rfl h.issuing.2 (exec_cpy h hf) hrf (if_pos (State.copyRoom_iff.mpr hroom))
    · exact completes_full rfl h.issuing.2 (exec_cpy h hf)
        (if_neg fun hroom => Nat.not_lt.mpr hfull (State.copyRoom_iff.mp hroom))
    · exact completes_pushCopy rfl h.issuing.2 (exec_cpys hs h hf) hrf (if_pos ((free_iff State.copyRoom_iff).mpr ⟨hroom, hwait⟩))
    · refine completes_mono (completes_waitToPush rfl h.issuing.2 (exec_cpys hs h hf) hcarry
        (if_neg (not_free State.copyRoom_iff hfull))) ?_
      exact fun t u ⟨hrf', heng, w, hrun, hpc, hi, hc, hd, _⟩ => ⟨hrf', heng.copyQ, w, hrun, hpc, hi, hc, hd, trivial⟩
    · exact completes_pushedX rfl h.issuing.2 (exec_cpyx hs hcarry h hf) hcarry
        (if_pos ((free_iff State.copyRoom_iff).mpr ⟨hroom, hwait⟩))
    · refine completes_mono (completes_waitToPush rfl h.issuing.2 (exec_cpyx hs hcarry h hf) hcarry
        (if_neg (not_free State.copyRoom_iff hfull))) ?_
      exact fun t u ⟨hrf', heng, hw⟩ => ⟨hrf', heng.copyQ, hw⟩
    · exact completes_pushBank rfl h.issuing.2 (exec_bmv hs h hf) hrf (if_pos ((free_iff State.bankRoom_iff).mpr ⟨hroom, hwait⟩))
    · refine completes_mono (completes_waitToPush rfl h.issuing.2 (exec_bmv hs h hf) hcarry
        (if_neg (not_free State.bankRoom_iff hfull))) ?_
      exact fun t u ⟨hrf', heng, w, hrun, hpc, hi, hc, hd, _⟩ => ⟨hrf', heng.bankQ, w, hrun, hpc, hi, hc, hd, trivial⟩
  · intro s tk w0 w1 w2 w3 x f window compact bytes kind elem size isz target ok0 ok1 ok2 ok3 copy place load b0 b1 b2 b3 bank
    let c := [w0, w1, w2, w3]
    obtain ⟨hc0, hc1, hc2, hc3, hnone⟩ := firstFault_cases (copyOk0_iff c)
      (fun ⟨hk, _, _, h3, _⟩ => copyOk1_iff c size hk fun h => (h3 h).1)
      (fun ⟨_, _, _, h3, _⟩ _ => copyOk2_iff c fun h => (h3 h).1) (s.copyOk3_iff c tk x)
    exact ⟨hc0, hc1, hc2, hc3, hnone, firstFault_cases (bankOk0_iff c) (fun _ => bankOk_place_iff c w1 49 11 (16 * bmCols c))
      (fun _ _ => bankOk_place_iff c w2 49 10 (16 * bmRows c)) (s.bankOk3_iff c tk)⟩

end Sys2Proof
end

section
/-! The host command LAUNCH (R332, R333): what it answers when its parameter block cannot be reached. -/

namespace Sys2Proof.Machine

/-! ### A command taken (R332) -/

/-- A command that the device accepts has no bit that R332 and R333 ask to be zero. -/
theorem commandBad_of_accepts {s : State} {code n : Nat} {d : List Word} (h : HostAccepts s code n d) :
    commandBad d n = false := by
  obtain ⟨-, -, hflags, hhigh, hzero⟩ := h
  have hlow : fld (d.getD 0 0) 8 8 = 0 := hflags
  have htop : fld (d.getD 0 0) 32 32 = 0 := by rw [fld, hhigh, Nat.zero_mod]
  have hrest : (d.drop (n + 1)).any (· != 0) = false := by
    refine List.any_eq_false.mpr fun w hw => ?_
    obtain ⟨i, hi, rfl⟩ := List.mem_iff_getElem.mp hw
    have hlt : n + 1 + i < d.length := by rw [List.length_drop] at hi; omega
    have hz := hzero (n + 1 + i) (by omega)
    rw [List.getD_eq_getElem d 0 hlt] at hz
    rw [List.getElem_drop, hz]
    decide
  rw [commandBad, hlow, htop, hrest]
  rfl

/-- Nor does the device's state stand in the way of a command that it accepts (R335, R336). -/
theorem rejects_of_accepts {s : State} {code n : Nat} {d : List Word} (h : HostAccepts s code n d) :
    s.pkg.rejects code = false := by
  obtain ⟨hboot, hlife, -⟩ := h
  have hcode : (!s.pkg.booted && code != 1 && code != 0x0A) = false := by
    rcases hboot with h | h | h <;> simp [h]
  rw [Package.rejects, hcode, beq_false_of_ne hlife, Bool.or_false]

/-- A row of the host interface runs a command that it takes and the device accepts. -/
theorem hostRow_accepted {s : State} {r code n : Nat} {d : List Word} {mine : List Word → Bool}
    {run : List Word → State → State} (ht : HostTakes s r code d) (ha : HostAccepts s code n d) (hm : mine d = true) :
    hostRow code n mine r run s = .next (run d (s.takeCommand r)) := by
  obtain ⟨-, hcmd, hready, rfl, hcode⟩ := ht
  have hrej : (s.takeCommand r).pkg.rejects code = false := rejects_of_accepts ha
  have hfld : fld ((s.nextCommand r).getD 0 0) 0 8 = code := by rw [fld, Nat.pow_zero, Nat.div_one]; exact hcode
  simp only [hostRow, hcmd, hready, hfld, hm, hrej, commandBad_of_accepts ha, and_self, if_true, Bool.or_false,
    Bool.false_eq_true, if_false]

/-- What a write leaves of the dispatcher. -/
@[simp] theorem State.setBytes_disp (s : State) (key : Nat) (bs : List Byte) : (s.setBytes key bs).disp = s.disp := by
  induction bs generalizing s key with
  | nil => rfl
  | cons b bs ih => exact (ih (s.setByte key b) (key + 1)).trans (s.setByte_disp key b)

@[simp] theorem State.serve_disp (s : State) (q : Req) (st : Nat) (v : Word) (w : Bool) : (s.serve q st v w).disp = s.disp :=
  rfl

@[simp] theorem State.afterWrite_disp (s : State) (key n : Nat) : (s.afterWrite key n).disp = s.disp := by
  unfold State.afterWrite
  split
  · rfl
  · exact (foldl_keeps State.disp _ (fun s q => by dsimp only; split <;> rfl) _ _).trans
      (foldl_keeps State.disp _ (fun s q => s.serve_disp q _ _ _) _ s)

/-- A refused command leaves the dispatcher as it was (R333). -/
@[simp] theorem State.refuse_disp (s : State) (r : Nat) : (s.refuse r).disp = s.disp :=
  (State.afterWrite_disp ..).trans (State.setBytes_disp ..)

/-! ### LAUNCH (R333, R337) -/

/-- Taking a command changes no translation and no route. -/
theorem State.reaches_takeCommand (s : State) (r root va : Nat) : (s.takeCommand r).reaches root va = s.reaches root va := rfl

/-- A LAUNCH whose parameter block cannot be reached is refused. -/
theorem exec_hostLaunch_unreached {s : State} {r : Nat} {d : List Word} (ht : HostTakes s r 0x04 d)
    (ha : HostAccepts s 0x04 4 d) (hr : s.reaches (d.getD 2 0).toNat (d.getD 1 0).toNat = false) :
    Machine.exec (.hostLaunch r) s = .next ((s.takeCommand r).refuse r) := by
  show execHostLaunch r s = _
  rw [execHostLaunch, hostRow_accepted ht ha rfl]
  refine congrArg Host.Outcome.next (if_pos ?_)
  rw [State.reaches_takeCommand, hr, Bool.not_false, Bool.or_true, Bool.true_or]

/-- The dwords of a LAUNCH of the parameter block at virtual address 0, under the page table at 0. -/
def launchOfZero : List Word := 4 :: List.replicate 7 0

/-- A booted device with that command in ring 0. Its table at 0 names one at 0x1000, whose first entry maps the first GiB to 2^40,
memory of peer package 1 (R128, R318); the firmware has no route to it (R337). -/
def launchOnPeer : State :=
  { mem := [(0, 0x31), (1, 0x10), (0x1000, 0x21), (0x1005, 0x10), (hostKey 0, 4)]
    pkg := { booted := true, rings := { rcfg := 0x100, tail := 1, cbase := 0x1000 } :: List.replicate 7 {} } }

theorem canonical_launchOnPeer : Canonical launchOnPeer :=
  ⟨by decide, rfl, rfl, rfl, rfl, nofun⟩

theorem sized_launchOnPeer : Sized launchOnPeer :=
  ⟨fun _ he => absurd he List.not_mem_nil, fun _ he => absurd he List.not_mem_nil, fun _ he => absurd he List.not_mem_nil,
    rfl, rfl, rfl, rfl, fun _ _ hc => absurd hc.symm (Option.some_ne_none _)⟩

theorem takes_launchOnPeer : HostTakes launchOnPeer 0 0x04 launchOfZero :=
  ⟨by decide, by decide, by decide, by decide, by decide⟩

theorem accepts_launchOnPeer : HostAccepts launchOnPeer 0x04 4 launchOfZero := by
  refine ⟨.inl rfl, by decide, by decide, by decide, fun i hi => ?_⟩
  obtain ⟨j, rfl⟩ := Nat.exists_eq_add_of_lt hi
  exact List.getD_eq_getElem?_getD.trans (List.getElem?_getD_replicate_default_eq 0 7 (4 + j))

/-- The parameter block has a translation. -/
theorem walkFrom_launchOnPeer : launchOnPeer.walkFrom 0 0 = some (BitVec.ofNat 64 (2 ^ 44 + 0x21)) := by decide

/-- But no access reaches it. -/
theorem reaches_launchOnPeer : launchOnPeer.reaches 0 0 = false := by decide

end Sys2Proof.Machine

namespace Sys2Proof
open Sys2Proof.Machine

/-- Refutes O58: its clause on LAUNCH asks of the parameter block a translation alone. Where that leads to a peer package to which
there is no route, the address cannot be reached (R337), so that LAUNCH is refused and queues nothing (R333). -/
theorem not_hostCommands : ¬ Obligations.HostCommands := by
  intro h
  obtain ⟨-, hcommands, -⟩ := h
  obtain ⟨-, -, -, -, hlaunch, -⟩ := hcommands launchOnPeer 0 launchOfZero canonical_launchOnPeer sized_launchOnPeer rfl
  obtain ⟨-, hqueues⟩ := hlaunch ⟨takes_launchOnPeer, accepts_launchOnPeer⟩
  obtain ⟨t, hexec, -, -, -, q, hq, -⟩ :=
    hqueues rfl (by decide) (by decide) (by decide) (walkFrom_launchOnPeer ▸ Option.some_ne_none _)
  rw [exec_hostLaunch_unreached takes_launchOnPeer accepts_launchOnPeer reaches_launchOnPeer] at hexec
  obtain rfl := Host.Outcome.next.inj hexec
  have hempty : ((launchOnPeer.takeCommand 0).refuse 0).disp.hostQ = [] := by rw [State.refuse_disp]; rfl
  rw [hempty] at hq
  exact List.cons_ne_nil q [] hq.symm

end Sys2Proof
end

section
/-! What every step keeps: canonical maps, and lists of fixed length. From here on proofs are elaborated one after another
(`Elab.async`), which bounds the threads, and so the memory, that these many short proofs need. -/

set_option Elab.async false

namespace Sys2Proof.Machine

/-! ### Maps and lists -/

/-- What holds of every value of a map and of the default holds of the value read at any key. -/
theorem SMap.getD_of_forall {α : Type} {m : SMap α} {d : α} {P : α → Prop} (h : ∀ e ∈ m, P e.2) (hd : P d) (k : Nat) :
    P (SMap.getD m k d) := by
  rw [SMap.getD]
  cases hk : SMap.get? m k with
  | none => exact hd
  | some v => exact h _ (SMap.mem_of_get? hk)

theorem SMap.forall_put {α : Type} {m : SMap α} {k : Nat} {v : α} {P : α → Prop} (h : ∀ e ∈ m, P e.2) (hv : P v) :
    ∀ e ∈ SMap.put m k v, P e.2 := fun e he => by
  obtain rfl | he := SMap.mem_put he
  · exact hv
  · exact h e he

theorem SMap.sortedFrom_filter {α : Type} {m : SMap α} {b : Nat} (p : Nat × α → Bool) (h : SMap.sortedFrom b m = true) :
    SMap.sortedFrom b (m.filter p) = true := by
  induction m generalizing b with
  | nil => rfl
  | cons e m ih =>
    obtain ⟨hb, hm⟩ := Bool.and_eq_true_iff.mp h
    rw [List.filter_cons]
    split
    · exact Bool.and_eq_true_iff.mpr ⟨hb, ih hm⟩
    · exact SMap.sortedFrom_mono (ih hm) (Nat.le_succ_of_le (of_decide_eq_true hb))

theorem Memory.wf_filter {m : List Host.Cell} (p : Host.Cell → Bool) (h : Memory.wf m = true) : Memory.wf (m.filter p) = true := by
  obtain ⟨hs, ha⟩ := Bool.and_eq_true_iff.mp h
  exact Bool.and_eq_true_iff.mpr ⟨SMap.sortedFrom_filter p hs,
    List.all_eq_true.mpr fun c hc => List.all_eq_true.mp ha c (List.mem_of_mem_filter hc)⟩

/-! ### The two invariants, part by part -/

/-- The cells of a team's matrix engine are maps with rising keys. -/
def Team.Sorted (t : Team) : Prop := SMap.sortedFrom 0 t.mx.acc = true ∧ SMap.sortedFrom 0 t.mx.corr = true

/-- What firmware keeps of a saved team has the sizes of a team and of its cores. -/
def Kept.Sized (k : Kept) : Prop := k.mx.sized = true ∧ ∀ c ∈ k.cores, c.sized = true

/-- What firmware keeps of a launch's saved teams has their sizes. -/
def Launch.Sized (l : Launch) : Prop := ∀ k ∈ l.saved, k.Sized

/-- The host rings, links and bucket maps have their numbers. -/
def Package.Sized (p : Package) : Prop :=
  p.rings.length = 8 ∧ p.links.length = 8 ∧ p.bucketMaps.length = 4 ∧ p.mapGens.length = 4

/-- `Sized`, but for the thread that is about to issue. -/
def SizedParts (s : State) : Prop :=
  (∀ e ∈ s.cores, e.2.sized = true) ∧ (∀ e ∈ s.teams, e.2.sized = true) ∧ (∀ e ∈ s.disp.launches, e.2.Sized) ∧ s.pkg.Sized

/-- A state follows another that has the canonical form and the sizes if the other does, and in which no thread is about to issue
if none is in the other. -/
structure Keeps (s t : State) : Prop where
  canonical : Canonical s → Canonical t
  sizes : SizedParts s → SizedParts t
  idle : s.cur = none → t.cur = none

/-- The lists of the package that `Sized` speaks of. -/
def Package.lists (p : Package) : List HRing × List Nat × List (List Nat) × List Nat := (p.rings, p.links, p.bucketMaps, p.mapGens)

variable {s u t : State}

theorem Keeps.refl (s : State) : Keeps s s := ⟨id, id, id⟩

/-- What a step does to the other parts of a state does not matter. -/
theorem Keeps.frame {cycle : Nat} {subj : Subj} {phase : Phase} {issueQ tried : List Nat} {todo : List Move} {timers inputs : List Timer}
    {nextId draws : Nat} {oldBytes : SMap Byte} {spend : List SWrite} {threads : SMap Thread} {nbr : SMap (List QEntry)}
    {nbrPops nbrFree nbrSent : SMap Nat} {nbrSync : SMap Bool} {engines : SMap CopyEngine} {slices : SMap Slice} {reqs : SMap Req}
    {waiters : List Nat} {ahead : List Ahead} {portsUsed banksUsed : List Nat} {portLast : SMap Nat} {portAsks : List PortAsk}
    {packets : SMap Packet} {pathDue : SMap Nat} {disp : Dispatcher} {pkg : Package} (h : Keeps s u)
    (hd : disp.launches = u.disp.launches := by rfl) (hp : pkg.lists = u.pkg.lists := by rfl) :
    Keeps s { u with
      cycle := cycle, subj := subj, phase := phase, issueQ := issueQ, tried := tried, todo := todo, timers := timers, inputs := inputs
      nextId := nextId, draws := draws, oldBytes := oldBytes, spend := spend, threads := threads, nbr := nbr, nbrPops := nbrPops
      nbrFree := nbrFree, nbrSent := nbrSent, nbrSync := nbrSync, engines := engines, slices := slices, reqs := reqs
      waiters := waiters, ahead := ahead, portsUsed := portsUsed, banksUsed := banksUsed, portLast := portLast, portAsks := portAsks
      packets := packets, pathDue := pathDue, disp := disp, pkg := pkg } := by
  refine ⟨h.canonical, fun hs => ?_, h.idle⟩
  simp only [Package.lists, Prod.mk.injEq] at hp
  obtain ⟨hrings, hlinks, hmaps, hgens⟩ := hp
  have hu := h.sizes hs
  unfold SizedParts Package.Sized at hu ⊢
  rwa [hd, hrings, hlinks, hmaps, hgens]

/-- The same, with no thread about to issue. -/
theorem Keeps.stop (h : Keeps s u) : Keeps s { u with cur := none } := ⟨h.canonical, h.sizes, fun _ => rfl⟩

theorem Keeps.ite {c : Prop} [Decidable c] (ht : Keeps s t) (hu : Keeps s u) : Keeps s (if c then t else u) := by
  split
  · exact ht
  · exact hu

theorem Keeps.snd {α : Type} {p : α × State} {a : α} (h : Keeps s p.2) (hp : p = (a, t)) : Keeps s t := by subst hp; exact h
theorem Keeps.fst {α : Type} {p : State × α} {a : α} (h : Keeps s p.1) (hp : p = (t, a)) : Keeps s t := by subst hp; exact h

theorem Keeps.foldl {α : Type} {f : State → α → State} {l : List α} (h : Keeps s u)
    (hf : ∀ v a, Keeps s v → Keeps s (f v a)) : Keeps s (l.foldl f u) := by
  induction l generalizing u with
  | nil => exact h
  | cons a l ih => exact ih (hf u a h)

end Sys2Proof.Machine
end

section
set_option Elab.async false
namespace Sys2Proof.Machine

variable {s u t : State}

/-! ### The operations that write these parts -/

/-- A core's record keeps its sizes. -/
def Core.Keeps (c c' : Core) : Prop := c.sized = true → c'.sized = true

/-- A team's record keeps its sizes and the order of its cells. -/
def Team.Keeps (t t' : Team) : Prop := (t.sized = true → t'.sized = true) ∧ (t.Sorted → t'.Sorted)

/-- A matrix engine keeps its sizes and the order of its cells. -/
def Matrix.Keeps (m m' : Matrix) : Prop :=
  (m.sized = true → m'.sized = true) ∧
    (SMap.sortedFrom 0 m.acc = true ∧ SMap.sortedFrom 0 m.corr = true → SMap.sortedFrom 0 m'.acc = true ∧ SMap.sortedFrom 0 m'.corr = true)

theorem Team.fresh_sized (n : Nat) : (Team.fresh n).sized = true := by
  unfold Team.fresh
  split <;> decide

theorem Team.fresh_sorted (n : Nat) : (Team.fresh n).Sorted := by
  unfold Team.fresh
  split <;> exact ⟨rfl, rfl⟩

theorem State.core_sized (hs : SizedParts s) (k : Nat) : (s.core k).sized = true :=
  SMap.getD_of_forall (P := fun c : Core => c.sized = true) hs.1 (by decide) k

theorem State.team_sized (hs : SizedParts s) (n : Nat) : (s.team n).sized = true :=
  SMap.getD_of_forall (P := fun t : Team => t.sized = true) hs.2.1 (Team.fresh_sized n) n

theorem State.team_sorted (hs : Canonical s) (n : Nat) : (s.team n).Sorted :=
  SMap.getD_of_forall (P := Team.Sorted) hs.2.2.2.2.2 (Team.fresh_sorted n) n

/-- A change of a core's record that keeps its sizes, if the state at the start has the sizes. -/
theorem Keeps.modCoreAt {k : Nat} {f : Core → Core} (h : Keeps s u) (hf : SizedParts s → ∀ c, Core.Keeps c (f c)) :
    Keeps s (u.modCore k f) := by
  refine ⟨h.canonical, fun hs => ?_, h.idle⟩
  have hu := h.sizes hs
  exact ⟨SMap.forall_put (P := fun c : Core => c.sized = true) hu.1 (hf hs _ (State.core_sized hu k)), hu.2⟩

/-- A change of a core's record that keeps its sizes keeps the invariants. -/
theorem Keeps.modCore {k : Nat} {f : Core → Core} (h : Keeps s u) (hf : ∀ c, Core.Keeps c (f c) := by exact fun _ => id) :
    Keeps s (u.modCore k f) :=
  h.modCoreAt fun _ => hf

/-- A node's record changed to one with the sizes and the order of cells. -/
theorem Keeps.modTeamAt {n : Nat} {f : Team → Team} (h : Keeps s u) (hz : SizedParts s → (f (u.team n)).sized = true)
    (hc : Canonical s → (f (u.team n)).Sorted) : Keeps s (u.modTeam n f) := by
  refine ⟨fun hs => ?_, fun hs => ?_, h.idle⟩
  · obtain ⟨hmem, hrf, hsregs, hstreams, hfe, hteams⟩ := h.canonical hs
    exact ⟨hmem, hrf, hsregs, hstreams, hfe, SMap.forall_put (P := Team.Sorted) hteams (hc hs)⟩
  · obtain ⟨hcores, hteams, hrest⟩ := h.sizes hs
    exact ⟨hcores, SMap.forall_put (P := fun t : Team => t.sized = true) hteams (hz hs), hrest⟩

/-- A change of a node's record that keeps its sizes and the order of its cells keeps the invariants. -/
theorem Keeps.modTeam {n : Nat} {f : Team → Team} (h : Keeps s u) (hf : ∀ t, Team.Keeps t (f t) := by exact fun _ => ⟨id, id⟩) :
    Keeps s (u.modTeam n f) :=
  h.modTeamAt (fun hs => (hf _).1 (State.team_sized (h.sizes hs) n)) fun hs => (hf _).2 (State.team_sorted (h.canonical hs) n)

theorem Matrix.Keeps.team {m : Matrix} {t : Team} (h : Matrix.Keeps t.mx m) : Team.Keeps t { t with mx := m } := by
  refine ⟨fun ht => ?_, h.2⟩
  unfold Team.sized at ht ⊢
  simp only [Bool.and_eq_true] at ht ⊢
  obtain ⟨⟨⟨⟨⟨⟨h1, h2⟩, h3⟩, hm⟩, h4⟩, h5⟩, h6⟩ := ht
  exact ⟨⟨⟨⟨⟨⟨h1, h2⟩, h3⟩, h.1 hm⟩, h4⟩, h5⟩, h6⟩

theorem Keeps.modMx {n : Nat} {f : Matrix → Matrix} (h : Keeps s u) (hf : ∀ m, Matrix.Keeps m (f m) := by exact fun _ => ⟨id, id⟩) :
    Keeps s (u.modMx n f) :=
  h.modTeam fun t => (hf t.mx).team

theorem Keeps.setStream {tk k : Nat} {x : Stream} (h : Keeps s u) : Keeps s (u.setStream tk k x) := by
  refine ⟨fun hs => ?_, h.sizes, h.idle⟩
  obtain ⟨hmem, hrf, hsregs, hstreams, hrest⟩ := h.canonical hs
  exact ⟨hmem, hrf, hsregs, State.sorted_setStream u tk k x hstreams, hrest⟩

theorem Keeps.modThread {tk : Nat} {f : Thread → Thread} (h : Keeps s u) : Keeps s (u.modThread tk f) := by
  unfold State.modThread
  split
  · exact h
  · exact h.frame

theorem Keeps.modLaunchAt {l : Nat} {f : Launch → Launch} (h : Keeps s u)
    (hf : SizedParts s → ∀ x : Launch, x.Sized → (f x).Sized) : Keeps s (u.modLaunch l f) := by
  unfold State.modLaunch
  split
  · exact h
  · next x hx =>
    refine ⟨h.canonical, fun hs => ?_, h.idle⟩
    obtain ⟨hcores, hteams, hlaunches, hpkg⟩ := h.sizes hs
    exact ⟨hcores, hteams, SMap.forall_put hlaunches (hf hs x (hlaunches _ (SMap.mem_of_get? hx))), hpkg⟩

theorem Keeps.modLaunch {l : Nat} {f : Launch → Launch} (h : Keeps s u)
    (hf : ∀ x : Launch, x.Sized → (f x).Sized := by exact fun _ => id) : Keeps s (u.modLaunch l f) :=
  h.modLaunchAt fun _ => hf

theorem Keeps.modTask {l : Nat} {f : Task → Task} (h : Keeps s u) : Keeps s (u.modTask l f) := by
  unfold State.modTask
  split
  · exact h
  · exact h.frame

theorem Keeps.writeG {tk i : Nat} {v : Word} (h : Keeps s u) : Keeps s (u.writeG tk i v) := by
  refine ⟨fun hs => ?_, h.sizes, h.idle⟩
  obtain ⟨hmem, hrf, hrest⟩ := h.canonical hs
  exact ⟨hmem, State.sorted_writeG u tk i v hrf, hrest⟩

theorem Keeps.settleS {c : Nat} (h : Keeps s u) : Keeps s (u.settleS c) := by
  refine ⟨fun hs => ?_, h.sizes, h.idle⟩
  obtain ⟨hmem, hrf, hsregs, hrest⟩ := h.canonical hs
  exact ⟨hmem, hrf, State.sorted_settleS u c hsregs, hrest⟩

theorem Keeps.setByte {k : Nat} {b : Byte} (h : Keeps s u) : Keeps s (u.setByte k b) := by
  refine ⟨fun hs => ?_, h.sizes, h.idle⟩
  obtain ⟨hmem, hrest⟩ := h.canonical hs
  exact ⟨State.wf_setByte u k b hmem, hrest⟩

theorem Keeps.setBytes {k : Nat} {bs : List Byte} (h : Keeps s u) : Keeps s (u.setBytes k bs) := by
  induction bs generalizing u k with
  | nil => exact h
  | cons b bs ih => exact ih h.setByte

theorem Keeps.localStore {k : Nat} {bs : List Byte} (h : Keeps s u) : Keeps s (u.localStore k bs) := by
  induction bs generalizing u k with
  | nil => exact h
  | cons b bs ih =>
    unfold State.localStore
    refine ih (Keeps.setByte ?_)
    split
    · exact h
    · exact h.frame

theorem Keeps.setFull {k : Nat} {b : Bool} (h : Keeps s u) : Keeps s (u.setFull k b) := by
  refine ⟨fun hs => ?_, h.sizes, h.idle⟩
  obtain ⟨hmem, hrf, hsregs, hstreams, hfe, hteams⟩ := h.canonical hs
  exact ⟨hmem, hrf, hsregs, hstreams, State.sorted_setFull u k b hfe, hteams⟩

/-! ### Lists of fixed length -/

/-- The lengths of the lists of a core that have no condition but their length. -/
def Core.lengths (c : Core) : List Nat :=
  [c.turn.length, c.roles.length, c.tags.length, c.mports.length, c.cports.length, c.bankTables.length]

theorem Core.sized_iff (c : Core) : c.sized = true ↔
    c.lengths = [8, 4, 4, 32, 16, 3] ∧ c.jp.length = 16 ∧ ∀ e ∈ c.jp, e.prio < 4 := by
  simp only [Core.sized, Core.lengths, Bool.and_eq_true, beq_iff_eq, List.all_eq_true, decide_eq_true_eq, List.cons.injEq, and_true]
  tauto

/-- A core whose lists keep their lengths and whose join patterns are as before keeps its sizes. -/
theorem Core.Keeps.of_lengths {c c' : Core} (h : c'.lengths = c.lengths) (hj : c'.jp = c.jp := by rfl) : Core.Keeps c c' := by
  unfold Core.Keeps
  rw [Core.sized_iff, Core.sized_iff, h, hj]
  exact id

/-- A core's join patterns change, all with a priority in range. -/
theorem Core.Keeps.of_jp {c c' : Core} (h : c'.lengths = c.lengths)
    (hj : c.jp.length = 16 → (∀ e ∈ c.jp, e.prio < 4) → c'.jp.length = 16 ∧ ∀ e ∈ c'.jp, e.prio < 4) : Core.Keeps c c' := by
  unfold Core.Keeps
  rw [Core.sized_iff, Core.sized_iff, h]
  exact fun ⟨hl, hc, he⟩ => ⟨hl, hj hc he⟩

theorem Keeps.modPort {core p : Nat} {f : MPort → MPort} (h : Keeps s u) : Keeps s (u.modPort core p f) :=
  h.modCore fun _ => .of_lengths (by simp [Core.lengths])

theorem Keeps.modRole {core i : Nat} {f : RoleQ → RoleQ} (h : Keeps s u) : Keeps s (u.modRole core i f) :=
  h.modCore fun _ => .of_lengths (by simp [Core.lengths])

theorem Keeps.modPool {core t : Nat} {f : TagPool → TagPool} (h : Keeps s u) : Keeps s (u.modPool core t f) :=
  h.modCore fun _ => .of_lengths (by simp [Core.lengths])

theorem Keeps.setCport {core p : Nat} {x : CPort} (h : Keeps s u) : Keeps s (u.setCport core p x) :=
  h.modCore fun _ => .of_lengths (by simp [Core.lengths])

theorem Keeps.takeTurn {tk : Nat} (h : Keeps s u) : Keeps s (u.takeTurn tk) :=
  (h.modCore fun _ => .of_lengths (by simp [Core.lengths])).stop

theorem Keeps.setEntry {core e : Nat} {x : JEntry} (h : Keeps s u) (hx : x.prio < 4 := by decide) : Keeps s (u.setEntry core e x) :=
  h.modCore fun _ => .of_jp rfl fun hl hj => ⟨(List.length_set ..).trans hl, fun y hy => by
    obtain hy | rfl := List.mem_or_eq_of_mem_set hy
    · exact hj y hy
    · exact hx⟩

/-- The lengths of the lists of a team. -/
def Team.lengths (t : Team) : List Nat := [t.maps.length, t.mapGens.length, t.vq.length, t.conns.length, t.domains.length]

theorem Team.sized_iff (t : Team) : t.sized = true ↔
    t.lengths = [4, 4, 4, 4, 16] ∧ t.mx.sized = true ∧ ∀ c ∈ t.conns, c.sized = true := by
  simp only [Team.sized, Team.lengths, Bool.and_eq_true, beq_iff_eq, List.all_eq_true, List.cons.injEq, and_true]
  tauto

/-- A team whose lists keep their lengths and whose matrix engine keeps its own, with connectors of the right sizes. -/
theorem Team.Keeps.of_lengths {t t' : Team} (h : t'.lengths = t.lengths) (hm : Matrix.Keeps t.mx t'.mx := by exact ⟨id, id⟩)
    (hc : (∀ c ∈ t.conns, c.sized = true) → ∀ c ∈ t'.conns, c.sized = true := by exact id) : Team.Keeps t t' := by
  refine ⟨?_, hm.2⟩
  rw [Team.sized_iff, Team.sized_iff, h]
  exact fun ⟨hl, hx, hs⟩ => ⟨hl, hm.1 hx, hc hs⟩

/-- The lengths of the lists of a matrix engine. -/
def Matrix.lengths (m : Matrix) : List Nat := [m.rings.length, m.tables.length, m.dq.length, m.results.length, m.seqs.length]

theorem Matrix.sized_iff (m : Matrix) : m.sized = true ↔ m.lengths = [8, 3, 4, 4, 4] := by
  simp only [Matrix.sized, Matrix.lengths, Bool.and_eq_true, beq_iff_eq, List.cons.injEq, and_true]
  tauto

/-- A matrix engine whose lists keep their lengths and whose cells are as before. -/
theorem Matrix.Keeps.of_lengths {m m' : Matrix} (h : m'.lengths = m.lengths) (ha : m'.acc = m.acc := by rfl)
    (hc : m'.corr = m.corr := by rfl) : Matrix.Keeps m m' := by
  unfold Matrix.Keeps
  rw [Matrix.sized_iff, Matrix.sized_iff, h, ha, hc]
  exact ⟨id, id⟩

theorem Matrix.Keeps.refl (m : Matrix) : Matrix.Keeps m m := ⟨id, id⟩

theorem Matrix.Keeps.trans {a b c : Matrix} (h : Matrix.Keeps a b) (h' : Matrix.Keeps b c) : Matrix.Keeps a c :=
  ⟨h'.1 ∘ h.1, h'.2 ∘ h.2⟩

/-- The cores' records set to ones with the sizes. -/
theorem Keeps.setCores {l : SMap Core} (h : Keeps s u) (hl : ∀ e ∈ l, e.2.sized = true) : Keeps s { u with cores := l } :=
  ⟨h.canonical, fun hs => ⟨hl, (h.sizes hs).2⟩, h.idle⟩

/-- Every core's record changed in a way that keeps its sizes. -/
theorem Keeps.mapCores {f : Nat × Core → Core} (h : Keeps s u) (hf : ∀ e, Core.Keeps e.2 (f e) := by exact fun _ => id) :
    Keeps s { u with cores := u.cores.map fun e => (e.1, f e) } := by
  refine ⟨h.canonical, fun hs => ?_, h.idle⟩
  obtain ⟨hcores, hrest⟩ := h.sizes hs
  refine ⟨fun e he => ?_, hrest⟩
  obtain ⟨x, hx, rfl⟩ := List.mem_map.mp he
  exact hf x (hcores x hx)

/-- Every node's record changed in a way that keeps its sizes and the order of its cells. -/
theorem Keeps.mapTeams {f : Nat × Team → Team} (h : Keeps s u) (hf : ∀ e, Team.Keeps e.2 (f e) := by exact fun _ => ⟨id, id⟩) :
    Keeps s { u with teams := u.teams.map fun e => (e.1, f e) } := by
  refine ⟨fun hs => ?_, fun hs => ?_, h.idle⟩
  · obtain ⟨hmem, hrf, hsregs, hstreams, hfe, hteams⟩ := h.canonical hs
    refine ⟨hmem, hrf, hsregs, hstreams, hfe, fun e he => ?_⟩
    obtain ⟨x, hx, rfl⟩ := List.mem_map.mp he
    exact (hf x).2 (hteams x hx)
  · obtain ⟨hcores, hteams, hrest⟩ := h.sizes hs
    refine ⟨hcores, fun e he => ?_, hrest⟩
    obtain ⟨x, hx, rfl⟩ := List.mem_map.mp he
    exact (hf x).1 (hteams x hx)

/-- The package changed in a way that keeps its sizes. -/
theorem Keeps.setPkg {p : Package} (h : Keeps s u) (hp : u.pkg.Sized → p.Sized) : Keeps s { u with pkg := p } :=
  ⟨h.canonical, fun hs => have ⟨hcores, hteams, hlaunches, hpkg⟩ := h.sizes hs; ⟨hcores, hteams, hlaunches, hp hpkg⟩, h.idle⟩

/-- Entries of memory and of the register files dropped. -/
theorem Keeps.drop {pm : Host.Cell → Bool} {pf : Nat × Bool → Bool} {pr ps : Nat × Word → Bool} {px : Nat × Stream → Bool}
    (h : Keeps s u) : Keeps s { u with
      mem := u.mem.filter pm, fe := u.fe.filter pf, rf := u.rf.filter pr, sregs := u.sregs.filter ps, streams := u.streams.filter px } := by
  refine ⟨fun hs => ?_, h.sizes, h.idle⟩
  obtain ⟨hmem, hrf, hsregs, hstreams, hfe, hteams⟩ := h.canonical hs
  exact ⟨Memory.wf_filter pm hmem, SMap.sortedFrom_filter pr hrf, SMap.sortedFrom_filter ps hsregs,
    SMap.sortedFrom_filter px hstreams, SMap.sortedFrom_filter pf hfe, hteams⟩

theorem Keeps.dropRf {p : Nat × Word → Bool} (h : Keeps s u) : Keeps s { u with rf := u.rf.filter p } := by
  refine ⟨fun hs => ?_, h.sizes, h.idle⟩
  obtain ⟨hmem, hrf, hrest⟩ := h.canonical hs
  exact ⟨hmem, SMap.sortedFrom_filter p hrf, hrest⟩

theorem Keeps.dropSregs {p : Nat × Word → Bool} (h : Keeps s u) : Keeps s { u with sregs := u.sregs.filter p } := by
  refine ⟨fun hs => ?_, h.sizes, h.idle⟩
  obtain ⟨hmem, hrf, hsregs, hrest⟩ := h.canonical hs
  exact ⟨hmem, hrf, SMap.sortedFrom_filter p hsregs, hrest⟩

theorem Keeps.dropStreams {p : Nat × Stream → Bool} (h : Keeps s u) : Keeps s { u with streams := u.streams.filter p } := by
  refine ⟨fun hs => ?_, h.sizes, h.idle⟩
  obtain ⟨hmem, hrf, hsregs, hstreams, hrest⟩ := h.canonical hs
  exact ⟨hmem, hrf, hsregs, SMap.sortedFrom_filter p hstreams, hrest⟩

theorem Keeps.putSreg {k : Nat} {v : Word} (h : Keeps s u) : Keeps s { u with sregs := SMap.putD u.sregs k v 0 } := by
  refine ⟨fun hs => ?_, h.sizes, h.idle⟩
  obtain ⟨hmem, hrf, hsregs, hrest⟩ := h.canonical hs
  exact ⟨hmem, hrf, SMap.sortedFrom_putD u.sregs k v 0 hsregs, hrest⟩

/-! ### Outcomes -/

/-- If the outcome is a next state, that state keeps the invariants of s. -/
def KeepsNext (s : State) (o : Host.Outcome State Fault Refusal) : Prop := ∀ t, o = .next t → Keeps s t

theorem KeepsNext.next (h : Keeps s t) : KeepsNext s (.next t) := fun _ ht => Host.Outcome.next.inj ht ▸ h
theorem KeepsNext.fault (f : Fault) : KeepsNext s (.fault f) := nofun

theorem KeepsNext.ite {c : Prop} [Decidable c] {a b : Host.Outcome State Fault Refusal} (ha : KeepsNext s a) (hb : KeepsNext s b) :
    KeepsNext s (if c then a else b) := by
  split
  · exact ha
  · exact hb

end Sys2Proof.Machine
end

section
/-! ### Operations on the state -/

set_option Elab.async false

namespace Sys2Proof.Machine

variable {s t u : State}
  {c cause chan code core dst due issued key kind late launch leave n pid port rid since slot src stamp tag tk : Nat}
  {v w0 w1 : Word} {alone report : Bool} {r : Req} {ev : Instr} {subj : Subj} {mv : Move} {p : Payload} {w : Wait} {rd : Reg}
  {d : Dir}

theorem Keeps.servesLaunch (h : Keeps s u) :
    Keeps s (u.servesLaunch core key) := .ite h.modCore.modThread h.modCore

theorem Keeps.putReq (h : Keeps s u) : Keeps s (u.putReq r) := h.frame

theorem Keeps.delReq (h : Keeps s u) : Keeps s (u.delReq rid) := h.frame

theorem Keeps.fresh (h : Keeps s u) : Keeps s u.fresh.2 := h.frame

theorem Keeps.addTimer (h : Keeps s u) : Keeps s (u.addTimer due ev subj) := h.frame

theorem Keeps.delay (h : Keeps s u) : Keeps s u.delay.2 := h.frame

theorem Keeps.addMove (h : Keeps s u) : Keeps s (u.addMove due mv) := h.frame

theorem Keeps.doNext (h : Keeps s u) : Keeps s (u.doNext mv) := h.frame

theorem Keeps.pathTime (h : Keeps s u) : Keeps s (u.pathTime src dst chan).2 := h.delay.frame

theorem Keeps.send (h : Keeps s u) : Keeps s (u.send src dst chan p ev) := h.fresh.pathTime.frame

theorem Keeps.sendAt (h : Keeps s u) : Keeps s (u.sendAt due src dst chan p ev) := h.fresh.frame

theorem Keeps.dropPacket (h : Keeps s u) : Keeps s (u.dropPacket pid) := h.frame

theorem Keeps.retryMove (h : Keeps s u) : Keeps s (u.retryMove mv) := h.frame

theorem Keeps.again (h : Keeps s u) : Keeps s (u.again ev) := h.retryMove

theorem Keeps.sendMessage (h : Keeps s u) :
    Keeps s (u.sendMessage src core port w0 w1 report slot launch) := h.send

theorem Keeps.putSWrite {w : SWrite} (h : Keeps s u) : Keeps s (u.putSWrite w) := .ite h h.frame

theorem Keeps.writeSAt (h : Keeps s u) : Keeps s (u.writeSAt core n v slot c stamp) := h.putSWrite

theorem Keeps.writeS (h : Keeps s u) : Keeps s (u.writeS core n v slot) := h.writeSAt

theorem Keeps.setStatus (h : Keeps s u) : Keeps s (u.setStatus tk code) := h.modThread

theorem Keeps.store {v : Nat} (h : Keeps s u) : Keeps s (u.store key n v) := h.setBytes

theorem Keeps.landed (h : Keeps s u) : Keeps s (u.landed tk) := .ite h.modThread (.ite h.modThread h)

theorem Keeps.completeWait (h : Keeps s u) : Keeps s (u.completeWait tk) := by
  unfold State.completeWait
  split
  · exact h
  · exact h.modThread

theorem Keeps.finishWait (h : Keeps s u) : Keeps s (u.finishWait tk code) := h.setStatus.completeWait

theorem Keeps.haltWait (h : Keeps s u) : Keeps s (u.haltWait tk w alone) := h.modThread

theorem Keeps.endWithdrawn (h : Keeps s u) : Keeps s (u.endWithdrawn tk w alone) :=
  .ite h.haltWait.modThread h.finishWait

theorem Keeps.writeGSOf {r : Reg} (h : Keeps s u) : Keeps s (u.writeGSOf tk r v stamp) := by
  unfold State.writeGSOf
  split
  · exact h.writeG
  · exact h.writeSAt
  · exact h

theorem Keeps.writeGS {r : Reg} (h : Keeps s u) : Keeps s (u.writeGS tk r v) := h.writeGSOf

theorem Keeps.recvTake (h : Keeps s u) : Keeps s (u.recvTake tk rd w0 w1) := h.writeG.writeG

theorem Keeps.portEffect {p : Nat} (h : Keeps s u) : Keeps s (u.portEffect core p w0 w1) := by
  unfold State.portEffect
  split
  · split
    · exact h.recvTake.finishWait
    · exact h
  · exact h.modPort

theorem Keeps.holdReport (h : Keeps s u) : Keeps s (u.holdReport core slot w0 w1) := by
  unfold State.holdReport
  exact h.fresh.modCore

theorem Keeps.reportInside (h : Keeps s u) : Keeps s (u.reportInside core slot w0 w1) :=
  .ite h.portEffect (.ite h.modCore (.ite h.modCore h.holdReport))

theorem Keeps.postReport (h : Keeps s u) :
    Keeps s (u.postReport core slot w0 w1) := .ite h.holdReport h.reportInside

theorem Keeps.trap (h : Keeps s u) : Keeps s (u.trap tk kind cause w1) :=
  .ite h.modThread.frame h.modThread.postReport

theorem Keeps.resume {skip : Bool} (h : Keeps s u) : Keeps s (u.resume tk skip) := h.modThread

theorem Keeps.nbrTake (h : Keeps s u) : Keeps s (u.nbrTake tk d) := h.frame

theorem Keeps.nbrLeave (h : Keeps s u) : Keeps s (u.nbrLeave tk d v tag leave) := h.addTimer

theorem Keeps.nbrPop (h : Keeps s u) : Keeps s (u.nbrPop tk d) := h.frame.addTimer

theorem Keeps.rolePush {i : Nat} (h : Keeps s u) : Keeps s (u.rolePush core i v tag since) := h.modRole

theorem Keeps.rolePop {i : Nat} (h : Keeps s u) : Keeps s (u.rolePop core i) := h.modRole

theorem Keeps.writeReg {r : Reg} (h : Keeps s u) : Keeps s (u.writeReg tk r v late) := by
  unfold State.writeReg
  split
  · exact h.writeG
  · exact h.writeS
  · exact h.nbrTake.nbrLeave
  · exact h.rolePush
  · exact h

theorem Keeps.reserveReg {r : Reg} (h : Keeps s u) : Keeps s (u.reserveReg tk r) := by
  unfold State.reserveReg
  split
  · exact h.nbrTake
  · exact h.modRole
  · exact h

theorem Keeps.writeBank {r : Reg} (h : Keeps s u) : Keeps s (u.writeBank tk r v issued stamp late) := by
  unfold State.writeBank
  split
  · exact h.writeG
  · exact h.writeSAt
  · exact h.nbrLeave
  · exact h.modRole.rolePush
  · exact h

theorem Keeps.writeLate {r : Reg} (h : Keeps s u) : Keeps s (u.writeLate tk r v) := by
  unfold State.writeLate
  split
  · exact h.writeG
  · exact h.writeS
  · exact h.nbrLeave
  · exact h.modRole.rolePush
  · exact h

end Sys2Proof.Machine
end

section
/-! ### Operands, queues and reports -/

set_option Elab.async false

namespace Sys2Proof.Machine

variable {s t u : State} {n tag tk : Nat} {rs : List Reg} {i : Instr} {vs : List Word}

theorem Keeps.popReg {r : Reg} (h : Keeps s u) : Keeps s (u.popReg tk r) := by
  unfold State.popReg
  split
  · exact h.setStream
  · exact h.nbrPop
  · exact h.rolePop
  · exact h

theorem Keeps.popAll (h : Keeps s u) : Keeps s (u.popAll tk rs) := h.foldl fun _ _ hv => hv.popReg

theorem Keeps.popAt {r : Reg} (h : Keeps s u) : Keeps s (u.popAt tk r n) := by
  unfold State.popAt
  split
  · exact h.frame.popReg
  · exact h.modRole.popReg
  · exact h

theorem Keeps.popTokens (h : Keeps s u) : Keeps s (u.popTokens tk i tag) :=
  h.foldl fun _ _ hv => hv.foldl fun _ _ h1 => h1.popAt

theorem Keeps.writeGroup {r : Reg} (h : Keeps s u) :
    Keeps s (u.writeGroup tk r vs) := h.foldl fun _ _ hv => hv.writeG

end Sys2Proof.Machine
end

section
/-! ### The issue of a word -/

set_option Elab.async false

namespace Sys2Proof.Machine

variable {s t u : State} {field stage tag tk : Nat} {i : Instr} {x : Issue} {eff : Issue → State → State}
  {chk : Issue → State → Check} {rd : Reg} {deadline : Option Nat}

theorem Keeps.advance (h : Keeps s u) : Keeps s (u.advance tk) := h.modThread

theorem Keeps.settleSwitch (h : Keeps s u) : Keeps s (u.settleSwitch i tk) := .ite h.modThread h

theorem Keeps.commit (h : Keeps s u) (heff : ∀ a v, Keeps s v → Keeps s (eff a v)) :
    Keeps s (commit i x eff u) :=
  (heff _ _ h.popAll.advance).settleSwitch

theorem Keeps.skip (h : Keeps s u) : Keeps s (skip i tk u) := h.advance.settleSwitch

theorem Keeps.parkOperand (h : Keeps s u) : Keeps s (u.parkOperand tk i) := h.modThread.stop.frame

theorem Keeps.startTokens (h : Keeps s u) : Keeps s (u.startTokens tk tag i field) :=
  h.popTokens.fresh.modThread.takeTurn

theorem Keeps.carryOut {v : Verdict} (h : Keeps s u) (heff : ∀ x v, Keeps s v → Keeps s (eff x v)) :
    Keeps s (carryOut i eff x u v) := by
  unfold Machine.carryOut
  split
  · exact h.trap.modThread.takeTurn
  · exact h.trap.takeTurn
  · exact h.skip.takeTurn
  · exact h.startTokens
  · exact h.parkOperand
  · exact (h.commit heff).takeTurn

theorem KeepsNext.issue (h : Keeps s u) (heff : ∀ x v, Keeps s v → Keeps s (eff x v)) :
    KeepsNext s (issue i chk eff u) := by
  unfold Machine.issue
  split
  · exact .fault _
  · split
    · exact .fault _
    · exact .next (h.carryOut heff)

theorem KeepsNext.issueAlu {f : Issue → Word} (h : Keeps s u) : KeepsNext s (issueAlu i rd f u) :=
  .issue h fun _ _ hv => hv.writeReg

theorem Keeps.beginWait (h : Keeps s u) : Keeps s (u.beginWait i x deadline stage) := h.fresh.modThread

end Sys2Proof.Machine
end

section
/-! ### Integer instructions -/

set_option Elab.async false

namespace Sys2Proof.Machine

variable {s t u : State} {ra rb rd : Reg} {n tk : Nat} {i : Instr} {sm : Bool}

theorem Keeps.forfeitTurns (h : Keeps s u) : Keeps s (u.forfeitTurns tk n) := h.modThread

theorem KeepsNext.issueDivide {f : Issue → Word} (h : Keeps s u) : KeepsNext s (issueDivide i rd f u) :=
  .issue h fun _ _ hv => hv.reserveReg.forfeitTurns.addTimer

theorem Keeps.lateResult (h : Keeps s u) : Keeps s u.lateResult := by
  unfold State.lateResult
  split
  · exact h
  · exact .ite h.writeLate h

theorem KeepsNext.execGadr (h : Keeps s u) : KeepsNext s (execGadr sm rd ra rb u) :=
  .issue h fun _ _ hv => .ite hv.writeReg.setStatus hv.writeReg.setStatus

end Sys2Proof.Machine
end

section
/-! ### Control -/

set_option Elab.async false

namespace Sys2Proof.Machine

variable {s t u : State} {field k n reason skipped tag tk : Nat} {g ra : Reg} {pc : BitVec 48} {x : Issue} {disp : BitVec n}
  {sm : Bool}

theorem Keeps.setPc (h : Keeps s u) : Keeps s (u.setPc tk pc) := h.modThread

theorem Keeps.branchIf {c : Bool} (h : Keeps s u) : Keeps s (branchIf c x disp u) := .ite h.setPc h

theorem KeepsNext.execBloop {i : BitVec 12} (h : Keeps s u) : KeepsNext s (execBloop sm ra i u) :=
  .issue h fun _ _ hv => .ite hv hv.writeReg.branchIf

theorem KeepsNext.execPre {b : BitVec 6} {e n : BitVec 1} {f x : BitVec 4} {o : BitVec 2} (h : Keeps s u) :
    KeepsNext s (execPre sm g b e n f x o u) := by
  unfold Machine.execPre
  split
  · exact .fault _
  · split
    · exact .next h.trap.takeTurn
    · exact .issue h fun _ _ hv => hv.modThread

theorem KeepsNext.execWordNotAnInstruction {w : BitVec 32} (h : Keeps s u) :
    KeepsNext s (execWordNotAnInstruction reason w u)
    := by
  unfold Machine.execWordNotAnInstruction
  split
  · exact .fault _
  · split
    · exact .fault _
    · exact .next ((Keeps.ite h.trap.modThread h.trap).takeTurn)

theorem Keeps.pushToken (h : Keeps s u) : Keeps s (u.pushToken tk k tag) := by
  unfold State.pushToken
  split
  · exact h.nbrTake.nbrLeave
  · exact h.rolePush
  · exact h

theorem Keeps.pushTokens (h : Keeps s u) : Keeps s (u.pushTokens tk tag field n k skipped) := by
  induction n generalizing u k skipped with
  | zero => exact h.modThread
  | succ n ih =>
    unfold State.pushTokens
    exact .ite (ih h) (.ite (ih h) (.ite (ih h.pushToken) h.modThread))

theorem Keeps.cancelBindings (h : Keeps s u) :
    Keeps s (u.cancelBindings tk) := h.foldl fun _ _ hv => hv.setStream

theorem Keeps.tokensDone (h : Keeps s u) : Keeps s (u.tokensDone tk) := by
  unfold State.tokensDone
  split
  · exact h
  · exact .ite h (.ite h.trap h.cancelBindings.fresh.modThread)

theorem KeepsNext.execStop (h : Keeps s u) : KeepsNext s (execStop u) := by
  unfold Machine.execStop
  extract_lets tk
  split
  · exact .next h
  · exact .next h.pushTokens.tokensDone

end Sys2Proof.Machine
end

section
/-! ### Translation -/

set_option Elab.async false

namespace Sys2Proof.Machine

variable {s t u : State} {key node root va : Nat} {leaf : Word}

theorem Keeps.tlbFill (h : Keeps s u) : Keeps s (u.tlbFill node key root va leaf) := by
  unfold State.tlbFill
  exact h.modTeam

end Sys2Proof.Machine
end

section
/-! ### Owners and waits -/

set_option Elab.async false

namespace Sys2Proof.Machine

variable {s t u : State} {cause detail die ea hint item k key kind n rid st : Nat} {write writes : Bool} {r : Req} {p : Payload}
  {ev : Instr} {v : Word} {bs : List Byte}

theorem Keeps.modSlice {f : Slice → Slice} (h : Keeps s u) : Keeps s (u.modSlice k f) := h.frame

theorem Keeps.l2Touch {t₀ : Target} {keep : Bool} (h : Keeps s u) :
    Keeps s (u.l2Touch k t₀ hint write keep) := by
  unfold State.l2Touch
  split
  · exact .ite h h.fresh.modSlice
  · exact h

theorem Keeps.respond (h : Keeps s u) : Keeps s (u.respond r p ev) := h.send

theorem Keeps.performed (h : Keeps s u) : Keeps s (u.performed r) := h.putReq

theorem Keeps.answer (h : Keeps s u) : Keeps s (u.answer r st v writes) := h.performed.respond

theorem Keeps.unwait (h : Keeps s u) : Keeps s (u.unwait rid) := h.frame

theorem Keeps.serve (h : Keeps s u) : Keeps s (u.serve r st v writes) := h.unwait.answer

theorem Keeps.releaseBarrier {p : Req → Bool} (h : Keeps s u) : Keeps s (u.releaseBarrier p st) :=
  h.foldl fun _ _ hv => hv.serve

theorem Keeps.wakeWords (h : Keeps s u) :
    Keeps s (u.wakeWords key n) := h.foldl fun _ _ hv => .ite hv.serve hv

theorem Keeps.afterWrite (h : Keeps s u) : Keeps s (u.afterWrite key n) := .ite h h.releaseBarrier.wakeWords

theorem Keeps.ownerWrite (h : Keeps s u) : Keeps s (u.ownerWrite key bs) := h.setBytes.afterWrite

theorem Keeps.enterWaiter (h : Keeps s u) : Keeps s (u.enterWaiter r) := h.putReq.frame

theorem Keeps.feEffect (h : Keeps s u) : Keeps s (u.feEffect r) := by
  unfold State.feEffect
  extract_lets k w1
  split
  · exact h.setFull.serve
  · exact h.serve
  · exact h.store.setFull.afterWrite.serve
  · exact h.store.afterWrite.serve
  · exact h.serve
  · exact h.setFull.afterWrite.serve
  · exact h

theorem Keeps.fePass (h : Keeps s u) : Keeps s (u.fePass k) := by
  unfold State.fePass
  refine h.foldl fun v0 _ hv => ?_
  exact .ite hv.feEffect hv

theorem Keeps.feServe (h : Keeps s u) : Keeps s (u.feServe r) := .ite h.feEffect h.feEffect.fePass

theorem Keeps.ownerFault (h : Keeps s u) : Keeps s (u.ownerFault r cause) :=
  .ite h.delReq (.ite h.performed.respond (.ite h.performed.respond (.ite h.performed.respond h.performed.respond)))

theorem Keeps.performLoad (h : Keeps s u) : Keeps s (u.performLoad r) := h.performed.respond

theorem Keeps.performStore (h : Keeps s u) : Keeps s (u.performStore r) := h.ownerWrite.performed.respond

theorem Keeps.performAtomic (h : Keeps s u) : Keeps s (u.performAtomic r) := by
  unfold State.performAtomic
  extract_lets old s1 s2
  have h1 : Keeps s s1 := by
    unfold s1
    split
    · exact h.ownerWrite
    · exact h
  have h2 : Keeps s s2 := h1.performed
  exact .ite h2.respond h2.respond

theorem Keeps.performFe (h : Keeps s u) : Keeps s (u.performFe r) := by
  unfold State.performFe
  split
  · exact h.answer
  · exact .ite h.feServe (.ite h.enterWaiter h.answer)

theorem Keeps.performArrival (h : Keeps s u) : Keeps s (u.performArrival r) := by
  have hw {k n : Nat} {v : Nat} {c : Prop} [Decidable c] {p : Req → Bool} {st : Nat} :
      Keeps s ((if c then (u.store k n v).releaseBarrier p st else u.store k n v).wakeWords k n) :=
    (Keeps.ite h.store.releaseBarrier h.store).wakeWords
  unfold State.performArrival
  split
  case h_3 => exact h.answer
  all_goals
    exact .ite (.ite h.answer (.ite h.enterWaiter h.answer))
      (.ite h.answer (.ite hw.answer (.ite hw.enterWaiter hw.answer)))

theorem Keeps.performBarrierWord (h : Keeps s u) : Keeps s (u.performBarrierWord r) := by
  unfold State.performBarrierWord
  split
  · split
    · exact h.store.releaseBarrier.wakeWords.answer
    · exact h.store.releaseBarrier.wakeWords.answer
    · exact h.answer
  · split
    · exact .ite h.answer (.ite h.enterWaiter h.answer)
    · exact .ite h.answer (.ite h.enterWaiter h.answer)
    · exact .ite h.answer (.ite h.enterWaiter h.answer)
    · exact h.answer

theorem Keeps.performLine (h : Keeps s u) : Keeps s (u.performLine r) := by
  unfold State.performLine
  split
  · exact h.delReq
  · exact h.modSlice.performed.respond
  · exact h.modSlice.performed.respond
  · exact h.performed.respond

theorem Keeps.logEntry (h : Keeps s u) : Keeps s (u.logEntry kind die item detail) := h.frame

theorem Keeps.logPoison {t₀ : Target} (h : Keeps s u) : Keeps s (u.logPoison t₀) := by
  unfold State.logPoison
  split
  · exact h.logEntry
  · exact h.logEntry
  · exact h.logEntry
  · exact h

theorem Keeps.logCause (h : Keeps s u) : Keeps s (u.logCause key ea cause) := by
  unfold State.logCause
  split
  · split
    · exact h.logPoison
    · exact h
  · exact h

end Sys2Proof.Machine
end

section
/-! ### Local memory -/

set_option Elab.async false

namespace Sys2Proof.Machine

variable {s t u : State} {key n : Nat} {bs : List Byte} {x : Issue} {i : Instr} {rd : Reg} {signed : Bool} {op : LocalOp}

theorem Keeps.scratchStore (h : Keeps s u) : Keeps s (u.scratchStore key bs) := h.localStore.wakeWords

theorem Keeps.sendBank {k : LocalKind} (h : Keeps s u) : Keeps s (u.sendBank x k) := h.addMove

theorem KeepsNext.issueLoad {t₀ : BitVec 7} (h : Keeps s u) : KeepsNext s (issueLoad i rd n t₀ signed u) :=
  .issue h fun _ _ hv => hv.reserveReg.sendBank

theorem KeepsNext.issueStore {t₀ : BitVec 7} (h : Keeps s u) : KeepsNext s (issueStore i n t₀ u) :=
  .issue h fun _ _ hv => hv.sendBank

theorem Keeps.bankStep (h : Keeps s u) : Keeps s (u.bankStep op) := by
  unfold State.bankStep
  split
  · exact .ite h.writeBank h
  · exact .ite h.writeGroup h
  · exact h.scratchStore
  · exact h
  · exact h

end Sys2Proof.Machine
end

section
/-! ### The save area -/

set_option Elab.async false

namespace Sys2Proof.Machine

variable {s t u : State} {core port root va : Nat} {w0 w1 : Word} {ws : List Word}

theorem Keeps.deviceWrite {l : List (Nat × Byte)} (h : Keeps s u) : Keeps s (u.deviceWrite root l) := by
  induction l generalizing u with
  | nil => exact h
  | cons e l ih =>
    refine ih ?_
    split
    · exact h.ownerWrite
    · exact h

theorem Keeps.areaWrite (h : Keeps s u) (ht : u.areaWrite root va ws = some t) : Keeps s t := by
  induction ws generalizing u va with
  | nil => exact Option.some.inj ht ▸ h
  | cons w ws ih =>
    unfold State.areaWrite at ht
    split at ht
    · exact absurd ht nofun
    · exact ih h.ownerWrite ht

theorem Keeps.getD {o : Option State} (h : Keeps s u) (ho : ∀ t, o = some t → Keeps s t) :
    Keeps s (o.getD u) := by
  cases o with
  | none => exact h
  | some t => exact ho t rfl

theorem Keeps.modSaved {l : Launch} {i : Nat} {f : List Word → List Word} (h : Keeps s u) :
    Keeps s (u.modSaved l i f) := by
  unfold State.modSaved
  split
  · exact h
  · split
    · exact h
    · exact h.getD fun t ht => h.areaWrite ht

theorem Keeps.saveCompletion {l : Launch} {i : Nat} (h : Keeps s u) :
    Keeps s (u.saveCompletion l i core port w0 w1) :=
  h.modSaved

end Sys2Proof.Machine
end

section
/-! ### Global memory -/

set_option Elab.async false

namespace Sys2Proof.Machine

variable {s t u : State} {cause cid core die ea hint id k key line n node pa rid root slice src tk va : Nat} {counts sm : Bool}
  {ra rd : Reg} {done es : List Elem} {i : Instr} {x : Issue} {r : Req} {vals : List Word} {v : Word} {user : PortUser}
  {banks : List Nat} {page : PageRef} {bytes : List Byte} {z : BitVec 2} {q : BitVec 1} {o : BitVec 5} {mv : Move}

theorem Keeps.mkReq {bytes : Nat} (h : Keeps s u) : Keeps s (u.mkReq i x ea bytes).2 := h.fresh

theorem Keeps.modMine {f : Thread → Thread} (h : Keeps s u) : Keeps s (u.modMine r f) := .ite h.modThread h

theorem Keeps.goAhead (h : Keeps s u) : Keeps s (u.goAhead r) := .ite h h.frame

theorem Keeps.settleAhead (h : Keeps s u) : Keeps s u.settleAhead := .ite h h.frame

theorem Keeps.sendReq {t₀ : Target} (h : Keeps s u) : Keeps s (u.sendReq r t₀) := by
  unfold State.sendReq
  extract_lets s' _
  have hv : Keeps s s' := h.frame
  split
  next _ s2 hs =>
  have h2 := hv.fresh.snd hs
  split
  next _ s3 hs =>
  have h3 := h2.pathTime.snd hs
  extract_lets _ _ s6
  have h6 : Keeps s s6 := h3.putReq
  split
  · exact h6.addTimer
  · exact h6.addMove

theorem Keeps.beginWalk (h : Keeps s u) : Keeps s (u.beginWalk die) := by
  unfold State.beginWalk
  extract_lets l
  split
  · exact h
  · split
    · exact h
    · exact h.delay.modTeam.addTimer

theorem Keeps.startWalk (h : Keeps s u) : Keeps s (u.startWalk node key ea cid) := by
  unfold State.startWalk
  split
  · exact h
  · split
    · exact h
    · exact h.fresh.modTeam.beginWalk

theorem Keeps.landLoad (h : Keeps s u) : Keeps s (u.landLoad r vals cause) := h.setStream.delReq.landed

theorem Keeps.logFault (h : Keeps s u) : Keeps s (u.logFault r cause) := h.modMine

theorem Keeps.acked (h : Keeps s u) : Keeps s (u.acked r) := h.modMine.delReq

theorem Keeps.landOld (h : Keeps s u) : Keeps s (u.landOld r v cause) :=
  .ite (((((Keeps.ite h h.logFault).writeGSOf).acked).modThread).landed) ((Keeps.ite h h.logFault).delReq)

theorem Keeps.waitFault (h : Keeps s u) : Keeps s (u.waitFault r cause) := by
  unfold State.waitFault
  extract_lets s'
  have hv : Keeps s s' := h.delReq
  split
  · exact hv
  · exact hv.trap

theorem Keeps.sourceFault (h : Keeps s u) : Keeps s (u.sourceFault r cause) := by
  unfold State.sourceFault
  split
  · exact h.landLoad
  · split
    · exact h.landOld
    · split
      · exact h.logFault.acked
      · split
        · split
          · exact h.delReq
          · exact h.acked
        · exact h.waitFault

theorem Keeps.askPorts (h : Keeps s u) : Keeps s (u.askPorts user id banks).2 := by
  unfold State.askPorts
  split
  · exact h
  · exact h.frame

theorem Keeps.l1Use {l : L1Line} (h : Keeps s u) : Keeps s (u.l1Use node l page) := h.modTeam

theorem Keeps.l1Fill (h : Keeps s u) : Keeps s (u.l1Fill node line) := by
  unfold State.l1Fill
  split
  · split
    · next v hv =>
      exact (h.askPorts.snd hv).modTeam
    · next v hv =>
      exact (h.askPorts.snd hv).retryMove
  · exact h

theorem Keeps.l1Put (h : Keeps s u) : Keeps s (u.l1Put node pa bytes page) := h.modTeam.l1Fill

theorem Keeps.portStep (h : Keeps s u) : Keeps s (u.portStep rid) := by
  unfold State.portStep
  split
  · exact h
  · split
    · exact h
    · split
      · exact h
      · split
        · exact h.startWalk
        · exact h.sourceFault
        · split
          · exact .ite h h.landLoad
          · dsimp only
            split
            · exact h.l1Use.landLoad
            · exact .ite h h.sendReq

theorem Keeps.claim {e : Elem} (h : Keeps s u) : Keeps s (u.claim tk k n e) := h.setStream

theorem Keeps.issueLoadReq {e : Elem} (h : Keeps s u) : Keeps s (u.issueLoadReq r k n e) :=
  .ite h.claim h.claim.putReq

theorem KeepsNext.execGld {r : BitVec 2} {n : BitVec 1} (h : Keeps s u) :
    KeepsNext s (execGld sm rd ra r z n q o u) := by
  unfold Machine.execGld
  refine .issue h fun _ _ hv => ?_
  split
  next _ s1 hs =>
  have h1 := hv.mkReq.snd hs
  exact h1.issueLoadReq

theorem KeepsNext.execGldv {r : BitVec 2} {n : BitVec 1} (h : Keeps s u) :
    KeepsNext s (execGldv sm rd ra r n q o u) := by
  unfold Machine.execGldv
  refine .issue h fun _ _ hv => ?_
  split
  next _ s1 hs =>
  have h1 := hv.mkReq.snd hs
  exact h1.issueLoadReq

theorem KeepsNext.execSbind (h : Keeps s u) : KeepsNext s (execSbind sm rd ra u) :=
  .issue h fun _ _ hv => .ite hv.setStatus hv.setStream.setStatus

theorem KeepsNext.execBindingRequestIssue (h : Keeps s u) : KeepsNext s (execBindingRequestIssue u) := by
  unfold Machine.execBindingRequestIssue
  extract_lets _ _ _
  split
  · exact .next h
  · split
    · extract_lets _ s4
      have h4 : Keeps s s4 := h.setStream
      split
      next _ s6 hs =>
      have h6 := h4.mkReq.snd hs
      exact .next h6.issueLoadReq
    · exact .next h

theorem KeepsNext.execStreamElementLand (h : Keeps s u) : KeepsNext s (execStreamElementLand u) := by
  unfold Machine.execStreamElementLand
  split
  · exact .next h
  · split
    · exact .next h.again
    · extract_lets s'
      have hv : Keeps s s' := h.dropPacket
      split
      · split
        · exact .next hv
        · extract_lets s1
          have h1 : Keeps s s1 := by
            unfold s1
            split
            · exact .ite hv.l1Put hv
            · exact hv
          exact .next h1.landLoad
      · exact .next hv

theorem Keeps.reissueMarkers (h : Keeps s u) : Keeps s (u.reissueMarkers tk k done es) := by
  induction es generalizing u done with
  | nil => exact h.setStream
  | cons e es ih =>
    unfold State.reissueMarkers
    dsimp only
    split
    · split
      · exact ih h.mkReq
      · exact ih h.mkReq.putReq
    · exact ih h

theorem Keeps.reissueAll (h : Keeps s u) : Keeps s (u.reissueAll tk) :=
  (h.foldl fun _ _ hv => hv.reissueMarkers).frame

theorem Keeps.enterBuffer (h : Keeps s u) : Keeps s (u.enterBuffer r) :=
  .ite h.putReq.modThread.modCore.modThread h.putReq.modThread.modCore

theorem KeepsNext.execGst {r : BitVec 2} (h : Keeps s u) : KeepsNext s (execGst sm rd ra r z q o u) := by
  unfold Machine.execGst
  refine .issue h fun _ _ hv => ?_
  split
  next _ s1 hs =>
  have h1 := hv.mkReq.snd hs
  exact h1.enterBuffer

theorem KeepsNext.execGstv {r : BitVec 2} (h : Keeps s u) : KeepsNext s (execGstv sm rd ra r q o u) := by
  unfold Machine.execGstv
  refine .issue h fun _ _ hv => ?_
  split
  next _ s1 hs =>
  have h1 := hv.mkReq.snd hs
  exact h1.enterBuffer

theorem Keeps.popBuffer (h : Keeps s u) : Keeps s (u.popBuffer core) := h.modCore

theorem Keeps.leaveFault (h : Keeps s u) : Keeps s (u.leaveFault r cause) := .ite h.landOld h.logFault.acked

theorem KeepsNext.execStoreBufferLeave (h : Keeps s u) : KeepsNext s (execStoreBufferLeave u) := by
  unfold Machine.execStoreBufferLeave
  extract_lets core
  split
  · exact .next h
  · split
    · exact .next h.popBuffer
    · split
      · exact .next h
      · split
        · exact .next h.popBuffer.leaveFault
        · split
          · exact .next h.startWalk
          · exact .next h.popBuffer.leaveFault
          · split
            · exact .next h
            · refine .next (Keeps.sendReq ?_)
              split
              · exact h.popBuffer.modMine
              · exact h.popBuffer

theorem KeepsNext.execStoreAcknowledge (h : Keeps s u) : KeepsNext s (execStoreAcknowledge u) := by
  unfold Machine.execStoreAcknowledge
  split
  · exact .next h
  · split
    · exact .next h.again
    · extract_lets s'
      have hv : Keeps s s' := h.dropPacket
      split
      · split
        · exact .next hv
        · exact .next ((Keeps.ite hv hv.logFault).acked)
      · exact .next hv

theorem Keeps.l1Drop {p : Nat → Bool} (h : Keeps s u) : Keeps s (u.l1Drop node p) := h.modTeam.frame

theorem Keeps.lineNow (h : Keeps s u) : Keeps s (u.lineNow node key ea).2 := by
  unfold State.lineNow
  split
  · exact h.startWalk
  · exact h

theorem KeepsNext.execGinv (h : Keeps s u) : KeepsNext s (execGinv sm ra u) := by
  unfold Machine.execGinv
  refine .issue h fun _ _ hv => ?_
  split
  · exact hv.l1Drop
  · split
    · next _ v1 h1 =>
      exact (hv.lineNow.snd h1).l1Drop
    · next _ v1 h1 =>
      exact (hv.lineNow.snd h1)

theorem Keeps.lineReq (h : Keeps s u) : Keeps s (u.lineReq i x hint counts) := by
  unfold State.lineReq
  split
  · next _ v hv =>
    exact (h.lineNow.snd hv)
  · next _ v hv =>
    split
    next _ s1 hs =>
    have h1 := ((h.lineNow.snd hv).mkReq).snd hs
    exact .ite h1.putReq.modThread h1.putReq

theorem KeepsNext.issueLineOp (h : Keeps s u) :
    KeepsNext s (issueLineOp i u) := .issue h fun _ _ hv => hv.lineReq

theorem Keeps.touchLine (h : Keeps s u) : Keeps s (u.touchLine r) := by
  unfold State.touchLine
  split
  · split
    · exact h
    · exact h
    · exact h.l2Touch
  · exact h

theorem Keeps.leaveQueue (h : Keeps s u) : Keeps s (u.leaveQueue r) := by
  unfold State.leaveQueue
  split
  · exact h.modSlice
  · exact h

theorem Keeps.atOwner {f : State → Req → State} (h : Keeps s u) (hf : ∀ v r, Keeps s v → Keeps s (f v r)) :
    Keeps s (u.atOwner mv rid f) := by
  unfold State.atOwner
  split
  · exact h
  · extract_lets line
    split
    · exact h
    · refine .ite h.retryMove ?_
      extract_lets
      split
      · next v hv => exact (h.askPorts.snd hv).retryMove
      · next v hv =>
        have hv := h.askPorts.snd hv
        extract_lets w c x
        have hw : Keeps s w := (Keeps.ite hv hv.goAhead).leaveQueue
        have hx : Keeps s x := by
          unfold x
          split
          · exact hw.logPoison
          · exact hw
        exact (Keeps.ite hx.ownerFault (hf _ _ hx).touchLine).settleAhead

theorem Keeps.ownerReadStep (h : Keeps s u) : Keeps s (u.ownerReadStep rid) :=
  h.atOwner fun _ _ hv => .ite hv.performLoad hv.performLine

theorem Keeps.bounce (h : Keeps s u) : Keeps s (u.bounce r) := h.putReq.send

theorem KeepsNext.execSliceAccept (h : Keeps s u) : KeepsNext s (execSliceAccept u) := by
  unfold Machine.execSliceAccept
  split
  · exact .next h
  · exact .ite (.next h) (.ite (.next h.again) (.ite (.next h.bounce)
      (.ite (.next h.again) (.next (Keeps.ite h.goAhead h).putReq.modSlice))))

theorem KeepsNext.execSliceLookup (h : Keeps s u) : KeepsNext s (execSliceLookup u) := by
  unfold Machine.execSliceLookup
  extract_lets k
  split
  · exact .next h
  · exact .ite (.next h.putReq.modSlice.addMove) (.next h.putReq.modSlice.delay.addTimer)

theorem KeepsNext.execDramFill (h : Keeps s u) : KeepsNext s (execDramFill u) := by
  unfold Machine.execDramFill
  split
  · exact .next h
  · exact .next h.doNext

theorem Keeps.remapWaiters (h : Keeps s u) :
    Keeps s (u.remapWaiters k) := h.foldl fun _ _ hv => hv.unwait.bounce

theorem Keeps.sendMap (h : Keeps s u) : Keeps s (u.sendMap src die) := h.foldl fun _ _ hv => .ite hv hv.send

theorem KeepsNext.execSliceRetire (h : Keeps s u) : KeepsNext s (execSliceRetire slice u) := by
  unfold Machine.execSliceRetire
  extract_lets x die v j maps w p y
  have hv : Keeps s v := h.modSlice
  have hw : Keeps s w := hv.modSlice
  have hy : Keeps s y := hw.setPkg fun ⟨hr, hl, hm, hg⟩ =>
    ⟨hr, hl, (List.length_set ..).trans hm, (List.length_set ..).trans hg⟩
  exact .ite (.next h) (.ite (.next hv.again) (.next hy.remapWaiters.sendMap.logEntry))

theorem KeepsNext.execCorrectedError (h : Keeps s u) : KeepsNext s (execCorrectedError slice u) :=
  .ite (.next h) (.ite (.next h.modSlice.logEntry.doNext) (.next h.modSlice.logEntry))

theorem Keeps.unbounce (h : Keeps s u) : Keeps s (u.unbounce rid) := by
  unfold State.unbounce
  split
  · exact h
  · exact .ite h.putReq h

theorem KeepsNext.execMapInstall (h : Keeps s u) : KeepsNext s (execMapInstall u) := by
  unfold Machine.execMapInstall
  split
  · exact .next h
  · split
    · exact .next h.again
    · extract_lets v
      have hv : Keeps s v := h.dropPacket
      split
      · extract_lets w
        have hw : Keeps s w := .ite hv (hv.modTeam fun _ => .of_lengths (by simp [Team.lengths]))
        refine .next ?_
        split
        · exact hw.unbounce
        · exact hw
      · exact .next hv

theorem Keeps.failPage (h : Keeps s u) : Keeps s (u.failPage node key va) := h.frame

theorem Keeps.fetchTrap (h : Keeps s u) : Keeps s (u.fetchTrap tk cause) := h.trap

theorem Keeps.failFetch (h : Keeps s u) :
    Keeps s (u.failFetch node key va) := h.foldl fun _ _ hv => hv.fetchTrap

theorem Keeps.failEngine {w : Walk} (h : Keeps s u) : Keeps s (u.failEngine w) := .ite h h.mapCores.frame

theorem KeepsNext.execPageWalkDone (h : Keeps s u) : KeepsNext s (execPageWalkDone u) := by
  unfold Machine.execPageWalkDone
  extract_lets node
  split
  · exact .next h
  · extract_lets s1
    have h1 : Keeps s s1 := h.modTeam.beginWalk
    split
    · exact .next h1.tlbFill
    · exact .next h1.failPage.failFetch.failEngine

theorem Keeps.icachePut (h : Keeps s u) : Keeps s (u.icachePut node root va bytes) :=
  h.modTeam fun _ => .of_lengths (by dsimp only [Team.lengths])

theorem KeepsNext.execICacheFill (h : Keeps s u) : KeepsNext s (execICacheFill u) := by
  unfold Machine.execICacheFill
  extract_lets tk
  split
  · exact .next h
  · split
    · exact .next h.fetchTrap
    · split
      · exact .next h.startWalk.again
      · split
        · exact .next h.logCause.fetchTrap
        · exact .next h.icachePut.modThread

end Sys2Proof.Machine
end

section
/-! ### Atomics and waits -/

set_option Elab.async false

namespace Sys2Proof.Machine

variable {s t u : State} {av cause data ea exp ret rid st tk : Nat} {counted lands sm writes : Bool} {ev i : Instr}
  {ra rd : Reg} {w : Wait} {r : Req} {v : Word}

theorem KeepsNext.issueAtomic (h : Keeps s u) : KeepsNext s (issueAtomic i av lands u) := by
  unfold Machine.issueAtomic
  refine .issue h fun _ _ hv => ?_
  extract_lets _
  split
  next _ s2 hs =>
  have h2 := hv.mkReq.snd hs
  exact (Keeps.ite h2.modThread h2).enterBuffer

theorem KeepsNext.execAtomicAtOwner (h : Keeps s u) : KeepsNext s (execAtomicAtOwner u) :=
  .next (h.atOwner fun _ _ hv => hv.performAtomic)

theorem KeepsNext.execAmoReply (h : Keeps s u) : KeepsNext s (execAmoReply u) := by
  unfold Machine.execAmoReply
  split
  · exact .next h
  · split
    · exact .next h.again
    · extract_lets s'
      have hv : Keeps s s' := h.dropPacket
      split
      · split
        · exact .next hv
        · exact .next hv.landOld
      · exact .next hv

theorem Keeps.modWait {f : Wait → Wait} (h : Keeps s u) : Keeps s (u.modWait tk f) := by
  unfold State.modWait
  split
  · exact h
  · exact h.modThread

theorem Keeps.askOwner (h : Keeps s u) : Keeps s (u.askOwner tk w ea ret data exp) := by
  unfold State.askOwner
  extract_lets x
  split
  next _ s1 hs =>
  have h1 := h.mkReq.snd hs
  exact h1.putReq.modWait

theorem KeepsNext.issueOwnerWait {e : Option Nat} {data exp : Issue → Nat} (h : Keeps s u) :
    KeepsNext s (issueOwnerWait i av e data exp u) := by
  refine .issue h fun x v hv => ?_
  extract_lets alone old w
  have hw : Keeps s w := hv.beginWait
  split
  · exact hw
  · exact hw.modWait.askOwner

theorem KeepsNext.execBari (h : Keeps s u) : KeepsNext s (execBari sm rd ra u) := by
  refine .issue h fun x v hv => ?_
  split
  · exact hv.setStatus
  · dsimp only
    split
    · exact hv.beginWait
    · exact hv.beginWait.askOwner

theorem KeepsNext.execBarrierArrival (h : Keeps s u) : KeepsNext s (execBarrierArrival u) :=
  .next (h.atOwner fun _ _ hv => hv.performArrival)

theorem KeepsNext.execBarrierWordRequest (h : Keeps s u) : KeepsNext s (execBarrierWordRequest u) :=
  .next (h.atOwner fun _ _ hv => hv.performBarrierWord)

theorem Keeps.expireWait (h : Keeps s u) : Keeps s (u.expireWait tk w) := (Keeps.ite h.writeGS h).endWithdrawn

theorem Keeps.retryLater (h : Keeps s u) : Keeps s (u.retryLater r w v counted) := h.modWait.addTimer

theorem Keeps.takeAnswer (h : Keeps s u) : Keeps s (u.takeAnswer rid st v writes) := by
  unfold State.takeAnswer
  split
  · exact h
  · extract_lets s'
    have hv : Keeps s s' := h.delReq
    split
    · exact hv
    · exact .ite hv.trap (.ite (Keeps.ite hv.writeGS hv).endWithdrawn
      (.ite hv.retryLater (Keeps.ite hv.writeGS hv).finishWait))

theorem Keeps.answerStep (h : Keeps s u) : Keeps s (u.answerStep ev) := by
  unfold State.answerStep
  split
  · exact h
  · split
    · exact h.again
    · extract_lets s'
      have hv : Keeps s s' := h.dropPacket
      split
      · exact hv.takeAnswer
      · exact hv

theorem KeepsNext.execFeResend (h : Keeps s u) : KeepsNext s (execFeResend u) := by
  unfold Machine.execFeResend
  split
  · exact .next h
  · exact .ite (.next h) (.next h.askOwner)

theorem Keeps.sendWithdrawal (h : Keeps s u) :
    Keeps s (u.sendWithdrawal r) := h.pathTime.putReq.modWait.addMove

theorem Keeps.withdrawWait (h : Keeps s u) : Keeps s (u.withdrawWait tk w) := by
  unfold State.withdrawWait
  split
  · exact h.expireWait
  · exact .ite h.delReq.expireWait (.ite h h.sendWithdrawal)

theorem Keeps.withdrawStep (h : Keeps s u) : Keeps s (u.withdrawStep rid) := by
  unfold State.withdrawStep
  split
  · exact h
  · split
    · exact h.addMove
    · exact h.leaveQueue.unwait.answer
    · exact h.leaveQueue.unwait.answer
    · exact h.leaveQueue.unwait.answer
    · exact h

theorem KeepsNext.execOwnerWaitTimeout (h : Keeps s u) : KeepsNext s (execOwnerWaitTimeout u) := by
  unfold Machine.execOwnerWaitTimeout
  split
  · exact .next h
  · exact .ite (.next h) (.next h.withdrawWait)

theorem Keeps.fenceRead (h : Keeps s u) : Keeps s (u.fenceRead tk w) := h.delay.modWait.addTimer

theorem KeepsNext.execFenceHostReadDone (h : Keeps s u) : KeepsNext s (execFenceHostReadDone u) := by
  unfold Machine.execFenceHostReadDone
  split
  · exact .next h
  · exact .ite (.next h) (.next h.modWait.modThread)

theorem Keeps.logTrap {a : Word} (h : Keeps s u) : Keeps s (u.logTrap tk cause a) := h.modThread.trap

theorem KeepsNext.execFenceComplete (h : Keeps s u) : KeepsNext s (execFenceComplete u) := by
  unfold Machine.execFenceComplete
  extract_lets tk
  split
  · exact .next h
  · split
    · split
      · split
        · exact .next h.logTrap
        · exact .next h.finishWait
      · exact .next h
    · exact .next h

theorem KeepsNext.execFenceTimeout (h : Keeps s u) : KeepsNext s (execFenceTimeout u) := by
  unfold Machine.execFenceTimeout
  split
  · exact .next h
  · exact .ite (.next h) (.next h.finishWait)

end Sys2Proof.Machine
end

section
/-! ### Scalar float -/

set_option Elab.async false

namespace Sys2Proof.Machine

variable {s t u : State} {i : Instr} {rd : Reg} {slow : Issue → Bool} {ops : List Nat}

theorem KeepsNext.issueFloat {f : Issue → Word} (h : Keeps s u) : KeepsNext s (issueFloat i rd f slow u) :=
  .issue h fun _ _ hv => .ite hv.reserveReg.forfeitTurns.addTimer hv.writeReg

theorem KeepsNext.issueArith {f : Issue → Val} (h : Keeps s u) : KeepsNext s (issueArith i rd ops f u) :=
  .issueFloat h

end Sys2Proof.Machine
end

section
/-! ### The vector unit -/

set_option Elab.async false

namespace Sys2Proof.Machine

variable {s t u : State} {i : Instr}

theorem KeepsNext.issueVector (h : Keeps s u) : KeepsNext s (issueVector i u) :=
  .issue h fun _ _ hv => (hv.fresh.modTeam fun _ => .of_lengths (by simp [Team.lengths])).modThread

theorem KeepsNext.execVectorGrant (h : Keeps s u) : KeepsNext s (execVectorGrant u) := by
  unfold Machine.execVectorGrant
  extract_lets node
  split
  · exact .next h
  · split
    · exact .next h
    · exact .next (h.modTeam fun _ => .of_lengths (by simp [Team.lengths])).addTimer

theorem KeepsNext.execVectorReturn (h : Keeps s u) : KeepsNext s (execVectorReturn u) := by
  unfold Machine.execVectorReturn
  extract_lets node
  split
  · exact .next h
  · refine .ite (.next h.modTeam) (.next (Keeps.modThread ?_).settleSwitch)
    split
    · exact h.modTeam.writeGS
    · exact h.modTeam.writeGroup

end Sys2Proof.Machine
end

section
/-! ### The matrix engine -/

set_option Elab.async false

namespace Sys2Proof.Machine

variable {s t u : State} {c cause core id k n node stamp tk : Nat} {fence notify sm : Bool} {ra rd : Reg} {m m' : Matrix}
  {α β : Type} {pc : BitVec 48} {d0 : Word} {op : LocalOp} {w : Wait} {before : List MOp} {held : SMap (BitVec 36)}

theorem Keeps.mEnqueue {t₀ : List Word} (h : Keeps s u) : Keeps s (u.mEnqueue tk t₀ fence pc stamp) := by
  unfold State.mEnqueue
  refine h.fresh.modMx fun _ => .of_lengths ?_
  simp only [Matrix.lengths, List.length_set]
  split <;> simp only [List.length_set]

theorem KeepsNext.execMpush {e : BitVec 7} (h : Keeps s u) : KeepsNext s (execMpush sm rd ra e u) :=
  .issue h fun _ _ hv => .ite hv.mEnqueue.writeReg.setStatus hv.beginWait

theorem KeepsNext.execMfence {e : BitVec 7} (h : Keeps s u) : KeepsNext s (execMfence sm e u) :=
  .issue h fun _ _ hv => .ite hv.mEnqueue.setStatus hv.beginWait

theorem Keeps.setRing (h : Keeps s u) : Keeps s (u.setRing node d0) := by
  unfold State.setRing
  exact h.modMx fun _ => .of_lengths (by simp [Matrix.lengths])

theorem KeepsNext.execMring {e : BitVec 4} (h : Keeps s u) : KeepsNext s (execMring sm ra e u) :=
  .issue h fun _ _ hv => .ite hv.setStatus (.ite hv.setRing.setStatus hv.beginWait)

theorem Keeps.ringStep (h : Keeps s u) : Keeps s (u.ringStep op) := by
  unfold State.ringStep
  dsimp only
  split
  · exact h
  · split
    · split
      · exact h.writeBank.setStatus
      · exact (h.modMx fun _ => .of_lengths (by simp [Matrix.lengths])).writeBank.setStatus
    · exact .ite h.writeBank.setStatus h.writeBank.setStatus
    all_goals exact h

theorem Keeps.matrixResume (h : Keeps s u) : Keeps s (u.matrixResume tk w) := by
  unfold State.matrixResume
  extract_lets pc
  split
  · exact .ite h.mEnqueue.writeGS.finishWait h
  · exact .ite h.mEnqueue.finishWait h
  · exact .ite h.setRing.finishWait h
  · exact h

theorem KeepsNext.execMatrixQueueTimeout (h : Keeps s u) : KeepsNext s (execMatrixQueueTimeout u) := by
  unfold Machine.execMatrixQueueTimeout
  split
  · exact .next h
  · exact .ite (.next h) (.next h.finishWait)

theorem Keeps.setResults {l : List MRec} (h : Keeps s u) : Keeps s (u.setResults core l) :=
  h.modMx fun _ => .of_lengths (by simp [Matrix.lengths])

theorem KeepsNext.execMpopRecordLand (h : Keeps s u) : KeepsNext s (execMpopRecordLand u) := by
  unfold Machine.execMpopRecordLand
  extract_lets tk l1
  split
  · exact .next h.setResults.modMx.writeG.writeG.setStatus.modThread.landed
  · exact .next h

theorem KeepsNext.execMpopTimeout (h : Keeps s u) : KeepsNext s (execMpopTimeout u) :=
  .ite (.next h.modThread.setStatus.landed) (.next h)

theorem Keeps.matrixReport {r : MRec} (h : Keeps s u) : Keeps s (u.matrixReport core r) := h.sendMessage

theorem Keeps.dropRecords (h : Keeps s u) : Keeps s (u.dropRecords tk) :=
  .ite h ((Keeps.ite h.setResults h).foldl fun _ _ hv => hv.matrixReport)

theorem Matrix.Keeps.grantOne {a : Matrix} (h : Matrix.Keeps a m) : Matrix.Keeps a (m.grantOne c) := by
  unfold Matrix.grantOne
  split
  · exact h
  · split
    · exact h
    · exact h.trans (.of_lengths (by simp [Matrix.lengths]))

theorem KeepsNext.execMatrixGrant (h : Keeps s u) : KeepsNext s (execMatrixGrant u) :=
  .ite (.next h) (.next (h.modMx fun m => (Matrix.Keeps.refl m).grantOne.grantOne))

/-- A matrix engine has its sizes and its cells in order if a state has. -/
def Matrix.Kept (s : State) (m : Matrix) : Prop :=
  (SizedParts s → m.sized = true) ∧ (Canonical s → SMap.sortedFrom 0 m.acc = true ∧ SMap.sortedFrom 0 m.corr = true)

theorem Keeps.mx (h : Keeps s u) (node : Nat) : Matrix.Kept s (u.mx node) :=
  ⟨fun hs => ((Team.sized_iff _).mp (State.team_sized (h.sizes hs) node)).2.1,
    fun hs => State.team_sorted (h.canonical hs) node⟩

theorem Matrix.Kept.keeps (h : Matrix.Kept s m) (hm : Matrix.Keeps m m') : Matrix.Kept s m' :=
  ⟨fun hs => hm.1 (h.1 hs), fun hs => hm.2 (h.2 hs)⟩

theorem Keeps.setMx (h : Keeps s u) (hm : Matrix.Kept s m) : Keeps s (u.modMx node fun _ => m) :=
  h.modTeamAt (fun hs => by
    have ht := (Team.sized_iff _).mp (State.team_sized (h.sizes hs) node)
    exact (Team.sized_iff _).mpr ⟨ht.1, hm.1 hs, ht.2.2⟩) hm.2

theorem Matrix.Keeps.setCell {a : Matrix} {v : BitVec 36} (h : Matrix.Keeps a m) :
    Matrix.Keeps a (m.setCell k v) := by
  refine h.trans ⟨fun hm => ?_, fun ⟨ha, hc⟩ => ?_⟩ <;> unfold Matrix.setCell <;> split
  · exact hm
  · exact hm
  · exact ⟨SMap.sortedFrom_putD m.acc k v 0 ha, hc⟩
  · exact ⟨ha, SMap.sortedFrom_putD m.corr (k - 4096) v 0 hc⟩

theorem Matrix.Keeps.foldl {f : β × Matrix → α → β × Matrix} {l : List α} {p : β × Matrix} (h : Matrix.Keeps m p.2)
    (hf : ∀ q a, Matrix.Keeps q.2 (f q a).2) : Matrix.Keeps m (l.foldl f p).2 := by
  induction l generalizing p with
  | nil => exact h
  | cons a l ih => exact ih (h.trans (hf p a))

theorem Matrix.Keeps.cellInOrder (o : MOp) (p : SMap (BitVec 36) × Matrix) (k : Nat) :
    Matrix.Keeps p.2 (cellInOrder o p k).2
    := by
  unfold Machine.cellInOrder
  dsimp only
  split
  · exact (Matrix.Keeps.refl _).setCell
  · exact .refl _

theorem Matrix.Keeps.cellAnyOrder (o : MOp) (p : SMap (BitVec 36) × Matrix) (k : Nat) :
    Matrix.Keeps p.2 (cellAnyOrder o p k).2
    := by
  unfold Machine.cellAnyOrder
  dsimp only
  split
  · split
    · exact Matrix.Keeps.setCell (m := { p.2 with hist := _ }) (.refl p.2)
    · exact .refl p.2
  · exact .refl p.2

theorem Keeps.readOperands {o : MOp} (h : Keeps s u) : Keeps s (u.readOperands node o before).2 := by
  unfold State.readOperands
  dsimp only
  split
  · exact h
  · split
    · next v hv => exact h.askPorts.snd hv
    · next v hv =>
      have hv := h.askPorts.snd hv
      split
      · exact hv.setMx ((h.mx node).keeps (.foldl (.refl _) fun q k => .cellInOrder _ q k))
      · exact hv

theorem Keeps.readAgain (h : Keeps s u) : Keeps s (u.readAgain node id) := by
  unfold State.readAgain
  split
  · exact h
  · exact h.readOperands.modMx fun _ => .refl _

theorem Matrix.Keeps.passFence {a : Matrix} (h : Matrix.Keeps a m) : Matrix.Keeps a m.passFence := h

theorem Keeps.startOp {e : MEntry} (h : Keeps s u) : Keeps s (u.startOp node e) := by
  unfold State.startOp
  dsimp only
  refine (h.setMx ((h.mx node).keeps ?_)).readOperands.modMx
  have hf : Matrix.Keeps (u.mx node) (if (u.mx node).fenced then (u.mx node).passFence else u.mx node) := by
    split
    · exact (Matrix.Keeps.refl _).passFence
    · exact .refl _
  have hl : (if (u.mx node).fenced then (u.mx node).passFence else u.mx node).lengths = (u.mx node).lengths := by
    split <;> rfl
  generalize (if (u.mx node).fenced then (u.mx node).passFence else u.mx node) = m at hf hl ⊢
  refine hf.trans (.of_lengths ?_)
  simp only [Matrix.lengths, List.cons.injEq, and_true] at hl ⊢
  split <;> simp [hl]

theorem Keeps.passFences (h : Keeps s u) : Keeps s (u.passFences node n) := by
  induction n generalizing u with
  | zero => exact h
  | succ n ih =>
    unfold State.passFences
    split
    · exact h
    · exact .ite (ih h.modMx) h

theorem Keeps.startHead (h : Keeps s u) : Keeps s (u.startHead node) := by
  unfold State.startHead
  extract_lets s'
  have hv : Keeps s s' := h.passFences
  split
  · exact hv
  · exact .ite hv.modMx.startOp hv

theorem Keeps.opWrites {o : MOp} (h : Keeps s u) : Keeps s (u.opWrites node o held) := by
  unfold State.opWrites
  dsimp only
  split
  · exact .ite (h.modMx fun _ => .of_lengths (by simp [Matrix.lengths])) h.ownerWrite
  · exact h.ownerWrite
  · exact h.foldl fun _ _ hv => hv.ownerWrite
  · exact h

theorem Keeps.postRecord {r : MRec} (h : Keeps s u) : Keeps s (u.postRecord core r notify cause) :=
  .ite ((Keeps.ite h.matrixReport h).setResults) (.ite ((Keeps.ite h.matrixReport h).matrixReport) (Keeps.ite h.matrixReport h))

theorem Matrix.Keeps.retire {a : Matrix} {r : Nat} (h : Matrix.Keeps a m) :
    Matrix.Keeps a (retire r n m) := by
  induction n generalizing m with
  | zero => exact h
  | succ n ih =>
    unfold Machine.retire
    dsimp only
    split
    · exact ih (h.trans (.of_lengths (by simp [Matrix.lengths])))
    · exact h

theorem Matrix.Keeps.publish {a : Matrix} {r : Nat} (h : Matrix.Keeps a m) :
    Matrix.Keeps a (publish r n m) := by
  induction n generalizing m with
  | zero => exact h
  | succ n ih =>
    unfold Machine.publish
    dsimp only
    split
    · exact ih (h.trans (.of_lengths (by simp [Matrix.lengths])))
    · exact h

theorem Keeps.completeOp {o : MOp} (h : Keeps s u) : Keeps s (u.completeOp node o) := by
  have hm : Matrix.Kept s (if (u.mx node).checked then (o.held, u.mx node)
      else (cellsOf o.e.tcw).foldl (cellAnyOrder o) ([], u.mx node)).2 := by
    split
    · exact h.mx node
    · exact (h.mx node).keeps (.foldl (.refl _) fun q k => .cellAnyOrder o q k)
  unfold State.completeOp
  dsimp only
  refine Keeps.ite (Keeps.postRecord ?_) ?_
  all_goals
    refine (h.setMx hm).opWrites.modMx fun m => ?_
    exact .publish (.retire (.retire ⟨id, id⟩))

theorem KeepsNext.execMatrixOpComplete (h : Keeps s u) : KeepsNext s (execMatrixOpComplete u) := by
  unfold Machine.execMatrixOpComplete
  dsimp only
  split
  · exact .next h
  · split
    · exact .next h
    · split
      · next v hv => exact .next (h.askPorts.snd hv)
      · next v hv => exact .next (h.askPorts.snd hv).completeOp

end Sys2Proof.Machine
end

section
/-! ### Ports and connectors -/

set_option Elab.async false

namespace Sys2Proof.Machine

variable {s t u : State} {bport c conn dst home kind node port slot src st tk wid : Nat} {ra rb rd : Reg} {ev i : Instr}
  {p : Payload} {w : Wait} {v : Word} {image : List Word} {x : Issue} {deadline : Option Nat} {sm : Bool}
  {who : List (Nat × Nat × Nat)}

/-- The lengths of the lists of a connector. -/
def Conn.lengths (c : Conn) : List Nat := [c.bufs.length, c.binds.length, c.pend.length]

theorem Conn.sized_iff (c : Conn) : c.sized = true ↔ c.lengths = [8, 16, 16] := by
  simp only [Conn.sized, Conn.lengths, Bool.and_eq_true, beq_iff_eq, List.cons.injEq, and_true, and_assoc]

theorem State.conn_sized (hs : SizedParts s) (node c : Nat) : (s.conn node c).sized = true := by
  have ht := ((Team.sized_iff _).mp (State.team_sized hs node)).2.2
  unfold State.conn
  rw [List.getD_eq_getElem?_getD]
  cases hc : (s.team node).conns[c]? with
  | none => rfl
  | some x => exact ht x (List.mem_of_getElem? hc)

theorem Keeps.conn_lengths (h : Keeps s u) (node c : Nat) (hs : SizedParts s) :
    (u.conn node c).lengths = [8, 16, 16] :=
  (Conn.sized_iff _).mp (State.conn_sized (h.sizes hs) node c)

/-- A connector of the right sizes set in a home's slot. -/
theorem Keeps.setConn {x : Conn} (h : Keeps s u) (hx : SizedParts s → x.lengths = [8, 16, 16] := by exact fun _ => rfl) :
    Keeps s (u.setConn node c x) := by
  refine h.modTeamAt (fun hs => ?_) fun hs => State.team_sorted (h.canonical hs) node
  obtain ⟨hl, hm, hc⟩ := (Team.sized_iff _).mp (State.team_sized (h.sizes hs) node)
  refine (Team.sized_iff _).mpr ⟨by simpa [Team.lengths] using hl, hm, fun y hy => ?_⟩
  obtain hy | rfl := List.mem_or_eq_of_mem_set hy
  · exact hc y hy
  · exact (Conn.sized_iff _).mpr (hx hs)

/-- A connector set that has the sizes that another connector has. -/
theorem Keeps.updConn {v : State} {x : Conn} (h : Keeps s u) (hv : Keeps s v)
    (hx : (v.conn node c).lengths = [8, 16, 16] → x.lengths = [8, 16, 16] := by simp +contextual [Conn.lengths]) :
    Keeps s (u.setConn node c x) := h.setConn fun hs => hx (hv.conn_lengths node c hs)

theorem Keeps.harness (h : Keeps s u) : Keeps s (u.harness src dst p ev) := .ite h.sendAt h.send

theorem Keeps.flitHome (h : Keeps s u) :
    Keeps s (u.flitHome tk w kind home conn bport port v image slot) := h.harness

theorem Keeps.flitBack (h : Keeps s u) : Keeps s (u.flitBack home kind tk wid port st v ev) := h.harness

theorem Keeps.waitThen {f : Wait → State → State} (h : Keeps s u) (hf : ∀ a v, Keeps s v → Keeps s (f a v)) :
    Keeps s (u.waitThen i x deadline f) := by
  unfold State.waitThen
  extract_lets s'
  have hv : Keeps s s' := h.beginWait
  split
  · exact hv
  · exact hf _ _ hv

theorem KeepsNext.execPut {p : BitVec 7} {t₀ : BitVec 4} (h : Keeps s u) :
    KeepsNext s (execPut sm rd p t₀ u) :=
  .issue h fun _ _ hv => .ite hv.beginWait hv.setStatus

theorem KeepsNext.execTake {p : BitVec 7} {t₀ : BitVec 4} (h : Keeps s u) :
    KeepsNext s (execTake sm rd p t₀ u) :=
  .issue h fun _ _ hv => .ite (hv.waitThen fun _ _ h1 => h1.modWait.flitHome) hv.setStatus

theorem KeepsNext.execOfferSend (h : Keeps s u) : KeepsNext s (execOfferSend u) := by
  unfold Machine.execOfferSend
  extract_lets tk
  split
  · exact .next h
  · exact .ite (.next h.modWait.flitHome) (.next h)

theorem KeepsNext.execPortOpTimeout (h : Keeps s u) : KeepsNext s (execPortOpTimeout u) := by
  unfold Machine.execPortOpTimeout
  extract_lets tk
  split
  · exact .next h
  · exact .ite (.next h) (.ite (.next h.endWithdrawn) (.ite (.next h) (.next h.modWait.flitHome)))

theorem Keeps.homeAnswer {f : State → Nat → Wait → Nat → Nat → Word → State} (h : Keeps s u)
    (hf : ∀ v tk w kind st x, Keeps s v → Keeps s (f v tk w kind st x)) : Keeps s (u.homeAnswer ev f) := by
  unfold State.homeAnswer
  split
  · exact h
  · split
    · exact h.again
    · dsimp only
      split
      · split
        · exact h.dropPacket
        · exact .ite (hf _ _ _ _ _ _ h.dropPacket) h.dropPacket
      · exact h.dropPacket

theorem KeepsNext.execPortCompletion (h : Keeps s u) : KeepsNext s (execPortCompletion u) := by
  refine .next (h.homeAnswer fun v tk w kind st x hv => ?_)
  split
  · exact (Keeps.ite hv.writeGS hv).finishWait
  · exact hv.finishWait

theorem KeepsNext.execWithdrawn (h : Keeps s u) : KeepsNext s (execWithdrawn u) :=
  .next (h.homeAnswer fun _ _ _ _ _ _ hv => hv.endWithdrawn)

theorem KeepsNext.execBindingAnswer (h : Keeps s u) : KeepsNext s (execBindingAnswer u) := by
  refine .next (h.homeAnswer fun v tk w kind st x hv => ?_)
  dsimp only
  split
  · exact (Keeps.ite hv.setCport hv).finishWait
  · exact hv.setCport.finishWait
  · exact hv

theorem KeepsNext.execHload (h : Keeps s u) : KeepsNext s (execHload sm rd ra rb u) :=
  .issue h fun _ _ hv => .ite hv.writeReg.setStatus hv.beginWait

theorem KeepsNext.askHome (h : Keeps s u) : KeepsNext s (askHome i rd kind u) :=
  .issue h fun _ _ hv => .ite hv.writeReg.setStatus (hv.waitThen fun _ _ h1 => h1.flitHome)

theorem Keeps.hloadStep (h : Keeps s u) : Keeps s (u.hloadStep tk w) := by
  unfold State.hloadStep
  dsimp only
  split
  · exact h
  · split
    · exact h.writeGS.finishWait
    · split
      · exact h.writeGS.finishWait
      · split
        · exact h.writeGS.finishWait
        · exact .ite h.writeGS.finishWait h.modWait.flitHome

theorem KeepsNext.execHitchAnswer (h : Keeps s u) : KeepsNext s (execHitchAnswer u) :=
  .next (h.homeAnswer fun _ _ _ _ _ _ hv => hv.writeGS.finishWait)

theorem Keeps.stopConn (h : Keeps s u) : Keeps s (u.stopConn home c who) :=
  ((h.foldl fun _ _ hv => hv.flitBack).foldl fun _ _ hv => hv.harness).updConn h

theorem Keeps.freeConn (h : Keeps s u) : Keeps s (u.freeConn home c) :=
  .ite (h.setConn.foldl fun _ _ hv => hv.flitBack) h

theorem Keeps.withdrawPend (h : Keeps s u) : Keeps s (u.withdrawPend home c bport wid) := by
  unfold State.withdrawPend
  dsimp only
  split
  · exact .ite (h.updConn h).flitBack h
  · exact h

theorem Keeps.stopAsked (h : Keeps s u) : Keeps s (u.stopAsked home c tk wid) :=
  .ite h.flitBack (.ite (h.updConn h) h.stopConn.freeConn)

theorem Keeps.flitArrive (h : Keeps s u) :
    Keeps s (u.flitArrive kind home c bport tk wid port v image slot) := by
  unfold State.flitArrive
  dsimp only
  split
  · exact .ite (h.updConn h) h.flitBack
  · exact .ite (h.updConn h) h.flitBack
  · exact .ite (h.updConn h) h.withdrawPend
  · exact .ite (h.updConn h).flitBack h.flitBack
  · exact (Keeps.ite (h.updConn h) h).flitBack
  · exact .ite h.flitBack h.setConn.flitBack
  · exact .ite (h.updConn h) h.stopAsked
  · exact h.flitBack
  · exact (h.updConn h).freeConn

theorem KeepsNext.execHitchFlitArrival (h : Keeps s u) : KeepsNext s (execHitchFlitArrival u) := by
  unfold Machine.execHitchFlitArrival
  split
  · exact .next h
  · split
    · exact .next h.again
    · extract_lets s'
      have hv : Keeps s s' := h.dropPacket
      split
      · exact .next hv.flitArrive
      · exact .next hv

theorem KeepsNext.execConnectorUnbinding (h : Keeps s u) : KeepsNext s (execConnectorUnbinding u) := by
  unfold Machine.execConnectorUnbinding
  split
  · exact .next h
  · split
    · exact .next h.again
    · extract_lets s'
      have hv : Keeps s s' := h.dropPacket
      split
      · exact .next ((Keeps.ite hv.setCport hv).harness)
      · exact .next hv

theorem Conn.lengths_fire (x : Conn) (c i : Nat) (h : x.lengths = [8, 16, 16]) :
    (x.fire c i).lengths = [8, 16, 16] := by
  simp [Conn.lengths, Conn.fire] at h ⊢
  exact h.2.1

theorem KeepsNext.execConnectorDecision (h : Keeps s u) : KeepsNext s (execConnectorDecision u) := by
  unfold Machine.execConnectorDecision
  dsimp only
  split
  · exact .next h
  · refine .next (Keeps.foldl (Keeps.foldl ?_ fun _ _ hw => hw.withdrawPend) fun _ _ hw => hw.stopAsked)
    have hfire : Keeps s (match (u.conn u.subj.n u.subj.m).chosen u.cycle with
      | none => u
      | some i => ((List.range 16).filter fun b => trPort (u.conn u.subj.n u.subj.m).image i b).foldl (fun v b =>
          match (u.conn u.subj.n u.subj.m).pend.getD b none with
          | none => v
          | some p =>
            if imSink (u.conn u.subj.n u.subj.m).image b then
              v.flitBack u.subj.n 0 p.tk p.wid p.port 0
                 ((u.conn u.subj.n u.subj.m).selected (trRoute (u.conn u.subj.n u.subj.m).image i b)) .portCompletion
            else v.flitBack u.subj.n 0 p.tk p.wid p.port
                 (if trDrop (u.conn u.subj.n u.subj.m).image i b then 5 else 0) 0 .portCompletion)
          (u.setConn u.subj.n u.subj.m ((u.conn u.subj.n u.subj.m).fire u.cycle i))) := by
      split
      · exact h
      · refine (h.updConn h (Conn.lengths_fire _ _ _)).foldl fun v b hv => ?_
        split
        · exact hv
        · exact .ite hv.flitBack hv.flitBack
    exact hfire.updConn hfire id

end Sys2Proof.Machine
end

section
/-! ### Slots, windows, gating and ports -/

set_option Elab.async false

namespace Sys2Proof.Machine

variable {s t u : State} {core n slot tk t₀ : Nat} {th : Thread} {regs : List Word} {ev : Instr}

theorem Keeps.placeThread (h : Keeps s u) : Keeps s (u.placeThread tk th regs) :=
  h.fresh.frame.modCore.foldl fun _ _ hv => hv.writeG

theorem Keeps.dropJobs (h : Keeps s u) : Keeps s (u.dropJobs tk) :=
  .ite (h.modTeam fun _ => .of_lengths (by simp [Team.lengths])) h

theorem Keeps.settleResv (h : Keeps s u) : Keeps s (u.settleResv core slot) := .ite h.modCore h

theorem Keeps.settleServes (h : Keeps s u) : Keeps s (u.settleServes core) := by
  unfold State.settleServes
  extract_lets l
  split
  · exact h
  · split
    · exact h.servesLaunch
    · exact h

theorem Keeps.freeThread (h : Keeps s u) : Keeps s (u.freeThread tk) :=
  (((((h.dropRecords.dropJobs.foldl fun _ _ hv => hv.setStream).frame).modCore).addTimer).settleResv).settleServes

theorem KeepsNext.execSlotZeroingDone (h : Keeps s u) : KeepsNext s (execSlotZeroingDone u) := by
  unfold Machine.execSlotZeroingDone
  dsimp only
  split
  · exact .next h
  · exact .next (h.dropRf.modCore (f := fun c => { c with zeroing := _ })).settleResv

theorem Keeps.closeTask (h : Keeps s u) : Keeps s (u.closeTask t₀) := by
  unfold State.closeTask
  split
  · exact h
  · refine (Keeps.modTeam ?_ fun m => ?_).modLaunch
    · exact h.frame
    · split <;> exact ⟨id, id⟩

theorem Keeps.leaveTask (h : Keeps s u) : Keeps s (u.leaveTask t₀) := by
  unfold State.leaveTask
  split
  · exact h
  · exact .ite h.modTask (.ite h.modTask h.closeTask)

theorem Keeps.joinTask (h : Keeps s u) : Keeps s (u.joinTask t₀) := h.modTask

theorem Keeps.startUngate (h : Keeps s u) : Keeps s (u.startUngate core) := .ite h.modCore.addTimer h

theorem Keeps.takenIn (h : Keeps s u) : Keeps s (u.takenIn core) := .ite h.modCore h

theorem Keeps.arrive {f : State → State} (h : Keeps s u) (hf : ∀ v, Keeps s v → Keeps s (f v)) :
    Keeps s (u.arrive core ev f) :=
  .ite (hf _ h.takenIn) (.ite h.modCore.startUngate h.again)

theorem Keeps.arrivePacket {p : Packet} {f : State → State} (h : Keeps s u) (hf : ∀ v, Keeps s v → Keeps s (f v)) :
    Keeps s (u.arrivePacket core ev p f) :=
  .ite (hf _ h) (.ite h.again (.ite (hf _ h.takenIn) (.ite h.frame.modCore.startUngate h.again)))

theorem Keeps.drainInbox (h : Keeps s u) : Keeps s (u.drainInbox core) := by
  unfold State.drainInbox
  split
  · exact h
  · exact h.modCore.doNext

theorem Keeps.reservePlace {p : Nat} (h : Keeps s u) : Keeps s (u.reservePlace core p n) := by
  induction n generalizing u with
  | zero => exact h
  | succ n ih =>
    unfold State.reservePlace
    exact .ite (ih h.delay.modPort.addTimer) h

theorem Keeps.settleOverflow (h : Keeps s u) : Keeps s (u.settleOverflow core) := .ite h.modCore h

theorem Keeps.settleSome (h : Keeps s u) : Keeps s (u.settleSome core n) := by
  induction n generalizing u with
  | zero => exact h
  | succ n ih =>
    unfold State.settleSome
    split
    · exact h
    · exact ih (h.modCore (f := fun c => { c with held := _ })).reportInside

theorem Keeps.settleHeld (h : Keeps s u) : Keeps s (u.settleHeld core) := h.settleSome

theorem Keeps.freed {p : Nat} (h : Keeps s u) :
    Keeps s (u.freed core p) := h.reservePlace.settleOverflow.settleHeld

theorem Keeps.portPop {p : Nat} (h : Keeps s u) : Keeps s (u.portPop core p) := h.modPort.freed

end Sys2Proof.Machine
end

section
/-! ### Queues, tags and messages -/

set_option Elab.async false

namespace Sys2Proof.Machine

variable {s t u : State} {code core k pid port slot tk t₀ : Nat} {v w0 w1 : Word} {ra rd : Reg} {report sm : Bool} {x : Issue}
  {w : Wait}

theorem Keeps.writeStatus {r : Reg} (h : Keeps s u) :
    Keeps s (u.writeStatus tk r v code) := h.writeReg.setStatus

theorem Keeps.qcfgRole {i : Nat} {c : Word} (h : Keeps s u) : Keeps s (u.qcfgRole x rd i c) :=
  .ite h.writeStatus h.modRole.writeStatus

theorem Keeps.qcfgMask {c : Word} (h : Keeps s u) : Keeps s (u.qcfgMask x rd c) :=
  .ite h.writeStatus h.modThread.writeStatus

theorem Keeps.qcfgPool {c : Word} (h : Keeps s u) : Keeps s (u.qcfgPool x rd c) :=
  .ite h.writeStatus h.modPool.writeStatus

theorem KeepsNext.execQcfg {x : BitVec 3} (h : Keeps s u) : KeepsNext s (execQcfg sm rd ra x u) :=
  .issue h fun _ _ hv => .ite hv.qcfgRole (.ite hv.qcfgMask hv.qcfgPool)

theorem KeepsNext.execTaga {t₀ : BitVec 4} {x : BitVec 3} (h : Keeps s u) :
    KeepsNext s (execTaga sm rd t₀ x u) :=
  .issue h fun _ _ hv => .ite hv.setStatus (.ite hv.modPool.writeStatus hv.beginWait)

theorem Keeps.serveTags {l : List (Nat × Wait)} (h : Keeps s u) : Keeps s (u.serveTags core t₀ l) := by
  induction l generalizing u with
  | nil => exact h
  | cons e l ih =>
    unfold State.serveTags
    dsimp only
    split
    · split
      · exact ih h.modPool.writeGS.finishWait
      · exact h
    · exact h

theorem KeepsNext.execTagf {x : BitVec 3} (h : Keeps s u) : KeepsNext s (execTagf sm rd x u) :=
  .issue h fun _ _ hv => .ite hv.setStatus hv.modPool.setStatus.serveTags

theorem Keeps.enqueueMessage (h : Keeps s u) : Keeps s (u.enqueueMessage x w0 w1) :=
  .ite h.setStatus h.fresh.modCore.setStatus

theorem KeepsNext.execMessageDepart (h : Keeps s u) : KeepsNext s (execMessageDepart u) := by
  unfold Machine.execMessageDepart
  extract_lets core
  split
  · split
    · exact .next h
    · exact .next h.modCore.sendMessage
  · exact .next h

theorem Keeps.placeMessage (h : Keeps s u) (ht : u.placeMessage core port w0 w1 report slot = some t) :
    Keeps s t := by
  unfold State.placeMessage at ht
  dsimp only at ht
  split at ht
  · exact Option.some.inj ht ▸ h.portEffect
  · split at ht
    · exact Option.some.inj ht ▸ h.modCore
    · split at ht
      · exact Option.some.inj ht ▸ h.modCore
      · exact absurd ht nofun

theorem Keeps.messageWaits (h : Keeps s u) : Keeps s (u.messageWaits core port pid report) :=
  .ite (((Keeps.ite h.modCore h).modCore).reportInside) (Keeps.ite h.modCore h)

theorem KeepsNext.execMessageArrival (h : Keeps s u) : KeepsNext s (execMessageArrival u) := by
  unfold Machine.execMessageArrival
  split
  · exact .next h
  · split
    · refine .next ?_
      refine h.arrivePacket fun v0 hv => ?_
      extract_lets q1 after2
      split
      · split
        · next v3 h3 =>
          exact (((hv.placeMessage h3).modCore).dropPacket).settleHeld
        · exact hv.messageWaits.again
      · exact hv.messageWaits.again
    · exact .next h

theorem KeepsNext.execSpillRefill (h : Keeps s u) : KeepsNext s (execSpillRefill u) := by
  unfold Machine.execSpillRefill
  extract_lets core p1 c2
  split
  · exact .next h
  · split
    · exact .next h.modPort.modCore.portEffect.freed
    · split
      · exact .next h.modPort
      · exact .next h.modPort.modCore.portEffect.freed

theorem KeepsNext.execWaitm {t₀ : BitVec 4} (h : Keeps s u) : KeepsNext s (execWaitm sm rd ra t₀ u) :=
  .issue h fun _ _ hv => .ite hv.writeStatus (.ite hv.writeStatus hv.beginWait.modWait)

theorem Keeps.waitmStep (h : Keeps s u) : Keeps s (u.waitmStep tk w) := by
  unfold State.waitmStep
  split
  · exact .ite h.writeGS.finishWait h
  · exact h

theorem KeepsNext.execRecv {t₀ : BitVec 4} (h : Keeps s u) : KeepsNext s (execRecv sm rd ra t₀ u) := by
  unfold Machine.execRecv
  refine .issue h fun _ _ hv => ?_
  extract_lets a1 c2
  split
  · exact hv.setStatus
  · split
    · exact hv.portPop.recvTake.setStatus
    · exact hv.beginWait

theorem Keeps.refuseWaits {p : Nat → Wait → Bool} (h : Keeps s u) : Keeps s (u.refuseWaits core p) := by
  unfold State.refuseWaits
  refine h.foldl fun v0 _ hv => ?_
  split
  · split
    · exact hv.writeGS.finishWait
    · exact hv.finishWait
  · exact hv

theorem KeepsNext.execMpcfg (h : Keeps s u) : KeepsNext s (execMpcfg sm rd ra u) :=
  .issue h fun _ _ hv => .ite hv.writeStatus (((Keeps.ite hv.modPort.modPort.modCore.freed hv.modPort).writeStatus).refuseWaits)

theorem KeepsNext.execQueueWaitTimeout (h : Keeps s u) : KeepsNext s (execQueueWaitTimeout u) := by
  unfold Machine.execQueueWaitTimeout
  extract_lets tk
  split
  · exact .next h
  · split
    · exact .next h
    · split
      · exact .next h.writeGS.finishWait
      · exact .next h.finishWait

theorem Keeps.logNeighbour (h : Keeps s u) : Keeps s (u.logNeighbour k) := h.logEntry

theorem KeepsNext.execCounterResync (h : Keeps s u) : KeepsNext s (execCounterResync u) :=
  .ite (.next h.frame.logNeighbour.addTimer) (.next h)

theorem Keeps.resyncReceiver (h : Keeps s u) : Keeps s (u.resyncReceiver k) := h.frame.addTimer

theorem Keeps.resyncSender {held : Nat} (h : Keeps s u) : Keeps s (u.resyncSender k held) := h.frame

theorem KeepsNext.execResyncAnswer (h : Keeps s u) : KeepsNext s (execResyncAnswer u) :=
  .ite (.next (h.arrive fun _ hv => hv.resyncSender)) (.ite (.next h.again) (.next (h.arrive fun _ hv => hv.resyncReceiver)))

end Sys2Proof.Machine
end

section
/-! ### Join patterns -/

set_option Elab.async false

namespace Sys2Proof.Machine

variable {s t u : State} {core e : Nat} {win : Nat × Nat} {sm : Bool} {ra : Reg}

theorem Keeps.loadEntry {x : JEntry} (h : Keeps s u) (hx : x.prio < 4) :
    Keeps s (u.loadEntry core e x win) := by
  unfold State.loadEntry
  exact (h.setEntry hx).modCore.refuseWaits

theorem Keeps.clearEntry (h : Keeps s u) : Keeps s (u.clearEntry core e) := .ite h.setEntry.settleResv h

theorem entryOf_prio (d0 d1 : Word) (owner task cycle : Nat) : (entryOf d0 d1 owner task cycle).prio < 4 :=
  Nat.mod_lt _ (by decide)

theorem KeepsNext.execJpset {e : BitVec 7} (h : Keeps s u) : KeepsNext s (execJpset sm ra e u) := by
  refine .issue h fun x v hv => ?_
  dsimp only
  split
  · exact hv.setStatus
  · split
    · exact hv.setStatus
    · exact (hv.loadEntry (entryOf_prio _ _ _ _ _)).setStatus

theorem Keeps.startEntry (h : Keeps s u) : Keeps s (u.startEntry core e) :=
  ((Keeps.ite ((h.foldl fun _ _ hv => hv.portPop).servesLaunch) (h.foldl fun _ _ hv => hv.portPop)).placeThread).joinTask

theorem KeepsNext.execJoinDecision (h : Keeps s u) : KeepsNext s (execJoinDecision u) := by
  unfold Machine.execJoinDecision
  dsimp only
  split
  · exact .next h
  · refine .next (Keeps.startEntry (h.modCore fun c => .of_jp rfl fun hl hj => ⟨by simp [hl], fun y hy => ?_⟩))
    obtain ⟨p, hp, rfl⟩ := List.mem_map.mp hy
    exact hj p.1 (List.fst_mem_of_mem_zipIdx hp)

end Sys2Proof.Machine
end

section
/-! ### Threads and migration -/

set_option Elab.async false

namespace Sys2Proof.Machine

variable {s t u : State} {code core dst serial src st tk : Nat} {discard sm tokens : Bool} {ev i : Instr} {ra rd : Reg}
  {pc : BitVec 48} {x : Issue} {off : Option Nat} {h₀ : Shadow} {w : Wait}

theorem Keeps.beginTokens (h : Keeps s u) : Keeps s (u.beginTokens tk pc) := h.fresh.modThread

theorem Keeps.beginEnd (h : Keeps s u) : Keeps s (u.beginEnd i x tokens) :=
  .ite h.cancelBindings.beginTokens h.cancelBindings.beginWait

theorem Keeps.endThread (h : Keeps s u) : Keeps s (u.endThread tk) := h.freeThread.leaveTask

theorem KeepsNext.execThreadEnd (h : Keeps s u) : KeepsNext s (execThreadEnd u) := by
  unfold Machine.execThreadEnd
  extract_lets tk
  split
  · exact .next h
  · split
    · split
      · exact .next h.logTrap
      · exact .ite (.next h.beginTokens) (.next h.modTask.endThread)
    · exact .next h

theorem KeepsNext.execSpawn {t₀ : BitVec 4} (h : Keeps s u) : KeepsNext s (execSpawn sm rd ra t₀ u) :=
  .issue h fun _ _ hv => .ite hv.setStatus hv.modTask.beginWait.modWait.startUngate

theorem KeepsNext.execSpawnPlacement (h : Keeps s u) : KeepsNext s (execSpawnPlacement u) := by
  unfold Machine.execSpawnPlacement
  extract_lets core
  split
  · exact .next h
  · split
    · exact .next h.placeThread.joinTask.writeGS.finishWait.modThread
    · exact .next h

theorem KeepsNext.execSpawnTimeout (h : Keeps s u) : KeepsNext s (execSpawnTimeout u) := by
  unfold Machine.execSpawnTimeout
  extract_lets tk
  split
  · exact .next h
  · exact .ite (.next h) (.next h.modTask.finishWait)

theorem KeepsNext.execAdmission (h : Keeps s u) : KeepsNext s (execAdmission u) := by
  unfold Machine.execAdmission
  extract_lets core
  split
  · split
    · extract_lets s1 _ s3
      have h1 : Keeps s s1 := h.modCore.servesLaunch
      have h3 : Keeps s s3 := h1.placeThread
      split
      · exact .next h3.trap
      · exact .next h3
    · exact .next h
  · exact .next h

theorem Keeps.depart {a : Word} (h : Keeps s u) : Keeps s (u.depart tk dst off a) :=
  h.fresh.modCore.frame.freeThread.send

theorem KeepsNext.execDeparture (h : Keeps s u) : KeepsNext s (execDeparture u) := by
  unfold Machine.execDeparture
  extract_lets tk
  split
  · exact .next h
  · split
    · split
      · exact .next h.logTrap
      · extract_lets a1
        split
        · exact .next h.finishWait
        · split
          · exact .next h.trap
          · exact .next h.finishWait
          · exact .ite (.next h.finishWait) (.ite (.next h.depart) (.next h))
    · exact .next h

theorem Keeps.intoPaddock {c : Ctx} (h : Keeps s u) : Keeps s (u.intoPaddock core c) := by
  unfold State.intoPaddock
  exact (Keeps.ite h.ownerWrite h).modCore

theorem Keeps.storeCtx {c : Ctx} (h : Keeps s u) : Keeps s (u.storeCtx core c) := .ite h.modCore h.intoPaddock

theorem Keeps.migAnswer {c : Ctx} (h : Keeps s u) : Keeps s (u.migAnswer core c st) := h.send

theorem KeepsNext.execMigrationArrival (h : Keeps s u) : KeepsNext s (execMigrationArrival u) := by
  unfold Machine.execMigrationArrival
  split
  · exact .next h
  · split
    · exact .next (h.arrivePacket fun _ hv => .ite hv.dropPacket.migAnswer 
        (.ite hv.dropPacket.migAnswer hv.dropPacket.storeCtx.migAnswer))
    · exact .next h

theorem Keeps.settled (h : Keeps s u) : Keeps s u.settled := h.frame

theorem Keeps.reenter (h : Keeps s u) : Keeps s (u.reenter core h₀ code) := h.modCore.startUngate.storeCtx

theorem Keeps.sendRelease (h : Keeps s u) : Keeps s (u.sendRelease core dst serial discard) := h.send

theorem KeepsNext.execMigrationAck (h : Keeps s u) : KeepsNext s (execMigrationAck u) := by
  unfold Machine.execMigrationAck
  split
  · exact .next h
  · split
    · exact .next h.again
    · extract_lets s'
      have hv : Keeps s s' := h.dropPacket
      split
      · split
        · exact .ite (.next hv.sendRelease) (.next hv.settled)
        · exact .ite (.next hv.modCore.sendRelease) (.next hv.reenter.settled)
      · exact .next hv

theorem Keeps.modStored (h : Keeps s u) : Keeps s (u.modStored core src serial discard) := by
  unfold State.modStored
  refine h.modCore fun c => ?_
  dsimp only
  split <;> exact id

theorem Keeps.releaseStep (h : Keeps s u) : Keeps s (u.releaseStep ev) := by
  unfold State.releaseStep
  split
  · exact h
  · split
    · exact h.again
    · extract_lets s'
      have hv : Keeps s s' := h.dropPacket
      split
      · exact hv.modStored.settled
      · exact hv

theorem KeepsNext.execLost (h : Keeps s u) : KeepsNext s (execLost u) := by
  unfold Machine.execLost
  extract_lets core
  split
  · exact .next h
  · exact .ite (.next h.reenter) (.next h)

theorem Keeps.beginMove (h : Keeps s u) : Keeps s (u.beginMove core) := .ite h.modCore.addTimer h

theorem KeepsNext.execPaddockMove (h : Keeps s u) : KeepsNext s (execPaddockMove u) := by
  unfold Machine.execPaddockMove
  extract_lets core k1
  split
  · split
    · exact .next h.modCore
    · exact .next h.modCore
  · exact .next h

theorem KeepsNext.issueGroup {e : Option Nat} (h : Keeps s u) : KeepsNext s (issueGroup i e u) := by
  unfold Machine.issueGroup
  refine .issue h fun _ _ hv => ?_
  split
  · exact hv.setStatus
  · exact hv.waitThen fun _ _ h1 => h1.modWait.askOwner

theorem Keeps.launchStep (h : Keeps s u) : Keeps s (u.launchStep tk w) := by
  unfold State.launchStep
  split
  · split
    · extract_lets a
      split
      · exact h.finishWait
      · exact .ite h.finishWait (.ite h.finishWait h.frame.writeGS.finishWait)
    · exact h
  · exact h

end Sys2Proof.Machine
end

section
/-! ### Launches -/

set_option Elab.async false

namespace Sys2Proof.Machine

variable {s t u : State} {bars core key node task : Nat} {seats : List Seat} {arg : Word}

theorem Keeps.writeBarriers {l : List (Nat × Nat)} (h : Keeps s u) (ht : u.writeBarriers key bars l = some t) :
    Keeps s t := by
  induction l generalizing u with
  | nil => exact Option.some.inj ht ▸ h
  | cons e l ih =>
    unfold State.writeBarriers at ht
    split at ht
    · exact absurd ht nofun
    · split at ht
      · exact absurd ht nofun
      · exact ih h.ownerWrite ht

theorem Keeps.checkLaunch {w : List Word} {l : Launch} (h : Keeps s u) (hl : l.Sized) (ht : u.checkLaunch key w l = some t) :
    Keeps s t := by
  unfold State.checkLaunch at ht
  split at ht
  · exact absurd ht nofun
  · split at ht
    · exact absurd ht nofun
    · split at ht
      · exact absurd ht nofun
      · split at ht
        · exact absurd ht nofun
        · dsimp only at ht
          split at ht
          · exact Option.some.inj ht ▸ h.modLaunch fun _ _ => hl
          · split at ht
            · split at ht
              · obtain ⟨v, hv, rfl⟩ := Option.map_eq_some_iff.mp ht
                exact (h.writeBarriers hv).modLaunch fun _ _ => hl
              · exact absurd ht nofun
            · exact absurd ht nofun

theorem Keeps.addLaunch {l : Launch} (h : Keeps s u) (hl : l.Sized) : Keeps s (u.addLaunch key l) := by
  refine ⟨h.canonical, fun hs => ?_, h.idle⟩
  obtain ⟨hcores, hteams, hlaunches, hpkg⟩ := h.sizes hs
  exact ⟨hcores, hteams, SMap.forall_put hlaunches hl, hpkg⟩

theorem Launch.sized_of_saved {l : Launch} (h : l.saved = []) : l.Sized := by
  unfold Launch.Sized
  rw [h]
  exact nofun

theorem Keeps.takeLaunch {r : LaunchReq} (h : Keeps s u) : Keeps s (u.takeLaunch r) := by
  unfold State.takeLaunch
  dsimp only
  have hv {l : Launch} (hl : l.saved = []) : Keeps s (u.fresh.2.addLaunch u.fresh.1 l) := h.fresh.addLaunch (Launch.sized_of_saved hl)
  split
  · refine Keeps.modLaunch (hv ?_)
    rfl
  · split
    · next w hw =>
      refine Keeps.checkLaunch (hv ?_) (Launch.sized_of_saved ?_) hw
      all_goals rfl
    · refine Keeps.modLaunch (hv ?_) fun _ _ => Launch.sized_of_saved ?_
      all_goals rfl

theorem KeepsNext.execLaunchTake (h : Keeps s u) : KeepsNext s (execLaunchTake u) := by
  unfold Machine.execLaunchTake
  split
  · split
    · exact .next h.frame.takeLaunch
    · exact .next h.frame.takeLaunch
    · exact .next h
  · exact .next h

theorem Keeps.makeWay {p : Pattern} (h : Keeps s u) : Keeps s (u.makeWay key node p) :=
  .ite h (h.foldl fun _ _ hv => .ite hv.clearEntry hv)

theorem Keeps.loadPattern {p : Pattern} (h : Keeps s u) (ht : u.loadPattern key node p = some t) :
    Keeps s t := by
  unfold State.loadPattern at ht
  dsimp only at ht
  split at ht
  · exact Option.some.inj ht ▸ h
  · obtain ⟨win, _, rfl⟩ := Option.map_eq_some_iff.mp ht
    exact h.loadEntry (Nat.mod_lt _ (by decide))

theorem Keeps.loadEach {l : List Pattern} (h : Keeps s u) (ht : u.loadEach key node l = some t) :
    Keeps s t := by
  induction l generalizing u with
  | nil => exact Option.some.inj ht ▸ h
  | cons p l ih =>
    unfold State.loadEach at ht
    split at ht
    · exact absurd ht nofun
    · next v hv => exact ih (h.loadPattern hv) ht

theorem Keeps.loadPatterns {l : List Pattern} (h : Keeps s u) (ht : u.loadPatterns key node l = some t) :
    Keeps s t :=
  Keeps.loadEach (h.foldl fun _ _ hv => hv.makeWay) ht

theorem Core.Keeps.launched (c : Core) (kept : List Nat) : Core.Keeps c (c.launched kept) := by
  unfold Core.Keeps
  rw [Core.sized_iff, Core.sized_iff]
  simp [Core.lengths, Core.launched]
  tauto

theorem Team.Keeps.launched (t : Team) (key : Nat) (l : Launch) (task : Nat) :
    Team.Keeps t (t.launched key l task) := by
  refine ⟨fun ht => ?_, fun _ => ⟨rfl, rfl⟩⟩
  obtain ⟨hl, hm, hc⟩ := (Team.sized_iff _).mp ht
  refine (Team.sized_iff _).mpr ⟨?_, rfl, hc⟩
  simp [Team.lengths, Team.launched] at hl ⊢
  tauto

theorem Keeps.launchStart {l : Launch} (h : Keeps s u) : Keeps s (u.launchStart node key l task) := by
  unfold State.launchStart
  extract_lets cores kept v w
  have hw : Keeps s w := (h.modTeam fun t => .launched t key l task).foldl fun v k hv =>
    (hv.modCore fun c => .launched c _).modThread.settleOverflow.settleHeld
  clear_value w
  exact (hw.dropSregs (p := fun e => !cores.contains (e.1 / 16))).frame

theorem Keeps.holdSeats (h : Keeps s u) : Keeps s (u.holdSeats task seats arg) :=
  (h.foldl fun _ _ hv => hv.modCore.startUngate).frame

theorem Keeps.placeTask {l : Launch} (h : Keeps s u) : Keeps s (u.placeTask key l node) := by
  unfold State.placeTask
  split
  next task s' hs =>
  have hv := h.fresh.snd hs
  split
  · exact hv
  · next v1 h1 =>
    split
    · exact (hv.launchStart.loadPatterns h1)
    · exact (((hv.launchStart.loadPatterns h1).frame).modLaunch).holdSeats

theorem KeepsNext.execTaskPlacement (h : Keeps s u) : KeepsNext s (execTaskPlacement u) := by
  unfold Machine.execTaskPlacement
  split
  · exact .next h
  · split
    · exact .next h
    · exact .next h.placeTask

theorem Keeps.placeSeat (h : Keeps s u) : Keeps s (u.placeSeat core) := by
  unfold State.placeSeat
  split
  · exact h
  · split
    · exact h.frame
    · exact .ite ((h.modCore.placeThread.foldl fun _ _ hv => hv.modThread).frame) h.modCore.placeThread.frame

theorem KeepsNext.execSuccessor (h : Keeps s u) : KeepsNext s (execSuccessor u) := by
  unfold Machine.execSuccessor
  extract_lets key
  split
  · exact .next h
  · split
    · exact .next h
    · split
      · split
        · exact .next h.modLaunch.closeTask
        · split
          · exact .next h
          · exact .next h.modTask.holdSeats
      · exact .next h

theorem Keeps.stopLaunchConns (h : Keeps s u) : Keeps s (u.stopLaunchConns key) :=
  h.foldl fun _ _ hv => hv.foldl fun _ _ h1 => .ite h1.stopConn.freeConn h1

theorem Keeps.clearEntries (h : Keeps s u) : Keeps s (u.clearEntries core key) :=
  h.foldl fun _ _ hv => .ite hv.clearEntry hv

theorem KeepsNext.execLaunchEnd (h : Keeps s u) : KeepsNext s (execLaunchEnd u) := by
  unfold Machine.execLaunchEnd
  extract_lets key
  split
  · exact .next h
  · next l hl =>
    refine .ite ?_ (.next h)
    extract_lets w x d y z
    have hw : Keeps s w := h.stopLaunchConns.foldl fun _ _ hv => hv.foldl fun _ _ hv => hv.clearEntries
    have hx : Keeps s x := hw.foldl fun _ _ hv =>
      .ite (hv.clearEntries.modCore fun c => .of_lengths (by simp [Core.lengths, Core.untagged])) hv
    have hy : Keeps s y := hx.frame
    exact .ite (.next hy.modLaunch.sendMessage) (.next hy.modLaunch)

end Sys2Proof.Machine
end

section
/-! ### Copy and bank engines -/

set_option Elab.async false

namespace Sys2Proof.Machine

variable {s t u : State} {cid core count e fault fuel hint id key kind n node room seq tk wid : Nat} {sm write : Bool}
  {ra rd : Reg} {from' to' : Target} {pc : BitVec 48} {w : Wait} {a : Active} {bs : List Byte} {addr : Word}

theorem Keeps.command {c : List Word} (h : Keeps s u) : Keeps s (u.command tk pc c seq wid).2 := h.fresh

theorem Keeps.pushCopy {c : List Word} (h : Keeps s u) : Keeps s (u.pushCopy tk pc c wid) := by
  unfold State.pushCopy
  extract_lets core
  split
  next _ s1 hs =>
  have h1 := h.command.snd hs
  exact h1.modCore

theorem Keeps.pushBank {c : List Word} (h : Keeps s u) : Keeps s (u.pushBank tk pc c) := by
  unfold State.pushBank
  extract_lets core
  split
  next _ s1 hs =>
  have h1 := h.command.snd hs
  exact h1.modCore.modThread

theorem KeepsNext.execCpy (h : Keeps s u) : KeepsNext s (execCpy sm rd ra u) :=
  .issue h fun _ _ hv => .ite hv.pushCopy.writeStatus hv.setStatus

theorem KeepsNext.execCpys {t₀ : BitVec 4} (h : Keeps s u) : KeepsNext s (execCpys sm rd ra t₀ u) :=
  .issue h fun _ _ hv => .ite hv.pushCopy.writeStatus hv.beginWait.modWait

theorem Keeps.pushedX (h : Keeps s u) : Keeps s (u.pushedX tk seq) := h.modWait

theorem KeepsNext.execCpyx {t₀ : BitVec 4} (h : Keeps s u) : KeepsNext s (execCpyx sm rd ra t₀ u) :=
  .issue h fun _ _ hv => hv.waitThen fun _ _ h1 => .ite h1.modWait.pushCopy.pushedX h1.modWait

theorem KeepsNext.execBmv {t₀ : BitVec 4} (h : Keeps s u) : KeepsNext s (execBmv sm rd ra t₀ u) :=
  .issue h fun _ _ hv => .ite hv.pushBank.writeStatus hv.beginWait.modWait

theorem Keeps.engineStep (h : Keeps s u) : Keeps s (u.engineStep tk w) := by
  unfold State.engineStep
  extract_lets core pc1
  split
  · exact .ite h.pushCopy.writeGS.finishWait h
  · exact .ite h.pushCopy.pushedX h
  · exact .ite h.pushBank.writeGS.finishWait h
  · exact .ite h.modThread.finishWait h
  · exact h

theorem KeepsNext.execEnginePushTimeout (h : Keeps s u) : KeepsNext s (execEnginePushTimeout u) := by
  unfold Machine.execEnginePushTimeout
  extract_lets tk
  split
  · exact .next h
  · split
    · exact .next h
    · split
      · exact .next ((Keeps.ite h.writeGS h).finishWait)
      · exact .next h.finishWait

theorem KeepsNext.execBfenceTimeout (h : Keeps s u) : KeepsNext s (execBfenceTimeout u) := by
  unfold Machine.execBfenceTimeout
  split
  · exact .next h
  · exact .ite (.next h) (.next h.finishWait)

theorem Keeps.engineWalks {f : Nat × Nat} (h : Keeps s u) (ht : u.engineWalks node a f = some t) :
    Keeps s t := by
  unfold State.engineWalks at ht
  split at ht
  · exact Option.some.inj ht ▸ h.startWalk
  · exact absurd ht nofun

theorem Keeps.engineTouch {t₀ : Target} (h : Keeps s u) : Keeps s (u.engineTouch t₀ hint write) := by
  unfold State.engineTouch
  split
  · exact h.l2Touch
  · exact h

theorem Keeps.engineWrite {t₀ : Target} (h : Keeps s u) : Keeps s (u.engineWrite t₀ bs hint) :=
  h.ownerWrite.engineTouch

theorem Keeps.engineMove (h : Keeps s u) (ht : u.engineMove from' to' bs hint = some t) : Keeps s t := by
  unfold State.engineMove at ht
  dsimp only at ht
  split at ht
  · exact absurd ht nofun
  · exact Option.some.inj ht ▸ h.engineTouch.engineWrite

theorem Keeps.modEngine {f : CopyEngine → CopyEngine} (h : Keeps s u) : Keeps s (u.modEngine e f) := h.frame

theorem KeepsNext.execCopyGrant (h : Keeps s u) : KeepsNext s (execCopyGrant u) := by
  unfold Machine.execCopyGrant
  extract_lets e
  split
  · exact .next h
  · exact .next h.modCore.modEngine

theorem Keeps.modActive {f : Active → Active} (h : Keeps s u) : Keeps s (u.modActive e cid f) := h.modEngine

theorem Keeps.wrote (h : Keeps s u) : Keeps s (u.wrote e cid) := h.delay.modActive

theorem Keeps.copyStops {f : Nat × Nat} (h : Keeps s u) : Keeps s (u.copyStops e a f) := by
  unfold State.copyStops
  split
  · next v hv =>
    exact (h.engineWalks hv)
  · exact h.logCause.modActive.wrote

theorem Keeps.copyChunk (h : Keeps s u) : Keeps s (u.copyChunk e a room).2 := by
  unfold State.copyChunk
  dsimp only
  split
  · exact h.wrote
  · split
    · exact h.copyStops
    · exact h
    · split
      · next v hv => exact h.askPorts.snd hv
      · next v hv =>
        have hv := h.askPorts.snd hv
        split
        · exact hv
        · next w hw => exact (hv.engineMove hw).modActive

theorem Keeps.copyBytes (h : Keeps s u) : Keeps s (u.copyBytes e cid fuel room) := by
  induction fuel generalizing u room with
  | zero => exact h
  | succ n ih =>
    unfold State.copyBytes
    split
    · exact h
    · split
      · exact h
      · split
        · next v hv => exact h.copyChunk.snd hv
        · next v _ hv => exact ih (h.copyChunk.snd hv)

theorem Keeps.passDomain {m : Cmd} (h : Keeps s u) : Keeps s (u.passDomain m) := by
  unfold State.passDomain
  extract_lets c
  split
  · split
    · exact h.modSaved
    · exact h.modTeam fun _ => .of_lengths (by simp [Team.lengths])
  · exact h

theorem Keeps.reduceStops {f : Nat × Nat} (h : Keeps s u) : Keeps s (u.reduceStops e a f) := by
  unfold State.reduceStops
  split
  · next v hv => exact h.engineWalks hv
  · exact h.passDomain.copyStops

theorem KeepsNext.execReduceUpdate (h : Keeps s u) : KeepsNext s (execReduceUpdate u) := by
  unfold Machine.execReduceUpdate
  dsimp only
  split
  · exact .next h
  · refine .ite (.next h) (.ite (.next h.passDomain.wrote) ?_)
    split
    · exact .next h.reduceStops
    · exact .next h.reduceStops
    · split
      · next v hv => exact .next (h.askPorts.snd hv)
      · next v hv =>
        have hv := h.askPorts.snd hv
        split
        · exact .next hv
        · next w hw => exact .next (hv.engineMove hw).modActive

theorem Keeps.copyBeat (h : Keeps s u) : Keeps s (u.copyBeat e cid) := by
  unfold State.copyBeat
  split
  · exact h
  · split
    · split
      · exact h.frame
      · exact h.copyBytes
    · exact h

theorem Keeps.completeCmd {m : Cmd} (h : Keeps s u) : Keeps s (u.completeCmd m kind fault count addr) := by
  unfold State.completeCmd
  extract_lets core w0 src report dst w1
  have hr : Keeps s (report u) := .ite h h.sendMessage
  split
  · split
    · split
      · split
        · exact h.writeGS.finishWait
        · exact hr
      · exact hr
    · exact hr
  · split
    · split
      · exact h.saveCompletion
      · exact h.sendMessage
    · exact hr

theorem KeepsNext.execCopyComplete (h : Keeps s u) : KeepsNext s (execCopyComplete u) := by
  unfold Machine.execCopyComplete
  extract_lets e
  split
  · exact .next h
  · exact .ite (.next h.modEngine.completeCmd) (.next h)

theorem Keeps.bankEnds (h : Keeps s u) : Keeps s (u.bankEnds core a) := by
  unfold State.bankEnds
  exact h.delay.modCore

theorem Keeps.bankStops {f : Nat × Nat} (h : Keeps s u) : Keeps s (u.bankStops core a f) := by
  unfold State.bankStops
  split
  · next v hv =>
    exact (h.engineWalks hv)
  · exact h.bankEnds

theorem KeepsNext.execBankCommandStart (h : Keeps s u) : KeepsNext s (execBankCommandStart u) := by
  unfold Machine.execBankCommandStart
  extract_lets core
  split
  · split
    · exact .next h
    · extract_lets start a
      have hs {v : State} {b : Active} (hv : Keeps s v) : Keeps s (start v b) := hv.modCore
      refine .ite (.next (hs h)) ?_
      split
      · next v hv => exact .next (h.askPorts.snd hv)
      · next v hv =>
        have hv := h.askPorts.snd hv
        split
        · exact .next (hs hv).bankStops
        · exact .next (hs hv)
  · exact .next h

theorem Keeps.bankWrite {i : Nat} {w : Word} {l : List Nat} (h : Keeps s u) (ht : u.bankWrite core key id w i l = .ok t) :
    Keeps s t := by
  induction l generalizing u i with
  | nil => exact Except.ok.inj ht ▸ h
  | cons x l ih =>
    unfold State.bankWrite at ht
    dsimp only at ht
    split at ht
    · exact absurd ht nofun
    · exact ih h.ownerWrite ht

theorem Keeps.bankRowStep (h : Keeps s u) (ht : u.bankRowStep core a = .ok (t, n)) : Keeps s t := by
  unfold State.bankRowStep at ht
  dsimp only at ht
  split at ht
  · exact absurd ht nofun
  · split at ht
    · exact absurd ht nofun
    · next cs ea _ =>
      cases hw : u.bankWrite core a.cmd.launch a.cmd.id (cw a.cmd.words 2) a.written
        (cs.map fun x => convert (a36.value x.toNat) (bmElem a.cmd.words 2)) with
      | error f => rw [hw] at ht; exact absurd ht nofun
      | ok v =>
        rw [hw] at ht
        obtain ⟨rfl, -⟩ := Prod.mk.inj (Except.ok.inj ht)
        exact h.bankWrite hw

theorem Keeps.bankBeat (h : Keeps s u) : Keeps s (u.bankBeat core) := by
  unfold State.bankBeat
  split
  · exact h
  · split
    · exact h
    · split
      · split
        · exact h.bankStops
        · exact (h.modCore fun _ => .of_lengths (by simp [Core.lengths])).bankEnds
      · split
        · next v hv => exact h.askPorts.snd hv
        · next v hv =>
          have hv := h.askPorts.snd hv
          split
          · exact hv.bankStops
          · next w n hw => exact .ite (hv.bankRowStep hw).bankEnds (hv.bankRowStep hw).modCore

theorem KeepsNext.execBankComplete (h : Keeps s u) : KeepsNext s (execBankComplete u) := by
  unfold Machine.execBankComplete
  extract_lets core
  split
  · split
    · exact .next h
    · exact .next ((Keeps.ite h.modCore.modThread h.modCore).completeCmd)
  · exact .next h

theorem KeepsNext.execBstat {x : BitVec 3} (h : Keeps s u) : KeepsNext s (execBstat sm rd x u) :=
  .issue h fun _ _ hv => .ite hv.writeStatus hv.writeStatus

end Sys2Proof.Machine
end

section
/-! ### System level -/

set_option Elab.async false

namespace Sys2Proof.Machine

variable {s t u : State} {core kind n nk node sel tk t₀ : Nat} {ra rb rd : Reg} {v : Word} {i : Instr} {sm : Bool} {w : Wait}

theorem Keeps.csrWrite (h : Keeps s u) : Keeps s (u.csrWrite tk n v) :=
  .ite h.modThread (.ite h.modCore (.ite h.modCore h))

theorem KeepsNext.issueCsr {n : BitVec 9} {f : Word → Word → Word} (h : Keeps s u) :
    KeepsNext s (issueCsr i rd n f u) :=
  .issue h fun _ _ hv => hv.csrWrite.writeGS

theorem KeepsNext.execCsrw {n : BitVec 9} (h : Keeps s u) : KeepsNext s (execCsrw sm rd ra n u) := .issueCsr h

theorem KeepsNext.execCsrs {n : BitVec 9} (h : Keeps s u) : KeepsNext s (execCsrs sm rd ra n u) := .issueCsr h

theorem KeepsNext.execCsrc {n : BitVec 9} (h : Keeps s u) : KeepsNext s (execCsrc sm rd ra n u) := .issueCsr h

theorem Keeps.restart {skip : Bool} (h : Keeps s u) : Keeps s (u.restart t₀ skip) := h.resume.reissueAll

theorem Keeps.freeHalted (h : Keeps s u) : Keeps s (u.freeHalted t₀) := h.cancelBindings.endThread

theorem KeepsNext.execEret (h : Keeps s u) : KeepsNext s (execEret sm ra u) :=
  .issue h fun _ _ hv => .ite hv.setStatus (.ite (.ite hv.freeHalted.setStatus hv.beginWait) hv.restart.setStatus)

theorem Keeps.eretStep (h : Keeps s u) : Keeps s (u.eretStep tk w) :=
  .ite h.finishWait (.ite h.freeHalted.finishWait h)

theorem Core.Keeps.evtTake (c : Core) (cycle : Nat) (b : BitVec 10) : Core.Keeps c (c.evtTake cycle b) := by
  unfold Core.evtTake
  split <;> exact id

theorem KeepsNext.execWfe {e : BitVec 7} (h : Keeps s u) : KeepsNext s (execWfe sm rd ra e u) :=
  .issue h fun _ _ hv => .ite (hv.modCore fun c => .evtTake c _ _).writeGS.setStatus hv.beginWait

theorem KeepsNext.execWfeWake (h : Keeps s u) : KeepsNext s (execWfeWake u) := by
  unfold Machine.execWfeWake
  dsimp only
  split
  · exact .next h
  · split
    · exact .ite (.next h) (.next (h.modCore fun c => .evtTake c _ _).writeGS.finishWait)
    · exact .next h

theorem KeepsNext.execWfeTimeout (h : Keeps s u) : KeepsNext s (execWfeTimeout u) := by
  unfold Machine.execWfeTimeout
  extract_lets tk
  split
  · exact .next h
  · split
    · exact .ite (.next h) (.next h.writeGS.finishWait)
    · exact .next h

theorem Keeps.dropTlb {p : TlbEntry → Bool} {q : PageRef → Bool} (h : Keeps s u) :
    Keeps s (u.dropTlb node p q) :=
  h.modTeam

theorem Keeps.tlbiDrop {a : Word} (h : Keeps s u) : Keeps s (u.tlbiDrop tk sel a) := by
  unfold State.tlbiDrop
  extract_lets node key1
  split
  · exact h.dropTlb
  · split
    · exact h
    · exact h.dropTlb

theorem KeepsNext.execTlbi {e : BitVec 7} (h : Keeps s u) : KeepsNext s (execTlbi sm ra e u) :=
  .issue h fun _ _ hv => .ite hv.tlbiDrop.beginWait hv.tlbiDrop.setStatus

theorem Keeps.tlbiStep (h : Keeps s u) : Keeps s (u.tlbiStep tk w) := by
  unfold State.tlbiStep
  split
  · exact .ite h h.tlbiDrop.finishWait
  · exact h

theorem Keeps.saveImage {b : Word} (h : Keeps s u) : Keeps s (u.saveImage t₀ b) := h.scratchStore

theorem KeepsNext.execCtxsv (h : Keeps s u) : KeepsNext s (execCtxsv sm rd ra rb u) :=
  .issue h fun _ _ hv => .ite hv.writeGS.setStatus (.ite hv.saveImage.writeGS.setStatus hv.beginWait)

theorem Keeps.ctxsvStep (h : Keeps s u) : Keeps s (u.ctxsvStep tk w) := by
  unfold State.ctxsvStep
  split
  · exact .ite h.writeGS.finishWait (.ite h.saveImage.writeGS.finishWait h)
  · exact h

theorem Keeps.applyImage {d : List Word} (h : Keeps s u) : Keeps s (u.applyImage t₀ d) :=
  (h.modThread.foldl fun _ _ hv => hv.setStream).foldl fun _ _ hv => hv.writeG

theorem Keeps.loadImage {a b : Word} (h : Keeps s u) (ht : u.loadImage core a b = some t) : Keeps s t := by
  unfold State.loadImage at ht
  dsimp only at ht
  split at ht
  · exact absurd ht nofun
  · split at ht
    · exact absurd ht nofun
    · split at ht
      · split at ht
        · exact Option.some.inj ht ▸ h.applyImage
        · exact absurd ht nofun
      · split at ht
        · split at ht
          · exact Option.some.inj ht ▸ h.placeThread.joinTask.applyImage
          · exact absurd ht nofun
        · exact absurd ht nofun

theorem KeepsNext.execCtxld (h : Keeps s u) : KeepsNext s (execCtxld sm rd ra rb u) := by
  unfold Machine.execCtxld
  refine .issue h fun _ _ hv => ?_
  split
  · exact hv.writeGS.setStatus
  · next v1 h1 =>
    exact ((hv.loadImage h1).writeGS).setStatus

theorem Keeps.stopThread (h : Keeps s u) : Keeps s (u.stopThread t₀ kind) := h.modThread

theorem Keeps.settleStop (h : Keeps s u) : Keeps s (u.settleStop t₀) := by
  unfold State.settleStop
  split
  · exact .ite h.stopThread h
  · exact h

theorem Keeps.pushRoleAs {i : Nat} {tag : Fin 3} (h : Keeps s u) : Keeps s (u.pushRoleAs core i v tag) :=
  .ite h (.ite h.rolePush h.addTimer)

theorem Keeps.pushNeighbourAs {tag : Fin 3} (h : Keeps s u) : Keeps s (u.pushNeighbourAs nk v tag) := by
  unfold State.pushNeighbourAs
  extract_lets t d1
  split
  · exact h
  · exact .ite h.nbrTake.nbrLeave h.addTimer

theorem Keeps.firmwareLaunch {f : Launch → Launch} (h : Keeps s u) (hf : ∀ l : Launch, l.Sized → (f l).Sized) :
    Keeps s (u.firmwareLaunch core f) := by
  unfold State.firmwareLaunch
  dsimp only
  split
  · exact h.modLaunch hf
  · exact h

theorem Keeps.firmwareCsr (h : Keeps s u) : Keeps s (u.firmwareCsr core n v) :=
  .ite h.modCore (.ite h.modCore (.ite (h.firmwareLaunch fun _ => id) (.ite (h.firmwareLaunch fun _ => id)
    (.ite (h.firmwareLaunch fun _ => id) (.ite h.modCore (.ite h.modCore h))))))

theorem Core.Keeps.reset (c : Core) :
    Core.Keeps c { ({} : Core) with
      spillBase := c.spillBase, paddockBase := c.paddockBase
      resv := c.resv.filter fun e => e.1 == 0
      jp := c.jp.map fun e => if e.valid && e.slot == 0 then e else {} }
    := by
  unfold Core.Keeps
  rw [Core.sized_iff, Core.sized_iff]
  rintro ⟨-, hl, hj⟩
  refine ⟨rfl, (List.length_map ..).trans hl, fun y hy => ?_⟩
  obtain ⟨x, hx, rfl⟩ := List.mem_map.mp hy
  split
  · exact hj x hx
  · decide

theorem Keeps.coreReset (h : Keeps s u) : Keeps s (u.coreReset core) := by
  unfold State.coreReset
  extract_lets k lost open' gone held away tks v w base x
  have hv : Keeps s v := h.foldl fun _ _ hv => hv.cancelBindings.freeThread
  have hw : Keeps s w := ((hv.mapCores (f := fun e => e.2.dropStored lost)).dropRf (p := fun e => e.1 / 2048 != core)).dropSregs
    (p := fun e => e.1 / 16 != core) |>.frame
  have hx : Keeps s x := hw.modCore fun c => .reset c
  exact hx.foldl fun _ _ hy => hy.leaveTask

theorem KeepsNext.execStewardAccess {op : StewardOp} (h : Keeps s u) :
    KeepsNext s (execStewardAccess op u) := by
  unfold Machine.execStewardAccess
  split
  · exact .next h.stopThread
  · exact .ite (.next h.restart) (.next h)
  · exact .ite (.next h.freeHalted) (.next h)
  · exact .next h.firmwareCsr
  · exact .next h.frame
  · exact .next h.coreReset
  · exact .next h.modCore
  · exact .next h.pushRoleAs
  · exact .next h.pushNeighbourAs
  · exact .next (h.foldl fun _ n hv => (hv.putSreg (k := 16 * _ + n) (v := 0)).frame)

end Sys2Proof.Machine
end

section
/-! ### The host link -/

set_option Elab.async false

namespace Sys2Proof.Machine

variable {s t u : State} {code ha key link n ring root size status table tk va : Nat} {leaf v : Word} {bs : List Byte}
  {mine : List Word → Bool} {run : List Word → State → State} {keys : List Nat}

theorem Keeps.modRing {r : Nat} {f : HRing → HRing} (h : Keeps s u) : Keeps s (u.modRing r f) :=
  h.setPkg fun ⟨hr, hrest⟩ => ⟨(List.length_set ..).trans hr, hrest⟩

theorem Keeps.hostWrite (h : Keeps s u) : Keeps s (u.hostWrite ha bs) := h.ownerWrite

theorem Keeps.takeCommand {r : Nat} (h : Keeps s u) : Keeps s (u.takeCommand r) := by
  unfold State.takeCommand
  exact h.modRing

theorem Keeps.complete {r : Nat} {a b : Word} (h : Keeps s u) : Keeps s (u.complete r status a b) :=
  h.hostWrite.delay.modRing.frame

theorem Keeps.refuse {r : Nat} (h : Keeps s u) : Keeps s (u.refuse r) := h.complete

theorem KeepsNext.hostRow {r : Nat} (h : Keeps s u) (hrun : ∀ a v, Keeps s v → Keeps s (run a v)) :
    KeepsNext s (hostRow code n mine r run u) := by
  unfold Machine.hostRow
  split
  · exact .ite (.next (hrun _ _ h)) (.next h)
  · exact .ite (.next (.ite h.takeCommand.refuse (hrun _ _ h.takeCommand))) (.next h)

theorem Keeps.evtDoor (h : Keeps s u) : Keeps s (u.evtDoor v) := .ite h.modCore h

theorem Keeps.bar0Write {off : Nat} (h : Keeps s u) : Keeps s (u.bar0Write off v) := by
  unfold State.bar0Write
  split
  · exact h.evtDoor
  · split
    · extract_lets r
      split
      · exact h.modRing
      · exact h.modRing
      · exact h.modRing
      · exact h.modRing
      · exact h
    · exact h

theorem KeepsNext.execIdentify (h : Keeps s u) : KeepsNext s (execIdentify ring u) :=
  .hostRow h fun _ _ hv => .ite hv.refuse hv.hostWrite.complete

theorem KeepsNext.execLoad (h : Keeps s u) : KeepsNext s (execLoad ring u) := by
  unfold Machine.execLoad
  refine .hostRow h fun _ _ hv => ?_
  extract_lets _ _ _
  split
  · exact hv.refuse
  · split
    · exact hv.refuse
    · split
      · exact .ite hv.deviceWrite.frame.complete hv.refuse
      · exact hv.refuse

theorem Keeps.codeWrite {l : List (Nat × Byte)} (h : Keeps s u) : Keeps s (u.codeWrite root l) := by
  induction l generalizing u with
  | nil => exact h
  | cons e l ih =>
    refine ih ?_
    split
    · exact h.ownerWrite
    · exact h

theorem Keeps.dropCode (h : Keeps s u) : Keeps s (u.dropCode keys) := h.mapTeams

theorem KeepsNext.execPatch (h : Keeps s u) : KeepsNext s (execPatch ring u) :=
  .hostRow h fun _ _ hv => .ite hv.refuse (.ite hv.codeWrite.dropCode.complete hv.refuse)

theorem KeepsNext.execHostLaunch (h : Keeps s u) : KeepsNext s (execHostLaunch ring u) :=
  .hostRow h fun _ _ hv => .ite hv.refuse hv.frame.complete

theorem Keeps.dropWait (h : Keeps s u) : Keeps s (u.dropWait tk) := by
  unfold State.dropWait
  split
  · exact h
  · split
    · exact h
    · exact .ite h.delReq h.sendWithdrawal

theorem Keeps.abortThread (h : Keeps s u) : Keeps s (u.abortThread tk) := h.dropWait.cancelBindings.freeThread

theorem Keeps.abortContexts (h : Keeps s u) : Keeps s (u.abortContexts key).2 := h.mapCores

theorem Keeps.abortSeats (h : Keeps s u) : Keeps s (u.abortSeats key) :=
  (h.foldl fun _ _ hv => hv.foldl fun _ _ h1 => h1.modCore).frame

theorem Keeps.abortLaunch {l : Launch} (h : Keeps s u) : Keeps s (u.abortLaunch key l).2 :=
  (((h.abortSeats.abortContexts.foldl fun _ _ hv => hv.foldl fun _ _ h1 => h1.clearEntries).foldl fun _ _ hv =>
    hv.abortThread).foldl fun _ _ hv => hv.closeTask).modLaunch fun _ _ => Launch.sized_of_saved rfl

theorem KeepsNext.execAbort (h : Keeps s u) : KeepsNext s (execAbort ring u) := by
  unfold Machine.execAbort
  refine .hostRow h fun _ _ hv => ?_
  extract_lets h1 waits2
  split
  · exact hv.abortLaunch.complete
  · exact .ite hv.frame.complete hv.refuse

theorem Keeps.mapLeaf {l : List (Nat × Nat × Option Nat)} (h : Keeps s u) (ht : u.mapLeaf va leaf size table l = some t) :
    Keeps s t := by
  induction l generalizing u table with
  | nil => exact absurd ht nofun
  | cons e l ih =>
    unfold State.mapLeaf at ht
    dsimp only at ht
    split at ht
    · exact Option.some.inj ht ▸ h.ownerWrite
    · split at ht
      · exact ih h ht
      · split at ht
        · exact absurd ht nofun
        · exact ih (Keeps.frame h).setBytes.ownerWrite ht

theorem Keeps.mapLeaves {l : List Word} (h : Keeps s u) (ht : u.mapLeaves root size va l = some t) :
    Keeps s t := by
  induction l generalizing u va with
  | nil => exact Option.some.inj ht ▸ h
  | cons w l ih =>
    unfold State.mapLeaves at ht
    split at ht
    · exact absurd ht nofun
    · next v hv => exact ih (h.mapLeaf hv) ht

theorem Keeps.dropLaunchTlb {l : Launch} (h : Keeps s u) : Keeps s (u.dropLaunchTlb key l) :=
  (h.foldl fun _ _ hv => hv.dropTlb).foldl fun _ _ hv => .ite hv.dropTlb hv

theorem Keeps.mapFinish {h₀ : Word} (h : Keeps s u) : Keeps s (u.mapFinish ring n h₀) := by
  unfold State.mapFinish
  split
  · exact h.complete
  · exact .ite h h.dropLaunchTlb.complete

theorem KeepsNext.execMap (h : Keeps s u) : KeepsNext s (execMap ring u) := by
  refine .hostRow h fun _ v hv => ?_
  dsimp only
  refine .ite hv.mapFinish (.ite hv.refuse (.ite hv.refuse ?_))
  split
  · exact hv.refuse
  · next w hw =>
    have hw := hv.mapLeaves hw
    refine (Keeps.modRing ?_).mapFinish
    split
    · exact hw.dropLaunchTlb
    · exact hw

theorem Keeps.wipe (h : Keeps s u) : Keeps s u.wipe := by
  refine ⟨fun hs => ?_, fun hs => ?_, h.idle⟩
  · obtain ⟨hmem, hrf, hsregs, hstreams, hfe, hteams⟩ := h.canonical hs
    refine ⟨Memory.wf_filter _ hmem, rfl, rfl, hstreams, SMap.sortedFrom_filter _ hfe, fun e he => ?_⟩
    obtain ⟨x, _, rfl⟩ := List.mem_map.mp he
    exact ⟨rfl, rfl⟩
  · obtain ⟨hcores, hteams, hrest⟩ := h.sizes hs
    refine ⟨fun e he => ?_, fun e he => ?_, hrest⟩
    · obtain ⟨x, hx, rfl⟩ := List.mem_map.mp he
      exact Core.Keeps.of_lengths (c := x.2) (by simp [Core.lengths]) rfl (hcores x hx)
    · obtain ⟨x, hx, rfl⟩ := List.mem_map.mp he
      exact hteams x hx

theorem KeepsNext.execLifecycle (h : Keeps s u) : KeepsNext s (execLifecycle ring u) :=
  .hostRow h fun _ _ hv => .ite hv.wipe.frame.complete hv.refuse

theorem KeepsNext.execFwstage (h : Keeps s u) : KeepsNext s (execFwstage ring u) := by
  refine .hostRow h fun _ v hv => Keeps.complete ?_
  split <;> exact hv.frame

theorem KeepsNext.execLogread (h : Keeps s u) : KeepsNext s (execLogread ring u) :=
  .hostRow h fun _ _ hv => .ite hv.refuse hv.hostWrite.complete

theorem Keeps.afterReset (h : Keeps s u) : Keeps s u.afterReset := by
  refine ⟨fun hs => ?_, fun hs => ?_, fun _ => rfl⟩
  · obtain ⟨hmem, hrf, hsregs, hstreams, hfe, hteams⟩ := h.canonical hs
    exact ⟨Memory.wf_filter _ hmem, rfl, rfl, rfl, SMap.sortedFrom_filter _ hfe, nofun⟩
  · obtain ⟨hcores, hteams, hlaunches, hrings, hlinks, hmaps, hgens⟩ := h.sizes hs
    exact ⟨nofun, nofun, nofun, rfl, (List.length_map ..).trans hlinks, rfl, rfl⟩

theorem bootCore_sized (k : Nat) : (bootCore k).sized = true := by
  refine (Core.sized_iff _).mpr ⟨rfl, rfl, fun e he => ?_⟩
  obtain he | he := List.mem_append.mp he
  · exact (List.eq_of_mem_replicate he) ▸ (by decide)
  · exact (List.eq_of_mem_singleton he) ▸ (by decide : (3 : Nat) < 4)

theorem KeepsNext.execReset (h : Keeps s u) : KeepsNext s (execReset u) := by
  unfold Machine.execReset
  extract_lets v p f q g r
  have hv : Keeps s v := h.afterReset
  clear_value v
  refine .ite (.next hv.frame) (.ite (.next hv.frame) (.next ?_))
  refine (hv.setPkg (p := r) fun ⟨hr, hl, hrest⟩ => ⟨hr, (List.length_map ..).trans hl, hrest⟩).setCores fun e he => ?_
  obtain ⟨k, _, rfl⟩ := List.mem_map.mp he
  exact bootCore_sized k

theorem Keeps.cutWaiters (h : Keeps s u) : Keeps s (u.cutWaiters link) := h.foldl fun _ _ hv => hv.serve

theorem KeepsNext.execLinkDown (h : Keeps s u) : KeepsNext s (execLinkDown link u) := by
  unfold Machine.execLinkDown
  extract_lets t p v
  have hv : Keeps s v := (h.cutWaiters.setPkg (p := { t.pkg with links := t.pkg.links.set link 0 }) fun ⟨hr, hl, hrest⟩ =>
    ⟨hr, (List.length_set ..).trans hl, hrest⟩).frame
  exact .next hv.logEntry

end Sys2Proof.Machine
end

section
/-! ### Pre-emption -/

set_option Elab.async false

namespace Sys2Proof.Machine

variable {s t u : State} {core k key n node offset port ring size task t₀ va : Nat} {area b img loaders rec' ws : List Word}
  {v w0 w1 : Word} {teams tks : List Nat} {moves own : List (Nat × Nat)} {w : Wait} {on : Bool} {kept : Core}
  {threads : List (Nat × Thread)} {m : Matrix} {ks : List (Kept × Nat × Word)} {bank : List (Nat × Cmd)}

theorem Keeps.feed {a : Word} {tag : Fin 3} (h : Keeps s u) : Keeps s (u.feed a v tag) :=
  .ite h.pushNeighbourAs h.pushRoleAs

theorem Keeps.savePipe {r : Nat} (h : Keeps s u) : Keeps s (u.savePipe r key offset loaders tks) :=
  .ite h.complete (.ite h.refuse (((h.foldl fun _ _ hv => hv.saveImage).modLaunch).complete))

theorem KeepsNext.execPreemptPipeline (h : Keeps s u) : KeepsNext s (execPreemptPipeline ring u) := by
  unfold Machine.execPreemptPipeline
  refine .hostRow h fun _ _ hv => ?_
  extract_lets _ _ _
  split
  · exact hv.refuse
  · exact .ite (.ite hv.savePipe hv) (.ite hv.refuse ((hv.foldl fun _ _ h4 => h4.feed).modRing))

theorem Keeps.loadImages {l : List (Nat × Nat)} (h : Keeps s u) (ht : u.loadImages l = some t) :
    Keeps s t := by
  induction l generalizing u with
  | nil => exact Option.some.inj ht ▸ h
  | cons e l ih =>
    unfold State.loadImages at ht
    split at ht
    · exact absurd ht nofun
    · next v hv => exact ih (h.loadImage hv) ht

theorem Keeps.restoreS (h : Keeps s u) : Keeps s (u.restoreS core ws) :=
  h.foldl fun _ n hv => (hv.putSreg (k := 16 * core + n) (v := ws.getD n 0)).frame

theorem KeepsNext.execResumePipeline (h : Keeps s u) : KeepsNext s (execResumePipeline ring u) := by
  unfold Machine.execResumePipeline
  refine .hostRow h fun _ _ hv => ?_
  extract_lets n1 ls2
  split
  · exact hv.refuse
  · split
    · exact hv.refuse
    · split
      · exact hv.refuse
      · split
        · exact hv.refuse
        · next v3 h3 =>
          exact (((((hv.loadImages h3).foldl fun _ _ h4 => h4.restoreS).foldl
            fun _ _ h4 => h4.feed).foldl fun _ _ h4 => h4.restart).modLaunch).complete

theorem Keeps.withdrawPort (h : Keeps s u) : Keeps s (u.withdrawPort t₀ w) :=
  .ite h.haltWait (.ite h h.modWait.flitHome)

theorem Keeps.stopWait (h : Keeps s u) : Keeps s (u.stopWait t₀ w) := by
  unfold State.stopWait
  extract_lets m
  have hv : Keeps s m := h.modThread
  split
  · exact hv.modWait.withdrawWait
  · exact hv.modWait.withdrawWait
  · exact hv.modWait.withdrawWait
  · exact hv.modWait.withdrawWait
  · exact hv.modWait.withdrawWait
  · exact hv.modWait.withdrawWait
  · exact hv.modWait.withdrawWait
  · exact hv.modWait.withdrawPort
  · exact hv.modWait.withdrawPort
  · exact h.modTask.haltWait
  · exact h.haltWait
  · exact h.haltWait
  · exact h.haltWait
  · exact h.haltWait
  · exact h.haltWait
  · exact h.haltWait
  · exact h.haltWait
  · exact h.haltWait
  · exact h.haltWait
  · exact h.haltWait
  · exact h.haltWait
  · exact h.haltWait
  · exact h.haltWait
  · exact h.haltWait
  · exact h.haltWait
  · exact h.haltWait
  · exact .ite h.haltWait hv
  · exact .ite hv h.haltWait
  · exact .ite hv h.haltWait
  · exact hv

theorem Keeps.stopGeneral (h : Keeps s u) : Keeps s (u.stopGeneral t₀) := by
  unfold State.stopGeneral
  split
  · exact h.stopWait
  · exact h.stopThread

theorem Core.Keeps.emptied (c : Core) : Core.Keeps c c.emptied := by
  unfold Core.Keeps
  rw [Core.sized_iff, Core.sized_iff]
  rintro ⟨hl, hlen, hj⟩
  refine ⟨?_, (List.length_map ..).trans hlen, fun y hy => ?_⟩
  · simp [Core.lengths, Core.emptied] at hl ⊢
    exact hl.1
  · obtain ⟨x, hx, rfl⟩ := List.mem_map.mp hy
    split
    · exact hj x hx
    · decide

theorem Team.Keeps.released (t : Team) (key : Nat) :
    Team.Keeps t { t with
      mx := {}
      conns := t.conns.map fun c => if c.launch = key then {} else c
      domains := List.replicate 16 0, l1 := [], stopped := false, task := none }
    := by
  refine ⟨fun ht => ?_, fun _ => ⟨rfl, rfl⟩⟩
  obtain ⟨hl, hm, hc⟩ := (Team.sized_iff _).mp ht
  refine (Team.sized_iff _).mpr ⟨?_, rfl, fun y hy => ?_⟩
  · simp [Team.lengths] at hl ⊢
    tauto
  · obtain ⟨x, hx, rfl⟩ := List.mem_map.mp hy
    split
    · rfl
    · exact hc x hx

theorem Keeps.releaseTeam (h : Keeps s u) : Keeps s (u.releaseTeam key node) := by
  unfold State.releaseTeam
  extract_lets mine v w x task y
  have hv : Keeps s v := (h.dropStreams (p := fun e => !mine (e.1 / 8))).dropRf (p := fun e => nodeOf (e.1 / 2048) != node)
    |>.dropSregs (p := fun e => nodeOf (e.1 / 16) != node) |>.frame
  have hx : Keeps s x := (hv.foldl fun _ _ hw => hw.modCore fun c => .emptied c).mapCores
  have hy : Keeps s y := hx.modTeam fun t => .released t key
  clear_value y task
  split
  · exact hy.closeTask
  · exact hy

theorem Keeps.unstop (h : Keeps s u) : Keeps s (u.unstop key) :=
  ((h.foldl fun _ _ hv => hv.modTeam).foldl fun _ _ hv => .ite hv.resume hv.modThread).modLaunch

theorem Keeps.keep (h : Keeps s u) (hs : SizedParts s) (key node : Nat) : (u.keep key node).Sized := by
  refine ⟨(h.mx node).1 hs, fun c hc => ?_⟩
  obtain ⟨k, _, rfl⟩ := List.mem_map.mp hc
  exact State.core_sized (h.sizes hs) _

theorem Keeps.saveGeneral {r : Nat} {l : Launch} (h : Keeps s u) : Keeps s (u.saveGeneral r key l va) := by
  unfold State.saveGeneral
  extract_lets area teams
  split
  · exact h.unstop.refuse
  · next v hv =>
    have hw := ((h.areaWrite hv).foldl (l := teams) fun v n hw => hw.releaseTeam (key := key) (node := n)).mapCores
      (f := fun e => { e.2 with bankQ := e.2.bankQ.filter fun c => c.launch != key })
    refine (hw.modLaunchAt fun hs x _ k hk => ?_).complete
    obtain ⟨n, _, rfl⟩ := List.mem_map.mp hk
    exact h.keep hs key n

theorem Keeps.holdQueued {h₀ : Nat} (h : Keeps s u) : Keeps s (u.holdQueued h₀ on) := h.frame

theorem Keeps.preemptQueued {r : Nat} {q : LaunchReq} (h : Keeps s u) : Keeps s (u.preemptQueued r q va) := by
  unfold State.preemptQueued
  split
  · exact h.refuse
  · next v hv =>
    exact ((h.areaWrite hv).holdQueued).complete

theorem KeepsNext.execPreemptGeneral (h : Keeps s u) : KeepsNext s (execPreemptGeneral ring u) := by
  unfold Machine.execPreemptGeneral
  refine .hostRow h fun _ _ hv => ?_
  extract_lets va1
  split
  · split
    · exact .ite hv.preemptQueued hv.refuse
    · exact hv.refuse
  · split
    · extract_lets s2
      have h2 : Keeps s s2 := by
        unfold s2
        split
        · refine hv.foldl fun v3 _ h3 => ?_
          exact .ite h3 h3.stopGeneral
        · exact hv
      exact .ite h2.saveGeneral h2
    · exact .ite hv.refuse ((hv.modLaunch.foldl fun _ _ h2 => h2.modTeam).modRing)

theorem KeepsNext.execPreemptTimeout (h : Keeps s u) : KeepsNext s (execPreemptTimeout u) := by
  unfold Machine.execPreemptTimeout
  extract_lets r
  split
  · split
    · exact .next ((Keeps.ite h.unstop h).complete)
    · exact .next h.complete
  · exact .next h

theorem Keeps.restoreScratch (h : Keeps s u) : Keeps s (u.restoreScratch node size b) :=
  h.setBytes.foldl fun _ _ hv => hv.setFull

theorem Keeps.restoreSlot {z : Nat} {kept : Thread} {m : Word} (h : Keeps s u) :
    Keeps s (u.restoreSlot core z key task kept m img) := h.frame.applyImage.modThread

theorem Keeps.restoreNbr {l : List Word} (h : Keeps s u) : Keeps s (u.restoreNbr k l) := h.frame

theorem length_chunks (n m : Nat) (l : List Word) : (chunks n m l).length = m := by
  induction m generalizing l with
  | zero => rfl
  | succ m ih => exact congrArg (· + 1) (ih _)

theorem fld_lt (w : Word) (lo len : Nat) : fld w lo len < 2 ^ len := Nat.mod_lt _ (Nat.two_pow_pos len)

theorem Keeps.restoreCore (h : Keeps s u) (hk : SizedParts s → kept.sized = true) :
    Keeps s (u.restoreCore core key task kept threads b).1 := by
  unfold State.restoreCore
  dsimp only
  refine Keeps.modCoreAt (Keeps.foldl (Keeps.foldl h.restoreS fun v z hv => hv.restoreSlot) fun v e hv =>
    hv.restoreNbr) fun hs c hc => ?_
  obtain ⟨hl, hj⟩ := (Core.sized_iff _).mp (hk hs)
  refine (Core.sized_iff _).mpr ⟨?_, ?_, fun y hy => ?_⟩
  · have hc := ((Core.sized_iff _).mp hc).1
    simp [Core.lengths, length_chunks] at hc ⊢
    tauto
  · simp [length_chunks, hj.1]
  · obtain ⟨e, _, rfl⟩ := List.mem_map.mp hy
    exact fld_lt _ _ _

theorem Kept.Sized.getD_core {k : Kept} (h : k.Sized) (c : Nat) : (k.cores.getD c {}).sized = true := by
  rw [List.getD_eq_getElem?_getD]
  cases hc : k.cores[c]? with
  | none => rfl
  | some x => exact h.2 x (List.mem_of_getElem? hc)

theorem Keeps.restoreCores {k : Kept} {l : List Nat} (h : Keeps s u) (hk : SizedParts s → k.Sized) :
    Keeps s (u.restoreCores node key task k l b) := by
  induction l generalizing u b with
  | nil => exact h
  | cons c l ih =>
    unfold State.restoreCores
    split
    next v b hv => exact ih ((h.restoreCore fun hs => (hk hs).getD_core c).fst hv)

theorem connRestored_lengths (moves : List (Nat × Nat)) (key fired : Nat) (b : List Word) :
    (connRestored moves key fired b).1.lengths = [8, 16, 16] := by
  unfold connRestored
  dsimp only
  split <;> simp [Conn.lengths, length_chunks]

theorem Keeps.restoreConns {l : List (Nat × Bool × Nat × Nat)} (h : Keeps s u) :
    Keeps s (u.restoreConns node key moves l b).1
    := by
  induction l generalizing u b with
  | nil => exact h
  | cons e l ih => exact ih (.ite (h.setConn fun _ => connRestored_lengths _ _ _ _) h)

theorem Keeps.restoreHitch {k : Kept} (h : Keeps s u) : Keeps s (u.restoreHitch node key own moves k b) := by
  unfold State.restoreHitch
  split
  next v b hv =>
  refine (h.restoreConns.fst hv).foldl fun v e hv => hv.modCore fun c hc => ?_
  rw [Core.sized_iff] at hc ⊢
  simp [Core.lengths] at hc ⊢
  tauto

theorem Keeps.restoreCopy (h : Keeps s u) : Keeps s (u.restoreCopy core kept b).1 :=
  (h.modCore.foldl fun _ _ hv => hv.modWait)

theorem Keeps.restoreCopies {k : Kept} {l : List Nat} (h : Keeps s u) :
    Keeps s (u.restoreCopies node k l b).1 := by
  induction l generalizing u b with
  | nil => exact h
  | cons c l ih => exact ih h.restoreCopy

theorem Keeps.returnCompletion (h : Keeps s u) : Keeps s (u.returnCompletion key core port w0 w1) := by
  unfold State.returnCompletion
  split
  · next v hv =>
    split at hv
    · exact h.placeMessage hv
    · exact absurd hv nofun
  · exact h.fresh.frame.messageWaits.retryMove

theorem Keeps.restoreEngines {k : Kept} (h : Keeps s u) : Keeps s (u.restoreEngines key node k b) := by
  have ht (t : Team) (f : Nat → Nat) : Team.Keeps t { t with domains := (List.range 16).map f } := by
    refine ⟨fun ht => ?_, id⟩
    rw [Team.sized_iff] at ht ⊢
    simp [Team.lengths] at ht ⊢
    tauto
  unfold State.restoreEngines
  split
  next v b hv =>
  exact (((h.restoreCopies.fst hv).modTeam fun t => ht t _).foldl fun _ _ hv =>
    hv.returnCompletion).foldl fun _ _ hv => hv.modCore

theorem Keeps.restoreMigration {k : Kept} {l : List Nat} (h : Keeps s u) :
    Keeps s (u.restoreMigration node k l b) := by
  induction l generalizing u b with
  | nil => exact h
  | cons c l ih => exact ih (h.modCore.foldl fun _ _ hv => hv.intoPaddock)

theorem Matrix.Keeps.foldl_setCell (l : List Nat) (f : Nat → BitVec 36) :
    Matrix.Keeps m (l.foldl (fun m k => m.setCell k (f k)) m) := by
  induction l generalizing m with
  | nil => exact .refl m
  | cons k l ih => exact (Matrix.Keeps.refl m).setCell.trans ih

theorem length_resultsRestored (l : List (List MRec)) (b : List Word) :
    (resultsRestored l b).length = l.length := by
  induction l generalizing b with
  | nil => rfl
  | cons e l ih => exact congrArg (· + 1) (ih _)

theorem matrixRestored_kept (node : Nat) (kept : Matrix) (b : List Word) :
    Matrix.Kept s (matrixRestored node kept b) := by
  unfold matrixRestored
  refine Matrix.Kept.keeps (m := _) ⟨fun _ => ?_, fun _ => ⟨rfl, rfl⟩⟩ (Matrix.Keeps.foldl_setCell _ _)
  rw [Matrix.sized_iff]
  simp [Matrix.lengths, length_chunks, length_resultsRestored, matrixRestored.fitResults]

theorem Keeps.restoreTeam {l : Launch} {k : Kept} (h : Keeps s u) (hk : SizedParts s → k.Sized) :
    Keeps s (u.restoreTeam key l moves k node rec') := by
  unfold State.restoreTeam
  extract_lets bs body hd task v w num t d x y z z1 z2
  have hw : Keeps s w := h.launchStart.modTeam
  clear_value w
  have hx : Keeps s x := hw.frame
  clear_value x
  have hz1 : Keeps s z1 := Keeps.restoreCores hx.modLaunch.restoreScratch hk
  have hz2 : Keeps s z2 := hz1.setMx (matrixRestored_kept _ _ _)
  exact hz2.restoreHitch.restoreEngines.restoreMigration

theorem Keeps.restoreAll {l : Launch} (h : Keeps s u) (hk : SizedParts s → ∀ e ∈ ks, e.1.Sized) :
    Keeps s (u.restoreAll key l moves area ks) := by
  induction ks generalizing u with
  | nil => exact h
  | cons e ks ih =>
    unfold State.restoreAll
    exact ih (h.restoreTeam fun hs => hk hs e (List.mem_cons_self ..)) fun hs x hx => hk hs x (List.mem_cons_of_mem _ hx)

theorem Keeps.renamePorts (h : Keeps s u) : Keeps s (u.renamePorts own moves) := by
  unfold State.renamePorts
  refine h.foldl fun v0 _ hv => ?_
  refine hv.foldl fun v1 _ h1 => ?_
  extract_lets home2
  split
  · exact h1
  · exact .ite h1.setCport h1

theorem Keeps.renameBinds (h : Keeps s u) : Keeps s (u.renameBinds key moves) :=
  h.foldl fun _ _ hv => hv.foldl fun _ _ h1 => h1.foldl fun _ _ h2 => .ite (.ite (h2.updConn h2) h2) h2

theorem Keeps.returnBank (h : Keeps s u) :
    Keeps s (u.returnBank bank) := (h.foldl fun _ _ hv => hv.modCore).mapCores

theorem Keeps.resumeGeneral {r : Nat} {l : Launch} (h : Keeps s u) (hl : SizedParts s → l.Sized) :
    Keeps s (u.resumeGeneral r key l area teams) := by
  unfold State.resumeGeneral
  extract_lets moves offs v w ts x
  have hv : Keeps s v := h.restoreAll fun hs e he => hl hs e.1 (List.of_mem_zip he).1
  have hw : Keeps s w := hv.renamePorts.renameBinds.returnBank
  have hx : Keeps s x := hw.foldl fun _ _ hy => .ite hy.resume hy.modThread
  exact (hx.modLaunch fun _ _ => Launch.sized_of_saved rfl).complete

theorem Keeps.launchByHandle {l : Launch} (h : Keeps s u) (hl : u.launchByHandle n = some (key, l)) (hs : SizedParts s) :
    l.Sized := (h.sizes hs).2.2.1 _ (List.mem_of_find?_eq_some hl)

theorem KeepsNext.execResumeGeneral (h : Keeps s u) : KeepsNext s (execResumeGeneral ring u) := by
  refine .hostRow h fun _ v hv => ?_
  dsimp only
  split
  · split
    · exact .ite hv.holdQueued.complete hv.refuse
    · exact hv.refuse
  · next key l hl =>
    refine .ite hv.refuse ?_
    split
    · exact hv.refuse
    · refine .ite hv.refuse ?_
      split
      · exact hv.refuse
      · refine .ite hv.refuse ?_
        split
        · exact hv
        · exact hv.resumeGeneral (hv.launchByHandle hl)

end Sys2Proof.Machine
end

section
/-! ### Every instruction and step -/

set_option Elab.async false

namespace Sys2Proof.Machine

variable {s t u : State} {i : Instr}

/-- What every instruction and every step of the hardware means keeps the invariants. -/
theorem KeepsNext.exec (h : Keeps s u) : KeepsNext s (exec i u) := by
  cases i with
  | add | sub | and | or | xor | andn | min | max | minu | maxu | mul | mulh | mulhu | sll | srl | sra | rol | ror | clz
  | ctz | popc | bset | bclr | btgl | bfx | bfxu | bfi | cmpeq | cmpne | cmplt | cmpltu | cmple | cmpleu | addi | andi | ori
  | xori | slli | srli | srai | roli | rori | bseti | bclri | btgli | cmpeqi | cmpnei | cmplti | cmpltui | cmplei | cmpleui
  | li | lis | mov | sel => exact KeepsNext.issueAlu h
  | div | divu | rem | remu => exact KeepsNext.issueDivide h
  | gadr => exact KeepsNext.execGadr h
  | j | jr => exact KeepsNext.issue h fun _ _ hv => hv.setPc
  | jl => exact KeepsNext.issue h fun _ _ hv => hv.writeG.setPc
  | jlr => exact KeepsNext.issue h fun _ _ hv => hv.writeReg.setPc
  | bbs | bbc | bz | bnz => exact KeepsNext.issue h fun _ _ hv => hv.branchIf
  | bloop => exact KeepsNext.execBloop h
  | pre => exact KeepsNext.execPre h
  | nop | trap | brk => exact KeepsNext.issue h fun _ _ hv => hv
  | yield => exact KeepsNext.issue h fun _ _ hv => hv.forfeitTurns
  | ldb | ldh | ldw | ldd | ldbu | ldhu | ldwu => exact KeepsNext.issueLoad h
  | stb | sth | stw | std => exact KeepsNext.issueStore h
  | ldv | stv => exact KeepsNext.issue h fun _ _ hv => hv.sendBank
  | gld => exact KeepsNext.execGld h
  | gst => exact KeepsNext.execGst h
  | gldv => exact KeepsNext.execGldv h
  | gstv => exact KeepsNext.execGstv h
  | sbind => exact KeepsNext.execSbind h
  | scnt => exact KeepsNext.issue h fun _ _ hv => hv.writeReg
  | ginv => exact KeepsNext.execGinv h
  | gprf => exact KeepsNext.issue h fun _ _ hv => hv.lineReq
  | lclean | lflush => exact KeepsNext.issueLineOp h
  | amoadd | amoand | amoor | amoxor | amomin | amomax | amominu | amomaxu | amoswp | acas | redadd | redand | redor
  | redxor | redmin | redmax | redminu | redmaxu => exact KeepsNext.issueAtomic h
  | ldfe | ldff | stfe | stff | feq | feset | bara | barw | waitw => exact KeepsNext.issueOwnerWait h
  | bari => exact KeepsNext.execBari h
  | fence | bfence => exact KeepsNext.issue h fun _ _ hv => hv.beginWait
  | fadd | fsub | fmul | ffma => exact KeepsNext.issueArith h
  | fmin | fmax | fabs | fneg | fcmpeq | fcmplt | fcmple | fcls | fcvt => exact KeepsNext.issueFloat h
  | vadd | vsub | vmul | vfma | vmin | vmax | vabs | vneg | vrcp | vrsq | vexp2 | vand | vor | vxor | vshl | vshr | vsar
  | vcmpeq | vcmplt | vcmple | vsel | vcvt | vred | vdot | vqnt | vshuf | vbcast | vext | vins | vmov =>
    exact KeepsNext.issueVector h
  | mpush => exact KeepsNext.execMpush h
  | mpop => exact KeepsNext.issue h fun _ _ hv => hv.fresh.modThread
  | mfence => exact KeepsNext.execMfence h
  | mring => exact KeepsNext.execMring h
  | mradv | mrstat => exact KeepsNext.issue h fun _ _ hv => hv.reserveReg.addMove
  | put => exact KeepsNext.execPut h
  | take => exact KeepsNext.execTake h
  | pbind | pfree => exact KeepsNext.issue h fun _ _ hv => .ite hv.setStatus (hv.waitThen fun _ _ h1 => h1.flitHome)
  | hload => exact KeepsNext.execHload h
  | hstop | hstat => exact KeepsNext.askHome h
  | qcfg => exact KeepsNext.execQcfg h
  | qstat | jpstat | slots => exact KeepsNext.issue h fun _ _ hv => hv.writeStatus
  | taga => exact KeepsNext.execTaga h
  | tagf => exact KeepsNext.execTagf h
  | send | sendi => exact KeepsNext.issue h fun _ _ hv => hv.enqueueMessage
  | waitm => exact KeepsNext.execWaitm h
  | recv => exact KeepsNext.execRecv h
  | mpcfg => exact KeepsNext.execMpcfg h
  | jpset => exact KeepsNext.execJpset h
  | jpclr => exact KeepsNext.issue h fun _ _ hv => hv.clearEntry.setStatus
  | spawn => exact KeepsNext.execSpawn h
  | quit | exit => exact KeepsNext.issue h fun _ _ hv => hv.beginEnd
  | migrate | launch => exact KeepsNext.issue h fun _ _ hv => .ite hv.setStatus hv.beginWait
  | garr | gwait => exact KeepsNext.issueGroup h
  | cpy => exact KeepsNext.execCpy h
  | cpys => exact KeepsNext.execCpys h
  | cpyx => exact KeepsNext.execCpyx h
  | bmv => exact KeepsNext.execBmv h
  | bstat => exact KeepsNext.execBstat h
  | csrr => exact KeepsNext.issue h fun _ _ hv => hv.writeGS
  | csrw => exact KeepsNext.execCsrw h
  | csrs => exact KeepsNext.execCsrs h
  | csrc => exact KeepsNext.execCsrc h
  | eret => exact KeepsNext.execEret h
  | wfe => exact KeepsNext.execWfe h
  | tlbi => exact KeepsNext.execTlbi h
  | ctxsv => exact KeepsNext.execCtxsv h
  | ctxld => exact KeepsNext.execCtxld h
  | sliceRetire => exact KeepsNext.execSliceRetire h
  | powerGate | ungate | domainAnswer => exact KeepsNext.ite (.next h.modCore) (.next h)
  | evtdoor | rcfgEnable | tail | bar0RegisterWrite => exact KeepsNext.next h.bar0Write
  | identify => exact KeepsNext.execIdentify h
  | load => exact KeepsNext.execLoad h
  | patch => exact KeepsNext.execPatch h
  | hostLaunch => exact KeepsNext.execHostLaunch h
  | preemptPipeline => exact KeepsNext.execPreemptPipeline h
  | preemptGeneral => exact KeepsNext.execPreemptGeneral h
  | resumePipeline => exact KeepsNext.execResumePipeline h
  | resumeGeneral => exact KeepsNext.execResumeGeneral h
  | abort => exact KeepsNext.execAbort h
  | map => exact KeepsNext.execMap h
  | lifecycle => exact KeepsNext.execLifecycle h
  | fwstage => exact KeepsNext.execFwstage h
  | logread => exact KeepsNext.execLogread h
  | unknownHostCommand => exact KeepsNext.ite (.next h.takeCommand.refuse) (.next h)
  | linkDown => exact KeepsNext.execLinkDown h
  | wordNotAnInstruction => exact KeepsNext.execWordNotAnInstruction h
  | stewardAccess => exact KeepsNext.execStewardAccess h
  | correctedError => exact KeepsNext.execCorrectedError h
  | dividerWrite | normaliserWrite => exact KeepsNext.next h.lateResult
  | bindingRequestIssue => exact KeepsNext.execBindingRequestIssue h
  | streamElementLand => exact KeepsNext.execStreamElementLand h
  | storeBufferLeave => exact KeepsNext.execStoreBufferLeave h
  | ownerStore => exact KeepsNext.next (h.atOwner fun _ _ hv => hv.performStore)
  | storeAcknowledge => exact KeepsNext.execStoreAcknowledge h
  | sliceAccept => exact KeepsNext.execSliceAccept h
  | sliceLookup => exact KeepsNext.execSliceLookup h
  | dramFill => exact KeepsNext.execDramFill h
  | mapInstall => exact KeepsNext.execMapInstall h
  | pageWalkDone => exact KeepsNext.execPageWalkDone h
  | iCacheFill => exact KeepsNext.execICacheFill h
  | slotZeroingDone => exact KeepsNext.execSlotZeroingDone h
  | atomicAtOwner => exact KeepsNext.execAtomicAtOwner h
  | amoReply => exact KeepsNext.execAmoReply h
  | feRequestAtOwner => exact KeepsNext.next (h.atOwner fun _ _ hv => hv.performFe)
  | feResend => exact KeepsNext.execFeResend h
  | feAnswer | withdrawalSettle | barrierAnswer => exact KeepsNext.next h.answerStep
  | barrierArrival => exact KeepsNext.execBarrierArrival h
  | ownerWaitTimeout => exact KeepsNext.execOwnerWaitTimeout h
  | fenceComplete => exact KeepsNext.execFenceComplete h
  | fenceTimeout => exact KeepsNext.execFenceTimeout h
  | fenceHostReadDone => exact KeepsNext.execFenceHostReadDone h
  | vectorGrant => exact KeepsNext.execVectorGrant h
  | vectorReturn => exact KeepsNext.execVectorReturn h
  | matrixGrant => exact KeepsNext.execMatrixGrant h
  | matrixOpStart => exact KeepsNext.next h.startHead.startHead.passFences
  | matrixOpComplete => exact KeepsNext.execMatrixOpComplete h
  | mpopRecordLand => exact KeepsNext.execMpopRecordLand h
  | matrixQueueTimeout => exact KeepsNext.execMatrixQueueTimeout h
  | mpopTimeout => exact KeepsNext.execMpopTimeout h
  | offerSend => exact KeepsNext.execOfferSend h
  | hitchFlitArrival => exact KeepsNext.execHitchFlitArrival h
  | connectorDecision => exact KeepsNext.execConnectorDecision h
  | portCompletion => exact KeepsNext.execPortCompletion h
  | portOpTimeout => exact KeepsNext.execPortOpTimeout h
  | withdrawn => exact KeepsNext.execWithdrawn h
  | bindingAnswer => exact KeepsNext.execBindingAnswer h
  | stop => exact KeepsNext.execStop h
  | neighbourValueArrival | neighbourReturn => exact KeepsNext.next (h.arrive fun _ hv => hv.frame)
  | auditSend => exact KeepsNext.ite (.next h.addTimer) (.next h)
  | auditReceipt => exact KeepsNext.next (h.arrive fun _ hv => .ite hv hv.frame)
  | counterResync => exact KeepsNext.execCounterResync h
  | resyncAnswer => exact KeepsNext.execResyncAnswer h
  | messageDepart => exact KeepsNext.execMessageDepart h
  | messageArrival => exact KeepsNext.execMessageArrival h
  | spillRefill => exact KeepsNext.execSpillRefill h
  | queueWaitTimeout => exact KeepsNext.execQueueWaitTimeout h
  | joinDecision => exact KeepsNext.execJoinDecision h
  | threadEnd => exact KeepsNext.execThreadEnd h
  | spawnPlacement => exact KeepsNext.execSpawnPlacement h
  | spawnTimeout => exact KeepsNext.execSpawnTimeout h
  | departure => exact KeepsNext.execDeparture h
  | migrationArrival => exact KeepsNext.execMigrationArrival h
  | migrationAck => exact KeepsNext.execMigrationAck h
  | migrationRelease | migrationDiscard => exact KeepsNext.next h.releaseStep
  | lost => exact KeepsNext.execLost h
  | paddockMove => exact KeepsNext.execPaddockMove h
  | admission => exact KeepsNext.execAdmission h
  | launchTake => exact KeepsNext.execLaunchTake h
  | taskPlacement => exact KeepsNext.execTaskPlacement h
  | successor => exact KeepsNext.execSuccessor h
  | launchEnd => exact KeepsNext.execLaunchEnd h
  | copyGrant => exact KeepsNext.execCopyGrant h
  | reduceUpdate => exact KeepsNext.execReduceUpdate h
  | copyComplete => exact KeepsNext.execCopyComplete h
  | enginePushTimeout => exact KeepsNext.execEnginePushTimeout h
  | bankCommandStart => exact KeepsNext.execBankCommandStart h
  | bankComplete => exact KeepsNext.execBankComplete h
  | bfenceTimeout => exact KeepsNext.execBfenceTimeout h
  | wfeWake => exact KeepsNext.execWfeWake h
  | wfeTimeout => exact KeepsNext.execWfeTimeout h
  | reset => exact KeepsNext.execReset h
  | barrierWordRequest => exact KeepsNext.execBarrierWordRequest h
  | hitchAnswer => exact KeepsNext.execHitchAnswer h
  | connectorUnbinding => exact KeepsNext.execConnectorUnbinding h
  | preemptTimeout => exact KeepsNext.execPreemptTimeout h

end Sys2Proof.Machine
end

section
/-! ### The schedule of a cycle -/

set_option Elab.async false

namespace Sys2Proof.Machine

variable {s t u : State} {tk : Nat} {mv : Move}

theorem Keeps.fetchMiss (h : Keeps s u) : Keeps s (u.fetchMiss tk) := by
  unfold State.fetchMiss
  exact (((h.delay.modThread (f := fun th => { th with run := .fetch })).addTimer (due := u.delay.2.cycle + 1 + u.delay.1)
    (ev := .iCacheFill) (subj := { n := tk })).stop).frame

theorem Keeps.resumeStep (h : Keeps s u) : Keeps s (u.resumeStep tk) := by
  unfold State.resumeStep
  split
  · exact h
  · split
    · exact h.fenceRead
    · split
      · exact h.matrixResume
      · exact h.matrixResume
      · exact h.matrixResume
      · exact h.hloadStep
      · exact h.tlbiStep
      · exact h.eretStep
      · exact h.ctxsvStep
      · exact h.launchStep
      · exact h.waitmStep
      · exact h.engineStep
      · exact h.engineStep
      · exact h.engineStep
      · exact h.engineStep
      · exact h

theorem Keeps.settleCycle (h : Keeps s u) : Keeps s u.settleCycle :=
  (h.foldl fun _ _ hv => hv.settleStop).foldl fun _ _ hv => hv.beginMove

theorem Keeps.nextCycle (h : Keeps s u) : Keeps s u.nextCycle := by
  unfold State.nextCycle
  extract_lets v c w
  have hw : Keeps s w := h.settleCycle.mapCores
  clear_value w
  exact hw.frame

theorem Keeps.bankPhase (h : Keeps s u) : Keeps s u.bankPhase := h.frame

theorem Keeps.arraysPhase (h : Keeps s u) : Keeps s u.arraysPhase := h.settleS.frame

theorem Keeps.timersPhase (h : Keeps s u) : Keeps s u.timersPhase := h.frame

theorem Keeps.unitsPhase (h : Keeps s u) : Keeps s u.unitsPhase := h.frame

theorem KeepsNext.runMove (h : Keeps s u) : KeepsNext s (u.runMove mv) := by
  unfold Machine.State.runMove
  split
  · exact .exec h.frame
  · exact .next h.portStep
  · exact .next h.ownerReadStep
  · exact .next h.withdrawStep
  · exact .next h.resumeStep
  · exact .next (.ite h.copyBeat h.bankBeat)
  · exact .next h.drainInbox
  · exact .next h.placeSeat
  · exact .next h.bankStep
  · exact .next h.ringStep
  · exact .next h.l1Fill
  · exact .next h.readAgain

end Sys2Proof.Machine
end

section
/-! What every step keeps: the thread that is about to issue, and the invariants of a step (O6, O7). -/

set_option Elab.async false

namespace Sys2Proof.Machine
variable {s t u : State}

/-! ### The thread that is about to issue -/

/-- The thread that is about to issue is ready, or parked in the operand state. -/
def CurMayIssue (s : State) : Prop :=
  ∀ tk th, s.cur = some tk → s.thread? tk = some th → th.run = .ready ∨ ∃ i, th.run = .operand i

theorem sized_iff (s : State) : Sized s ↔ SizedParts s ∧ CurMayIssue s :=
  ⟨fun ⟨hc, ht, hl, hr, hk, hm, hg, hi⟩ => ⟨⟨hc, ht, hl, hr, hk, hm, hg⟩, hi⟩,
    fun ⟨⟨hc, ht, hl, hr, hk, hm, hg⟩, hi⟩ => ⟨hc, ht, hl, hr, hk, hm, hg, hi⟩⟩

theorem CurMayIssue.of_none (h : s.cur = none) : CurMayIssue s := fun _ _ hc => absurd (hc.symm.trans h) nofun

/-- If the outcome is a next state, no thread is about to issue in it. -/
def Stops (o : Host.Outcome State Fault Refusal) : Prop := ∀ t, o = .next t → t.cur = none

theorem Stops.next (h : t.cur = none) : Stops (.next t) := fun _ ht => Host.Outcome.next.inj ht ▸ h
theorem Stops.fault (f : Fault) : Stops (.fault f) := nofun

theorem carryOut_cur (i : Instr) (eff : Issue → State → State) (x : Issue) (s : State) (v : Verdict) :
    (carryOut i eff x s v).cur = none := by
  cases v <;> rfl

theorem Stops.issue {i : Instr} {chk : Issue → State → Check} {eff : Issue → State → State} : Stops (issue i chk eff s) := by
  unfold Machine.issue
  split
  · exact .fault _
  · split
    · exact .fault _
    · exact .next (carryOut_cur _ _ _ _ _)

theorem Stops.execPre {sm : Bool} {g : Reg} {b : BitVec 6} {e n : BitVec 1} {f x : BitVec 4} {o : BitVec 2} :
    Stops (execPre sm g b e n f x o s) := by
  unfold Machine.execPre
  split
  · exact .fault _
  · split
    · exact .next rfl
    · exact .issue

/-- After the issue of a word no thread is about to issue. -/
theorem Stops.word {i : Instr} (h : i.isWord = true) : Stops (exec i s) := by
  by_cases hp : ∃ sm g b e n f x o, i = .pre sm g b e n f x o
  · obtain ⟨sm, g, b, e, n, f, x, o, rfl⟩ := hp
    exact .execPre
  · obtain ⟨chk, eff, hi⟩ := exec_word i s h fun sm g b e n f x o hi => hp ⟨sm, g, b, e, n, f, x, o, hi⟩
    exact hi ▸ .issue

theorem Stops.notAnInstruction {r : Nat} {w : BitVec 32} : Stops (exec (.wordNotAnInstruction r w) s) := by
  show Stops (execWordNotAnInstruction r w s)
  unfold execWordNotAnInstruction
  split
  · exact .fault _
  · split
    · exact .fault _
    · exact .next rfl

/-- A word that a core decodes is decoded to the same instruction on any core that has its class. -/
theorem decode_of_decodeOn {channel : Bool} {w : BitVec 32} {i : Instr} (h : decodeOn channel w = .ok i) :
    decode w = .ok i := by
  unfold decodeOn at h
  unfold decode
  grind

theorem Stops.wordInstr {channel : Bool} {w : BitVec 32} : Stops (exec (wordInstr channel w) s) := by
  unfold Machine.wordInstr
  split
  · next i hi => exact .word (isWord_of_decode (decode_of_decodeOn hi))
  · exact .notAnInstruction

theorem Stops.issueStep {tk : Nat} : Stops (s.issueStep tk) := by
  unfold State.issueStep
  split
  · exact .next rfl
  · split
    · exact .next rfl
    · exact .wordInstr

theorem KeepsNext.issueStep {tk : Nat} (h : Keeps s u) : KeepsNext s (u.issueStep tk) := by
  unfold Machine.State.issueStep
  split
  · exact .next h.stop
  · split
    · exact .next h.fetchMiss
    · exact .exec h

/-- A thread that may issue is ready, or parked in the operand state. -/
theorem Thread.run_of_mayIssue {th : Thread} {c : Nat} (h : th.mayIssue c = true) : th.run = .ready ∨ ∃ i, th.run = .operand i := by
  unfold Thread.mayIssue at h
  split at h
  · next hr => exact .inl hr
  · next i hr => exact .inr ⟨i, hr⟩
  · simp at h

theorem Keeps.pickSlot {core : Nat} {l : List Nat} (h : Keeps s u) :
    ∃ t, Keeps s t ∧ (u.pickSlot core l = t ∨ ∃ tk th, t.thread? tk = some th ∧ th.mayIssue t.cycle = true ∧
      u.pickSlot core l = { t with cur := some tk }) := by
  induction l generalizing u with
  | nil => exact ⟨u, h, .inl rfl⟩
  | cons z l ih =>
    unfold State.pickSlot
    dsimp only
    split
    · exact ih h
    · next th hth =>
      split
      · exact ih h
      · next hm =>
        split
        · exact ih h.modThread.frame
        · refine ⟨u, h, .inr ⟨_, th, hth, ?_, rfl⟩⟩
          simp at hm
          exact hm.1

/-- A step of the hardware keeps the invariants; a thread that it chooses may issue. -/
theorem Keeps.issuePhase (h : Keeps s u) :
    ∃ t, Keeps s t ∧ (u.issuePhase = t ∨ ∃ tk th, t.thread? tk = some th ∧ th.mayIssue t.cycle = true ∧
      u.issuePhase = { t with cur := some tk }) := by
  unfold State.issuePhase
  split
  · exact ⟨_, h.frame, .inl rfl⟩
  · exact h.frame.pickSlot

/-- What a step keeps. -/
structure Preserves (s t : State) : Prop where
  canonical : Canonical s → Canonical t
  sized : Sized s → Sized t

theorem Keeps.preserves (h : Keeps s t) (hs : t.cur = none) : Preserves s t :=
  ⟨h.canonical, fun hz => (sized_iff t).mpr ⟨h.sizes ((sized_iff s).mp hz).1, .of_none hs⟩⟩

theorem preserves_issuePhase (hc : s.cur = none) : Preserves s s.issuePhase := by
  obtain ⟨t, ht, h | ⟨tk, th, hth, hm, h⟩⟩ := (Keeps.refl s).issuePhase
  · exact h ▸ ht.preserves (ht.idle hc)
  · rw [h]
    refine ⟨ht.canonical, fun hz => (sized_iff _).mpr ⟨ht.sizes ((sized_iff s).mp hz).1, fun tk' th' hcur hth' => ?_⟩⟩
    obtain rfl : tk = tk' := Option.some.inj hcur
    obtain rfl : th = th' := Option.some.inj (hth.symm.trans hth')
    exact Thread.run_of_mayIssue hm

theorem preserves_hardwareStep (hc : s.cur = none) (h : s.hardwareStep = .next t) : Preserves s t := by
  have hk {o : Host.Outcome State Fault Refusal} (ho : KeepsNext s o) (ht : o = .next t) : Preserves s t :=
    (ho t ht).preserves ((ho t ht).idle hc)
  have hs := Keeps.refl s
  unfold State.hardwareStep at h
  split at h
  · exact hk (.exec hs) h
  · split at h
    · exact hk (.runMove hs.frame) h
    · split at h
      · exact hk (.next hs.bankPhase) h
      · exact hk (.next hs.arraysPhase) h
      · exact Host.Outcome.next.inj h ▸ preserves_issuePhase hc
      · exact hk (.next hs.timersPhase) h
      · exact hk (.next hs.unitsPhase) h
      · exact hk (.next hs.nextCycle) h

theorem preserves_step (h : step s = .next t) : Preserves s t := by
  unfold step State.oneStep at h
  split at h
  · exact (KeepsNext.issueStep (.refl s) t h).preserves (Stops.issueStep t h)
  · next hc => exact preserves_hardwareStep hc h

end Sys2Proof.Machine

namespace Sys2Proof
open Sys2Proof.Machine

/-- Settles O6: every operation of the model is one of those that `Keeps` names, and so is a step. -/
theorem stepKeepsCanonical : Obligations.StepKeepsCanonical := by
  unfold Obligations.StepKeepsCanonical
  exact fun s t hs h => (preserves_step h).canonical hs

/-- Settles O7, by the same case split over a step; only the choice of a slot names the thread that is to issue. -/
theorem stepKeepsSized : Obligations.StepKeepsSized := by
  unfold Obligations.StepKeepsSized
  exact fun s t hs h => (preserves_step h).sized hs

end Sys2Proof
end

section
/-! The values of reset (R60, R66, R144, R146). -/

namespace Sys2Proof
open Sys2Proof.Machine

/-- Settles O8: at reset every map is empty, so that each reading is the map's default. -/
theorem resetValues : Obligations.ResetValues := by
  have hturn : ∀ p : Fin 8, (({} : Core).turn[p.val]?) = some (8 * p.val + 7) := by decide
  unfold Obligations.ResetValues
  exact ⟨fun _ _ => ⟨rfl, rfl⟩, fun _ _ => rfl, fun _ p hp => hturn ⟨p, hp⟩, fun _ => rfl, fun _ => rfl⟩
end Sys2Proof
end

section
/-! Integer and address instructions (R69 to R78): what a core's result formulas compute, and the words that have no
instruction. -/

namespace Sys2Proof.Machine

/-! ### Results as functions of the values read -/

/-- The value that an issuing instruction sees of any register field, zero where it has no such field. -/
theorem val_issueOf (s : State) (tk : Nat) (th : Thread) (i : Instr) (n : Nat) : (s.issueOf tk th i).val n = s.operand tk i n := by
  by_cases h : n < i.fields.length
  · exact issueOf_val h
  · have hn : i.fields.length ≤ n := Nat.le_of_not_lt h
    have hf : i.fields.getD n (.dst, .g 0) = (.dst, .g 0) := List.getD_eq_default _ _ hn
    have hv : (s.issueOf tk th i).val n = 0 :=
      List.getD_eq_default _ _ (by rw [State.issueOf, List.length_map, List.length_range]; exact hn)
    rw [hv, State.operand, hf]
    rfl

/-- An instruction whose result is a function of its second and third values writes any function that agrees with it. -/
theorem writes_binary {i : Instr} {rd : Reg} {f g : Word → Word → Word} (h : ∀ a b, f a b = g a b)
    (he : ∀ s, exec i s = issueAlu i rd (fun x => f (x.val 1) (x.val 2)) s) : Writes i rd g :=
  writes_of he fun s tk th => by rw [val_issueOf, val_issueOf, h]

/-- The same for an instruction whose result is a function of its second value alone. -/
theorem writes_unary {i : Instr} {rd : Reg} {f g : Word → Word} (h : ∀ a, f a = g a)
    (he : ∀ s, exec i s = issueAlu i rd (fun x => f (x.val 1)) s) : Writes i rd fun a _ => g a :=
  writes_binary (f := fun a _ => f a) (fun a _ => h a) he

/-- An instruction whose result is a function of one value. -/
theorem does_value {i : Instr} {rd : Reg} {f g : Word → Word} (n : Nat) (h : ∀ a, f a = g a)
    (he : ∀ s, exec i s = issueAlu i rd (fun x => f (x.val n)) s) : Does i fun s tk u => u.writeReg tk rd (g (s.operand tk i n)) :=
  does_of he fun s tk th => by rw [val_issueOf, h]

/-! ### Fields of the R and I forms (Tables FM-5, FM-6) -/

theorem packR_fields (sm : Bool) (op : BitVec 6) (rd ra rb : BitVec 7) (f : BitVec 4) :
    let w := packR sm op rd ra rb f
    w.getLsbD 31 = sm ∧ w.extractLsb' 25 6 = op ∧ w.extractLsb' 18 7 = rd ∧ w.extractLsb' 11 7 = ra ∧ w.extractLsb' 4 7 = rb ∧
      (w.extractLsb' 0 4).toNat = f.toNat := by
  refine ⟨wordS_packR .., BitVec.eq_of_toNat_eq (wordOp_packR ..), ?_, ?_, ?_, ?_⟩
  · rw [rd_packR _ _ _ _ _ _ _ _ (by decide) (by decide)]; exact BitVec.extractLsb'_eq_self
  · rw [ra_packR _ _ _ _ _ _ _ _ (by decide) (by decide)]; exact BitVec.extractLsb'_eq_self
  · rw [rb_packR _ _ _ _ _ _ _ _ (by decide) (by decide)]; exact BitVec.extractLsb'_eq_self
  · rw [f_packR _ _ _ _ _ _ _ _ (by decide)]; exact congrArg BitVec.toNat BitVec.extractLsb'_eq_self

theorem packI_fields (sm : Bool) (op : BitVec 6) (rd ra : BitVec 7) (sub : BitVec 3) (v : BitVec 8) :
    let w := packI sm op rd ra (sub ++ v)
    w.getLsbD 31 = sm ∧ w.extractLsb' 25 6 = op ∧ w.extractLsb' 18 7 = rd ∧ w.extractLsb' 11 7 = ra ∧
      (w.extractLsb' 8 3).toNat = sub.toNat ∧ w.extractLsb' 0 8 = v := by
  refine ⟨wordS_packI .., BitVec.eq_of_toNat_eq (wordOp_packI ..), ?_, ?_, ?_, ?_⟩
  · rw [rd_packI _ _ _ _ _ _ _ (by decide) (by decide)]; exact BitVec.extractLsb'_eq_self
  · rw [ra_packI _ _ _ _ _ _ _ (by decide) (by decide)]; exact BitVec.extractLsb'_eq_self
  · rw [f_packI _ _ _ _ _ _ _ (by decide), extract_high _ _ _ (by decide)]; exact congrArg BitVec.toNat BitVec.extractLsb'_eq_self
  · rw [f_packI _ _ _ _ _ _ _ (by decide), extract_low _ _ _ (by decide)]; exact BitVec.extractLsb'_eq_self

/-! ### Functions without an instruction (R41) -/

theorem decode_error {w : BitVec 32} {r : Nat} (h : decodeRaw w = .error r) : decode w = .error r := by
  rw [decode, h]

theorem wordOp_of_field {w : BitVec 32} {op : BitVec 6} (h : w.extractLsb' 25 6 = op) : wordOp w = op.toNat :=
  congrArg BitVec.toNat h

theorem decode01_of_le {w : BitVec 32} (h : 10 ≤ wordFunc w) : decode01 w = .error 3 := by
  unfold decode01
  split
  case h_11 => rfl
  all_goals omega

theorem decode04_of_le {w : BitVec 32} (h : 6 ≤ wordFunc w) : decode04 w = .error 3 := by
  unfold decode04
  split
  case h_7 => rfl
  all_goals omega

theorem decode0A_of_le {w : BitVec 32} (h : 6 ≤ (w.extractLsb' 8 3).toNat) : decode0A w = .error 3 := by
  unfold decode0A
  split
  case h_7 => rfl
  all_goals omega

/-! ### Arithmetic and compares (R69, R70, R73) -/

section Values
variable (a b : Word)

theorem add_eq_ofInt : a + b = BitVec.ofInt 64 (a.toInt + b.toInt) := by
  rw [BitVec.ofInt_add, BitVec.ofInt_toInt, BitVec.ofInt_toInt]

theorem sub_eq_ofInt : a - b = BitVec.ofInt 64 (a.toInt - b.toInt) :=
  BitVec.eq_of_toInt_eq (by rw [BitVec.toInt_sub, BitVec.toInt_ofInt])

theorem mul_eq_ofInt : a * b = BitVec.ofInt 64 (a.toInt * b.toInt) := by
  rw [BitVec.ofInt_mul, BitVec.ofInt_toInt, BitVec.ofInt_toInt]

theorem minS_eq : minS a b = BitVec.ofInt 64 (min a.toInt b.toInt) := by
  simp only [minS, BitVec.sle_eq_decide, decide_eq_true_eq, min_def, apply_ite (BitVec.ofInt 64), BitVec.ofInt_toInt]

theorem maxS_eq : maxS a b = BitVec.ofInt 64 (max a.toInt b.toInt) := by
  simp only [maxS, BitVec.sle_eq_decide, decide_eq_true_eq, max_def, apply_ite (BitVec.ofInt 64), BitVec.ofInt_toInt]

theorem minU_eq : minU a b = BitVec.ofNat 64 (min a.toNat b.toNat) := by
  simp only [minU, BitVec.ule_eq_decide, decide_eq_true_eq, min_def, apply_ite (BitVec.ofNat 64), BitVec.ofNat_toNat,
    BitVec.setWidth_eq]

theorem maxU_eq : maxU a b = BitVec.ofNat 64 (max a.toNat b.toNat) := by
  simp only [maxU, BitVec.ule_eq_decide, decide_eq_true_eq, max_def, apply_ite (BitVec.ofNat 64), BitVec.ofNat_toNat,
    BitVec.setWidth_eq]

theorem relEq_eq : relEq a b = decide (a = b) := beq_eq_decide a b

theorem relNe_eq : relNe a b = decide (a ≠ b) := by
  rw [relNe, bne, beq_eq_decide, decide_not]

theorem relLt_eq : relLt a b = decide (a.toInt < b.toInt) := BitVec.slt_eq_decide

theorem relLtu_eq : relLtu a b = decide (a.toNat < b.toNat) := BitVec.ult_eq_decide

theorem relLe_eq : relLe a b = decide (a.toInt ≤ b.toInt) := BitVec.sle_eq_decide

theorem relLeu_eq : relLeu a b = decide (a.toNat ≤ b.toNat) := BitVec.ule_eq_decide

theorem imm8s_toInt (v : BitVec 8) : (imm8s v).toInt = v.toInt := BitVec.toInt_signExtend_of_le (by decide)

theorem imm8u_toNat (v : BitVec 8) : (imm8u v).toNat = v.toNat := BitVec.toNat_setWidth_of_le (by decide)

theorem relEq_imm8s (v : BitVec 8) : relEq a (imm8s v) = decide (a.toInt = v.toInt) := by
  rw [relEq_eq, ← imm8s_toInt v, decide_eq_decide, BitVec.toInt_inj]

theorem relNe_imm8s (v : BitVec 8) : relNe a (imm8s v) = decide (a.toInt ≠ v.toInt) := by
  rw [relNe_eq, ← imm8s_toInt v, decide_eq_decide, Ne, Ne, BitVec.toInt_inj]

theorem relLt_imm8s (v : BitVec 8) : relLt a (imm8s v) = decide (a.toInt < v.toInt) := by rw [relLt_eq, imm8s_toInt]

theorem relLtu_imm8u (v : BitVec 8) : relLtu a (imm8u v) = decide (a.toNat < v.toNat) := by rw [relLtu_eq, imm8u_toNat]

theorem relLe_imm8s (v : BitVec 8) : relLe a (imm8s v) = decide (a.toInt ≤ v.toInt) := by rw [relLe_eq, imm8s_toInt]

theorem relLeu_imm8u (v : BitVec 8) : relLeu a (imm8u v) = decide (a.toNat ≤ v.toNat) := by rw [relLeu_eq, imm8u_toNat]

end Values
end Sys2Proof.Machine

namespace Sys2Proof
open Sys2Proof.Machine

/-- Settles O13: each result formula is the value that Table IN-4 gives. -/
theorem integerArithmetic : Obligations.IntegerArithmetic := by
  unfold Obligations.IntegerArithmetic
  refine ⟨fun w hop hf => decode_error ?_, fun sm rd ra rb => ⟨?_, ?_⟩⟩
  · rw [decodeRaw, wordOp_of_field hop]
    exact decode01_of_le hf
  · simp only [List.forall_mem_cons, List.not_mem_nil, false_implies, implies_true, and_true]
    refine ⟨?_, ?_, ?_, ?_, ?_, ?_, ?_, ?_, ?_, ?_⟩ <;> exact packR_fields ..
  · exact ⟨writes_binary add_eq_ofInt fun _ => rfl, writes_binary sub_eq_ofInt fun _ => rfl,
      writes_binary (fun _ _ => rfl) fun _ => rfl, writes_binary (fun _ _ => rfl) fun _ => rfl,
      writes_binary (fun _ _ => rfl) fun _ => rfl, writes_binary (fun _ _ => rfl) fun _ => rfl,
      writes_binary minS_eq fun _ => rfl, writes_binary maxS_eq fun _ => rfl,
      writes_binary minU_eq fun _ => rfl, writes_binary maxU_eq fun _ => rfl⟩

/-- Settles O16: each compare is the relation that R73 and R76 give. -/
theorem compares : Obligations.Compares := by
  unfold Obligations.Compares
  refine ⟨fun w hop hf => decode_error ?_, fun w hop hf => decode_error ?_, fun sm rd ra rb v => ⟨?_, ?_, ?_⟩⟩
  · rw [decodeRaw, wordOp_of_field hop]
    exact decode04_of_le hf
  · rw [decodeRaw, wordOp_of_field hop]
    exact decode0A_of_le hf
  · simp only [List.forall_mem_cons, List.not_mem_nil, false_implies, implies_true, and_true]
    refine ⟨?_, ?_, ?_, ?_, ?_, ?_⟩ <;> exact packR_fields ..
  · simp only [List.forall_mem_cons, List.not_mem_nil, false_implies, implies_true, and_true]
    refine ⟨?_, ?_, ?_, ?_, ?_, ?_⟩ <;> exact packI_fields ..
  · have flag {p q : Bool} (h : p = q) : ofRel p = if q then 1 else 0 := by rw [h]; rfl
    exact ⟨writes_binary (fun a b => flag (relEq_eq a b)) fun _ => rfl, writes_binary (fun a b => flag (relNe_eq a b)) fun _ => rfl,
      writes_binary (fun a b => flag (relLt_eq a b)) fun _ => rfl, writes_binary (fun a b => flag (relLtu_eq a b)) fun _ => rfl,
      writes_binary (fun a b => flag (relLe_eq a b)) fun _ => rfl, writes_binary (fun a b => flag (relLeu_eq a b)) fun _ => rfl,
      writes_unary (fun a => flag (relEq_imm8s a v)) fun _ => rfl, writes_unary (fun a => flag (relNe_imm8s a v)) fun _ => rfl,
      writes_unary (fun a => flag (relLt_imm8s a v)) fun _ => rfl, writes_unary (fun a => flag (relLtu_imm8u a v)) fun _ => rfl,
      writes_unary (fun a => flag (relLe_imm8s a v)) fun _ => rfl, writes_unary (fun a => flag (relLeu_imm8u a v)) fun _ => rfl⟩

end Sys2Proof
end

section
/-! Shifts, single bits, bit counts and bit fields (R71, R72, R75), moves and window addresses (R77, R78). -/

namespace Sys2Proof.Machine

section Values
variable (a b : Word) (n : Nat)

/-! ### Shifts, rotates and single bits -/

theorem shiftLeft_eq_ofNat : a <<< n = BitVec.ofNat 64 (a.toNat * 2 ^ n) := by
  rw [← Nat.shiftLeft_eq]
  exact BitVec.eq_of_toNat_eq (by rw [BitVec.toNat_shiftLeft, BitVec.toNat_ofNat])

theorem ushiftRight_eq_ofNat : a >>> n = BitVec.ofNat 64 (a.toNat / 2 ^ n) := by
  rw [← Nat.shiftRight_eq_div_pow, ← BitVec.toNat_ushiftRight, BitVec.ofNat_toNat, BitVec.setWidth_eq]

theorem sshiftRight_eq_ofInt : BitVec.sshiftRight a n = BitVec.ofInt 64 (a.toInt / 2 ^ n) := by
  rw [BitVec.sshiftRight_eq, Int.shiftRight_eq_div_pow]
  rfl

/-- The complement of a rotate's amount shifts everything out for an amount of 0, where the amount itself shifts nothing. -/
theorem rotateLeft_eq (h : n < 64) : BitVec.rotateLeft a n = a <<< n ||| a >>> ((64 - n) % 64) := by
  rw [BitVec.rotateLeft_def, Nat.mod_eq_of_lt h]
  obtain rfl | hn := Nat.eq_zero_or_pos n
  · rw [Nat.sub_zero, BitVec.ushiftRight_eq_zero (le_refl 64)]
    simp
  · rw [Nat.mod_eq_of_lt (Nat.sub_lt (by decide) hn)]

theorem rotateRight_eq (h : n < 64) : BitVec.rotateRight a n = a >>> n ||| a <<< ((64 - n) % 64) := by
  rw [BitVec.rotateRight_def, Nat.mod_eq_of_lt h]
  obtain rfl | hn := Nat.eq_zero_or_pos n
  · rw [Nat.sub_zero, BitVec.shiftLeft_eq_zero (le_refl 64)]
    simp
  · rw [Nat.mod_eq_of_lt (Nat.sub_lt (by decide) hn)]

theorem amount_lt : amount b < 64 := Nat.mod_lt _ (by decide)

theorem setBit_eq : setBit a n = a ||| BitVec.twoPow 64 n := by rw [setBit, BitVec.twoPow_eq]; rfl

theorem clearBit_eq : clearBit a n = a &&& ~~~(BitVec.twoPow 64 n) := by rw [clearBit, BitVec.twoPow_eq]; rfl

theorem toggleBit_eq : toggleBit a n = a ^^^ BitVec.twoPow 64 n := by rw [toggleBit, BitVec.twoPow_eq]; rfl

/-! ### Bit counts -/

theorem clzNat_eq (v : Nat) : clzNat n v = (List.range n).reverse.findIdx fun i => v.testBit i := by
  induction n with
  | zero => rfl
  | succ n ih =>
    rw [clzNat, List.range_succ, List.reverse_append, List.reverse_singleton, List.singleton_append, List.findIdx_cons, ← ih]
    cases v.testBit n <;> simp [Nat.add_comm]

theorem ctzNat_eq (v : Nat) : ctzNat n v = (List.range n).findIdx fun i => v.testBit i := by
  induction n generalizing v with
  | zero => rfl
  | succ n ih =>
    rw [ctzNat, List.range_succ_eq_map, List.findIdx_cons, List.findIdx_map, ih]
    cases v.testBit 0 <;> simp [Nat.add_comm, Function.comp_def, Nat.testBit_succ]

theorem popcNat_eq (v : Nat) : popcNat n v = (List.range n).countP fun i => v.testBit i := by
  induction n generalizing v with
  | zero => rfl
  | succ n ih =>
    rw [popcNat, List.range_succ_eq_map, List.countP_cons, List.countP_map, ih, Nat.add_comm]
    congr 1
    · simp [Function.comp_def, Nat.testBit_succ]
    · rw [Nat.testBit_zero]
      split <;> simp_all

/-! ### Bit fields -/

theorem testBit_fld (pos w : Nat) : (fld a pos w).testBit n = (decide (n < w) && a.getLsbD (pos + n)) := by
  rw [fld, Nat.testBit_mod_two_pow, Nat.testBit_div_two_pow, Nat.add_comm n pos]
  rfl

theorem fieldOf_eq : fieldOf b = ((b.extractLsb' 0 6).toNat, min (b.extractLsb' 8 6).toNat (64 - (b.extractLsb' 0 6).toNat)) := by
  simp [fieldOf, fld, BitVec.extractLsb'_toNat, Nat.shiftRight_eq_div_pow]

theorem getLsbD_extractU {n : Nat} (hn : n < 64) : (extractU a b).getLsbD n =
    (decide (n < (fieldOf b).2) && a.getLsbD ((fieldOf b).1 + n)) := by
  show (BitVec.ofNat 64 (fld a (fieldOf b).1 (fieldOf b).2)).getLsbD n = _
  rw [BitVec.getLsbD_ofNat, decide_eq_true hn, Bool.true_and, testBit_fld]

/-- A number read as signed in its own width is the sign extension. -/
theorem ofInt_signedOf (w v : Nat) : u64 (signedOf w v) = (BitVec.ofNat w v).signExtend 64 := by
  rw [u64, BitVec.signExtend]
  congr 1
  rw [BitVec.toInt_eq_toNat_cond, BitVec.toNat_ofNat, signedOf]
  cases w with
  | zero => simp [Nat.mod_one]
  | succ w =>
    have : 2 ^ (w + 1) = 2 * 2 ^ w := Nat.pow_succ'
    simp only [Nat.add_one_sub_one, Nat.add_one_ne_zero, if_false]
    generalize v % 2 ^ (w + 1) = x
    rw [this]
    by_cases h : x < 2 ^ w
    · rw [if_pos h, if_pos (by omega)]
    · rw [if_neg h, if_neg (by omega)]

theorem getLsbD_extractS {n : Nat} (hn : n < 64) : (extractS a b).getLsbD n =
    (decide (0 < (fieldOf b).2) && a.getLsbD ((fieldOf b).1 + min n ((fieldOf b).2 - 1))) := by
  show (u64 (signedOf (fieldOf b).2 (fld a (fieldOf b).1 (fieldOf b).2))).getLsbD n = _
  generalize (fieldOf b).1 = pos
  generalize (fieldOf b).2 = w
  rw [ofInt_signedOf, BitVec.getLsbD_signExtend, decide_eq_true hn, Bool.true_and, BitVec.msb_eq_getLsbD_last]
  simp only [BitVec.getLsbD_ofNat, testBit_fld]
  obtain rfl | hw := Nat.eq_zero_or_pos w
  · simp
  · by_cases h : n < w
    · rw [if_pos h, Nat.min_eq_left (by omega)]
      simp [h, hw]
    · rw [if_neg h, Nat.min_eq_right (by omega)]
      simp [hw]

/-- A word with the w bits from bit pos on replaced: the bits above them, the new ones, and the bits below them. -/
theorem replaced_eq (x : Word) (m pos w : Nat) : x.toNat - at' pos (fld x pos w) + at' pos m =
    2 ^ pos * (2 ^ w * (x.toNat / 2 ^ pos / 2 ^ w) + m) + x.toNat % 2 ^ pos := by
  have hlow := Nat.div_add_mod x.toNat (2 ^ pos)
  have hmid := Nat.div_add_mod (x.toNat / 2 ^ pos) (2 ^ w)
  rw [← hmid, Nat.mul_add] at hlow
  rw [Nat.mul_add, at', at', fld, Nat.mul_comm _ (2 ^ pos), Nat.mul_comm m]
  omega

theorem getLsbD_insertField (old : Word) {n : Nat} (hn : n < 64) : (insertField old a b).getLsbD n =
    if (fieldOf b).1 ≤ n ∧ n < (fieldOf b).1 + (fieldOf b).2 then a.getLsbD (n - (fieldOf b).1) else old.getLsbD n := by
  show (BitVec.ofNat 64 (old.toNat - at' (fieldOf b).1 (fld old (fieldOf b).1 (fieldOf b).2) +
    at' (fieldOf b).1 (fld a 0 (fieldOf b).2))).getLsbD n = _
  generalize (fieldOf b).1 = pos
  generalize (fieldOf b).2 = w
  rw [BitVec.getLsbD_ofNat, decide_eq_true hn, Bool.true_and, replaced_eq,
    Nat.testBit_two_pow_mul_add _ (Nat.mod_lt _ (Nat.two_pow_pos _))]
  by_cases hlow : n < pos
  · rw [if_pos hlow, if_neg (by omega), Nat.testBit_mod_two_pow, decide_eq_true hlow, Bool.true_and, BitVec.testBit_toNat]
  · have hm : fld a 0 w < 2 ^ w := Nat.mod_lt _ (Nat.two_pow_pos _)
    rw [if_neg hlow, Nat.testBit_two_pow_mul_add _ hm]
    by_cases hmid : n < pos + w
    · rw [if_pos (by omega), if_pos (by omega), testBit_fld, decide_eq_true (by omega), Bool.true_and, Nat.zero_add]
    · rw [if_neg (by omega), if_neg (by omega), Nat.testBit_div_two_pow, Nat.testBit_div_two_pow, BitVec.testBit_toNat]
      congr 1
      omega

/-! The same with the position of the field's top bit, which is lower than 64, in place of its cut width (R72). -/

theorem field_signed : (decide (0 < (fieldOf b).2) && a.getLsbD ((fieldOf b).1 + min n ((fieldOf b).2 - 1))) =
    (decide ((b.extractLsb' 8 6).toNat ≠ 0) && a.getLsbD (min ((b.extractLsb' 0 6).toNat + n)
      (min ((b.extractLsb' 0 6).toNat + (b.extractLsb' 8 6).toNat) 64 - 1))) := by
  rw [fieldOf_eq]
  have := (b.extractLsb' 0 6).isLt
  generalize (b.extractLsb' 0 6).toNat = pos at *
  generalize (b.extractLsb' 8 6).toNat = w
  by_cases hw : w = 0
  · simp [hw]
  · have htop : min (pos + n) (min (pos + w) 64 - 1) = pos + min n (min w (64 - pos) - 1) := by omega
    have hcut : 0 < min w (64 - pos) := by omega
    simp only [htop, hcut, Ne, hw, not_false_eq_true]

theorem field_unsigned : (decide (n < (fieldOf b).2) && a.getLsbD ((fieldOf b).1 + n)) =
    (decide ((b.extractLsb' 8 6).toNat ≠ 0 ∧ (b.extractLsb' 0 6).toNat + n ≤
      min ((b.extractLsb' 0 6).toNat + (b.extractLsb' 8 6).toNat) 64 - 1) && a.getLsbD ((b.extractLsb' 0 6).toNat + n)) := by
  rw [fieldOf_eq]
  have := (b.extractLsb' 0 6).isLt
  congr 1
  rw [decide_eq_decide]
  omega

theorem field_inserted (y : Bool) :
    (if (fieldOf b).1 ≤ n ∧ n < (fieldOf b).1 + (fieldOf b).2 then a.getLsbD (n - (fieldOf b).1) else y) =
      if (b.extractLsb' 8 6).toNat ≠ 0 ∧ (b.extractLsb' 0 6).toNat ≤ n ∧
        n ≤ min ((b.extractLsb' 0 6).toNat + (b.extractLsb' 8 6).toNat) 64 - 1 then
        a.getLsbD (n - (b.extractLsb' 0 6).toNat)
      else y := by
  rw [fieldOf_eq]
  have := (b.extractLsb' 0 6).isLt
  exact if_congr (by dsimp only; omega) rfl rfl

/-! ### Immediates and window addresses -/

theorem signExtend_eq_ofInt {w : Nat} (v : BitVec w) : v.signExtend 64 = BitVec.ofInt 64 v.toInt := rfl

theorem add_imm11 (v : BitVec 11) : a + imm11 v = BitVec.ofInt 64 (a.toInt + v.toInt) := by
  rw [add_eq_ofInt, imm11, BitVec.toInt_signExtend_of_le (by decide)]

/-- LIS: the shifted old value has zeros where the immediate stands. -/
theorem shiftLeft_or_eq (v : BitVec 18) : a <<< 18 ||| v.zeroExtend 64 = BitVec.ofNat 64 (a.toNat * 2 ^ 18 + v.toNat) := by
  apply BitVec.eq_of_toNat_eq
  have hv : (v.zeroExtend 64).toNat = v.toNat := BitVec.toNat_setWidth_of_le (by decide)
  have hmod : a.toNat <<< 18 % 2 ^ 64 = 2 ^ 18 * (a.toNat % 2 ^ 46) := by
    rw [Nat.shiftLeft_eq, show 2 ^ 64 = 2 ^ 46 * 2 ^ 18 by rfl, Nat.mul_mod_mul_right, Nat.mul_comm]
  rw [BitVec.toNat_or, BitVec.toNat_shiftLeft, hv, BitVec.toNat_ofNat, hmod, ← Nat.two_pow_add_eq_or_of_lt v.isLt]
  have := v.isLt
  omega

theorem gadrBad_iff : gadrBad a b = true ↔ a.toNat / 2 ^ 14 ≠ 0 ∨ a.toNat / 8 % 32 ≠ 0 ∨ b.toNat / 2 ^ 21 ≠ 0 ∨
    (4 ≤ a.toNat % 8 ∧ (47 < a.toNat / 2 ^ 8 % 2 ^ 6 ∨ b.toNat / 2 ^ 19 % 4 ≠ 0)) := by
  have ha := a.isLt
  have hb := b.isLt
  simp only [gadrBad, Bool.or_eq_true, Bool.and_eq_true, bne_iff_ne, decide_eq_true_eq]
  unfold fld
  omega

theorem gadrAddress_eq : gadrAddress a b = BitVec.ofNat 64 (0xE1 * 2 ^ 56 + a.toNat % 8 * 2 ^ 53 + a.toNat / 2 ^ 8 % 2 ^ 6 * 2 ^ 47 +
    b.toNat % 2 ^ 21) := by
  simp [gadrAddress, word, at', fld]

end Values

section Fields
variable {sm : Bool} {rd ra rb : Reg}

theorem writes_bfx : Writes (.bfx sm rd ra rb) rd extractS := writes_binary (fun _ _ => rfl) fun _ => rfl

theorem writes_bfxu : Writes (.bfxu sm rd ra rb) rd extractU := writes_binary (fun _ _ => rfl) fun _ => rfl

theorem does_bfi : Does (.bfi sm rd ra rb) fun s tk u => u.writeReg tk rd
    (insertField (s.operand tk (.bfi sm rd ra rb) 0) (s.operand tk (.bfi sm rd ra rb) 1) (s.operand tk (.bfi sm rd ra rb) 2)) :=
  does_of (fun _ => rfl) fun s tk th => by rw [val_issueOf, val_issueOf, val_issueOf]

end Fields
end Sys2Proof.Machine

namespace Sys2Proof
open Sys2Proof.Machine

/-- Settles O15: shifts and counts are those of the bits, and a field's cut width says where its top bit is. -/
theorem shiftsBitsAndFields : Obligations.ShiftsBitsAndFields := by
  unfold Obligations.ShiftsBitsAndFields
  refine ⟨fun sm rd ra rb => ?_, fun sm rd ra rb s tk th => ?_⟩
  · exact ⟨writes_binary (fun a b => shiftLeft_eq_ofNat a (amount b)) fun _ => rfl,
      writes_binary (fun a b => ushiftRight_eq_ofNat a (amount b)) fun _ => rfl,
      writes_binary (fun a b => sshiftRight_eq_ofInt a (amount b)) fun _ => rfl,
      writes_binary (fun a b => rotateLeft_eq a (amount b) (amount_lt b)) fun _ => rfl,
      writes_binary (fun a b => rotateRight_eq a (amount b) (amount_lt b)) fun _ => rfl,
      writes_binary (fun a b => setBit_eq a (amount b)) fun _ => rfl,
      writes_binary (fun a b => clearBit_eq a (amount b)) fun _ => rfl,
      writes_binary (fun a b => toggleBit_eq a (amount b)) fun _ => rfl,
      does_value 1 (fun a => congrArg word (clzNat_eq 64 a.toNat)) fun _ => rfl,
      does_value 1 (fun a => congrArg word (ctzNat_eq 64 a.toNat)) fun _ => rfl,
      does_value 1 (fun a => congrArg word (popcNat_eq 64 a.toNat)) fun _ => rfl⟩
  · refine ⟨fun h => ⟨_, writes_bfx s tk th h, fun n hn => ?_⟩, fun h => ⟨_, writes_bfxu s tk th h, fun n hn => ?_⟩,
      fun h => ⟨_, does_bfi s tk th h, fun n hn => ?_⟩⟩
    · rw [getLsbD_extractS _ _ hn]
      exact field_signed ..
    · rw [getLsbD_extractU _ _ hn]
      exact field_unsigned ..
    · rw [getLsbD_insertField _ _ _ hn]
      exact field_inserted ..

/-- Settles O17: each immediate is extended as R74 to R77 give it, and GADR's fields do not overlap. -/
theorem immediatesMovesAndAddresses : Obligations.ImmediatesMovesAndAddresses := by
  unfold Obligations.ImmediatesMovesAndAddresses
  refine ⟨fun sm rd ra m n l => ?_, fun sm rd ra rb => ⟨?_, ?_, ?_⟩⟩
  · exact ⟨writes_unary (fun a => add_imm11 a m) fun _ => rfl, writes_unary (fun _ => rfl) fun _ => rfl,
      writes_unary (fun _ => rfl) fun _ => rfl, writes_unary (fun _ => rfl) fun _ => rfl,
      writes_unary (fun a => shiftLeft_eq_ofNat a n.toNat) fun _ => rfl,
      writes_unary (fun a => ushiftRight_eq_ofNat a n.toNat) fun _ => rfl,
      writes_unary (fun a => sshiftRight_eq_ofInt a n.toNat) fun _ => rfl,
      writes_unary (fun a => rotateLeft_eq a n.toNat n.isLt) fun _ => rfl,
      writes_unary (fun a => rotateRight_eq a n.toNat n.isLt) fun _ => rfl,
      writes_unary (fun a => setBit_eq a n.toNat) fun _ => rfl,
      writes_unary (fun a => clearBit_eq a n.toNat) fun _ => rfl,
      writes_unary (fun a => toggleBit_eq a n.toNat) fun _ => rfl,
      writes_unary (fun _ => rfl) fun _ => rfl,
      does_value 0 (fun a => shiftLeft_or_eq a l) fun _ => rfl⟩
  · exact does_of (fun _ => rfl) fun s tk th => val_issueOf ..
  · exact does_of (fun _ => rfl) fun s tk th => by rw [val_issueOf, val_issueOf, val_issueOf]; rfl
  · refine does_noCheck (fun _ => rfl) fun s tk th _ => funext fun u => ?_
    rw [val_issueOf, val_issueOf]
    simp only [gadrBad_iff, gadrAddress_eq]
    rfl

end Sys2Proof
end

section
/-! Products, divides and results that are written late (R63, R70, R165). -/

set_option Elab.async false

namespace Sys2Proof.Machine

/-! ### Products and divides -/

section Values
variable (a b : Word)

theorem mulHigh_eq : mulHigh a b = BitVec.ofInt 64 ((a.toInt * b.toInt) / 2 ^ 64) := rfl

theorem toInt_eq_zero_iff : b.toInt = 0 ↔ b = 0 := BitVec.toInt_inj (y := 0)

/-- The quotient that does not fit wraps to the dividend (R70). -/
theorem ofInt_tdiv_overflow : BitVec.ofInt 64 (Int.tdiv (-(2 ^ 63)) (-1)) = BitVec.ofInt 64 (-(2 ^ 63)) := by decide

theorem quotS_eq : quotS a b = BitVec.ofInt 64 (divideSigned a.toInt b.toInt).1 := by
  unfold quotS divideSigned
  simp only [toInt_eq_zero_iff]
  split
  · rfl
  · split
    · next h => rw [u64, h.1, h.2, ofInt_tdiv_overflow]
    · rfl

theorem remS_eq : remS a b = BitVec.ofInt 64 (divideSigned a.toInt b.toInt).2 := by
  unfold remS divideSigned
  simp only [toInt_eq_zero_iff]
  split
  · rw [BitVec.ofInt_toInt]
  · split
    · next h => rw [h.1, h.2]; rfl
    · rw [u64, Int.tmod_def, Int.mul_comm]

theorem quotU_eq : quotU a b = if b = 0 then BitVec.allOnes 64 else BitVec.ofNat 64 (a.toNat / b.toNat) := rfl

theorem remU_eq : remU a b = if b = 0 then a else BitVec.ofNat 64 (a.toNat % b.toNat) := rfl

end Values

/-! ### Results that are written late -/

/-- A result set for a later cycle: the place of its push is reserved, and the thread forfeits turns (R63, R165). -/
def State.setLate (u : State) (tk turns due born : Nat) (ev : Instr) (rd : Reg) (v : Word) : State :=
  let r := (u.reserveReg tk rd).modThread tk fun th => { th with forfeit := th.forfeit + turns }
  { r with timers := r.timers ++ [{ due := due, mv := .ev ev { n := tk, m := born, v := v, r := rd } }] }

/-- A result set for a later cycle by the state in which an instruction's effect begins. -/
theorem setLate_afterPops {s : State} {tk : Nat} {th : Thread} (i ev : Instr) (rd : Reg) (turns delay : Nat) (v : Word)
    (h : s.thread? tk = some th) :
    (((s.afterPops i tk).reserveReg tk rd).forfeitTurns tk turns).addTimer ((s.afterPops i tk).cycle + delay) ev
        { n := tk, m := ((s.afterPops i tk).thread tk).born, v := v, r := rd } =
      (s.afterPops i tk).setLate tk turns (s.cycle + delay) th.born ev rd v := by
  rw [State.afterPops_cycle, State.born_afterPops i h]
  rfl

/-- A divide sets its result for the divider's cycle (R63). -/
theorem does_divide {i : Instr} {rd : Reg} {f g : Word → Word → Word} (h : ∀ a b, f a b = g a b)
    (he : ∀ s, exec i s = issueDivide i rd (fun x => f (x.val 1) (x.val 2)) s) :
    Does i fun s tk u => u.setLate tk 7 (s.cycle + 56) (s.thread tk).born .dividerWrite rd
      (g (s.operand tk i 1) (s.operand tk i 2)) := by
  intro s tk th hr
  have hth := hr.issuing.2
  dsimp only
  rw [he, issueDivide, issue_noCheck hr, State.thread_of_thread? hth, ← h, ← val_issueOf s tk th, ← val_issueOf s tk th]
  exact congrArg _ (issued_congr (setLate_afterPops i _ rd 7 56 _ hth))

section Divides
variable (sm : Bool) (rd ra rb : Reg)

/-- A divide of this result sets it for the divider's cycle, with the thread's next seven turns forfeited (R63). -/
def Divides (i : Instr) (rd : Reg) (g : Word → Word → Word) : Prop :=
  Does i fun s tk u => u.setLate tk 7 (s.cycle + 56) (s.thread tk).born .dividerWrite rd (g (s.operand tk i 1) (s.operand tk i 2))

theorem divides_div : Divides (.div sm rd ra rb) rd fun a b => BitVec.ofInt 64 (divideSigned a.toInt b.toInt).1 :=
  does_divide quotS_eq fun _ => rfl

theorem divides_rem : Divides (.rem sm rd ra rb) rd fun a b => BitVec.ofInt 64 (divideSigned a.toInt b.toInt).2 :=
  does_divide remS_eq fun _ => rfl

theorem divides_divu :
    Divides (.divu sm rd ra rb) rd fun a b => if b = 0 then BitVec.allOnes 64 else BitVec.ofNat 64 (a.toNat / b.toNat) :=
  does_divide quotU_eq fun _ => rfl

theorem divides_remu : Divides (.remu sm rd ra rb) rd fun a b => if b = 0 then a else BitVec.ofNat 64 (a.toNat % b.toNat) :=
  does_divide remU_eq fun _ => rfl

end Divides

/-- A late result is written as a result of the bank cycle is, by the latest instruction of its thread. -/
theorem State.writeLate_eq_writeBank (s : State) (tk : Nat) (r : Reg) (v : Word) :
    s.writeLate tk r v = s.writeBank tk r v s.cycle s.nextId 0 := by
  cases r <;> rfl

theorem State.writeLate_writesLate {s : State} (h : Sized s) (tk : Nat) (r : Reg) (v : Word) :
    WritesLate s (s.writeLate tk r v) tk r v :=
  s.writeLate_eq_writeBank tk r v ▸ State.writeBank_writesAt h tk r v s.cycle s.nextId 0

/-- The late result of a thread that is still in its slot is written. -/
theorem State.lateResult_writesLate {s : State} {th : Thread} (h : Sized s) (ht : s.thread? s.subj.n = some th)
    (hb : th.born = s.subj.m) : WritesLate s s.lateResult s.subj.n s.subj.r s.subj.v := by
  have he : s.lateResult = s.writeLate s.subj.n s.subj.r s.subj.v := by
    rw [State.lateResult, ht]
    exact if_pos hb
  exact he ▸ State.writeLate_writesLate h _ _ _

/-- The late result of a thread that is no longer in its slot is dropped. -/
theorem State.lateResult_of_gone {s : State} (h : ∀ th, s.thread? s.subj.n = some th → th.born ≠ s.subj.m) : s.lateResult = s := by
  unfold State.lateResult
  split
  · rfl
  · next th ht => exact if_neg (h th ht)

end Sys2Proof.Machine

namespace Sys2Proof
open Sys2Proof.Machine

/-- Settles O14: the divider's result is set at issue and written as any late result is. -/
theorem productsAndDivides : Obligations.ProductsAndDivides := by
  unfold Obligations.ProductsAndDivides
  refine ⟨fun sm rd ra rb => ?_, fun sm rd ra rb i f hi => ?_, fun s hs => ⟨fun th ht hb => ?_, fun hg => ?_⟩⟩
  · exact ⟨writes_binary mul_eq_ofInt fun _ => rfl, writes_binary mulHigh_eq fun _ => rfl,
      writes_binary (fun _ _ => rfl) fun _ => rfl⟩
  · simp only [List.mem_cons, List.not_mem_nil, or_false, Prod.mk.injEq] at hi
    obtain ⟨rfl, rfl⟩ | ⟨rfl, rfl⟩ | ⟨rfl, rfl⟩ | ⟨rfl, rfl⟩ := hi
    · exact divides_div sm rd ra rb
    · exact divides_rem sm rd ra rb
    · exact divides_divu sm rd ra rb
    · exact divides_remu sm rd ra rb
  · exact ⟨_, rfl, State.lateResult_writesLate hs ht hb⟩
  · exact congrArg Host.Outcome.next (State.lateResult_of_gone hg)

end Sys2Proof
end

section
/-! Scalar float (R164 to R170): the format of the prefix, and the path through the normaliser. -/

set_option Elab.async false

namespace Sys2Proof.Machine

/-! ### The format of a scalar float instruction -/

/-- The format that a prefix's fmt names for scalar float, FP32 where it names none. -/
def scalarFmt (code : Nat) : Fmt := match code with | 2 => fp16 | 3 => bf16 | 4 => zf8 | _ => fp32

/-- The width of that format. -/
def scalarWidth (code : Nat) : Nat := match code with | 2 | 3 => 16 | 4 => 8 | _ => 32

theorem scalarFmt_of_ne {code : Nat} (h2 : code ≠ 2) (h3 : code ≠ 3) (h4 : code ≠ 4) : scalarFmt code = fp32 := by
  unfold scalarFmt
  split <;> trivial

theorem floatOf_getD (code : Nat) : (floatOf code).getD fp32 = scalarFmt code := by
  unfold floatOf
  split
  case h_6 h0 h1 h2 h3 h4 => exact (scalarFmt_of_ne h2 h3 h4).symm
  all_goals rfl

theorem widthOf_of_le {code : Nat} (h : code ≤ 4) : widthOf code = scalarWidth code := by
  interval_cases code <;> rfl

section Operands
variable {s : State} {tk : Nat} {th : Thread} {i : Instr}

theorem ffmt_issueOf : (s.issueOf tk th i).ffmt = scalarFmt (preFmt (prefixOf th)) := floatOf_getD _

/-- The low bits of an operand, in the width of the prefix's format. -/
theorem lowBits_issueOf (h : preFmt (prefixOf th) ≤ 4) (n : Nat) :
    lowBits ((s.issueOf tk th i).val n) (widthOf (s.issueOf tk th i).fmt) =
      (s.operand tk i n).toNat % 2 ^ scalarWidth (preFmt (prefixOf th)) := by
  rw [lowBits, val_issueOf]
  exact congrArg (fun w => (s.operand tk i n).toNat % 2 ^ w) (widthOf_of_le h)

theorem fval_issueOf (h : preFmt (prefixOf th) ≤ 4) (n : Nat) : (s.issueOf tk th i).fval n =
    (scalarFmt (preFmt (prefixOf th))).value ((s.operand tk i n).toNat % 2 ^ scalarWidth (preFmt (prefixOf th))) := by
  rw [Issue.fval, ffmt_issueOf, lowBits_issueOf h]

theorem fsub_issueOf (h : preFmt (prefixOf th) ≤ 4) (n : Nat) : (s.issueOf tk th i).fsub n =
    (scalarFmt (preFmt (prefixOf th))).subnormal ((s.operand tk i n).toNat % 2 ^ scalarWidth (preFmt (prefixOf th))) := by
  rw [Issue.fsub, ffmt_issueOf, lowBits_issueOf h]

end Operands

/-! ### The sign bit -/

/-- Inverting the top bit of a number is adding it, modulo the width. -/
theorem xor_two_pow {x k : Nat} (h : x < 2 ^ (k + 1)) : x ^^^ 2 ^ k = (x + 2 ^ k) % 2 ^ (k + 1) := by
  apply Nat.eq_of_testBit_eq
  intro j
  rw [Nat.testBit_xor, Nat.testBit_two_pow, Nat.testBit_mod_two_pow, Nat.add_comm x]
  rcases Nat.lt_trichotomy j k with hj | hj | hj
  · have hne : decide (k = j) = false := decide_eq_false (by omega)
    rw [Nat.testBit_two_pow_add_gt hj, hne, decide_eq_true (by omega), Bool.xor_false, Bool.true_and]
  · subst hj
    rw [Nat.testBit_two_pow_add_eq, decide_eq_true rfl, decide_eq_true (by omega), Bool.xor_true, Bool.true_and]
  · have hne : decide (k = j) = false := decide_eq_false (by omega)
    rw [Nat.testBit_lt_two_pow (lt_of_lt_of_le h (Nat.pow_le_pow_right (by decide) hj)), hne, decide_eq_false (by omega)]
    rfl

theorem scalarWidth_pos (code : Nat) : 0 < scalarWidth code := by
  unfold scalarWidth
  split <;> decide

/-- FNEG's result: the sign bit alone is inverted (R169). -/
theorem word_xor_sign (x code : Nat) : word (x % 2 ^ scalarWidth code) ^^^ word (2 ^ (scalarWidth code - 1)) =
    BitVec.ofNat 64 ((x % 2 ^ scalarWidth code + 2 ^ (scalarWidth code - 1)) % 2 ^ scalarWidth code) := by
  have hw : scalarWidth code - 1 + 1 = scalarWidth code := Nat.sub_add_cancel (scalarWidth_pos code)
  have hx : x % 2 ^ scalarWidth code < 2 ^ (scalarWidth code - 1 + 1) := hw ▸ Nat.mod_lt _ (Nat.two_pow_pos _)
  rw [word, word, ← BitVec.ofNat_xor, xor_two_pow hx, hw]

/-! ### Through the normaliser or not -/

/-- A ready scalar float instruction has this result, set for the normaliser's cycle if `slow` and else written as an integer
result is (R165). -/
def Floats (i : Instr) (s : State) (tk : Nat) (th : Thread) (rd : Reg) (v : Word) (slow : Bool) : Prop :=
  exec i s = .next (issued i s tk fun u =>
    if slow then u.setLate tk 3 (s.cycle + 24) th.born .normaliserWrite rd v else u.writeReg tk rd v)

/-- The bits of an operand in the width of the prefix's format. -/
def floatBits (s : State) (tk : Nat) (th : Thread) (i : Instr) (n : Nat) : Nat :=
  (s.operand tk i n).toNat % 2 ^ scalarWidth (preFmt (prefixOf th))

/-- The value of an operand in the prefix's format. -/
def floatVal (s : State) (tk : Nat) (th : Thread) (i : Instr) (n : Nat) : Val :=
  (scalarFmt (preFmt (prefixOf th))).value (floatBits s tk th i n)

/-- An operand is subnormal in the prefix's format. -/
def floatSub (s : State) (tk : Nat) (th : Thread) (i : Instr) (n : Nat) : Bool :=
  (scalarFmt (preFmt (prefixOf th))).subnormal (floatBits s tk th i n)

section Float
variable {i : Instr} {sm : Bool} {rd ra rb : Reg} {s : State} {tk : Nat} {th : Thread}

theorem floats_of {f : Issue → Word} {p : Issue → Bool} {v : Word} {slow : Bool} (hr : Ready i s tk th)
    (he : exec i s = issueFloat i rd f p s) (hv : f (s.issueOf tk th i) = v) (hp : p (s.issueOf tk th i) = slow) :
    Floats i s tk th rd v slow := by
  rw [Floats, he, issueFloat, issue_noCheck hr]
  simp only [hv, hp]
  cases slow with
  | true => exact congrArg _ (issued_congr (setLate_afterPops i _ rd 3 24 v hr.issuing.2))
  | false => rfl

/-- An arithmetic result is exact and rounded once, and slow if an operand is subnormal or it is tiny (R165, R166). -/
theorem floats_arith {ops : List Nat} {f : Issue → Val} {x : Val} (hr : Ready i s tk th) (hle : preFmt (prefixOf th) ≤ 4)
    (he : exec i s = issueArith i rd ops f s) (hx : f (s.issueOf tk th i) = x) :
    Floats i s tk th rd (BitVec.ofNat 64 ((scalarFmt (preFmt (prefixOf th))).round x))
      (ops.any (floatSub s tk th i) || (scalarFmt (preFmt (prefixOf th))).tiny x) := by
  refine floats_of hr he ?_ ?_
  · rw [ffmt_issueOf, hx]; rfl
  · rw [ffmt_issueOf, hx, funext (fsub_issueOf hle)]; rfl

/-- A result of two operands, one of which may be subnormal. -/
theorem floats_binary {f : Issue → Word} {v : Word} (hr : Ready i s tk th) (hle : preFmt (prefixOf th) ≤ 4)
    (he : exec i s = issueFloat i rd f (fun x => x.fsub 1 || x.fsub 2) s) (hv : f (s.issueOf tk th i) = v) :
    Floats i s tk th rd v (floatSub s tk th i 1 || floatSub s tk th i 2) :=
  floats_of hr he hv (by rw [fsub_issueOf hle, fsub_issueOf hle]; rfl)

/-- The format that arithmetic and compares take from a prefix is a floating-point format (Table VE-4). -/
theorem preFmt_le_of_three (hr : Ready i s tk th)
    (ha : ∀ fmt aux ord, accepts i fmt aux ord = (decide (fmt ≤ 3) && aux == 0 && ord == 0)) : preFmt (prefixOf th) ≤ 4 := by
  have h := hr.pre
  simp only [prefixOk, ha, Bool.and_eq_true, decide_eq_true_eq] at h
  omega

theorem preFmt_le_of_four (hr : Ready i s tk th)
    (ha : ∀ fmt aux ord, accepts i fmt aux ord = (decide (fmt ≤ 4) && aux == 0 && ord == 0)) : preFmt (prefixOf th) ≤ 4 := by
  have h := hr.pre
  simp only [prefixOk, ha, Bool.and_eq_true, decide_eq_true_eq] at h
  omega

theorem floats_fadd (hr : Ready (.fadd sm rd ra rb) s tk th) :
    let x := (floatVal s tk th (.fadd sm rd ra rb) 1).add (floatVal s tk th (.fadd sm rd ra rb) 2)
    Floats (.fadd sm rd ra rb) s tk th rd (BitVec.ofNat 64 ((scalarFmt (preFmt (prefixOf th))).round x))
      ([1, 2].any (floatSub s tk th (.fadd sm rd ra rb)) || (scalarFmt (preFmt (prefixOf th))).tiny x) :=
  have hle := preFmt_le_of_three hr fun _ _ _ => rfl
  floats_arith hr hle rfl (by rw [fval_issueOf hle, fval_issueOf hle]; rfl)

theorem floats_fsub (hr : Ready (.fsub sm rd ra rb) s tk th) :
    let x := (floatVal s tk th (.fsub sm rd ra rb) 1).add (floatVal s tk th (.fsub sm rd ra rb) 2).neg
    Floats (.fsub sm rd ra rb) s tk th rd (BitVec.ofNat 64 ((scalarFmt (preFmt (prefixOf th))).round x))
      ([1, 2].any (floatSub s tk th (.fsub sm rd ra rb)) || (scalarFmt (preFmt (prefixOf th))).tiny x) :=
  have hle := preFmt_le_of_three hr fun _ _ _ => rfl
  floats_arith hr hle rfl (by rw [fval_issueOf hle, fval_issueOf hle]; rfl)

theorem floats_fmul (hr : Ready (.fmul sm rd ra rb) s tk th) :
    let x := (floatVal s tk th (.fmul sm rd ra rb) 1).mul (floatVal s tk th (.fmul sm rd ra rb) 2)
    Floats (.fmul sm rd ra rb) s tk th rd (BitVec.ofNat 64 ((scalarFmt (preFmt (prefixOf th))).round x))
      ([1, 2].any (floatSub s tk th (.fmul sm rd ra rb)) || (scalarFmt (preFmt (prefixOf th))).tiny x) :=
  have hle := preFmt_le_of_three hr fun _ _ _ => rfl
  floats_arith hr hle rfl (by rw [fval_issueOf hle, fval_issueOf hle]; rfl)

theorem floats_ffma (hr : Ready (.ffma sm rd ra rb) s tk th) :
    let x := ((floatVal s tk th (.ffma sm rd ra rb) 1).mul (floatVal s tk th (.ffma sm rd ra rb) 2)).add
      (floatVal s tk th (.ffma sm rd ra rb) 0)
    Floats (.ffma sm rd ra rb) s tk th rd (BitVec.ofNat 64 ((scalarFmt (preFmt (prefixOf th))).round x))
      ([0, 1, 2].any (floatSub s tk th (.ffma sm rd ra rb)) || (scalarFmt (preFmt (prefixOf th))).tiny x) :=
  have hle := preFmt_le_of_three hr fun _ _ _ => rfl
  floats_arith hr hle rfl (by rw [fval_issueOf hle, fval_issueOf hle, fval_issueOf hle]; rfl)

theorem floats_fmin (hr : Ready (.fmin sm rd ra rb) s tk th) : Floats (.fmin sm rd ra rb) s tk th rd
    (BitVec.ofNat 64 (pickFloat (scalarFmt (preFmt (prefixOf th))) false (floatBits s tk th (.fmin sm rd ra rb) 1)
      (floatBits s tk th (.fmin sm rd ra rb) 2)))
    (floatSub s tk th (.fmin sm rd ra rb) 1 || floatSub s tk th (.fmin sm rd ra rb) 2) :=
  have hle := preFmt_le_of_three hr fun _ _ _ => rfl
  floats_binary hr hle rfl (by rw [ffmt_issueOf, lowBits_issueOf hle, lowBits_issueOf hle]; rfl)

theorem floats_fmax (hr : Ready (.fmax sm rd ra rb) s tk th) : Floats (.fmax sm rd ra rb) s tk th rd
    (BitVec.ofNat 64 (pickFloat (scalarFmt (preFmt (prefixOf th))) true (floatBits s tk th (.fmax sm rd ra rb) 1)
      (floatBits s tk th (.fmax sm rd ra rb) 2)))
    (floatSub s tk th (.fmax sm rd ra rb) 1 || floatSub s tk th (.fmax sm rd ra rb) 2) :=
  have hle := preFmt_le_of_three hr fun _ _ _ => rfl
  floats_binary hr hle rfl (by rw [ffmt_issueOf, lowBits_issueOf hle, lowBits_issueOf hle]; rfl)

theorem floats_fcmpeq (hr : Ready (.fcmpeq sm rd ra rb) s tk th) : Floats (.fcmpeq sm rd ra rb) s tk th rd
    (ofRel ((floatVal s tk th (.fcmpeq sm rd ra rb) 1).eq (floatVal s tk th (.fcmpeq sm rd ra rb) 2)))
    (floatSub s tk th (.fcmpeq sm rd ra rb) 1 || floatSub s tk th (.fcmpeq sm rd ra rb) 2) :=
  have hle := preFmt_le_of_three hr fun _ _ _ => rfl
  floats_binary hr hle rfl (by rw [fval_issueOf hle, fval_issueOf hle]; rfl)

theorem floats_fcmplt (hr : Ready (.fcmplt sm rd ra rb) s tk th) : Floats (.fcmplt sm rd ra rb) s tk th rd
    (ofRel ((floatVal s tk th (.fcmplt sm rd ra rb) 1).lt (floatVal s tk th (.fcmplt sm rd ra rb) 2)))
    (floatSub s tk th (.fcmplt sm rd ra rb) 1 || floatSub s tk th (.fcmplt sm rd ra rb) 2) :=
  have hle := preFmt_le_of_three hr fun _ _ _ => rfl
  floats_binary hr hle rfl (by rw [fval_issueOf hle, fval_issueOf hle]; rfl)

theorem floats_fcmple (hr : Ready (.fcmple sm rd ra rb) s tk th) : Floats (.fcmple sm rd ra rb) s tk th rd
    (ofRel ((floatVal s tk th (.fcmple sm rd ra rb) 1).lt (floatVal s tk th (.fcmple sm rd ra rb) 2) ||
      (floatVal s tk th (.fcmple sm rd ra rb) 1).eq (floatVal s tk th (.fcmple sm rd ra rb) 2)))
    (floatSub s tk th (.fcmple sm rd ra rb) 1 || floatSub s tk th (.fcmple sm rd ra rb) 2) :=
  have hle := preFmt_le_of_three hr fun _ _ _ => rfl
  floats_binary hr hle rfl (by rw [fval_issueOf hle, fval_issueOf hle]; rfl)

/-- The sign bit cleared (R169). -/
theorem floats_fabs (hr : Ready (.fabs sm rd ra) s tk th) : Floats (.fabs sm rd ra) s tk th rd
    (BitVec.ofNat 64 (floatBits s tk th (.fabs sm rd ra) 1 % 2 ^ (scalarWidth (preFmt (prefixOf th)) - 1))) false := by
  refine floats_of hr rfl ?_ rfl
  have hw : widthOf (s.issueOf tk th (.fabs sm rd ra)).fmt = scalarWidth (preFmt (prefixOf th)) :=
    widthOf_of_le (preFmt_le_of_four hr fun _ _ _ => rfl)
  rw [hw, lowBits, val_issueOf, floatBits, Nat.mod_mod_of_dvd _ (Nat.pow_dvd_pow 2 (Nat.sub_le _ 1))]
  rfl

/-- The sign bit inverted (R169). -/
theorem floats_fneg (hr : Ready (.fneg sm rd ra) s tk th) : Floats (.fneg sm rd ra) s tk th rd
    (BitVec.ofNat 64 ((floatBits s tk th (.fneg sm rd ra) 1 + 2 ^ (scalarWidth (preFmt (prefixOf th)) - 1)) %
      2 ^ scalarWidth (preFmt (prefixOf th)))) false := by
  refine floats_of hr rfl ?_ rfl
  have hw : widthOf (s.issueOf tk th (.fneg sm rd ra)).fmt = scalarWidth (preFmt (prefixOf th)) :=
    widthOf_of_le (preFmt_le_of_four hr fun _ _ _ => rfl)
  rw [hw, lowBits, val_issueOf, word_xor_sign]
  rfl

/-- The class mask (R169). -/
theorem floats_fcls (hr : Ready (.fcls sm rd ra) s tk th) : Floats (.fcls sm rd ra) s tk th rd
    (BitVec.ofNat 64 (classOf (scalarFmt (preFmt (prefixOf th))) (floatBits s tk th (.fcls sm rd ra) 1))) false :=
  floats_of hr rfl (by rw [ffmt_issueOf, lowBits_issueOf (preFmt_le_of_four hr fun _ _ _ => rfl)]; rfl) rfl

/-- A conversion from the format of aux (R170). -/
theorem floats_fcvt (hr : Ready (.fcvt sm rd ra) s tk th) :
    let x := (s.operand tk (.fcvt sm rd ra) 1).toNat
    Floats (.fcvt sm rd ra) s tk th rd
      (scalarOf (preFmt (prefixOf th)) (convert (valueOf (preAux (prefixOf th)) x) (preFmt (prefixOf th))))
      (cvtSlow (preAux (prefixOf th)) (preFmt (prefixOf th)) x) :=
  floats_of hr rfl (by rw [val_issueOf]; rfl) (by rw [val_issueOf]; rfl)

end Float

end Sys2Proof.Machine

namespace Sys2Proof
open Sys2Proof.Machine

/-- Settles O36: the instruction's format is that of the prefix, and only a subnormal operand or result takes the normaliser. -/
theorem scalarFloat : Obligations.ScalarFloat := by
  unfold Obligations.ScalarFloat
  refine ⟨fun sm rd ra rb s tk th i v slow => ?_, fun s th hs ht => ⟨fun hb => ?_, fun hb => ?_⟩⟩
  · intro code fmt width raw val sub arith flag a b m f lo hi eq lt le hmem hr
    show Floats i s tk th rd v slow
    simp only [List.mem_cons, List.not_mem_nil, or_false, Prod.mk.injEq, arith] at hmem
    rcases hmem with ⟨rfl, rfl, rfl⟩ | ⟨rfl, rfl, rfl⟩ | ⟨rfl, rfl, rfl⟩ | ⟨rfl, rfl, rfl⟩ | ⟨rfl, rfl, rfl⟩ |
      ⟨rfl, rfl, rfl⟩ | ⟨rfl, rfl, rfl⟩ | ⟨rfl, rfl, rfl⟩ | ⟨rfl, rfl, rfl⟩ | ⟨rfl, rfl, rfl⟩ | ⟨rfl, rfl, rfl⟩ |
      ⟨rfl, rfl, rfl⟩ | ⟨rfl, rfl, rfl⟩
    · exact floats_fadd hr
    · exact floats_fsub hr
    · exact floats_fmul hr
    · exact floats_ffma hr
    · exact floats_fmin hr
    · exact floats_fmax hr
    · exact floats_fcmpeq hr
    · exact floats_fcmplt hr
    · exact floats_fcmple hr
    · exact floats_fabs hr
    · exact floats_fneg hr
    · exact floats_fcls hr
    · exact floats_fcvt hr
  · exact ⟨_, rfl, State.lateResult_writesLate hs ht hb⟩
  · refine congrArg Host.Outcome.next (State.lateResult_of_gone fun th' ht' => ?_)
    obtain rfl := Option.some.inj (ht.symm.trans ht')
    exact hb

end Sys2Proof
end

section
/-! The frame of the instructions that act on registers alone (R67, R80, R83, R84, R92). -/

set_option Elab.async false

namespace Sys2Proof

open Sys2Proof.Machine

/-! ### What an effect on registers leaves as it was -/

theorem Untouched.refl (s : State) : Untouched s s := ⟨rfl, rfl, rfl, rfl, rfl, rfl, rfl, rfl, rfl, rfl, rfl, rfl, rfl⟩

theorem Untouched.trans {s t u : State} (h : Untouched s t) (k : Untouched t u) : Untouched s u :=
  ⟨k.mem.trans h.mem, k.fe.trans h.fe, k.oldBytes.trans h.oldBytes, k.sregs.trans h.sregs, k.teams.trans h.teams,
    k.engines.trans h.engines, k.slices.trans h.slices, k.reqs.trans h.reqs, k.waiters.trans h.waiters,
    k.packets.trans h.packets, k.disp.trans h.disp, k.pkg.trans h.pkg, k.cycle.trans h.cycle⟩

/-- The parts of the state that belong to cores, threads and queues. -/
theorem Untouched.update (s : State) (rf spend threads streams cores nbr nbrPops nbrFree nbrSent timers cur) :
    Untouched s { s with
      rf := rf, spend := spend, threads := threads, streams := streams, cores := cores, nbr := nbr, nbrPops := nbrPops
      nbrFree := nbrFree, nbrSent := nbrSent, timers := timers, cur := cur } :=
  ⟨rfl, rfl, rfl, rfl, rfl, rfl, rfl, rfl, rfl, rfl, rfl, rfl, rfl⟩

/-- The parts of a thread that the issue of a word may change. -/
theorem SameThread.update (a : Thread) (pc status run forfeit carry) :
    SameThread a { a with pc := pc, status := status, run := run, forfeit := forfeit, carry := carry } :=
  ⟨rfl, rfl, rfl, rfl, rfl, rfl, rfl, rfl, rfl, rfl, rfl, rfl, rfl, rfl, rfl⟩

theorem SameThread.trans {a b c : Thread} (h : SameThread a b) (k : SameThread b c) : SameThread a c :=
  ⟨k.born.trans h.born, k.base.trans h.base, k.w.trans h.w, k.amos.trans h.amos, k.mpops.trans h.mpops, k.u.trans h.u,
    k.log.trans h.log, k.bankCount.trans h.bankCount, k.bankFault.trans h.bankFault, k.hostStore.trans h.hostStore,
    k.launch.trans h.launch, k.task.trans h.task, k.stopReq.trans h.stopReq, k.notBefore.trans h.notBefore,
    k.tokens.trans h.tokens⟩

end Sys2Proof

namespace Sys2Proof.Machine

/-- A status word keeps what another has above the pending bit, sets no pending bit, and keeps the status code unless it may be
written. -/
structure SameStatus (code : Bool) (a b : Word) : Prop where
  mask : b.extractLsb' 4 8 = a.extractLsb' 4 8
  pending : a.getLsbD 3 = false → b.getLsbD 3 = false
  status : code = false → b.extractLsb' 0 3 = a.extractLsb' 0 3

theorem SameStatus.refl {code : Bool} (a : Word) : SameStatus code a a := ⟨rfl, id, fun _ => rfl⟩

/-- Between two states a thread has acted on registers alone: it has written at most the result register r, and its status code
only if `code` says so. -/
structure Acts (r : Option Reg) (code : Bool) (tk : Nat) (s t : State) : Prop where
  untouched : Untouched s t
  others : ∀ k, k ≠ tk → t.thread? k = s.thread? k
  thread : ∀ th, s.thread? tk = some th → ∃ u, t.thread? tk = some u ∧ SameThread th u ∧ SameStatus code th.status u.status
  sorted : SMap.sortedFrom 0 s.rf = true → SMap.sortedFrom 0 t.rf = true
  file : ∀ th, s.thread? tk = some th → SMap.sortedFrom 0 s.rf = true →
    ∀ key, (∀ k, r = some (.g k) → key ≠ 2048 * coreOf tk + (8 * th.base + k.val)) → SMap.getD t.rf key 0 = SMap.getD s.rf key 0
  pending : (∀ k, r ≠ some (.s k)) → t.spend = s.spend
  shared : ∀ k, r = some (.s k) → t.spend.filter (fun e => e.key != 16 * coreOf tk + k.val) =
    s.spend.filter fun e => e.key != 16 * coreOf tk + k.val

section
variable {r : Option Reg} {code : Bool} {tk : Nat} {s t u : State}

theorem Acts.trans (h : Acts r code tk s t) (k : Acts r code tk t u) : Acts r code tk s u where
  untouched := h.untouched.trans k.untouched
  others z hz := (k.others z hz).trans (h.others z hz)
  thread th hth := by
    obtain ⟨v, hv, hsv, hcv⟩ := h.thread th hth
    obtain ⟨w, hw, hsw, hcw⟩ := k.thread v hv
    exact ⟨w, hw, hsv.trans hsw, hcw.mask.trans hcv.mask, fun hp => hcw.pending (hcv.pending hp),
      fun hc => (hcw.status hc).trans (hcv.status hc)⟩
  sorted hs := k.sorted (h.sorted hs)
  file th hth hs key hk := by
    obtain ⟨v, hv, hsv, -⟩ := h.thread th hth
    exact (k.file v hv (h.sorted hs) key fun z hz => hsv.base ▸ hk z hz).trans (h.file th hth hs key hk)
  pending hr := (k.pending hr).trans (h.pending hr)
  shared z hz := (k.shared z hz).trans (h.shared z hz)

/-- A state in which the registers and threads are those of another. -/
theorem Acts.of_same (hu : Untouched s t) (hth : t.threads = s.threads) (hrf : t.rf = s.rf) (hsp : t.spend = s.spend) :
    Acts r code tk s t where
  untouched := hu
  others k _ := congrArg (SMap.get? · k) hth
  thread th h := ⟨th, (congrArg (SMap.get? · tk) hth).trans h, .update th .., .refl _⟩
  sorted h := hrf ▸ h
  file _ _ _ key _ := by rw [hrf]
  pending _ := hsp
  shared _ _ := by rw [hsp]

theorem Acts.refl (s : State) : Acts r code tk s s := .of_same (.refl s) rfl rfl rfl

/-- A change of the thread alone. -/
theorem Acts.modThread {f : Thread → Thread} (hf : ∀ th, SameThread th (f th) ∧ SameStatus code th.status (f th).status) :
    Acts r code tk s (s.modThread tk f) where
  untouched := by
    unfold State.modThread
    split
    · exact .refl s
    · exact .update s ..
  others k hk := s.thread?_modThread_other tk k f hk
  thread th h := ⟨f th, by rw [s.thread?_modThread, h, Option.map_some], hf th⟩
  sorted h := by rw [State.modThread_rf]; exact h
  file _ _ _ key _ := by rw [State.modThread_rf]
  pending _ := State.modThread_spend ..
  shared _ _ := by rw [State.modThread_spend]

theorem Acts.setPc {pc : BitVec 48} : Acts r code tk s (s.setPc tk pc) :=
  .modThread fun th => ⟨.update th .., .refl _⟩

theorem Acts.forfeitTurns {n : Nat} : Acts r code tk s (s.forfeitTurns tk n) :=
  .modThread fun th => ⟨.update th .., .refl _⟩

theorem Acts.branchIf {c : Bool} {x : Issue} {n : Nat} {disp : BitVec n} (hx : x.tk = tk) : Acts r code tk s (branchIf c x disp s) := by
  subst hx
  unfold Machine.branchIf
  split
  · exact .setPc
  · exact .refl s

theorem Acts.settleSwitch {i : Instr} : Acts r code tk s (s.settleSwitch i tk) := by
  unfold State.settleSwitch
  split
  · exact .modThread fun th => ⟨.update th .., .refl _⟩
  · exact .refl s

/-- A change of a core's record. -/
theorem Acts.modCore {k : Nat} {f : Core → Core} : Acts r code tk s (s.modCore k f) :=
  .of_same (.update s ..) rfl rfl rfl

theorem Acts.takeTurn {k : Nat} : Acts r code tk s (s.takeTurn k) :=
  .of_same (.update s ..) rfl rfl rfl

theorem Acts.popReg {k : Nat} {x : Reg} : Acts r code tk s (s.popReg k x) := by
  cases x <;> exact .of_same (.update s ..) rfl rfl rfl

theorem Acts.popAll {k : Nat} {l : List Reg} : Acts r code tk s (s.popAll k l) := by
  induction l generalizing s with
  | nil => exact .refl s
  | cons x l ih => exact Acts.popReg.trans ih

theorem Acts.reserveReg {k : Nat} {x : Reg} : Acts r code tk s (s.reserveReg k x) := by
  cases x <;> exact .of_same (.update s ..) rfl rfl rfl

theorem Acts.addTimer {due : Nat} {ev : Instr} {subj : Subj} : Acts r code tk s (s.addTimer due ev subj) :=
  .of_same (.update s ..) rfl rfl rfl

/-- A window register written. -/
theorem Acts.writeG {k : Fin 96} {v : Word} : Acts (some (.g k)) code tk s (s.writeG tk k.val v) where
  untouched := .update s ..
  others _ _ := rfl
  thread th h := ⟨th, h, .update th .., .refl _⟩
  sorted h := s.sorted_writeG tk k.val v h
  file th hth h key hk := by
    rw [s.getD_writeG tk k.val v key h, if_neg]
    rw [State.rfKey, State.thread_of_thread? hth]
    exact hk k rfl
  pending _ := rfl
  shared _ _ := rfl

/-- An s register written. -/
theorem Acts.writeS {k : Fin 16} {v : Word} {slot : Nat} : Acts (some (.s k)) code tk s (s.writeS (coreOf tk) k.val v slot) := by
  obtain ⟨l, hl⟩ := s.putSWrite_eq { key := 16 * coreOf tk + k.val, value := v, cycle := s.cycle, slot := slot, stamp := s.nextId }
  have hw : s.writeS (coreOf tk) k.val v slot = { s with spend := l } := hl
  refine ⟨?_, ?_, ?_, ?_, ?_, ?_, ?_⟩
  · rw [hw]; exact .update s ..
  · intro z _; rw [hw]; rfl
  · intro th h; rw [hw]; exact ⟨th, h, .update th .., .refl _⟩
  · rw [hw]; exact id
  · intro _ _ _ key _; rw [hw]
  · intro h; exact absurd rfl (h k)
  · intro z hz
    obtain rfl : k = z := by simpa using hz
    exact State.filter_putSWrite fun e he _ => by simp [he]

theorem Acts.writeReg {x : Reg} {v : Word} {late : Nat} : Acts (some x) code tk s (s.writeReg tk x v late) := by
  cases x with
  | g k => exact .writeG
  | s k => exact .writeS
  | st k => exact .refl s
  | nb d => exact .of_same (.update s ..) rfl rfl rfl
  | q k => exact .of_same (.update s ..) rfl rfl rfl

/-- Only the low three bits of a status word hold its code. -/
theorem getLsbD_setStatusField (v : Word) (c : Nat) {j : Nat} (h : 3 ≤ j) (hj : j < 64) :
    (setStatusField v c).getLsbD j = v.getLsbD j := by
  have hmask : ∀ i : Fin 64, 3 ≤ i.val → (~~~(7 : Word)).getLsbD i.val = true := by decide
  have hc : (c % 8).testBit j = false :=
    Nat.testBit_lt_two_pow (lt_of_lt_of_le (by omega : c % 8 < 2 ^ 3) (Nat.pow_le_pow_right (by decide) h))
  rw [setStatusField, BitVec.getLsbD_or, BitVec.getLsbD_and, hmask ⟨j, hj⟩ h, word, BitVec.getLsbD_ofNat, hc, Bool.and_false,
    Bool.or_false, Bool.and_true]

theorem sameStatus_setStatusField (v : Word) (c : Nat) : SameStatus true v (setStatusField v c) := by
  refine ⟨?_, (getLsbD_setStatusField v c (by decide) (by decide)).trans, nofun⟩
  ext i hi
  rw [BitVec.getElem_extractLsb', BitVec.getElem_extractLsb', getLsbD_setStatusField v c (by omega) (by omega)]

/-- Below the prefix, the pending bit alone is cleared (R87). -/
theorem getLsbD_clearPrefix (v : Word) {j : Nat} (h : j < 32) : (clearPrefix v).getLsbD j = (decide (j ≠ 3) && v.getLsbD j) := by
  have hmask : ∀ i : Fin 32, (0x00000000FFFFFFF7 : Word).getLsbD i.val = decide (i.val ≠ 3) := by decide
  rw [clearPrefix, BitVec.getLsbD_and, hmask ⟨j, h⟩, Bool.and_comm]

theorem extractLsb'_clearPrefix (v : Word) {lo len : Nat} (h : lo + len ≤ 3 ∨ (4 ≤ lo ∧ lo + len ≤ 32)) :
    (clearPrefix v).extractLsb' lo len = v.extractLsb' lo len := by
  ext i hi
  rw [BitVec.getElem_extractLsb', BitVec.getElem_extractLsb', getLsbD_clearPrefix v (by omega), decide_eq_true (by omega),
    Bool.true_and]

theorem sameStatus_clearPrefix (v : Word) : SameStatus code v (clearPrefix v) :=
  ⟨extractLsb'_clearPrefix v (by decide), fun _ => getLsbD_clearPrefix v (by decide), fun _ => extractLsb'_clearPrefix v (by decide)⟩

/-- The step past an instruction (R80, R87). -/
theorem Acts.advance : Acts r code tk s (s.advance tk) := .modThread fun th => ⟨.update th .., sameStatus_clearPrefix _⟩

theorem Acts.setStatus {c : Nat} : Acts r true tk s (s.setStatus tk c) :=
  .modThread fun th => ⟨.update th .., sameStatus_setStatusField _ c⟩

end

/-! ### The issue of an instruction that acts on registers -/

/-- Whether an instruction of opcodes 0x01 to 0x17 writes a status (R78). -/
def setsCode : Instr → Bool
  | .gadr _ _ _ _ => true
  | _ => false

/-- The effect of a ready instruction acts on registers alone. -/
def ActsOnly (i : Instr) : Prop :=
  ∀ s tk th, Ready i s tk th → ∃ eff, exec i s = .next (issued i s tk eff) ∧ ∀ v, Acts (resultReg i) (setsCode i) tk v (eff v)

theorem actsOnly_of_noCheck {i : Instr} {eff : Issue → State → State} (he : ∀ s, exec i s = issue i noCheck eff s)
    (ha : ∀ x v, Acts (resultReg i) (setsCode i) (Issue.tk x) v (eff x v)) : ActsOnly i :=
  fun s tk th h => ⟨_, (he s).trans (issue_noCheck h), fun v => ha (s.issueOf tk th i) v⟩

/-- An instruction that writes one result. -/
theorem actsOnly_alu {i : Instr} {rd : Reg} {f : Issue → Word} (he : ∀ s, exec i s = issueAlu i rd f s)
    (hr : resultReg i = some rd) : ActsOnly i :=
  actsOnly_of_noCheck he fun _ _ => hr ▸ .writeReg

/-- A divide. -/
theorem actsOnly_divide {i : Instr} {rd : Reg} {f : Issue → Word} (he : ∀ s, exec i s = issueDivide i rd f s) : ActsOnly i :=
  actsOnly_of_noCheck he fun _ _ => Acts.reserveReg.trans (Acts.forfeitTurns.trans .addTimer)

/-- A branch. -/
theorem actsOnly_branch {i : Instr} {n : Nat} {disp : BitVec n} {c : Issue → Bool}
    (he : ∀ s, exec i s = issue i noCheck (fun x s => branchIf (c x) x disp s) s) : ActsOnly i :=
  actsOnly_of_noCheck he fun _ _ => .branchIf rfl

section
variable {sm : Bool} {rd ra rb : Reg}

theorem actsOnly_gadr : ActsOnly (.gadr sm rd ra rb) := by
  refine actsOnly_of_noCheck (fun _ => rfl) fun x v => ?_
  split <;> exact Acts.writeReg.trans .setStatus

theorem actsOnly_bloop {disp : BitVec 12} : ActsOnly (.bloop sm ra disp) := by
  refine actsOnly_of_noCheck (fun _ => rfl) fun x v => ?_
  split
  · exact .refl v
  · exact Acts.writeReg.trans (.branchIf rfl)

theorem actsOnly_jl {disp : BitVec 25} : ActsOnly (.jl sm disp) :=
  actsOnly_of_noCheck (fun _ => rfl) fun _ _ => (Acts.writeG (k := 1)).trans .setPc

theorem actsOnly_jlr : ActsOnly (.jlr sm rd ra) :=
  actsOnly_of_noCheck (fun _ => rfl) fun _ _ => Acts.writeReg.trans .setPc

end

theorem isWord_of_registerOnly {i : Instr} (h : registerOnly i = true) : i.isWord = true ∧ wordOp (encode i) ≤ 0x17 := by
  simp only [registerOnly, Bool.and_eq_true, decide_eq_true_eq] at h
  exact h.1

/-- An instruction that acts on registers alone does so. -/
theorem actsOnly {i : Instr} (h : registerOnly i = true) : ActsOnly i := by
  obtain ⟨hw, hop⟩ := isWord_of_registerOnly h
  cases i
  case div | divu | rem | remu => exact actsOnly_divide fun _ => rfl
  case gadr => exact actsOnly_gadr
  case j | jr => exact actsOnly_of_noCheck (fun _ => rfl) fun _ _ => .setPc
  case jl => exact actsOnly_jl
  case jlr => exact actsOnly_jlr
  case bbs | bbc | bz | bnz => exact actsOnly_branch fun _ => rfl
  case bloop => exact actsOnly_bloop
  case nop => exact actsOnly_of_noCheck (fun _ => rfl) fun _ v => .refl v
  case yield => exact actsOnly_of_noCheck (fun _ => rfl) fun _ _ => .forfeitTurns
  case add | sub | and | or | xor | andn | min | max | minu | maxu | mul | mulh | mulhu | sll | srl | sra | rol | ror | clz | ctz
      | popc | bset | bclr | btgl | bfx | bfxu | bfi | cmpeq | cmpne | cmplt | cmpltu | cmple | cmpleu | addi | andi | ori | xori
      | slli | srli | srai | roli | rori | bseti | bclri | btgli | cmpeqi | cmpnei | cmplti | cmpltui | cmplei | cmpleui | li
      | lis | mov | sel => exact actsOnly_alu (fun _ => rfl) rfl
  case pre => simp [registerOnly] at h
  all_goals simp [Instr.isWord, encode, wordOp_packR, wordOp_packM, wordOp_packW, wordOp_packC] at hw hop

section
variable {r : Option Reg} {code : Bool} {i : Instr} {s : State} {tk : Nat} {th : Thread} {eff : State → State}

/-- What an instruction leaves as it was, if its effect acts on registers alone. -/
theorem Acts.issued (ha : ∀ v, Acts r code tk v (eff v)) : Acts r code tk s (issued i s tk eff) :=
  Acts.popAll.trans (Acts.advance.trans ((ha _).trans (Acts.settleSwitch.trans .takeTurn)))

/-- After such an instruction no prefix is pending (R87). -/
theorem pending_issued (h : s.thread? tk = some th) (ha : ∀ v, Acts r code tk v (eff v)) :
    ∃ u, (Sys2Proof.issued i s tk eff).thread? tk = some u ∧ u.status.getLsbD 3 = false := by
  have hs : (s.afterPops i tk).thread? tk =
      some { th with pc := th.pc + 4, status := clearPrefix th.status, run := .ready, carry := none } := by
    rw [State.afterPops, State.advance, State.thread?_modThread]
    exact congrArg (Option.map _) ((congrArg (SMap.get? · tk) (State.popAll_threads ..)).trans h)
  obtain ⟨u, hu, -, hst⟩ := ((ha _).trans (Acts.settleSwitch (i := i) |>.trans .takeTurn)).thread _ hs
  exact ⟨u, hu, hst.pending (getLsbD_clearPrefix th.status (by decide))⟩

end

theorem setsCode_eq_false {i : Instr} (h : ∀ sm rd ra rb, i ≠ .gadr sm rd ra rb) : setsCode i = false := by
  cases i
  case gadr => exact absurd rfl (h _ _ _ _)
  all_goals rfl

end Sys2Proof.Machine

namespace Sys2Proof
open Sys2Proof.Machine

/-- Settles O18: the pops, the effect and the end of the issue of such an instruction each act on registers alone, and the step
past it clears the pending bit. -/
theorem registerOnlyFrame : Obligations.RegisterOnlyFrame := by
  unfold Obligations.RegisterOnlyFrame
  intro i s tk th hi ⟨_, hrf, _⟩ hr
  have hth := hr.issuing.2
  obtain ⟨eff, he, ha⟩ := actsOnly hi s tk th hr
  have hacts := Acts.issued (s := s) (i := i) ha
  obtain ⟨u, hu, hsame, hst⟩ := hacts.thread th hth
  obtain ⟨u', hu', hpend⟩ := pending_issued (i := i) hth ha
  obtain rfl : u = u' := Option.some.inj (hu.symm.trans hu')
  exact ⟨_, u, he, hu, hacts.untouched, hsame, ⟨hst.mask, hpend⟩, fun hg => hst.status (setsCode_eq_false hg), hacts.file th hth hrf,
    hacts.pending, hacts.shared, hacts.others⟩

end Sys2Proof
end

section
/-! Table walks, instruction fetch and freed windows (R65, R81, R128, R129, R318). -/

set_option Elab.async false

namespace Sys2Proof.Machine

/-! ### Bytes of memory -/

/-- The bytes from a key on, one by one. -/
theorem State.bytes_eq_map (s : State) (key n : Nat) : s.bytes key n = (List.range n).map fun i => s.byte (key + i) := by
  induction n generalizing key with
  | zero => rfl
  | succ n ih =>
    rw [State.bytes, ih, List.range_succ_eq_map, List.map_cons, List.map_map]
    exact congrArg _ (List.map_congr_left fun i _ => congrArg s.byte (Nat.add_right_comm key 1 i ▸ Nat.add_assoc key i 1))

theorem ofBytes_map_range (f : Nat → Byte) (n : Nat) :
    ofBytes ((List.range n).map f) = ((List.range n).map fun k => (f k).toNat * 256 ^ k).sum := by
  induction n generalizing f with
  | zero => rfl
  | succ n ih =>
    rw [List.range_succ_eq_map, List.map_cons, List.map_map, ofBytes, ih, List.map_cons, List.sum_cons, List.map_map,
      ← List.sum_map_mul_left]
    simp only [Function.comp_def, Nat.pow_zero, Nat.mul_one]
    exact congrArg _ (congrArg List.sum (List.map_congr_left fun k _ => by rw [Nat.pow_succ]; ring))

/-- The number that memory holds is that of R3. -/
theorem State.load_eq_bytesAt (s : State) (key n : Nat) : s.load key n = Sys2Proof.bytesAt s key n := by
  rw [State.load, State.bytes_eq_map, ofBytes_map_range]
  rfl

theorem State.load_lt (s : State) (key : Nat) : s.load key 8 < 2 ^ 64 := by
  have h := ofBytes_lt (s.bytes key 8)
  rw [State.bytes_eq_map, List.length_map, List.length_range, ← State.bytes_eq_map] at h
  exact h

/-! ### Page-table entries and leaves (R128, R318) -/

theorem bitAt_eq_decide (w : Word) (n : Nat) : bitAt w n = decide (w.toNat / 2 ^ n % 2 = 1) :=
  Nat.testBit_eq_decide_div_mod_eq

/-- An entry that names a next table: its type, the next table's page number, and no other bit. -/
def isTable (e : Nat) : Bool := decide (e % 16 = 1 ∧ e / 2 ^ 4 % 2 ^ 8 = 3 ∧ e / 2 ^ 48 = 0)

/-- The table that such an entry names. -/
def nextTable (e : Nat) : Nat := e / 2 ^ 12 % 2 ^ 36 * 2 ^ 12

/-- A leaf of size code z, whose low bits of the page number are 0. -/
def isLeaf (e z low : Nat) : Bool :=
  decide (e % 2 = 1 ∧ e / 2 ^ 4 % 4 = z ∧ e / 2 ^ 52 = 0 ∧ e / 2 ^ 19 % 2 = 0 ∧
    e / 2 ^ 20 % 2 ^ low = 0 ∧ (e / 2 ^ 3 % 2 = 1 → e / 2 ^ 6 % 2 ^ 13 = 0) ∧
    (e / 2 ^ 12 % 2 = 1 → z ≠ 2 ∧ e / 2 ^ 13 % 2 ^ 6 ≤ 47))

theorem tableOf_eq (e : Word) : tableOf e = if isTable e.toNat then some (nextTable e.toNat) else none := by
  have he := e.isLt
  unfold tableOf
  refine if_congr ?_ rfl rfl
  simp only [isTable, bitAt_eq_decide, fld, Bool.and_eq_true, beq_iff_eq, decide_eq_true_eq]
  omega

/-- The low bits of a page number that a size code leaves no room for. -/
def sizeLow (z : Nat) : Nat := match z with | 0 => 0 | 1 => 5 | _ => 14

theorem leafOk_and_size (e : Word) {z : Nat} (hz : z ≤ 2) : (leafOk e && fld e 4 2 == z) = isLeaf e.toNat z (sizeLow z) := by
  have he := e.isLt
  rw [Bool.eq_iff_iff]
  unfold leafOk isLeaf
  change (bitAt e 0 && fld e 4 2 != 3 && fld e 52 12 == 0 && !bitAt e 19 && fld e 20 32 % 2 ^ sizeLow (fld e 4 2) == 0 &&
    (!bitAt e 3 || fld e 6 13 == 0) && (!bitAt e 12 || (fld e 4 2 != 2 && decide (fld e 13 6 ≤ 47))) && fld e 4 2 == z) = true ↔ _
  simp only [bitAt_eq_decide, Bool.and_eq_true, Bool.or_eq_true, Bool.not_eq_true', beq_iff_eq, bne_iff_ne, decide_eq_true_eq,
    decide_eq_false_iff_not]
  constructor
  · rintro ⟨h, hs⟩
    rw [hs] at h
    interval_cases z <;> simp only [sizeLow, fld] at * <;> omega
  · intro h
    have hs : fld e 4 2 = z := h.2.1
    refine ⟨?_, hs⟩
    rw [hs]
    interval_cases z <;> simp only [sizeLow, fld] at * <;> omega

/-! ### Walks (R129, R318) -/

section Walk
variable (s : State) (va table lo len : Nat) (rest : List (Nat × Nat × Option Nat))

theorem toNat_word_load (key : Nat) : (word (s.load key 8)).toNat = s.load key 8 := by
  rw [word, BitVec.toNat_ofNat, Nat.mod_eq_of_lt (s.load_lt key)]

/-- At the first level only an entry that names a table goes on. -/
theorem walk_upper : s.walk va table ((lo, len, none) :: rest) =
    let e := Sys2Proof.bytesAt s (table + 8 * (va / 2 ^ lo % 2 ^ len)) 8
    if isTable e then s.walk va (nextTable e) rest else none := by
  rw [State.walk]
  dsimp only
  rw [tableOf_eq, toNat_word_load, State.load_eq_bytesAt]
  cases isTable (Sys2Proof.bytesAt s (table + 8 * (va / 2 ^ lo % 2 ^ len)) 8) <;> rfl

/-- At the other levels a leaf of the level's size ends the walk, and an entry that names a table goes on. -/
theorem walk_lower {z : Nat} (hz : z ≤ 2) : s.walk va table ((lo, len, some z) :: rest) =
    let e := Sys2Proof.bytesAt s (table + 8 * (va / 2 ^ lo % 2 ^ len)) 8
    if isLeaf e z (sizeLow z) then some (BitVec.ofNat 64 e)
    else if isTable e then s.walk va (nextTable e) rest else none := by
  rw [State.walk]
  dsimp only
  rw [leafOk_and_size _ hz, tableOf_eq, toNat_word_load, State.load_eq_bytesAt]
  generalize Sys2Proof.bytesAt s (table + 8 * (va / 2 ^ lo % 2 ^ len)) 8 = e
  refine if_congr Iff.rfl rfl ?_
  cases isTable e <;> rfl

/-- The last level's table entry leads nowhere. -/
theorem walk_last : s.walk va table [(lo, len, some 0)] =
    let e := Sys2Proof.bytesAt s (table + 8 * (va / 2 ^ lo % 2 ^ len)) 8
    if isLeaf e 0 0 then some (BitVec.ofNat 64 e) else none := by
  rw [walk_lower s va table lo len [] (Nat.zero_le 2)]
  simp only [State.walk, ite_self, sizeLow]

end Walk

theorem walkFrom_eq (s : State) (root va : Nat) :
    let entry := fun (table lo len : Nat) => Sys2Proof.bytesAt s (table + 8 * (va / 2 ^ lo % 2 ^ len)) 8
    let e1 := entry root 39 9
    let e2 := entry (nextTable e1) 30 9
    let e3 := entry (nextTable e2) 21 9
    let e4 := entry (nextTable e3) 16 5
    s.walkFrom root va = if isTable e1 then if isLeaf e2 2 14 then some (BitVec.ofNat 64 e2)
        else if isTable e2 then if isLeaf e3 1 5 then some (BitVec.ofNat 64 e3)
          else if isTable e3 then if isLeaf e4 0 0 then some (BitVec.ofNat 64 e4) else none else none
        else none
      else none := by
  intro entry e1 e2 e3 e4
  rw [State.walkFrom, walkLevels, walk_upper]
  dsimp only
  rw [walk_lower _ _ _ _ _ _ (le_refl 2)]
  dsimp only
  rw [walk_lower _ _ _ _ _ _ one_le_two]
  dsimp only
  rw [walk_last]
  rfl

/-- A state whose memory is another's walks as it does. -/
theorem walkFrom_congr {s t : State} (h : t.mem = s.mem) (root va : Nat) : t.walkFrom root va = s.walkFrom root va := by
  have hb : Sys2Proof.bytesAt t = Sys2Proof.bytesAt s := by
    funext key n
    simp only [Sys2Proof.bytesAt, State.byte, h]
  rw [walkFrom_eq, walkFrom_eq, hb]

/-! ### Leaves and fetched lines (R81, R128) -/

theorem pageBytes_eq (n : Nat) : pageBytes n = 2 ^ (if n = 0 then 16 else if n = 1 then 21 else 30) := by
  unfold pageBytes
  split <;> simp_all

/-- A line is fetched from a page that threads may read, if its target can be reached and the line has no data error. -/
theorem fetchLine_of_not_readable {s : State} {leaf : Word} (va : Nat) (h : bitAt leaf 2 = false) : s.fetchLine leaf va = .error 5 := by
  simp [State.fetchLine, leafAccess, h]

theorem fetchLine_of_readable {s : State} {leaf : Word} (va : Nat) (h : bitAt leaf 2 = true) : s.fetchLine leaf va =
    let t := leafTarget leaf va
    if s.targetCause t 64 ≠ 0 then .error (s.targetCause t 64) else if s.poisoned t 64 then .error 9
    else .ok (s.bytes (Target.key t) 64) := by
  simp [State.fetchLine, leafAccess, h]

theorem leafTarget_ne_window (leaf : Word) (va node off : Nat) : leafTarget leaf va ≠ .window node off := by
  unfold leafTarget
  dsimp only
  split
  · nofun
  · split
    · nofun
    · split <;> nofun

/-- A target is in this package, or in a peer package whose link is up. -/
def Target.Reached (s : State) (t : Target) : Prop :=
  ∀ x ret, t = .peer x ret → ∃ l, SMap.get? s.pkg.routes (x / 2 ^ 40) = some l ∧ s.pkg.links.getD l 0 = 2

/-- A leaf names no window, so that only a peer package that cannot be reached stands in a fetch's way. -/
theorem targetCause_eq_zero_iff (s : State) {t : Target} (hw : ∀ node off, t ≠ .window node off) (n : Nat) :
    (t.Reached s → s.targetCause t n = 0) ∧ (¬ t.Reached s → s.targetCause t n = 7) := by
  cases t with
  | window node off => exact absurd rfl (hw node off)
  | peer pa ret =>
    have hr : Target.Reached s (.peer pa ret) ↔ ∃ l, SMap.get? s.pkg.routes (pa / 2 ^ 40) = some l ∧ s.pkg.links.getD l 0 = 2 := by
      simp [Target.Reached]
    rw [hr, State.targetCause]
    cases SMap.get? s.pkg.routes (pa / 2 ^ 40) with
    | none => simp
    | some l => simp
  | line pa die comp ret => exact ⟨fun _ => rfl, fun h => absurd (fun _ _ => nofun) h⟩
  | bank pa die chan => exact ⟨fun _ => rfl, fun h => absurd (fun _ _ => nofun) h⟩
  | host ha => exact ⟨fun _ => rfl, fun h => absurd (fun _ _ => nofun) h⟩

end Sys2Proof.Machine
end

section
/-! The rows of walks, fetches and freed windows (R65, R81, R129, R318). -/

set_option Elab.async false

namespace Sys2Proof.Machine

/-! ### What a walk and a trap leave as it was -/

/-- Memory, the nodes and the global accesses are as they were. -/
structure SameAccesses (s t : State) : Prop where
  mem : t.mem = s.mem
  teams : t.teams = s.teams
  reqs : t.reqs = s.reqs

section
variable {s t u : State} {tk core : Nat}

theorem SameAccesses.trans (h : SameAccesses s t) (k : SameAccesses t u) : SameAccesses s u :=
  ⟨k.mem.trans h.mem, k.teams.trans h.teams, k.reqs.trans h.reqs⟩

theorem SameAccesses.modThread {f : Thread → Thread} : SameAccesses s (s.modThread tk f) :=
  ⟨State.modThread_mem .., State.modThread_teams .., State.modThread_reqs ..⟩

theorem SameAccesses.completeWait : SameAccesses s (s.completeWait tk) := by
  unfold State.completeWait
  split
  · exact ⟨rfl, rfl, rfl⟩
  · exact .modThread

theorem SameAccesses.portEffect {p : Nat} {w0 w1 : Word} : SameAccesses s (s.portEffect core p w0 w1) := by
  have hfin {v : State} {k code : Nat} : SameAccesses v (v.finishWait k code) := SameAccesses.modThread.trans .completeWait
  unfold State.portEffect
  split
  · split
    · exact SameAccesses.trans (t := State.recvTake ..) ⟨rfl, rfl, rfl⟩ hfin
    · exact ⟨rfl, rfl, rfl⟩
  · exact ⟨rfl, rfl, rfl⟩

theorem SameAccesses.reportInside {slot : Nat} {w0 w1 : Word} : SameAccesses s (s.reportInside core slot w0 w1) := by
  unfold State.reportInside
  dsimp only
  split
  · exact .portEffect
  · split
    · exact ⟨rfl, rfl, rfl⟩
    · split <;> exact ⟨rfl, rfl, rfl⟩

theorem SameAccesses.postReport {slot : Nat} {w0 w1 : Word} : SameAccesses s (s.postReport core slot w0 w1) := by
  unfold State.postReport
  split
  · exact ⟨rfl, rfl, rfl⟩
  · exact .reportInside

theorem SameAccesses.trap {kind cause : Nat} {w1 : Word} : SameAccesses s (s.trap tk kind cause w1) := by
  unfold State.trap
  dsimp only
  split
  · exact SameAccesses.modThread.trans ⟨rfl, rfl, rfl⟩
  · exact SameAccesses.modThread.trans .postReport

theorem SameAccesses.failFetch {node key va : Nat} : SameAccesses s (s.failFetch node key va) := by
  unfold State.failFetch
  generalize List.map _ _ = l
  induction l generalizing s with
  | nil => exact ⟨rfl, rfl, rfl⟩
  | cons k l ih => exact SameAccesses.trap.trans ih

theorem SameAccesses.failEngine {w : Walk} : SameAccesses s (s.failEngine w) := by
  unfold State.failEngine
  dsimp only
  split <;> exact ⟨rfl, rfl, rfl⟩

end

/-! ### The target of a leaf (R128) -/

theorem leafTarget_eq (leaf : Word) (va : Nat) :
    let f := fld leaf
    let pa := f 20 32 * 2 ^ 16 + va % 2 ^ (if f 4 2 = 0 then 16 else if f 4 2 = 1 then 21 else 30)
    leafTarget leaf va = if f 3 1 = 1 then .host pa else if 2 ^ 40 ≤ pa then .peer pa (f 9 2)
      else if f 12 1 = 1 then .bank pa (4 + f 7 2) (f 13 6)
      else .line pa (if f 6 1 = 1 then some (4 + f 7 2) else none) (f 11 1 == 1) (f 9 2) := by
  have h11 : bitAt leaf 11 = (fld leaf 11 1 == 1) := by rw [Bool.eq_iff_iff, bitAt_iff, beq_iff_eq]
  simp only [leafTarget, bitAt_iff, pageBytes_eq, h11]

/-! ### The walks of a node (R129) -/

/-- A map of walks that keeps what names them. -/
def KeepsNames (g : Walk → Walk) : Prop := ∀ v, (g v).id = v.id ∧ (g v).launch = v.launch ∧ (g v).va = v.va

/-- A walk that its die's page walker has taken. -/
def markFlying (id : Nat) (v : Walk) : Walk := if v.id = id then { v with flying := true } else v

theorem keepsNames_markFlying (id : Nat) : KeepsNames (markFlying id) := fun v => by
  unfold markFlying
  split <;> exact ⟨rfl, rfl, rfl⟩

/-- The start of a walk marks it, and leaves memory, threads and requests. -/
structure WalkBegun (s t : State) : Prop where
  mem : t.mem = s.mem
  threads : t.threads = s.threads
  reqs : t.reqs = s.reqs
  walks : ∀ node, ∃ g, KeepsNames g ∧ (t.team node).walks = (s.team node).walks.map g

theorem State.beginWalk_begun (s : State) (die : Nat) : WalkBegun s (s.beginWalk die) := by
  have hid (node : Nat) : ∃ g, KeepsNames g ∧ (s.team node).walks = (s.team node).walks.map g :=
    ⟨id, fun _ => ⟨rfl, rfl, rfl⟩, (List.map_id _).symm⟩
  unfold State.beginWalk
  extract_lets l
  split
  · exact ⟨rfl, rfl, rfl, hid⟩
  · split
    · exact ⟨rfl, rfl, rfl, hid⟩
    · next node w hw =>
      refine ⟨rfl, rfl, rfl, fun k => ?_⟩
      have hteam := State.team_modTeam s.delay.2 node k fun t => { t with walks := t.walks.map (markFlying w.id) }
      by_cases hk : k = node
      · rw [if_pos hk, hk] at hteam
        exact ⟨markFlying w.id, keepsNames_markFlying _, hk ▸ congrArg Team.walks hteam⟩
      · rw [if_neg hk] at hteam
        exact hteam ▸ hid k

/-- A walk that starts stands among the node's walks, unless one for its page is there already. -/
theorem State.startWalk_asks {s : State} {node key ea : Nat} {l : Launch} (h : s.launch? key = some l) :
    (s.startWalk node key ea).mem = s.mem ∧ (s.startWalk node key ea).threads = s.threads ∧
      ∃ w ∈ ((s.startWalk node key ea).team node).walks, w.launch = key ∧ w.va / 65536 = ea / 65536 := by
  unfold State.startWalk
  split
  · next hany =>
    obtain ⟨w, hw, hp⟩ := List.any_eq_true.mp hany
    simp only [Bool.and_eq_true, beq_iff_eq] at hp
    exact ⟨rfl, rfl, w, hw, hp⟩
  · rw [h]
    dsimp only
    generalize hv : State.modTeam s.fresh.2 node _ = v
    have hb := v.beginWalk_begun (dieOfNode node)
    obtain ⟨g, hg, hwalks⟩ := hb.walks node
    have hmem : (⟨s.nextId, key, l.root, ea, false, 0⟩ : Walk) ∈ (v.team node).walks := by
      rw [← hv, State.team_modTeam, if_pos rfl]
      exact List.mem_append_right _ (List.mem_singleton_self _)
    refine ⟨hb.mem.trans (hv ▸ rfl), hb.threads.trans (hv ▸ rfl), g _, hwalks ▸ List.mem_map_of_mem hmem, (hg _).2.1, ?_⟩
    rw [(hg _).2.2]

/-- A leaf found is entered in the node's TLB, whose walks stay. -/
theorem State.tlbFill_enters (s : State) (node key root va : Nat) (leaf : Word) :
    ((s.tlbFill node key root va leaf).team node).walks = (s.team node).walks ∧
      ∃ e ∈ ((s.tlbFill node key root va leaf).team node).tlb, e.root = root ∧ e.leaf = leaf := by
  unfold State.tlbFill
  dsimp only
  rw [State.team_modTeam, if_pos rfl]
  exact ⟨rfl, _, List.mem_append_right _ (List.mem_singleton_self _), rfl, rfl⟩

/-- The requests of a page without a translation fault with cause 4. -/
theorem State.mem_failPage {s : State} {node key va id : Nat} {q : Req} (hq : (id, q) ∈ s.reqs) (hn : q.node = node)
    (hl : q.launch = key) (hst : q.stage = .port ∨ q.stage = .buffered) (hf : q.fault = 0) (hc : addrClass q.ea = .virtual)
    (hp : q.ea / 65536 = va / 65536) : (id, { q with fault := 4 }) ∈ (s.failPage node key va).reqs := by
  refine List.mem_map.mpr ⟨(id, q), hq, ?_⟩
  rw [if_pos ⟨hn, hl, hst, hf, hc, hp⟩]

section Done
variable {s : State} {w : Walk}

/-- The walk of a number is that of the walk done, where no other has its number. -/
theorem find?_walk {l : List Walk} (hw : w ∈ l) (hu : ∀ v ∈ l, v.id = w.id → v = w) : l.find? (fun v => v.id == w.id) = some w := by
  cases hf : l.find? (fun v => v.id == w.id) with
  | none => exact absurd (List.find?_eq_none.mp hf w hw) (by simp)
  | some v => exact congrArg some (hu v (List.mem_of_find?_eq_some hf) (by simpa using List.find?_some hf))

/-- The state in which a walk has left its node's list and the die's next walk has begun. -/
def State.walkLeft (s : State) (node : Nat) (w : Walk) : State :=
  (s.modTeam node fun t => { t with walks := t.walks.filter fun v => v.id != w.id }).beginWalk (dieOfNode node)

theorem State.walkLeft_begun (s : State) (node : Nat) (w : Walk) :
    (s.walkLeft node w).mem = s.mem ∧ (s.walkLeft node w).reqs = s.reqs ∧ ∀ v ∈ ((s.walkLeft node w).team node).walks, v.id ≠ w.id := by
  have hb := (s.modTeam node fun t => { t with walks := t.walks.filter fun v => v.id != w.id }).beginWalk_begun (dieOfNode node)
  obtain ⟨g, hg, hwalks⟩ : ∃ g, KeepsNames g ∧ ((s.walkLeft node w).team node).walks = _ := hb.walks node
  refine ⟨hb.mem, hb.reqs, fun v hv => ?_⟩
  rw [hwalks, State.team_modTeam, if_pos rfl] at hv
  obtain ⟨x, hx, rfl⟩ := List.mem_map.mp hv
  rw [(hg x).1]
  simpa using (List.mem_filter.mp hx).2

section
variable (hw : w ∈ (s.team s.subj.n).walks) (hid : w.id = s.subj.m) (hu : ∀ v ∈ (s.team s.subj.n).walks, v.id = w.id → v = w)
include hw hid hu

theorem exec_pageWalkDone_leaf {leaf : Word} (h : s.walkFrom w.root w.va = some leaf) :
    exec .pageWalkDone s = .next ((s.walkLeft s.subj.n w).tlbFill s.subj.n w.launch w.root w.va leaf) := by
  have hx := (walkFrom_congr (s.walkLeft_begun s.subj.n w).1 w.root w.va).trans h
  show execPageWalkDone s = _
  rw [execPageWalkDone, ← hid, find?_walk hw hu]
  unfold State.walkLeft at hx ⊢
  simp only [hx]

theorem exec_pageWalkDone_none (h : s.walkFrom w.root w.va = none) : exec .pageWalkDone s =
    .next ((((s.walkLeft s.subj.n w).failPage s.subj.n w.launch w.va).failFetch s.subj.n w.launch w.va).failEngine w) := by
  have hx := (walkFrom_congr (s.walkLeft_begun s.subj.n w).1 w.root w.va).trans h
  show execPageWalkDone s = _
  rw [execPageWalkDone, ← hid, find?_walk hw hu]
  unfold State.walkLeft at hx ⊢
  simp only [hx]

end

end Done

/-! ### Instruction fetch (R81) -/

/-- A line that is put in an instruction cache is what its fetch finds. -/
theorem State.cached_icachePut {s t : State} {tk node root va : Nat} {bs : List Byte} (ht : t.teams = (s.icachePut node root va bs).teams)
    (hn : nodeOf (coreOf tk) = node) (hr : t.rootOf tk = root) (hva : (t.thread tk).pc.toNat / 64 = va) :
    t.cached tk = some ((bs.drop ((t.thread tk).pc.toNat % 64)).take 4) := by
  have hteam : t.team node = (s.icachePut node root va bs).team node := by rw [State.team, ht]; rfl
  rw [State.cached]
  rw [hn, hr, hva, hteam, State.icachePut, State.team_modTeam, if_pos rfl]
  generalize hrest : (s.team node).icache.filter (fun l => !(l.root == root && l.va == va)) = rest
  have hnone : (rest.drop (rest.length - 1023)).find? (fun l => l.root == root && l.va == va) = none := by
    refine List.find?_eq_none.mpr fun l hl => ?_
    have hmem := List.mem_of_mem_drop hl
    rw [← hrest] at hmem
    rw [Bool.not_eq_true, ← Bool.not_eq_true']
    exact (List.mem_filter.mp hmem).2
  rw [List.find?_append, hnone, Option.none_or, List.find?_singleton, if_pos (by simp)]
  rfl

/-- The change of a thread's run state leaves the root of its fetches. -/
theorem State.rootOf_of_launch {s t : State} {tk : Nat} (hd : t.disp = s.disp) (hl : (t.thread tk).launch = (s.thread tk).launch) :
    t.rootOf tk = s.rootOf tk := by
  rw [State.rootOf, State.rootOf, State.launchOfThread, State.launchOfThread, hl, State.launch?, State.launch?, hd]

/-- The line of a thread's pc. -/
def Thread.fetchLine (th : Thread) : Nat := 64 * (th.pc.toNat / 64)

/-- The state in which the line of a parked thread has arrived. -/
def State.fetched (s : State) (tk : Nat) (th : Thread) (bs : List Byte) : State :=
  (s.icachePut (nodeOf (coreOf tk)) (s.rootOf tk) (th.fetchLine / 64) bs).modThread tk fun th =>
    { th with run := .ready, notBefore := s.cycle + 1 }

/-- The thread is ready from the next cycle, and its pc is in the instruction cache. -/
theorem State.fetched_runs {s : State} {tk : Nat} {th : Thread} (hth : s.thread? tk = some th) (bs : List Byte) :
    (s.fetched tk th bs).thread? tk = some { th with run := .ready, notBefore := s.cycle + 1 } ∧ (s.fetched tk th bs).mem = s.mem ∧
      (s.fetched tk th bs).cached tk = some ((bs.drop (th.pc.toNat % 64)).take 4) := by
  have ht : (s.fetched tk th bs).thread? tk = some { th with run := .ready, notBefore := s.cycle + 1 } := by
    rw [State.fetched, State.thread?_modThread]
    exact congrArg (Option.map _) hth
  have hthread := State.thread_of_thread? ht
  have hroot : (s.fetched tk th bs).rootOf tk = s.rootOf tk :=
    State.rootOf_of_launch (State.modThread_disp ..) (by rw [hthread, State.thread_of_thread? hth])
  have hline : ((s.fetched tk th bs).thread tk).pc.toNat / 64 = th.fetchLine / 64 := by
    rw [hthread]
    exact (Nat.mul_div_cancel_left _ (by decide)).symm
  refine ⟨ht, State.modThread_mem .., ?_⟩
  exact (State.cached_icachePut (t := s.fetched tk th bs) (State.modThread_teams ..) rfl hroot hline).trans (by rw [hthread])

section Fetch
variable {s : State} {tk : Nat} {th : Thread} {l : Launch} {e : TlbEntry}

variable (hn : s.subj.n = tk) (hth : s.thread? tk = some th) (hrun : th.run = .fetch) (hl : s.launch? th.launch = some l)
include hn hth hrun hl

theorem exec_iCacheFill_ok {bs : List Byte} (he : s.tlbFind (nodeOf (coreOf tk)) th.launch l th.fetchLine = some e)
    (hb : s.fetchLine e.leaf th.fetchLine = .ok bs) : exec .iCacheFill s =
      .next (s.fetched tk th bs) := by
  show execICacheFill s = _
  unfold Thread.fetchLine at *
  simp only [execICacheFill, hn, State.thread_of_thread? hth, hrun, hl, he, hb, ne_eq, not_true_eq_false, if_false,
    State.fetched, Thread.fetchLine]

theorem exec_iCacheFill_error {c : Nat} (hc : c ≠ 9) (he : s.tlbFind (nodeOf (coreOf tk)) th.launch l th.fetchLine = some e)
    (hb : s.fetchLine e.leaf th.fetchLine = .error c) :
    exec .iCacheFill s = .next (s.trap tk 10 c (th.pc.zeroExtend 64)) := by
  show execICacheFill s = _
  unfold Thread.fetchLine at *
  simp only [execICacheFill, hn, State.thread_of_thread? hth, hrun, hl, he, hb, ne_eq, not_true_eq_false, if_false,
    State.logCause, if_neg hc, State.fetchTrap]

theorem exec_iCacheFill_miss (he : s.tlbFind (nodeOf (coreOf tk)) th.launch l th.fetchLine = none) : exec .iCacheFill s =
    .next ((s.startWalk (nodeOf (coreOf tk)) th.launch th.fetchLine).again .iCacheFill) := by
  show execICacheFill s = _
  unfold Thread.fetchLine at *
  simp only [execICacheFill, hn, State.thread_of_thread? hth, hrun, hl, he, ne_eq, not_true_eq_false, if_false]

end Fetch

/-! ### A freed window (R65) -/

/-- What a map holds at a key when some keys are dropped from it. -/
theorem SMap.get?_filter {α : Type} {m : SMap α} {b : Nat} (q : Nat → Bool) (k : Nat) (h : SMap.sortedFrom b m = true) :
    SMap.get? (m.filter fun e => q e.1) k = if q k then SMap.get? m k else none := by
  induction m generalizing b with
  | nil => simp
  | cons e m ih =>
    obtain ⟨j, v⟩ := e
    have hm : SMap.sortedFrom (j + 1) m = true := (Bool.and_eq_true_iff.mp h).2
    have hbelow (hk : k ≤ j) : SMap.get? (m.filter fun e => q e.1) k = none :=
      SMap.get?_below (SMap.sortedFrom_filter _ hm) (Nat.lt_succ_of_le hk)
    have hcons (l : SMap α) : SMap.get? ((j, v) :: l) k = if j = k then some v else if k < j then none else SMap.get? l k := rfl
    rw [List.filter_cons, hcons m]
    obtain hk | rfl | hk := Nat.lt_trichotomy k j
    · have hj : j ≠ k := by omega
      simp only [if_neg hj, if_pos hk, ite_self]
      split
      · rw [hcons, if_neg hj, if_pos hk]
      · exact hbelow (by omega)
    · rw [if_pos rfl]
      split
      · rw [hcons, if_pos rfl]
      · exact hbelow (le_refl _)
    · have hj : j ≠ k := by omega
      rw [if_neg hj, if_neg (show ¬ k < j by omega), ← ih hm]
      split
      · rw [hcons, if_neg hj, if_neg (show ¬ k < j by omega)]
      · rfl

/-- A window whose zeroing has ended reads zero, and no other register changes. -/
theorem getD_zeroed {s : State} (h : SMap.sortedFrom 0 s.rf = true) (lo hi key : Nat) :
    SMap.getD (s.rf.filter fun e => !(decide (lo ≤ e.1) && decide (e.1 < hi))) key 0 =
      if lo ≤ key ∧ key < hi then 0 else SMap.getD s.rf key 0 := by
  rw [SMap.getD, SMap.get?_filter (fun k => !(decide (lo ≤ k) && decide (k < hi))) key h]
  by_cases hk : lo ≤ key ∧ key < hi
  · simp [hk]
  · rw [if_neg hk, if_pos (by simp only [Bool.not_eq_true', Bool.and_eq_false_iff, decide_eq_false_iff_not]; omega)]
    rfl

theorem State.settleResv_keeps (s : State) (core slot : Nat) : (s.settleResv core slot).mem = s.mem ∧
    (s.settleResv core slot).rf = s.rf ∧ ((s.settleResv core slot).core core).zeroing = (s.core core).zeroing := by
  unfold State.settleResv
  split
  · exact ⟨rfl, rfl, by rw [State.core_modCore, if_pos rfl]⟩
  · exact ⟨rfl, rfl, rfl⟩

end Sys2Proof.Machine

namespace Sys2Proof
open Sys2Proof.Machine

/-- Settles O35: the walk level by level, and each row by the parts of the state that it leaves as they were. -/
theorem walksAndFetch : Obligations.WalksAndFetch := by
  unfold Obligations.WalksAndFetch
  refine fun s tk th => ⟨fun w hw hid hu => ?_, fun root va => walkFrom_eq s root va, fun leaf va => ?_, fun l hn hth hrun hl => ?_,
    fun z hs hn hz => ?_⟩
  · obtain ⟨hmem, hreqs, hwalks⟩ := s.walkLeft_begun s.subj.n w
    cases hf : s.walkFrom w.root w.va with
    | some leaf =>
      obtain ⟨hsame, e, he, hroot, hleaf⟩ := (s.walkLeft s.subj.n w).tlbFill_enters s.subj.n w.launch w.root w.va leaf
      refine ⟨_, exec_pageWalkDone_leaf hw hid hu hf, hmem, hsame ▸ hwalks, fun leaf' hl => ?_, nofun⟩
      exact ⟨e, he, hroot, hleaf.trans (Option.some.inj hl)⟩
    | none =>
      have hsame := (SameAccesses.failFetch (s := (s.walkLeft s.subj.n w).failPage s.subj.n w.launch w.va) (node := s.subj.n)
        (key := w.launch) (va := w.va)).trans (.failEngine (w := w))
      refine ⟨_, exec_pageWalkDone_none hw hid hu hf, hsame.mem.trans hmem, fun v hv => hwalks v ?_, nofun,
        fun _ id q hq hnode hlaunch hst hfault hclass hpage => ?_⟩
      · rw [State.team, hsame.teams] at hv
        exact hv
      · rw [hsame.reqs]
        exact State.mem_failPage (hreqs ▸ hq) hnode hlaunch hst hfault hclass hpage
  · intro f pa t reach
    have hw := leafTarget_ne_window leaf va
    obtain ⟨hyes, hno⟩ := targetCause_eq_zero_iff s hw 64
    refine ⟨leafTarget_eq leaf va, fun hf => fetchLine_of_not_readable va ?_, fun hf => ?_⟩
    · rw [← Bool.not_eq_true, bitAt_iff]
      exact fun h => absurd (hf.symm.trans h) (by decide)
    · rw [fetchLine_of_readable va ((bitAt_iff leaf 2).mpr hf)]
      refine ⟨fun hr => ?_, fun hr => ⟨fun hp => ?_, fun hp => ?_⟩⟩
      · simp [hno hr]
      · simp [hyes hr, show s.poisoned (leafTarget leaf va) 64 = true from hp]
      · simp [hyes hr, show s.poisoned (leafTarget leaf va) 64 = false from hp, State.bytes_eq_map, t]
  · intro va
    refine ⟨fun e he => ⟨fun bs hb => ?_, fun c hc hb => exec_iCacheFill_error hn hth hrun hl hc he hb⟩, fun he => ?_⟩
    · exact ⟨_, exec_iCacheFill_ok hn hth hrun hl he hb, State.fetched_runs hth bs⟩
    · obtain ⟨hmem, hthreads, hwalk⟩ := State.startWalk_asks (node := nodeOf (coreOf tk)) (ea := va) hl
      exact ⟨_, exec_iCacheFill_miss hn hth hrun hl he, (congrArg (SMap.get? · tk) hthreads).trans hth, hmem, hwalk⟩
  · subst hn
    obtain ⟨_, hrf, _⟩ := hs
    generalize hv : ({ s with rf := s.rf.filter fun e => !(decide (2048 * coreOf s.subj.n + 8 * z.base ≤ e.1) &&
      decide (e.1 < 2048 * coreOf s.subj.n + 8 * z.base + z.w)) } : State).modCore (coreOf s.subj.n) (fun c =>
        { c with zeroing := c.zeroing.erase z }) = v
    obtain ⟨hm, hr, hzero⟩ := v.settleResv_keeps (coreOf s.subj.n) z.slot
    refine ⟨v.settleResv (coreOf s.subj.n) z.slot, ?_, hm.trans (hv ▸ rfl), hzero.trans ?_, fun key => ?_⟩
    · show execSlotZeroingDone s = _
      rw [execSlotZeroingDone, hz, ← hv]
    · rw [← hv, State.core_modCore, if_pos rfl]
      rfl
    · rw [hr, ← hv]
      exact getD_zeroed hrf _ _ key

end Sys2Proof
end

section
/-! Jumps, links, branches and the counted loop (R80, R82 to R84). -/

namespace Sys2Proof.Machine

/-! ### Where a jump and a branch lead -/

/-- Shifting a displacement by two places and adding it to the address wraps round as the sum of the integers does (R21, R80). -/
theorem target_eq_displaced (pc : BitVec 48) {n : Nat} (disp : BitVec n) : target pc disp = displaced pc disp := by
  have hshift : disp.signExtend 48 <<< 2 = BitVec.ofInt 48 (4 * disp.toInt) := by
    rw [BitVec.shiftLeft_eq_mul_twoPow, BitVec.mul_comm, BitVec.signExtend, BitVec.ofInt_mul]
    rfl
  rw [target, displaced, hshift, BitVec.ofInt_add, BitVec.ofInt_toInt]

/-- Bits [63:48] and [1:0] of a register's value do not count in a jump (R82). -/
theorem jumpTarget_eq (a : Word) : jumpTarget a = BitVec.ofNat 48 (a.toNat % 2 ^ 48 / 4 * 4) := by
  have hword : a.toNat / 2 ^ 2 % 2 ^ 46 = a.toNat % 2 ^ 48 / 4 := by omega
  refine BitVec.eq_of_toNat_eq ?_
  rw [jumpTarget, BitVec.toNat_append, BitVec.toNat_ofNat, BitVec.extractLsb'_toNat, Nat.shiftRight_eq_div_pow, hword,
    Nat.shiftLeft_eq, BitVec.toNat_ofNat, Nat.zero_mod, Nat.or_zero]
  omega

/-- The count that BLOOP leaves: one less than it read (R84). -/
theorem sub_one_eq_ofInt (a : Word) : a - 1 = BitVec.ofInt 64 (a.toNat - 1) := by
  rw [Int.sub_eq_add_neg, BitVec.ofInt_add, BitVec.ofInt_natCast, BitVec.ofNat_toNat, BitVec.setWidth_eq, BitVec.sub_eq_add_neg]
  rfl

/-- The count is then zero just where it was 1. -/
theorem sub_one_bne_zero (a : Word) : (a - 1 != 0) = decide (a ≠ 1) := by
  rw [bne, beq_eq_decide, ← decide_not, decide_eq_decide, not_iff_not, sub_eq_zero]

/-! ### The effects at issue -/

/-- Whether a branch is taken or not, the thread goes on from u: at the displacement from the pc it has in s, or where u has it
(R80). -/
def State.branchFrom (s u : State) (tk : Nat) {n : Nat} (disp : BitVec n) (c : Bool) : State :=
  if c then u.modThread tk fun v => { v with pc := displaced (s.thread tk).pc disp } else u

theorem branchIf_issueOf (c : Bool) {s : State} {tk : Nat} {th : Thread} (i : Instr) {n : Nat} (disp : BitVec n) (u : State)
    (h : s.thread? tk = some th) : branchIf c (s.issueOf tk th i) disp u = s.branchFrom u tk disp c := by
  rw [State.branchFrom, State.thread_of_thread? h, ← target_eq_displaced]
  rfl

/-- The instruction branches on this condition of the value of its first register field (R83, R84). -/
def Branches (i : Instr) {n : Nat} (disp : BitVec n) (q : Word → Bool) : Prop :=
  Does i fun s tk u => s.branchFrom u tk disp (q (s.operand tk i 0))

theorem branches_of_exec {i : Instr} {n : Nat} {disp : BitVec n} {p q : Word → Bool} (h : ∀ a, p a = q a)
    (he : ∀ s, exec i s = issue i noCheck (fun x s => branchIf (p (x.val 0)) x disp s) s) : Branches i disp q :=
  does_noCheck he fun s tk th hth => funext fun u => by
    rw [branchIf_issueOf _ _ _ _ hth, val_issueOf, h]

section Jumps
variable (sm : Bool) (rd ra : Reg)

theorem does_j (disp : BitVec 25) :
    Does (.j sm disp) fun s tk u => u.setPc tk (displaced (s.thread tk).pc disp) :=
  does_noCheck (fun _ => rfl) fun s tk th hth => by
    rw [State.thread_of_thread? hth, ← target_eq_displaced]
    rfl

theorem does_jl (disp : BitVec 25) : Does (.jl sm disp) fun s tk u =>
    (u.writeReg tk (.g 1) (((s.thread tk).pc + 4).zeroExtend 64)).setPc tk (displaced (s.thread tk).pc disp) :=
  does_noCheck (fun _ => rfl) fun s tk th hth => by
    rw [State.thread_of_thread? hth, ← target_eq_displaced]
    rfl

theorem does_jr : Does (.jr sm ra) fun s tk u =>
    u.setPc tk (BitVec.ofNat 48 ((s.operand tk (.jr sm ra) 0).toNat % 2 ^ 48 / 4 * 4)) :=
  does_noCheck (fun _ => rfl) fun s tk th _ => by
    rw [val_issueOf, jumpTarget_eq]
    rfl

/-- JLR (R82). A link pushed to a queue name takes effect three cycles after issue, as `State.writeReg` has it: the model's choice,
log 102. -/
theorem does_jlr : Does (.jlr sm rd ra) fun s tk u =>
    (u.writeReg tk rd (((s.thread tk).pc + 4).zeroExtend 64)).setPc tk
      (BitVec.ofNat 48 ((s.operand tk (.jlr sm rd ra) 1).toNat % 2 ^ 48 / 4 * 4)) :=
  does_noCheck (fun _ => rfl) fun s tk th hth => by
    rw [val_issueOf, jumpTarget_eq, State.thread_of_thread? hth]
    rfl

section Branches
variable (b : BitVec 6) (disp : BitVec 12)

theorem branches_bbs : Branches (.bbs sm ra b disp) disp fun a => a.getLsbD b.toNat := branches_of_exec (fun _ => rfl) fun _ => rfl

theorem branches_bbc : Branches (.bbc sm ra b disp) disp fun a => !a.getLsbD b.toNat :=
  branches_of_exec (p := fun a => !bitAt a b.toNat) (fun _ => rfl) fun _ => rfl

theorem branches_bz : Branches (.bz sm ra disp) disp fun a => decide (a = 0) :=
  branches_of_exec (fun a => beq_eq_decide a 0) fun _ => rfl

theorem branches_bnz : Branches (.bnz sm ra disp) disp fun a => decide (a ≠ 0) :=
  branches_of_exec (fun a => relNe_eq a 0) fun _ => rfl

end Branches

/-- BLOOP: a count of 0 ends the loop as it stands, and any other is counted down (R84). -/
theorem does_bloop (disp : BitVec 12) : Does (.bloop sm ra disp) fun s tk u =>
    if s.operand tk (.bloop sm ra disp) 0 = 0 then u
    else s.branchFrom (u.writeReg tk ra (BitVec.ofInt 64 ((s.operand tk (.bloop sm ra disp) 0).toNat - 1))) tk disp
      (decide (s.operand tk (.bloop sm ra disp) 0 ≠ 1)) :=
  does_noCheck (fun _ => rfl) fun s tk th hth => funext fun u => by
    rw [val_issueOf]
    by_cases hzero : s.operand tk (.bloop sm ra disp) 0 = 0
    · rw [if_pos hzero, if_pos hzero]
    · rw [if_neg hzero, if_neg hzero, branchIf_issueOf _ _ _ _ hth, sub_one_bne_zero, sub_one_eq_ofInt]
      rfl

end Jumps
end Sys2Proof.Machine

namespace Sys2Proof
open Sys2Proof.Machine

/-- Settles O19: a jump and a link count from the word's own address, and each branch tests the value that R83 and R84 name. JLR's
link pushed to a queue name is the model's choice, log 102. -/
theorem jumpsAndBranches : Obligations.JumpsAndBranches := by
  unfold Obligations.JumpsAndBranches
  refine ⟨fun sm rd ra disp => ?_, fun sm ra b disp => ?_⟩
  · exact ⟨does_j sm disp, does_jl sm disp, does_jr sm ra, does_jlr sm rd ra⟩
  · exact ⟨branches_bbs sm ra b disp, branches_bbc sm ra b disp, branches_bz sm ra disp, branches_bnz sm ra disp,
      does_bloop sm ra disp⟩

end Sys2Proof
end

section
/-! Local faults and the end of a thread (R100, R282, R317): a state in which two threads stand under one key, and a channel core
whose supervisor takes over another launch's values. -/

set_option Elab.async false

namespace Sys2Proof.Machine

/-- The two threads under one key, the first of them about to issue. -/
def twoAboutToLoad : State := { twoOfOneSlot with cur := some 1 }

/-- LDB of g0 from the address in g1. -/
def loadByte : Instr := .ldb false (.g 0) (.g 1) 0 0

theorem ready_twoAboutToLoad : Ready loadByte twoAboutToLoad 1 trapper where
  issuing := ⟨rfl, rfl⟩
  pre := by decide
  window := by decide
  guard := by decide
  names := by decide
  noStop := by decide
  noEnd := by decide
  pops := by decide
  room := by decide
  noMarker := by decide

/-- The report of the first thread's fault ends the RECV of the second, and its status OK is written to the first. -/
theorem status_trap_twoAboutToLoad (cause : Nat) (ea : Word) : ((twoAboutToLoad.trap 1 3 cause ea).thread? 1).map (·.status) = some 0 := rfl

/-! ### A channel core that serves two launches (R317, log 95) -/

/-- The wait of a QUIT. -/
def quitting : Wait := { id := 7, instr := .quit false }

/-- The first channel core: its supervisor and the thread of slot 1, which ends, belong to launch 1, the thread of slot 2 to
launch 2; the core served launch 1 last. -/
def servesTwo : State :=
  { subj := { n := 65537 }
    threads := [(65536, { launch := 1 }), (65537, { launch := 1, task := 5, run := .wait quitting }), (65538, { launch := 2, task := 6 })]
    cores := [(1024, { lastLaunch := 1 })]
    disp := { tasks := [(5, { launch := 1, num := 0, x := 0, y := 0, team := 0, budget := 0, live := 2 })] } }

theorem canonical_servesTwo : Canonical servesTwo := ⟨rfl, rfl, rfl, rfl, rfl, nofun⟩

/-- The launch of the supervisor after the end of slot 1: that of the thread in slot 2. -/
theorem launch_threadEnd_servesTwo : ∀ t, exec .threadEnd servesTwo = .next t → (t.thread? 65536).map (·.launch) = some 2 := by
  intro t ht
  obtain rfl := Host.Outcome.next.inj ht
  rfl

end Sys2Proof.Machine

namespace Sys2Proof
open Sys2Proof.Machine

/-- Refutes O22: nothing in it says that the keys of the threads rise. Where a second thread stands under the key of the slot that
traps, and waits in a RECV on the trap port, the report of the fault ends that RECV, and the status OK goes to the slot that
trapped. -/
theorem not_localFaults : ¬ Obligations.LocalFaults := by
  intro h
  obtain ⟨-, -, hcause⟩ := h false (.g 0) (.g 1) 0 0 twoAboutToLoad 1 trapper loadByte 1 List.mem_cons_self ready_twoAboutToLoad
  obtain ⟨hth, -⟩ := hcause 1 (by decide)
  have hst := (status_trap_twoAboutToLoad 1 _).symm.trans (congrArg (Option.map (·.status)) hth)
  exact absurd hst (by decide)

/-- Refutes O48: the list of threads loses the thread that ends, but on a channel core that is not all. The core goes on to serve the
launch of a thread that is left there, and its supervisor holds that launch's values from then on (R317, log 95). -/
theorem not_threadEvents : ¬ Obligations.ThreadEvents := by
  intro h
  obtain ⟨hend, -⟩ := h servesTwo 65537 { launch := 1, task := 5, run := .wait quitting } quitting canonical_servesTwo rfl rfl
  obtain ⟨-, -, hplain⟩ := hend _ rfl (by decide) rfl
  obtain ⟨t, ht, hthreads, -⟩ := hplain rfl fun hl => absurd rfl hl.1
  have hl := launch_threadEnd_servesTwo t ht
  rw [State.thread?, hthreads] at hl
  exact absurd hl (by decide)

end Sys2Proof
end

section
/-! Global accesses at issue (R104 to R114, R138 to R143, R153): the state in which an effect begins, and what the end of an issue
leaves. -/

set_option Elab.async false

namespace Sys2Proof.Machine

/-! ### Where an effect begins and ends -/

@[simp] theorem State.popAll_nextId (s : State) (tk : Nat) (rs : List Reg) : (s.popAll tk rs).nextId = s.nextId :=
  foldl_keeps State.nextId _ (fun _ r => by cases r <;> rfl) rs s

theorem State.storeBuf_popReg (s : State) (tk : Nat) (r : Reg) (k : Nat) : ((s.popReg tk r).core k).storeBuf = (s.core k).storeBuf := by
  cases r with
  | q i =>
    refine (congrArg Core.storeBuf (s.core_modCore (coreOf tk) k _)).trans ?_
    split
    · subst k; rfl
    · rfl
  | _ => rfl

theorem State.storeBuf_popAll (s : State) (tk : Nat) (rs : List Reg) (k : Nat) :
    ((s.popAll tk rs).core k).storeBuf = (s.core k).storeBuf :=
  foldl_keeps (fun u : State => (u.core k).storeBuf) _ (fun u r => u.storeBuf_popReg tk r k) rs s

/-- The pops of an instruction and the step past it touch only the core's registers, queues and threads. -/
theorem State.untouched_afterPops (s : State) (i : Instr) (tk : Nat) : Untouched s (s.afterPops i tk) :=
  (Acts.popAll.trans (Acts.advance (r := none) (code := false) (tk := tk))).untouched

@[simp] theorem State.afterPops_nextId (s : State) (i : Instr) (tk : Nat) : (s.afterPops i tk).nextId = s.nextId := by
  simp [State.afterPops, State.advance]

@[simp] theorem State.afterPops_streams (s : State) (i : Instr) (tk : Nat) :
    (s.afterPops i tk).streams = (s.popAll tk (popList i)).streams := State.modThread_streams ..

/-- A state p inside the effect of an instruction that a thread of s issues: the thread is now u, and memory, registers and global
accesses are as at issue. -/
structure Amid (s p : State) (tk : Nat) (u : Thread) : Prop where
  thread : p.thread? tk = some u
  mem : p.mem = s.mem
  rf : p.rf = s.rf
  reqs : p.reqs = s.reqs
  nextId : s.nextId ≤ p.nextId
  storeBuf : (p.core (coreOf tk)).storeBuf = (s.core (coreOf tk)).storeBuf

/-- The thread of an issuing instruction when its effect begins. -/
def Thread.stepped (th : Thread) : Thread :=
  { th with pc := th.pc + 4, status := clearPrefix th.status, run := .ready, carry := none }

section
variable {i : Instr} {s p : State} {tk : Nat} {th u : Thread}

theorem amid_afterPops (i : Instr) (h : s.thread? tk = some th) : Amid s (s.afterPops i tk) tk th.stepped where
  thread := by
    have hp : (s.popAll tk (popList i)).thread? tk = some th := by rw [State.thread?, State.popAll_threads]; exact h
    rw [State.afterPops, State.advance, State.thread?_modThread, hp]
    rfl
  mem := (s.untouched_afterPops i tk).mem
  rf := s.afterPops_rf i tk
  reqs := (s.untouched_afterPops i tk).reqs
  nextId := (s.afterPops_nextId i tk).ge
  storeBuf := (congrArg Core.storeBuf (State.core_modThread ..)).trans (s.storeBuf_popAll tk _ _)

/-- A number taken leaves the rest. -/
theorem Amid.fresh (h : Amid s p tk u) : Amid s p.fresh.2 tk u :=
  ⟨h.thread, h.mem, h.rf, h.reqs, h.nextId.trans (Nat.le_succ _), h.storeBuf⟩

/-- So does a change of the thread. -/
theorem Amid.modThread (h : Amid s p tk u) (f : Thread → Thread) : Amid s (p.modThread tk f) tk (f u) :=
  ⟨by rw [State.thread?_modThread, h.thread, Option.map_some], (State.modThread_mem ..).trans h.mem,
    (State.modThread_rf ..).trans h.rf, (State.modThread_reqs ..).trans h.reqs, h.nextId.trans (State.modThread_nextId ..).ge,
    (congrArg Core.storeBuf (State.core_modThread ..)).trans h.storeBuf⟩

/-- The state t in which an issue ends has the accesses, streams and registers of the state v that its effect has left. -/
structure Ends (v t : State) (tk : Nat) : Prop where
  untouched : Untouched v t
  rf : t.rf = v.rf
  streams : t.streams = v.streams
  nextId : t.nextId = v.nextId
  storeBuf : (t.core (coreOf tk)).storeBuf = (v.core (coreOf tk)).storeBuf

theorem ends_takeTurn (v : State) (i : Instr) (tk : Nat) : Ends v ((v.settleSwitch i tk).takeTurn tk) tk := by
  have hs : (v.settleSwitch i tk).streams = v.streams ∧ (v.settleSwitch i tk).nextId = v.nextId := by
    unfold State.settleSwitch
    split
    · exact ⟨State.modThread_streams .., State.modThread_nextId ..⟩
    · exact ⟨rfl, rfl⟩
  refine ⟨(Acts.settleSwitch.trans (Acts.takeTurn (r := none) (code := false) (tk := tk))).untouched, by simp, hs.1, hs.2, ?_⟩
  rw [State.core_takeTurn]
  simp [State.core]

/-- An instruction whose effect has left a state v with its thread u completes with what v holds; the thread's run state may have
become that of the switch marker. -/
theorem completes_ends {eff : State → State} {v : State} {P : State → Thread → Prop}
    (hx : exec i s = .next (issued i s tk eff)) (hv : eff (s.afterPops i tk) = v) (hu : v.thread? tk = some u)
    (hP : ∀ t r, Ends v t tk → (u.run ≠ .ready → r = u.run) → P t { u with run := r }) : Completes i s tk P := by
  obtain ⟨r, hr, hrun⟩ := State.thread?_settleSwitch i hu
  refine ⟨(v.settleSwitch i tk).takeTurn tk, { u with run := r }, ?_, hr, rfl, hP _ r (ends_takeTurn v i tk) hrun⟩
  rw [hx, ← hv]
  rfl

end

end Sys2Proof.Machine
end

section
/-! Global stores and atomics at issue (R110 to R113, R138 to R143). -/

set_option Elab.async false

namespace Sys2Proof.Machine

/-- The effective address of R105 and R111, over the integers. -/
theorem globalEa_eq_ofInt (a : Word) {n : Nat} (o : BitVec n) (unit : Nat) :
    globalEa a o unit = (BitVec.ofInt 64 (a.toInt + o.toInt * unit)).toNat := by
  rw [BitVec.ofInt_add, BitVec.ofInt_mul, BitVec.ofInt_toInt, BitVec.ofInt_natCast]
  rfl

/-! ### The store buffer -/

/-- The cause that a request has from its alignment alone. -/
def Req.misaligned (r : Req) : Nat := if r.ea % r.bytes = 0 then 0 else 2

/-- A request as it stands in the store buffer (R110, R111). -/
def Req.buffered (r : Req) : Req := { r with stage := .buffered, fault := r.misaligned }

/-- A store-fault log after a request has entered the buffer: a misaligned one is in it, unless it held a fault (R113). -/
def Req.logged (r : Req) (log : Option (Nat × Word)) : Option (Nat × Word) :=
  if r.ea % r.bytes = 0 then log else some (log.getD (2, BitVec.ofNat 64 r.ea))

/-- A request put in the store buffer and counted in its thread's U. -/
def State.count (s : State) (r : Req) : State :=
  ((s.putReq r).modThread r.tk fun th => { th with u := th.u + 1 }).modCore (coreOf r.tk) fun c =>
    { c with storeBuf := c.storeBuf ++ [r.id] }

/-- Entering the buffer is one change of the thread behind the count. -/
theorem State.enterBuffer_eq (s : State) (r : Req) : s.enterBuffer r =
    if r.ea % r.bytes = 0 then s.count r.buffered
    else (s.count r.buffered).modThread r.tk fun th => { th with log := some (th.log.getD (2, word r.ea)) } := by
  unfold State.enterBuffer State.count Req.buffered Req.misaligned
  by_cases h : r.ea % r.bytes = 0 <;> simp [h]

section
variable {i : Instr} {s p : State} {tk : Nat} {th u : Thread} {r : Req}

/-- A state v inside the effect of an instruction of s whose request r is the last in the store buffer; the thread is u. -/
structure InBuffer (s v : State) (tk : Nat) (u : Thread) (r : Req) : Prop where
  thread : v.thread? tk = some u
  mem : v.mem = s.mem
  rf : v.rf = s.rf
  reqs : v.reqs = SMap.put s.reqs r.id r
  nextId : r.id < v.nextId
  storeBuf : (v.core (coreOf tk)).storeBuf = (s.core (coreOf tk)).storeBuf ++ [r.id]

theorem Amid.count (h : Amid s p tk u) (hr : r.tk = tk) (hid : r.id < p.nextId) :
    InBuffer s (p.count r) tk { u with u := u.u + 1 } r := by
  subst hr
  refine ⟨?_, (State.modThread_mem ..).trans h.mem, (State.modThread_rf ..).trans h.rf, ?_, ?_, ?_⟩
  · refine (State.thread?_modThread (p.putReq r) r.tk _).trans ?_
    exact congrArg (Option.map _) h.thread
  · refine (State.modThread_reqs ..).trans ?_
    rw [State.putReq_reqs, h.reqs]
  · exact hid.trans_eq (State.modThread_nextId (p.putReq r) r.tk _).symm
  · rw [State.count, State.core_modCore, if_pos rfl, State.core_modThread]
    exact congrArg (· ++ [r.id]) h.storeBuf

/-- A request that enters the buffer stands in it, and the log has its fault. -/
theorem Amid.enterBuffer (h : Amid s p tk u) (hr : r.tk = tk) (hid : r.id < p.nextId) :
    InBuffer s (p.enterBuffer r) tk { u with u := u.u + 1, log := r.logged u.log } r.buffered := by
  have hc := h.count (r := r.buffered) hr hid
  rw [State.enterBuffer_eq, Req.logged]
  split
  · exact hc
  · subst hr
    refine ⟨?_, (State.modThread_mem ..).trans hc.mem, (State.modThread_rf ..).trans hc.rf,
      (State.modThread_reqs ..).trans hc.reqs, hc.nextId.trans_eq (State.modThread_nextId ..).symm,
      (congrArg Core.storeBuf (State.core_modThread ..)).trans hc.storeBuf⟩
    rw [State.thread?_modThread, hc.thread]
    rfl

/-- A request as its thread's instruction makes it: everything of it that does not depend on the access. -/
structure Made (i : Instr) (s : State) (tk : Nat) (r : Req) : Prop where
  thread : r.tk = tk
  node : r.node = nodeOf (coreOf tk)
  instr : r.instr = i
  launch : r.launch = (s.thread tk).launch

/-- The launch of the thread when its effect begins. -/
theorem Amid.launch (h : Amid s p tk u) : (p.thread tk).launch = u.launch := by rw [State.thread_of_thread? h.thread]

theorem Amid.made_mkReq (h : Amid s p tk u) (hth : s.thread? tk = some th) (hu : u.launch = th.launch) (i : Instr) (ea bytes : Nat) :
    Made i s tk (p.mkReq i (s.issueOf tk th i) ea bytes).1 :=
  ⟨rfl, rfl, rfl, h.launch.trans (hu.trans (by rw [State.thread_of_thread? hth]))⟩

/-- Its entry in the buffer changes none of that. -/
theorem Made.buffered (h : Made i s tk r) : Made i s tk r.buffered := ⟨h.thread, h.node, h.instr, h.launch⟩

theorem Made.oneRequest {t : State} {P : Req → Prop} (h : Made i s tk r) (hreqs : t.reqs = SMap.put s.reqs r.id r) (hlo : s.nextId ≤ r.id)
    (hhi : r.id < t.nextId) (hP : P r) : OneRequest i s t tk P :=
  ⟨r, hreqs, hlo, hhi, h.thread, h.node, h.instr, h.launch, hP⟩

/-- An instruction whose effect ends with its request in the buffer. -/
theorem completes_enterBuffer {eff : State → State} {P : State → Thread → Prop} (h : Amid s p tk u) (hm : Made i s tk r)
    (hlo : s.nextId ≤ r.id) (hid : r.id < p.nextId) (hx : exec i s = .next (issued i s tk eff))
    (hv : eff (s.afterPops i tk) = p.enterBuffer r)
    (hP : ∀ t u', u'.pc = u.pc ∧ u'.u = u.u + 1 ∧ u'.amos = u.amos ∧ u'.log = r.logged u.log → t.mem = s.mem ∧ t.rf = s.rf →
      (t.core (coreOf tk)).storeBuf = (s.core (coreOf tk)).storeBuf ++ [r.id] →
      (∀ Q : Req → Prop, Q r.buffered → OneRequest i s t tk Q) → P t u') : Completes i s tk P := by
  have hb := h.enterBuffer hm.thread hid
  exact completes_ends hx hv hb.thread fun t r' he _ => hP t _ ⟨rfl, rfl, rfl, rfl⟩
    ⟨he.untouched.mem.trans hb.mem, he.rf.trans hb.rf⟩ (he.storeBuf.trans hb.storeBuf)
    fun Q => hm.buffered.oneRequest (he.untouched.reqs.trans hb.reqs) hlo (hb.nextId.trans_eq he.nextId.symm)

/-- With a free entry of the store buffer and U below 255 there is room (R110). -/
theorem storeRoom_go (h : s.thread? tk = some th) (hbuf : (s.core (coreOf tk)).storeBuf.length < 32) (hu : th.u < 255) (i : Instr) :
    storeRoom (s.issueOf tk th i) s = .go := by
  refine if_pos ⟨hbuf, ?_⟩
  rw [show (s.issueOf tk th i).tk = tk from rfl, State.thread_of_thread? h]
  exact hu

end

/-! ### Bytes of a value (R3) -/

theorem length_toBytes (n v : Nat) : (toBytes n v).length = n := by
  induction n generalizing v with
  | zero => rfl
  | succ n ih => rw [toBytes, List.length_cons, ih]

/-- The bytes of a value make its low bytes. -/
theorem ofBytes_toBytes (n v : Nat) : ofBytes (toBytes n v) = v % 256 ^ n := by
  induction n generalizing v with
  | zero => rw [Nat.pow_zero, Nat.mod_one]; rfl
  | succ n ih =>
    rw [Nat.pow_succ', Nat.mod_mul, toBytes, ofBytes, ih, BitVec.toNat_ofNat]

/-! ### GST and GSTV (R111, R112) -/

/-- A group's bytes make the number of its doublewords, lowest first (R112). -/
theorem ofBytes_bytesOfDwords (ws : List Word) (k : Nat) :
    ofBytes (bytesOfDwords ws) * 2 ^ (64 * k) = ((ws.zipIdx k).map fun v => v.1.toNat * 2 ^ (64 * v.2)).sum := by
  induction ws generalizing k with
  | nil => simp [bytesOfDwords, ofBytes]
  | cons w ws ih =>
    have hw : ofBytes (toBytes 8 w.toNat) = w.toNat := by rw [ofBytes_toBytes]; exact Nat.mod_eq_of_lt w.isLt
    rw [bytesOfDwords, ofBytes_append, hw, length_toBytes, List.zipIdx_cons, List.map_cons, List.sum_cons, ← ih, Nat.mul_add,
      Nat.pow_add]
    ring

section
variable {sm : Bool} {rd ra : Reg} {r : BitVec 2} {q : BitVec 1} {o : BitVec 5} {i : Instr} {s : State} {tk unit data : Nat}
  {th : Thread}

/-- The request of a global store (R111, R112). -/
def State.storeReq (p : State) (i : Instr) (x : Issue) (ea unit data ret : Nat) (rel : Bool) : Req :=
  { (p.mkReq i x ea unit).1 with ret := ret, rel := rel, data := data }

/-- What a global store at issue leaves (R110 to R113). -/
def Stores (i : Instr) (s : State) (tk : Nat) (th : Thread) (ea unit data ret : Nat) (rel : Bool) : Prop :=
  Completes i s tk fun t u => u.pc = th.pc + 4 ∧ t.mem = s.mem ∧ t.rf = s.rf ∧ u.u = th.u + 1 ∧
    (OneRequest i s t tk fun w => w.ea = ea ∧ w.bytes = unit ∧ w.data = data ∧ w.stage = .buffered ∧ w.ret = ret ∧
      w.rel = rel ∧ w.fault = (if ea % unit = 0 then 0 else 2) ∧
      (t.core (coreOf tk)).storeBuf = (s.core (coreOf tk)).storeBuf ++ [w.id]) ∧
    u.log = (if ea % unit = 0 then th.log else some (th.log.getD (2, BitVec.ofNat 64 ea)))

theorem stores_of_effect {eff : Issue → State → State} {ea : Nat} {ret : Nat} {rel : Bool} (hr : Ready i s tk th)
    (hbuf : (s.core (coreOf tk)).storeBuf.length < 32) (hu : th.u < 255) (hx : exec i s = issue i storeRoom eff s)
    (hv : eff (s.issueOf tk th i) (s.afterPops i tk) = (s.afterPops i tk).fresh.2.enterBuffer
      ((s.afterPops i tk).storeReq i (s.issueOf tk th i) ea unit data ret rel)) :
    Stores i s tk th ea unit data ret rel := by
  have hth := hr.issuing.2
  have ha := amid_afterPops i hth
  rw [issue_ready hr (storeRoom_go hth hbuf hu i)] at hx
  generalize hp : s.afterPops i tk = p at ha hv
  obtain ⟨htk, hnode, hinstr, hl⟩ := ha.made_mkReq hth rfl i ea unit
  have hm : Made i s tk (p.storeReq i (s.issueOf tk th i) ea unit data ret rel) := ⟨htk, hnode, hinstr, hl⟩
  exact completes_enterBuffer ha.fresh hm ha.nextId (Nat.lt_succ_self _) hx (hp.symm ▸ hv)
    fun t u ⟨hpc, hcount, _, hlog⟩ ⟨hmem, hrf⟩ hsb hone =>
      ⟨hpc, hmem, hrf, hcount, hone _ ⟨rfl, rfl, rfl, rfl, rfl, rfl, rfl, hsb⟩, hlog⟩

end

end Sys2Proof.Machine

namespace Sys2Proof
open Sys2Proof.Machine

/-- Settles O25: both stores enter the buffer with their request; its fault and the log follow from its alignment. -/
theorem globalStores : Obligations.GlobalStores := by
  unfold Obligations.GlobalStores
  intro sm rd ra r z q o i unit data s tk th hi hr hbuf hu
  simp only [List.mem_cons, List.not_mem_nil, or_false, Prod.mk.injEq] at hi
  rcases hi with ⟨hi, hunit, hdata⟩ | ⟨hi, hunit, hdata⟩ <;> subst hi hunit <;> rw [hdata]
  · refine stores_of_effect hr hbuf hu rfl ?_
    rw [← globalEa_eq_ofInt, ← val_issueOf s tk th, ← val_issueOf s tk th, show 2 ^ z.toNat = sizeBytes z from rfl]
    generalize s.afterPops _ tk = p
    rfl
  · refine stores_of_effect hr hbuf hu rfl ?_
    rw [← globalEa_eq_ofInt, ← val_issueOf s tk th, ← State.readGroup_afterPops (.gstv sm rd ra r q o) rd hr.issuing.2]
    have := ofBytes_bytesOfDwords ((s.afterPops (.gstv sm rd ra r q o) tk).readGroup tk rd) 0
    rw [Nat.mul_zero, Nat.pow_zero, Nat.mul_one] at this
    rw [← this]
    generalize s.afterPops _ tk = p
    rfl

end Sys2Proof
end

section
/-! AMO, ACAS and RED at issue (R138, R140, R143). -/

set_option Elab.async false

namespace Sys2Proof.Machine

section
variable {i : Instr} {s : State} {tk av : Nat} {lands : Bool} {th : Thread}

/-- A thread whose atomic has been issued: one result more is outstanding when it returns its old value. -/
def Thread.awaiting (th : Thread) (lands : Bool) : Thread := if lands then { th with amos := th.amos + 1 } else th

/-- The same of the thread in its slot. -/
def State.awaiting (s : State) (tk : Nat) (lands : Bool) : State :=
  if lands then s.modThread tk fun th => { th with amos := th.amos + 1 } else s

theorem Amid.awaiting {p : State} {u : Thread} (h : Amid s p tk u) (lands : Bool) : Amid s (p.awaiting tk lands) tk (u.awaiting lands) := by
  cases lands
  · exact h
  · exact h.modThread _

theorem State.awaiting_nextId (s : State) (tk : Nat) (lands : Bool) : (s.awaiting tk lands).nextId = s.nextId := by
  cases lands
  · rfl
  · exact State.modThread_nextId ..

/-- The request of an atomic access (R138, R140). -/
def State.atomicReq (p : State) (i : Instr) (x : Issue) (av : Nat) : Req :=
  { (p.mkReq i x (x.val av).toNat (atomicBytes x.fmt)).1 with
    data := (x.val (av + 1)).toNat % 2 ^ (8 * atomicBytes x.fmt), exp := (x.val 0).toNat % 2 ^ (8 * atomicBytes x.fmt)
    acq := x.ord % 2 == 1, rel := x.ord / 2 == 1 }

/-- What an atomic access at issue leaves (R110, R138, R140, R143). -/
theorem completes_issueAtomic (hr : Ready i s tk th) (hbuf : (s.core (coreOf tk)).storeBuf.length < 32) (hu : th.u < 255)
    (hx : exec i s = issueAtomic i av lands s) :
    let n := if preFmt (prefixOf th) = 8 then 4 else 8
    let ea := (s.operand tk i av).toNat
    Completes i s tk fun t u => u.pc = th.pc + 4 ∧ t.mem = s.mem ∧ t.rf = s.rf ∧ u.u = th.u + 1 ∧
      u.amos = (if lands then th.amos + 1 else th.amos) ∧
      OneRequest i s t tk fun w => w.ea = ea ∧ w.bytes = n ∧ w.data = (s.operand tk i (av + 1)).toNat % 2 ^ (8 * n) ∧
        w.exp = (s.operand tk i 0).toNat % 2 ^ (8 * n) ∧ w.stage = .buffered ∧
        w.acq = (preOrd (prefixOf th) % 2 == 1) ∧ w.rel = (preOrd (prefixOf th) / 2 == 1) ∧
        w.fault = (if ea % n = 0 then 0 else 2) ∧
        (t.core (coreOf tk)).storeBuf = (s.core (coreOf tk)).storeBuf ++ [w.id] := by
  intro n ea
  have hth := hr.issuing.2
  have ha := amid_afterPops i hth
  rw [issueAtomic, issue_ready hr (storeRoom_go hth hbuf hu i)] at hx
  generalize hp : s.afterPops i tk = p at ha
  obtain ⟨htk, hnode, hinstr, hl⟩ := ha.made_mkReq hth rfl i ea n
  have hm : Made i s tk (p.atomicReq i (s.issueOf tk th i) av) := ⟨htk, hnode, hinstr, hl⟩
  have hamos : (th.stepped.awaiting lands).amos = if lands then th.amos + 1 else th.amos := by cases lands <;> rfl
  have hrest : (th.stepped.awaiting lands).pc = th.pc + 4 ∧ (th.stepped.awaiting lands).u = th.u := by cases lands <;> exact ⟨rfl, rfl⟩
  refine completes_enterBuffer (ha.fresh.awaiting lands) hm ha.nextId
    ((Nat.lt_succ_self p.nextId).trans_eq (State.awaiting_nextId p.fresh.2 tk lands).symm) hx (by rw [hp]; rfl) ?_
  intro t u ⟨hpc, hcount, ham, _⟩ ⟨hmem, hrf⟩ hsb hone
  refine ⟨hpc.trans hrest.1, hmem, hrf, hcount.trans (congrArg (· + 1) hrest.2), ham.trans hamos, hone _ ?_⟩
  simp only [← val_issueOf s tk th, n, ea]
  exact ⟨rfl, rfl, rfl, rfl, rfl, rfl, rfl, rfl, hsb⟩

end

end Sys2Proof.Machine

namespace Sys2Proof
open Sys2Proof.Machine

/-- Settles O27: every AMO, ACAS and RED is `issueAtomic` with its address field. -/
theorem atomicsIssue : Obligations.AtomicsIssue := by
  unfold Obligations.AtomicsIssue
  intro sm rd ra rb i av lands s tk th hi hr hbuf hu
  refine completes_issueAtomic hr hbuf hu ?_
  simp only [List.mem_cons, List.not_mem_nil, or_false, Prod.mk.injEq] at hi
  rcases hi with hi | hi | hi | hi | hi | hi | hi | hi | hi | hi | hi | hi | hi | hi | hi | hi | hi | hi <;>
    obtain ⟨rfl, rfl, rfl⟩ := hi <;> rfl

end Sys2Proof
end

section
/-! FENCE and its completion (R153). -/

set_option Elab.async false

namespace Sys2Proof.Machine

section
variable {sm : Bool} {e : BitVec 4} {c : BitVec 3} {s : State} {tk : Nat} {th : Thread} {w : Wait}

@[simp] theorem State.beginWait_reqs {p : State} {i : Instr} {x : Issue} {d : Option Nat} {stage : Nat} :
    (p.beginWait i x d stage).reqs = p.reqs := State.modThread_reqs ..

/-- FENCE parks its thread, with its bound. -/
theorem completes_fence_parked (hr : Ready (.fence sm e c) s tk th) (hc : th.carry = none) :
    Completes (.fence sm e c) s tk fun t u => t.mem = s.mem ∧ t.rf = s.rf ∧ t.reqs = s.reqs ∧
      Waits s tk th u (.fence sm e c) (boundOf s e) fun _ => True := by
  have hth := hr.issuing.2
  have ha := amid_afterPops (.fence sm e c) hth
  have hcyc : (s.afterPops (.fence sm e c) tk).cycle = s.cycle := (within_afterPops rfl hth).cycle
  have hv : (s.afterPops (.fence sm e c) tk).bound e.toNat = boundOf s e := State.bound_eq hcyc e
  refine completes_ends (issue_noCheck hr) (congrArg (State.beginWait _ _ _ · 0) hv)
    (State.thread?_beginWait (x := s.issueOf tk th (.fence sm e c)) hc ha.thread) ?_
  intro t r he hrun
  refine ⟨he.untouched.mem.trans (State.beginWait_mem.trans ha.mem), he.rf.trans (State.beginWait_rf.trans ha.rf),
    he.untouched.reqs.trans (State.beginWait_reqs.trans ha.reqs), _, hrun nofun, rfl, rfl, rfl, fun n hn => ?_, trivial⟩
  simp [newWait, State.issueOf, hn]

/-- A wait that ends with a status leaves its status and its thread past the word; memory, registers and the log stay. -/
theorem endsWith_finishWait (h : s.thread? tk = some th) (hw : th.run = .wait w) (code : BitVec 3) :
    EndsWith s (s.finishWait tk code.toNat) tk th code ∧ (s.finishWait tk code.toNat).mem = s.mem ∧
      (s.finishWait tk code.toNat).rf = s.rf ∧ ∃ u, (s.finishWait tk code.toNat).thread? tk = some u ∧ u.log = th.log := by
  have hset : (s.setStatus tk code.toNat).thread? tk = some { th with status := setStatusField th.status code.toNat } := by
    rw [State.setStatus, State.thread?_modThread, h]; rfl
  have hwait : ((s.setStatus tk code.toNat).thread tk).wait? = some w := by
    rw [State.thread_of_thread? hset, Thread.wait?, hw]
  have hmem : (s.setStatus tk code.toNat).mem = s.mem := State.modThread_mem ..
  have hrf : (s.setStatus tk code.toNat).rf = s.rf := State.modThread_rf ..
  have hcyc : (s.setStatus tk code.toNat).cycle = s.cycle := State.modThread_cycle ..
  have hcode : codeOf { th with status := setStatusField th.status code.toNat } = code := by
    rw [codeOf, code_setStatusField _ code.isLt, BitVec.ofNat_toNat, BitVec.setWidth_eq]
  rw [State.finishWait, State.completeWait]
  simp only [hwait]
  refine ⟨⟨_, (State.thread?_modThread ..).trans (congrArg _ hset), rfl, hcode, congrArg (· + 1) hcyc, ?_⟩,
    (State.modThread_mem ..).trans hmem, (State.modThread_rf ..).trans hrf, _, (State.thread?_modThread ..).trans (congrArg _ hset), rfl⟩
  dsimp only
  split
  · exact .inr rfl
  · exact .inl rfl

/-- A fence is complete once loads have landed, stores are acknowledged or gone, and no host store is to be made visible (R153). -/
theorem fenceReady_fence (h : s.thread? tk = some th) (hi : w.instr = .fence sm e c)
    (hloads : ∀ q ∈ s.reqs, q.2.tk = tk → isLoad q.2.instr = false) (hacked : c ≠ 0 → th.u = 0)
    (hleft : c = 0 → ∀ q ∈ s.reqs, q.2.tk = tk → q.2.stage ≠ .buffered) (hhost : c = 5 → th.hostStore = false) :
    s.fenceReady tk w = true := by
  have hscope : fenceScope w.instr = c.toNat := by rw [hi]; rfl
  have hl : (s.reqs.all fun q => q.2.tk != tk || !isLoad q.2.instr) = true := by
    simp only [List.all_eq_true, Bool.or_eq_true, bne_iff_ne, Bool.not_eq_true']
    exact fun q hq => Decidable.not_or_of_imp (hloads q hq)
  have hs : (if c.toNat = 0 then s.reqs.all fun q => q.2.tk != tk || q.2.stage != .buffered else (s.thread tk).u == 0) = true := by
    split
    · simp only [List.all_eq_true, Bool.or_eq_true, bne_iff_ne]
      exact fun q hq => Decidable.not_or_of_imp (hleft (BitVec.eq_of_toNat_eq ‹_›) q hq)
    · rw [State.thread_of_thread? h, beq_iff_eq]
      exact hacked fun h0 => ‹c.toNat ≠ 0› (by rw [h0]; rfl)
  have hn : s.needsHostRead tk c.toNat = false := by
    rw [State.needsHostRead, State.thread_of_thread? h, Bool.and_eq_false_iff, beq_eq_false_iff_ne]
    exact Decidable.not_or_of_imp fun h5 => hhost (BitVec.eq_of_toNat_eq h5)
  rw [State.fenceReady, State.drained, hscope, hl, hs, hn]
  rfl

/-- A complete fence without a logged fault ends OK. -/
theorem fenceComplete_eq_finishWait (h : s.thread? s.subj.n = some th) (hw : (s.thread s.subj.n).wait? = some w)
    (hi : w.instr = .fence sm e c) (hready : s.fenceReady s.subj.n w = true) (hlog : th.log = none) :
    exec .fenceComplete s = .next (s.finishWait s.subj.n 0) := by
  have hl : (s.thread s.subj.n).log = none := by rw [State.thread_of_thread? h, hlog]
  show execFenceComplete s = _
  simp only [execFenceComplete, hw, hi, hready, if_true, hl]

/-- A complete fence with a logged fault raises it (R113). -/
theorem fenceComplete_eq_logTrap {cause : Nat} {a : Word} (h : s.thread? s.subj.n = some th)
    (hw : (s.thread s.subj.n).wait? = some w) (hi : w.instr = .fence sm e c) (hready : s.fenceReady s.subj.n w = true)
    (hlog : th.log = some (cause, a)) :
    exec .fenceComplete s = .next ((s.modThread s.subj.n fun u => { u with log := none }).trap s.subj.n 3 cause a) := by
  have hl : (s.thread s.subj.n).log = some (cause, a) := by rw [State.thread_of_thread? h, hlog]
  show execFenceComplete s = _
  simp only [execFenceComplete, hw, hi, hready, if_true, hl]
  rfl

/-- At its bound the wait ends TIMEOUT. -/
theorem fenceTimeout_eq_finishWait (hw : (s.thread s.subj.n).wait? = some w) (hm : s.subj.m = w.id) :
    exec .fenceTimeout s = .next (s.finishWait s.subj.n 1) := by
  show execFenceTimeout s = _
  simp only [execFenceTimeout, hw, hm, ne_eq, not_true_eq_false, if_false]

/-- The endpoint's read leaves no host store to be made visible. -/
theorem fenceHostReadDone_eq (hw : (s.thread s.subj.n).wait? = some w) (hm : s.subj.m = w.id) :
    exec .fenceHostReadDone s = .next ((s.modWait s.subj.n fun w => { w with stage := 2 }).modThread s.subj.n fun th =>
      { th with hostStore := false }) := by
  show execFenceHostReadDone s = _
  simp only [execFenceHostReadDone, hw, hm, ne_eq, not_true_eq_false, if_false]

end

end Sys2Proof.Machine

namespace Sys2Proof
open Sys2Proof.Machine

/-- Settles O32: a complete fence ends or takes the log's trap, and neither a bound nor the endpoint's read asks for completeness. -/
theorem fences : Obligations.Fences := by
  unfold Obligations.Fences
  intro sm e c s tk th
  refine ⟨completes_fence_parked, fun w hn h hw hi => ?_⟩
  subst hn
  have hwait : (s.thread s.subj.n).wait? = some w := by rw [State.thread_of_thread? h, Thread.wait?, hw]
  refine ⟨fun hloads hacked hleft hhost => ?_, fun hm => ?_, fun hm => ?_⟩
  · have hready := fenceReady_fence h hi hloads hacked hleft hhost
    refine ⟨fun hlog => ⟨_, fenceComplete_eq_finishWait h hwait hi hready hlog, ?_⟩,
      fun cause a hlog => fenceComplete_eq_logTrap h hwait hi hready hlog⟩
    obtain ⟨hends, hmem, hrf, _⟩ := endsWith_finishWait h hw 0
    exact ⟨hends, hmem, hrf⟩
  · obtain ⟨hends, hmem, _, hlog⟩ := endsWith_finishWait h hw 1
    exact ⟨_, fenceTimeout_eq_finishWait hwait hm, hends, hmem, hlog⟩
  · refine ⟨_, fenceHostReadDone_eq hwait hm, { w with stage := 2 }, ?_, rfl⟩
    rw [State.modWait_eq _ h hw, State.thread?_modThread, State.thread?_modThread, h]
    rfl

end Sys2Proof
end

section
/-! Line control at issue (R114). -/

set_option Elab.async false

namespace Sys2Proof.Machine

/-! ### A walk asked for (R129) -/

/-- A walk that starts changes walks, timers and numbers alone: memory, threads, registers, streams, cores, requests and the lines
of every L1 stay. -/
structure WalkOnly (s t : State) : Prop where
  mem : t.mem = s.mem
  threads : t.threads = s.threads
  rf : t.rf = s.rf
  streams : t.streams = s.streams
  cores : t.cores = s.cores
  reqs : t.reqs = s.reqs
  nextId : s.nextId ≤ t.nextId
  l1 : ∀ node, (t.team node).l1 = (s.team node).l1

section
variable {s t u : State}

theorem WalkOnly.refl (s : State) : WalkOnly s s := ⟨rfl, rfl, rfl, rfl, rfl, rfl, le_rfl, fun _ => rfl⟩

theorem WalkOnly.trans (h : WalkOnly s t) (k : WalkOnly t u) : WalkOnly s u :=
  ⟨k.mem.trans h.mem, k.threads.trans h.threads, k.rf.trans h.rf, k.streams.trans h.streams, k.cores.trans h.cores,
    k.reqs.trans h.reqs, h.nextId.trans k.nextId, fun node => (k.l1 node).trans (h.l1 node)⟩

/-- A change of a node's walks. -/
theorem walkOnly_modTeam (s : State) (node : Nat) (f : Team → Team) (hf : ∀ v, (f v).l1 = v.l1) : WalkOnly s (s.modTeam node f) := by
  refine ⟨rfl, rfl, rfl, rfl, rfl, rfl, le_rfl, fun k => ?_⟩
  rw [State.team_modTeam]
  split
  · subst k; exact hf _
  · rfl

theorem walkOnly_beginWalk (s : State) (die : Nat) : WalkOnly s (s.beginWalk die) := by
  unfold State.beginWalk
  extract_lets l
  split
  · exact .refl s
  · split
    · exact .refl s
    · next node w _ =>
      have hd : WalkOnly s s.delay.2 := ⟨rfl, rfl, rfl, rfl, rfl, rfl, le_rfl, fun _ => rfl⟩
      have hm := walkOnly_modTeam s.delay.2 node (fun t => { t with walks := t.walks.map (markFlying w.id) }) fun _ => rfl
      exact (hd.trans hm).trans ⟨rfl, rfl, rfl, rfl, rfl, rfl, le_rfl, fun _ => rfl⟩

theorem walkOnly_startWalk (s : State) (node key ea cid : Nat) : WalkOnly s (s.startWalk node key ea cid) := by
  unfold State.startWalk
  split
  · exact .refl s
  · split
    · exact .refl s
    · have hf : WalkOnly s s.fresh.2 := ⟨rfl, rfl, rfl, rfl, rfl, rfl, Nat.le_succ _, fun _ => rfl⟩
      exact (hf.trans (walkOnly_modTeam s.fresh.2 node (fun t => { t with walks := t.walks ++ [_] }) fun _ => rfl)).trans
        (walkOnly_beginWalk _ _)

theorem walkOnly_lineNow (s : State) (node key ea : Nat) : WalkOnly s (s.lineNow node key ea).2 := by
  unfold State.lineNow
  split
  · exact walkOnly_startWalk s node key ea 0
  · exact .refl s

end

theorem team_congr {s t : State} (h : t.teams = s.teams) (node : Nat) : t.team node = s.team node := by rw [State.team, State.team, h]

/-- The target of a line-control instruction depends on memory, the teams and the dispatcher. -/
theorem lineNow_congr {s p : State} (hmem : p.mem = s.mem) (hteams : p.teams = s.teams) (hdisp : p.disp = s.disp) (node key ea : Nat) :
    (p.lineNow node key ea).1 = (s.lineNow node key ea).1 := by
  have hl : p.launch? key = s.launch? key := by rw [State.launch?, State.launch?, hdisp]
  have hx : p.lineXlat node key ea = s.lineXlat node key ea := by
    simp only [State.lineXlat, State.tlbFind, State.team, hl, hteams]
  have hw : (fun l : Launch => p.walkFrom l.root ea) = fun l => s.walkFrom l.root ea := funext fun l => walkFrom_congr hmem l.root ea
  rw [State.lineNow, State.lineNow, hx, hl, hw]
  split <;> rfl

section
variable {i : Instr} {s p : State} {tk : Nat} {th u : Thread}

/-- The target of the line whose address an issuing thread gives. -/
def State.lineOf (s : State) (tk : Nat) (th : Thread) (a : Word) : Xlat := (s.lineNow (nodeOf (coreOf tk)) th.launch a.toNat).1

theorem Amid.walkOnly {t : State} (h : Amid s p tk u) (hw : WalkOnly p t) : Amid s t tk u where
  thread := by rw [State.thread?, hw.threads]; exact h.thread
  mem := hw.mem.trans h.mem
  rf := hw.rf.trans h.rf
  reqs := hw.reqs.trans h.reqs
  nextId := h.nextId.trans hw.nextId
  storeBuf := by rw [State.core, hw.cores]; exact h.storeBuf

/-- What a line-control instruction sees of its line at issue. -/
theorem lineNow_afterPops (i : Instr) (h : s.thread? tk = some th) (a : Word) :
    ((s.afterPops i tk).lineNow (nodeOf (coreOf tk)) ((s.afterPops i tk).thread tk).launch a.toNat).1 = s.lineOf tk th a := by
  rw [(amid_afterPops i h).launch]
  exact lineNow_congr (s.untouched_afterPops i tk).mem (s.untouched_afterPops i tk).teams (s.untouched_afterPops i tk).disp _ _ _

/-! ### Requests of lines -/

/-- A thread whose line request counts in U, or does not. -/
def Thread.lineCounted (th : Thread) (counts : Bool) : Thread := if counts then { th with u := th.u + 1 } else th

/-- The request of a line. -/
def State.lineMade (p : State) (i : Instr) (x : Issue) (hint : Nat) : Req :=
  { (p.mkReq i x ((x.val 0).toNat / 64 * 64) 64).1 with ret := hint }

/-- A line's request made, and counted. -/
def State.putLine (p : State) (i : Instr) (x : Issue) (hint : Nat) (counts : Bool) : State :=
  let q := p.fresh.2.putReq (p.lineMade i x hint)
  if counts then q.modThread x.tk fun th => { th with u := th.u + 1 } else q

theorem lineReq_eq_of_fault {x : Issue} {hint : Nat} {counts : Bool} {c : Nat}
    (h : (p.lineNow x.node (p.thread x.tk).launch (x.val 0).toNat).1 = .fault c) :
    p.lineReq i x hint counts = (p.lineNow x.node (p.thread x.tk).launch (x.val 0).toNat).2 := by
  rw [State.lineReq]
  generalize p.lineNow x.node (p.thread x.tk).launch (x.val 0).toNat = y at h
  obtain ⟨_, q⟩ := y
  obtain rfl : _ = Xlat.fault c := h
  rfl

theorem lineReq_eq_putLine {x : Issue} {hint : Nat} {counts : Bool}
    (h : ∀ c, (p.lineNow x.node (p.thread x.tk).launch (x.val 0).toNat).1 ≠ .fault c) :
    p.lineReq i x hint counts = (p.lineNow x.node (p.thread x.tk).launch (x.val 0).toNat).2.putLine i x hint counts := by
  rw [State.lineReq]
  generalize p.lineNow x.node (p.thread x.tk).launch (x.val 0).toNat = y at h
  obtain ⟨y, q⟩ := y
  cases y with
  | fault c => exact absurd rfl (h c)
  | ok t => rfl
  | miss => rfl

/-- The state p that a line's request leaves: the request made, the thread counted, the rest as at issue. -/
theorem Amid.putLine (h : Amid s p tk u) (x : Issue) (hx : x.tk = tk) (hint : Nat) (counts : Bool) :
    let v := p.putLine i x hint counts
    v.thread? tk = some (u.lineCounted counts) ∧ v.mem = s.mem ∧ v.rf = s.rf ∧ v.streams = p.streams ∧
      v.reqs = SMap.put s.reqs p.nextId (p.lineMade i x hint) ∧ v.nextId = p.nextId + 1 := by
  subst hx
  have hreqs : (p.fresh.2.putReq (p.lineMade i x hint)).reqs = SMap.put s.reqs p.nextId (p.lineMade i x hint) := by
    rw [State.putReq_reqs, h.fresh.reqs]
    rfl
  cases counts
  · exact ⟨h.thread, h.mem, h.rf, rfl, hreqs, rfl⟩
  · refine ⟨(State.thread?_modThread ..).trans (congrArg _ h.thread), (State.modThread_mem ..).trans h.mem,
      (State.modThread_rf ..).trans h.rf, State.modThread_streams .., (State.modThread_reqs ..).trans hreqs, State.modThread_nextId ..⟩

/-- A line-control request at issue (R114). -/
theorem completes_lineReq {hint : Nat} {counts : Bool} (hr : Ready i s tk th)
    (hx : exec i s = .next (issued i s tk fun p => p.lineReq i (s.issueOf tk th i) hint counts)) :
    Completes i s tk fun t u => u.pc = th.pc + 4 ∧ t.mem = s.mem ∧ t.rf = s.rf ∧ t.streams = (s.popAll tk (popList i)).streams ∧
      (counts = false → u.u = th.u) ∧ (∀ c, s.lineOf tk th (s.operand tk i 0) = .fault c → u.u = th.u ∧ t.reqs = s.reqs) ∧
      ((∀ c, s.lineOf tk th (s.operand tk i 0) ≠ .fault c) → u.u = (th.u + if counts then 1 else 0) ∧
        OneRequest i s t tk fun w => w.ea = (s.operand tk i 0).toNat / 64 * 64 ∧ w.bytes = 64 ∧ w.ret = hint) := by
  have hth := hr.issuing.2
  have hline := lineNow_afterPops i hth (s.operand tk i 0)
  have hstreams := s.afterPops_streams i tk
  have ha := amid_afterPops i hth
  rw [← val_issueOf s tk th] at hline ⊢
  generalize hxv : s.issueOf tk th i = x at hline hx ⊢
  have hxt : x.tk = tk := by rw [← hxv]; rfl
  generalize hp : s.afterPops i tk = p at ha hline hstreams
  have hwalk := walkOnly_lineNow p (nodeOf (coreOf tk)) (p.thread tk).launch (x.val 0).toNat
  have hb := ha.walkOnly hwalk
  subst hxt
  by_cases hf : ∃ c, s.lineOf x.tk th (x.val 0) = .fault c
  · obtain ⟨c, hc⟩ := hf
    refine completes_ends hx (by rw [hp]; exact lineReq_eq_of_fault (hline.trans hc)) hb.thread fun t r he _ => ?_
    exact ⟨rfl, he.untouched.mem.trans hb.mem, he.rf.trans hb.rf, (he.streams.trans hwalk.streams).trans hstreams,
      fun _ => rfl, fun _ _ => ⟨rfl, he.untouched.reqs.trans hb.reqs⟩, fun hne => absurd hc (hne c)⟩
  · have hne : ∀ c, s.lineOf x.tk th (x.val 0) ≠ .fault c := fun c hc => hf ⟨c, hc⟩
    generalize hq : (p.lineNow (nodeOf (coreOf x.tk)) (p.thread x.tk).launch (x.val 0).toNat).2 = q at hb hwalk
    obtain ⟨hthread, hmem, hrf, hstr, hreqs, hnext⟩ := hb.putLine (i := i) x rfl hint counts
    have hv : p.lineReq i x hint counts = q.putLine i x hint counts := by
      rw [lineReq_eq_putLine fun c hc => hne c (hline.symm.trans hc), ← hq]; rfl
    have hm : Made i s x.tk (q.lineMade i x hint) := by
      obtain ⟨h1, h2, h3, h4⟩ := hb.made_mkReq hth rfl i ((x.val 0).toNat / 64 * 64) 64
      rw [hxv] at h1 h2 h3 h4
      exact ⟨h1, h2, h3, h4⟩
    refine completes_ends hx (by rw [hp]; exact hv) hthread fun t r he _ => ?_
    have hpc : (th.stepped.lineCounted counts).pc = th.pc + 4 := by cases counts <;> rfl
    have hu : (th.stepped.lineCounted counts).u = th.u + if counts then 1 else 0 := by cases counts <;> rfl
    exact ⟨hpc, he.untouched.mem.trans hmem, he.rf.trans hrf, ((he.streams.trans hstr).trans hwalk.streams).trans hstreams,
      fun hc => hu.trans (by rw [hc]; rfl), fun c hc => absurd hc (hne c), fun _ => ⟨hu, hm.oneRequest (he.untouched.reqs.trans hreqs) hb.nextId
        ((Nat.lt_succ_self _).trans_eq (hnext.symm.trans he.nextId.symm)) ⟨rfl, rfl, rfl⟩⟩⟩

/-! ### GINV -/

/-- The lines that a drop leaves in a node's L1. -/
theorem l1Drop_l1 (p : State) (node : Nat) (f : Nat → Bool) :
    ((p.l1Drop node f).team node).l1 = (p.team node).l1.filter fun l => !f l.pa :=
  congrArg Team.l1 ((State.team_modTeam p node node fun t => { t with l1 := t.l1.filter fun l => !f l.pa }).trans (if_pos rfl))

/-- The effect of GINV in a state p (R114). -/
def State.ginv (p : State) (x : Issue) : State :=
  if x.val 0 = -1 then p.l1Drop x.node fun _ => true
  else match p.lineNow x.node (p.thread x.tk).launch (x.val 0).toNat with
    | (.ok t, q) => q.l1Drop x.node fun l => l == Target.key t / 64
    | (_, q) => q

theorem neg_one_eq_allOnes : (-1 : Word) = BitVec.allOnes 64 := by decide

theorem ginv_all {x : Issue} (h : x.val 0 = BitVec.allOnes 64) : p.ginv x = p.l1Drop x.node fun _ => true :=
  if_pos (h.trans neg_one_eq_allOnes.symm)

theorem ginv_line {x : Issue} {t : Target} (h : x.val 0 ≠ BitVec.allOnes 64)
    (ht : (p.lineNow x.node (p.thread x.tk).launch (x.val 0).toNat).1 = .ok t) :
    p.ginv x = (p.lineNow x.node (p.thread x.tk).launch (x.val 0).toNat).2.l1Drop x.node fun l => l == Target.key t / 64 := by
  rw [State.ginv, if_neg (by rwa [neg_one_eq_allOnes])]
  generalize p.lineNow x.node (p.thread x.tk).launch (x.val 0).toNat = y at ht
  obtain ⟨_, q⟩ := y
  obtain rfl : _ = Xlat.ok t := ht
  rfl

theorem ginv_no_line {x : Issue} (h : x.val 0 ≠ BitVec.allOnes 64)
    (ht : ∀ t, (p.lineNow x.node (p.thread x.tk).launch (x.val 0).toNat).1 ≠ .ok t) :
    p.ginv x = (p.lineNow x.node (p.thread x.tk).launch (x.val 0).toNat).2 := by
  rw [State.ginv, if_neg (by rwa [neg_one_eq_allOnes])]
  generalize p.lineNow x.node (p.thread x.tk).launch (x.val 0).toNat = y at ht
  obtain ⟨y, q⟩ := y
  cases y with
  | ok t => exact absurd rfl (ht t)
  | fault c => rfl
  | miss => rfl

/-- GINV at issue (R114). -/
theorem completes_ginv {sm : Bool} {ra : Reg} (hr : Ready (.ginv sm ra) s tk th) :
    let node := nodeOf (coreOf tk)
    let a := s.operand tk (.ginv sm ra) 0
    Completes (.ginv sm ra) s tk fun t u => u.pc = th.pc + 4 ∧ t.mem = s.mem ∧ t.rf = s.rf ∧
      (a = BitVec.allOnes 64 → (t.team node).l1 = []) ∧
      (∀ x, a ≠ BitVec.allOnes 64 → s.lineOf tk th a = .ok x →
        (t.team node).l1 = (s.team node).l1.filter fun l => l.pa != Target.key x / 64) ∧
      (∀ c, a ≠ BitVec.allOnes 64 → s.lineOf tk th a = .fault c → (t.team node).l1 = (s.team node).l1 ∧ t.reqs = s.reqs) := by
  intro node a
  have hth := hr.issuing.2
  have ha := amid_afterPops (.ginv sm ra) hth
  have hline := lineNow_afterPops (.ginv sm ra) hth a
  have hteams := (s.untouched_afterPops (.ginv sm ra) tk).teams
  have hx : exec (.ginv sm ra) s = .next (issued (.ginv sm ra) s tk fun p => p.ginv (s.issueOf tk th (.ginv sm ra))) :=
    issue_noCheck hr
  have hval : (s.issueOf tk th (.ginv sm ra)).val 0 = a := val_issueOf ..
  have htk : (s.issueOf tk th (.ginv sm ra)).tk = tk := rfl
  generalize s.issueOf tk th (.ginv sm ra) = x at hx hval htk
  generalize hp : s.afterPops (.ginv sm ra) tk = p at ha hline hteams
  subst htk
  clear_value a
  subst hval
  by_cases hall : x.val 0 = BitVec.allOnes 64
  · refine completes_ends (v := p.l1Drop x.node fun _ => true) hx (by rw [hp]; exact ginv_all hall) ha.thread fun t r he _ =>
      ⟨rfl, he.untouched.mem.trans ha.mem, he.rf.trans ha.rf, fun _ => ?_, fun _ hne => absurd hall hne, fun _ hne => absurd hall hne⟩
    refine ((congrArg Team.l1 (team_congr he.untouched.teams _)).trans (l1Drop_l1 p x.node _)).trans ?_
    exact List.filter_eq_nil_iff.mpr fun _ _ => nofun
  · have hwalk := walkOnly_lineNow p node (p.thread x.tk).launch (x.val 0).toNat
    have hb := ha.walkOnly hwalk
    have hl1 : ((p.lineNow node (p.thread x.tk).launch (x.val 0).toNat).2.team node).l1 = (s.team node).l1 := by
      rw [hwalk.l1 node, team_congr hteams]
    by_cases hok : ∃ y, s.lineOf x.tk th (x.val 0) = .ok y
    · obtain ⟨y, hy⟩ := hok
      refine completes_ends (v := State.l1Drop _ x.node fun l => l == Target.key y / 64) hx
        (by rw [hp]; exact ginv_line hall (hline.trans hy)) hb.thread fun t r he _ =>
        ⟨rfl, he.untouched.mem.trans hb.mem, he.rf.trans hb.rf, fun h => absurd h hall, fun z _ hz => ?_,
          fun c _ hc => nomatch hy.symm.trans hc⟩
      obtain rfl : y = z := Xlat.ok.inj (hy.symm.trans hz)
      refine ((congrArg Team.l1 (team_congr he.untouched.teams _)).trans (l1Drop_l1 _ x.node _)).trans ?_
      exact congrArg (List.filter _) hl1
    · have hno : ∀ y, s.lineOf x.tk th (x.val 0) ≠ .ok y := fun y hy => hok ⟨y, hy⟩
      refine completes_ends hx (by rw [hp]; exact ginv_no_line hall fun y hy => hno y (hline.symm.trans hy)) hb.thread fun t r he _ =>
        ⟨rfl, he.untouched.mem.trans hb.mem, he.rf.trans hb.rf, fun h => absurd h hall, fun z _ hz => absurd hz (hno z),
          fun _ _ _ => ⟨?_, he.untouched.reqs.trans hb.reqs⟩⟩
      rw [team_congr he.untouched.teams]
      exact hl1

end

end Sys2Proof.Machine

namespace Sys2Proof
open Sys2Proof.Machine

/-- Settles O26: the line that an instruction acts on is the one its address has at issue, and a walk asked for changes none of what
is stated. -/
theorem lineControl : Obligations.LineControl := by
  unfold Obligations.LineControl
  intro sm ra r s tk th node line
  have hline (a : Word) : line a = s.lineOf tk th a := by
    dsimp only [line, node, State.lineOf, State.lineNow]
    cases s.lineXlat (nodeOf (coreOf tk)) th.launch a.toNat <;> rfl
  simp only [hline]
  refine ⟨completes_ginv, fun hr => ?_, fun i hi hr hu => ?_⟩
  · refine completes_mono (completes_lineReq (counts := false) hr (issue_noCheck hr)) ?_
    intro t u ⟨hpc, hmem, hrf, hstr, hcount, hfault, hok⟩
    exact ⟨hpc, hmem, hrf, hcount rfl, hstr, fun x hx => (hok fun c hc => nomatch hx.symm.trans hc).2, fun c hc => (hfault c hc).2⟩
  · have hx : Machine.exec i s = issueLineOp i s := by rcases hi with rfl | rfl <;> rfl
    have hroom : (s.thread tk).u < 255 := by rw [State.thread_of_thread? hr.issuing.2]; exact hu
    rw [issueLineOp, issue_ready hr (if_pos hroom)] at hx
    refine completes_mono (completes_lineReq (counts := true) hr hx) ?_
    intro t u ⟨hpc, hmem, hrf, _, _, hfault, hok⟩
    refine ⟨hpc, hmem, hrf, fun x hx => ?_, hfault⟩
    obtain ⟨hcount, w, hreqs, hlo, hhi, htk, hnode, hinstr, hl, hea, hbytes, _⟩ := hok fun c hc => nomatch hx.symm.trans hc
    exact ⟨hcount, w, hreqs, hlo, hhi, htk, hnode, hinstr, hl, hea, hbytes⟩

end Sys2Proof
end

section
/-! Loads into the stream registers at issue, bindings and counts (R104 to R109). -/

set_option Elab.async false

namespace Sys2Proof.Machine

/-! ### Entries claimed in a stream queue -/

/-- A stream that is not empty is what is read where it has been set. -/
theorem State.stream_setStream_of_ne (p : State) (tk k : Nat) {x : Stream} (h : x ≠ {}) : (p.setStream tk k x).stream tk k = x := by
  show SMap.getD (SMap.putD p.streams (8 * tk + k) x {}) (8 * tk + k) {} = x
  rw [SMap.putD, if_neg h]
  exact SMap.getD_put_same ..

/-- The entries that a claim makes, with the address of each where they are markers (log 12). -/
def claimed (n : Nat) (e : Elem) : List Elem :=
  (List.range n).map fun j => if e.landed then { e with value := e.value + word (8 * j) } else e

theorem claimed_waiting (n : Nat) {e : Elem} (h : e.landed = false) : claimed n e = List.replicate n e := by
  simp only [claimed, h, Bool.false_eq_true, if_false, List.map_const', List.length_range]

theorem length_claimed (n : Nat) (e : Elem) : (claimed n e).length = n := by rw [claimed, List.length_map, List.length_range]

/-- Each marker has the cause, and the address of its doubleword (R105, R106). -/
theorem getElem?_claimed_marker {n j ea : Nat} {e d : Elem} (h : e.landed = true) (hv : e.value = word ea)
    (hd : (claimed n e)[j]? = some d) : d.landed = true ∧ d.cause = e.cause ∧ d.value = BitVec.ofNat 64 (ea + 8 * j) := by
  rw [claimed, List.getElem?_map] at hd
  obtain ⟨m, hm, rfl⟩ := Option.map_eq_some_iff.mp hd
  obtain rfl : m = j := (List.getElem?_eq_some_iff.mp hm).2 ▸ List.getElem_range _
  rw [if_pos h]
  exact ⟨h, rfl, by rw [hv, word, word, ← BitVec.ofNat_add]⟩

/-- A claim puts its entries at the end of the queue, and keeps the binding. -/
theorem State.stream_claim (p : State) (tk k : Nat) {n : Nat} (hn : 0 < n) (e : Elem) : (p.claim tk k n e).stream tk k =
    { p.stream tk k with entries := (p.stream tk k).entries ++ claimed n e } := by
  refine p.stream_setStream_of_ne tk k fun h => ?_
  have hl := congrArg (fun x : Stream => x.entries.length) h
  rw [List.length_append, List.length_map, List.length_range] at hl
  exact absurd hl (by simp; omega)

/-- An entry that waits for a request. -/
def Elem.waitingFor (e : Elem) (id : Nat) : Elem := { e with serial := id }

/-- The marker of a misaligned request, with the address of its first byte. -/
def Elem.marker (e : Elem) (id ea : Nat) : Elem := { e with serial := id, landed := true, cause := 2, value := word ea }

/-- An aligned load claims its entries and is made. -/
theorem State.issueLoadReq_aligned {p : State} {r : Req} (h : r.ea % r.bytes = 0) (k n : Nat) (e : Elem) :
    p.issueLoadReq r k n e = (p.claim r.tk k n (e.waitingFor r.id)).putReq r := if_neg (not_not_intro h)

/-- A misaligned load leaves markers. -/
theorem State.issueLoadReq_misaligned {p : State} {r : Req} (h : r.ea % r.bytes ≠ 0) (k n : Nat) (e : Elem) :
    p.issueLoadReq r k n e = p.claim r.tk k n (e.marker r.id r.ea) := if_pos h

section
variable {i : Instr} {s p : State} {tk k m : Nat} {th u : Thread}

theorem Amid.setStream (h : Amid s p tk u) (j : Nat) (k : Nat) (x : Stream) : Amid s (p.setStream j k x) tk u :=
  ⟨h.thread, h.mem, h.rf, h.reqs, h.nextId, h.storeBuf⟩

theorem Amid.claim (h : Amid s p tk u) (j : Nat) (k n : Nat) (e : Elem) : Amid s (p.claim j k n e) tk u := h.setStream ..

/-- The registers of a thread inside an effect. -/
theorem Amid.readG (h : Amid s p tk u) (hth : s.thread? tk = some th) (hb : u.base = th.base) (n : Nat) : p.readG tk n = s.readG tk n := by
  rw [State.readG, State.readG, State.rfKey, State.rfKey, h.rf, State.thread_of_thread? h.thread, State.thread_of_thread? hth, hb]

theorem stream_congr {s t : State} (h : t.streams = s.streams) (tk k : Nat) : t.stream tk k = s.stream tk k := by
  rw [State.stream, State.stream, h]

/-! ### GLD and GLDV (R105, R106) -/

/-- The request of a global load. -/
def State.loadReq (p : State) (i : Instr) (x : Issue) (ea unit ret : Nat) (nc acq : Bool) : Req :=
  { (p.mkReq i x ea unit).1 with ret := ret, nc := nc, acq := acq }

/-- The entries of a global load before its request has a number. -/
def loadElem (id size ret : Nat) (nc acq : Bool) : Elem := { serial := id, size := size, ret := ret, nc := nc, acq := acq }

/-- The effect of a global load. -/
def State.loadInto (p : State) (i : Instr) (x : Issue) (k m ea unit size ret : Nat) (nc acq : Bool) : State :=
  p.fresh.2.issueLoadReq (p.loadReq i x ea unit ret nc acq) k m (loadElem p.nextId size ret nc acq)

/-- With free entries and no binding with requests left there is room (R105). -/
theorem claimCheck_go (hroom : (s.stream tk k).entries.length + m ≤ 8) (hbind : (s.stream tk k).bind = none) (i : Instr) :
    claimCheck s (s.issueOf tk th i) k m = .go := if_pos ⟨hroom, hbind⟩

/-- What a global load at issue leaves (R105, R106). -/
theorem completes_load {eff : Issue → State → State} {ea unit size ret : Nat} {nc acq : Bool} (hm : 0 < m) (hr : Ready i s tk th)
    (hroom : (s.stream tk k).entries.length + m ≤ 8) (hbind : (s.stream tk k).bind = none)
    (hx : exec i s = issue i (fun x s => claimCheck s x k m) eff s)
    (hv : eff (s.issueOf tk th i) (s.afterPops i tk) = (s.afterPops i tk).loadInto i (s.issueOf tk th i) k m ea unit size ret nc acq) :
    let before := ((s.popAll tk (popList i)).stream tk k).entries
    Completes i s tk fun t u => u.pc = th.pc + 4 ∧ t.mem = s.mem ∧ t.rf = s.rf ∧
      (ea % unit = 0 → OneRequest i s t tk fun w =>
        w.ea = ea ∧ w.bytes = unit ∧ w.stage = .port ∧ w.ret = ret ∧ w.nc = nc ∧ w.acq = acq ∧
        ∃ e : Elem, e.landed = false ∧ e.serial = w.id ∧ (t.stream tk k).entries = before ++ List.replicate m e) ∧
      (ea % unit ≠ 0 → t.reqs = s.reqs ∧ ∃ es : List Elem, (t.stream tk k).entries = before ++ es ∧ es.length = m ∧
        ∀ j e, es[j]? = some e → e.landed = true ∧ e.cause = 2 ∧ e.value = BitVec.ofNat 64 (ea + 8 * j)) := by
  intro before
  have hth := hr.issuing.2
  have ha := amid_afterPops i hth
  have hbefore : ((s.afterPops i tk).stream tk k).entries = before := congrArg Stream.entries (stream_congr (s.afterPops_streams i tk) tk k)
  rw [issue_ready hr (claimCheck_go hroom hbind i)] at hx
  generalize hp : s.afterPops i tk = p at ha hv hbefore
  obtain ⟨htk, hnode, hinstr, hl⟩ := ha.made_mkReq hth rfl i ea unit
  have hmade : Made i s tk (p.loadReq i (s.issueOf tk th i) ea unit ret nc acq) := ⟨htk, hnode, hinstr, hl⟩
  generalize hq : p.loadReq i (s.issueOf tk th i) ea unit ret nc acq = q at hmade
  have hqid : q.id = p.nextId := by rw [← hq]; rfl
  have hqea : q.ea = ea ∧ q.bytes = unit ∧ q.stage = .port ∧ q.ret = ret ∧ q.nc = nc ∧ q.acq = acq := by
    rw [← hq]; exact ⟨rfl, rfl, rfl, rfl, rfl, rfl⟩
  obtain ⟨hea, hunit, hstage, hret, hnc, hacq⟩ := hqea
  subst hea hunit
  rw [State.loadInto, hq] at hv
  by_cases hal : q.ea % q.bytes = 0
  · rw [State.issueLoadReq_aligned hal, hmade.thread] at hv
    have hc := ha.fresh.claim tk k m ((loadElem p.nextId size ret nc acq).waitingFor q.id)
    have hthread : ((p.fresh.2.claim tk k m ((loadElem p.nextId size ret nc acq).waitingFor q.id)).putReq q).thread? tk =
        some th.stepped := hc.thread
    refine completes_ends hx (hp.symm ▸ hv) hthread fun t r he _ => ⟨rfl, he.untouched.mem.trans hc.mem, he.rf.trans hc.rf,
      fun _ => hmade.oneRequest (he.untouched.reqs.trans ?_) (hqid ▸ ha.nextId) ?_
        ⟨rfl, rfl, hstage, hret, hnc, hacq, (loadElem p.nextId size ret nc acq).waitingFor q.id, rfl, rfl, ?_⟩,
      fun h => absurd hal h⟩
    · rw [State.putReq_reqs, hc.reqs]
    · rw [he.nextId, hqid]; exact Nat.lt_succ_self _
    · rw [stream_congr he.streams]
      refine (congrArg Stream.entries (State.stream_claim p.fresh.2 tk k hm _)).trans ?_
      rw [claimed_waiting m rfl]
      exact congrArg (· ++ _) hbefore
  · rw [State.issueLoadReq_misaligned hal, hmade.thread] at hv
    have hc := ha.fresh.claim tk k m ((loadElem p.nextId size ret nc acq).marker q.id q.ea)
    refine completes_ends hx (hp.symm ▸ hv) hc.thread fun t r he _ => ⟨rfl, he.untouched.mem.trans hc.mem, he.rf.trans hc.rf,
      fun h => absurd h hal, fun _ => ⟨he.untouched.reqs.trans hc.reqs, claimed m ((loadElem p.nextId size ret nc acq).marker q.id q.ea),
        ?_, length_claimed m _, fun j e hj => getElem?_claimed_marker rfl rfl hj⟩⟩
    rw [stream_congr he.streams]
    exact (congrArg Stream.entries (State.stream_claim p.fresh.2 tk k hm _)).trans (congrArg (· ++ _) hbefore)

/-! ### SBIND (R107) -/

/-- The bits above bit 52 of a word. -/
theorem fld_top (d : Word) : fld d 53 11 = d.toNat / 2 ^ 53 := by
  have := d.isLt
  rw [fld]
  omega

theorem fld_eq_extractLsb' (d : Word) (lo len : Nat) : fld d lo len = (d.extractLsb' lo len).toNat := by
  rw [fld, BitVec.extractLsb'_toNat, Nat.shiftRight_eq_div_pow]

theorem signedOf_toNat {w : Nat} (hw : 0 < w) (v : BitVec w) : signedOf w v.toNat = v.toInt := by
  have hpow : 2 ^ w = 2 * 2 ^ (w - 1) := by rw [← Nat.pow_succ', Nat.succ_eq_add_one, Nat.sub_add_cancel hw]
  rw [BitVec.toInt_eq_toNat_cond, signedOf, Nat.mod_eq_of_lt v.isLt, if_neg hw.ne']
  by_cases h : v.toNat < 2 ^ (w - 1)
  · rw [if_pos h, if_pos (by omega)]
  · rw [if_neg h, if_neg (by omega)]

/-- The generator that a pair of registers describes (R107). -/
theorem bindingOf_eq (a d : Word) : bindingOf a d = if (d.extractLsb' 32 16) = 0 then none else some
    { next := a.toNat, stride := (d.extractLsb' 0 32).toInt, left := (d.extractLsb' 32 16).toNat,
      size := (d.extractLsb' 48 2).toNat, ret := (d.extractLsb' 50 2).toNat, nc := d.getLsbD 52 } := by
  have h0 : (d.extractLsb' 32 16).toNat = 0 ↔ d.extractLsb' 32 16 = 0 := ⟨fun h => BitVec.eq_of_toNat_eq h, fun h => congrArg BitVec.toNat h⟩
  simp only [bindingOf, fld_eq_extractLsb', h0, signedOf_toNat, Nat.zero_lt_succ]
  rfl

/-- The effect of SBIND: a binding b set by the word d, unless d has reserved bits. -/
def State.sbind (p : State) (tk k : Nat) (b : Option Binding) (d : Word) : State :=
  if fld d 53 11 ≠ 0 then p.setStatus tk 4 else (p.setStream tk k { p.stream tk k with bind := b }).setStatus tk 0

theorem State.sbind_of_fields (p : State) (tk k : Nat) (b : Option Binding) {d : Word} (h : fld d 53 11 = 0) :
    p.sbind tk k b d = (p.setStream tk k { p.stream tk k with bind := b }).setStatus tk 0 := if_neg (not_not_intro h)

theorem State.sbind_of_reserved (p : State) (tk k : Nat) (b : Option Binding) {d : Word} (h : fld d 53 11 ≠ 0) :
    p.sbind tk k b d = p.setStatus tk 4 := if_pos h

/-- SBIND at issue (R107). -/
theorem completes_sbind {sm : Bool} {k : Fin 8} {a : Fin 96} (hs : SMap.sortedFrom 0 s.streams = true)
    (hr : Ready (.sbind sm (.st k) (.g a)) s tk th) :
    let d := s.readG tk (a.val + 1)
    Completes (.sbind sm (.st k) (.g a)) s tk fun t u =>
      u.pc = th.pc + 4 ∧ t.mem = s.mem ∧ t.reqs = s.reqs ∧ t.rf = s.rf ∧
      (d.toNat / 2 ^ 53 ≠ 0 → t.stream tk k.val = s.stream tk k.val ∧ u.status.extractLsb' 0 3 = 4) ∧
      (d.toNat / 2 ^ 53 = 0 → u.status.extractLsb' 0 3 = 0 ∧ ((t.stream tk k.val).bind = bindingOf (s.readG tk a.val) d)) := by
  intro d
  have hth := hr.issuing.2
  have ha := amid_afterPops (.sbind sm (.st k) (.g a)) hth
  have hstr : (s.afterPops (.sbind sm (.st k) (.g a)) tk).streams = s.streams := s.afterPops_streams (.sbind sm (.st k) (.g a)) tk
  have hval : (s.issueOf tk th (.sbind sm (.st k) (.g a))).val 1 = s.readG tk a.val :=
    (val_issueOf ..).trans (State.operand_window (role := .pairS) rfl nofun nofun)
  have hx : exec (.sbind sm (.st k) (.g a)) s = .next (issued (.sbind sm (.st k) (.g a)) s tk fun p =>
      p.sbind tk k.val (bindingOf ((s.issueOf tk th (.sbind sm (.st k) (.g a))).val 1) (p.readG tk (a.val + 1)))
        (p.readG tk (a.val + 1))) := issue_noCheck hr
  rw [hval] at hx
  have hd : _ = d := ha.readG hth rfl (a.val + 1)
  generalize hp : s.afterPops (.sbind sm (.st k) (.g a)) tk = p at ha hstr hd
  have hstatus {q : State} (hq : Amid s q tk th.stepped) (code : Nat) := hq.modThread fun u => { u with status := setStatusField u.status code }
  by_cases hres : d.toNat / 2 ^ 53 = 0
  · have hv := State.sbind_of_fields p tk k.val (bindingOf (s.readG tk a.val) d) ((fld_top d).trans hres)
    have hb := hstatus (ha.setStream tk k.val { p.stream tk k.val with bind := bindingOf (s.readG tk a.val) d }) 0
    refine completes_ends hx (by rw [hp, hd]; exact hv) hb.thread fun t r he _ => ⟨rfl, he.untouched.mem.trans hb.mem,
      he.untouched.reqs.trans hb.reqs, he.rf.trans hb.rf, fun h => absurd hres h, fun _ => ⟨code_setStatusField _ (by decide), ?_⟩⟩
    rw [stream_congr (he.streams.trans (State.modThread_streams ..)), State.stream_setStream _ _ _ (hstr ▸ hs)]
  · have hv := State.sbind_of_reserved p tk k.val (bindingOf (s.readG tk a.val) d) (fun h => hres ((fld_top d).symm.trans h))
    have hb := hstatus ha 4
    refine completes_ends hx (by rw [hp, hd]; exact hv) hb.thread fun t r he _ => ⟨rfl, he.untouched.mem.trans hb.mem,
      he.untouched.reqs.trans hb.reqs, he.rf.trans hb.rf, fun _ => ⟨?_, code_setStatusField _ (by decide)⟩, fun h => absurd h hres⟩
    exact stream_congr ((he.streams.trans (State.modThread_streams ..)).trans hstr) tk k.val

/-! ### SCNT (R108) -/

/-- The count word, as a sum. -/
theorem countWord_eq (q : Stream) : countWord q =
    let landed := (q.entries.filter fun e => e.landed).length
    BitVec.ofNat 64 (landed + (q.entries.length - landed) * 16 + (match q.bind with | some b => b.left | none => 0) * 256) := by
  rw [countWord, at', at', word]
  rfl

/-! ### The next request of a binding (R107) -/

/-- A binding after its next request has been made. -/
def Binding.after (b : Binding) : Option Binding :=
  if b.left ≤ 1 then none else some { b with next := ((b.next + b.stride) % 2 ^ 64).toNat, left := b.left - 1 }

/-- The request that a binding of stK makes. -/
def State.boundReq (p : State) (tk k : Nat) (b : Binding) : Req :=
  { (p.mkReq (.sbind false (.st ⟨k % 8, Nat.mod_lt _ (by decide)⟩) (.g 0))
      { tk := tk, pc := 0, vals := [], fmt := 0, aux := 0, ord := 0, pre := 0 } b.next (2 ^ b.size)).1 with ret := b.ret, nc := b.nc }

/-- A binding moved on. -/
def State.rebound (s : State) (tk k : Nat) (b : Binding) : State := s.setStream tk k { s.stream tk k with bind := b.after }

/-- A state in which a binding's next request has been made, with one entry claimed for it (R107). -/
def State.bindingNext (s : State) (tk k : Nat) (b : Binding) : State :=
  (s.rebound tk k b).fresh.2.issueLoadReq ((s.rebound tk k b).boundReq tk k b) k 1
    { serial := s.nextId, size := b.size, ret := b.ret, nc := b.nc, bound := true }

theorem exec_bindingRequestIssue {b : Binding} (hn : s.subj.n = 8 * tk + k) (hk : k < 8) (hb : (s.stream tk k).bind = some b)
    (hready : s.bindingReady tk k = true) : exec .bindingRequestIssue s = .next (s.bindingNext tk k b) := by
  have htk : s.subj.n / 8 = tk := by omega
  have hkk : s.subj.n % 8 = k := by omega
  show execBindingRequestIssue s = _
  simp only [execBindingRequestIssue, htk, hkk, hb, hready, if_true]
  rfl

/-- An entry more, and the binding moved on, whether the address is aligned or not. -/
theorem stream_bindingNext (hs : SMap.sortedFrom 0 s.streams = true) (tk k : Nat) (b : Binding) :
    ((s.bindingNext tk k b).stream tk k).bind = b.after ∧
      ((s.bindingNext tk k b).stream tk k).entries.length = (s.stream tk k).entries.length + 1 := by
  have hset : State.stream (s.rebound tk k b).fresh.2 tk k = { s.stream tk k with bind := b.after } :=
    State.stream_setStream tk k _ hs
  rw [State.bindingNext]
  generalize hp : s.rebound tk k b = p at hset
  have hclaim (e : Elem) : ((p.fresh.2.claim tk k 1 e).stream tk k).bind = b.after ∧
      ((p.fresh.2.claim tk k 1 e).stream tk k).entries.length = (s.stream tk k).entries.length + 1 := by
    rw [State.stream_claim _ _ _ Nat.one_pos, hset]
    exact ⟨rfl, by rw [List.length_append, length_claimed]⟩
  by_cases hal : (p.boundReq tk k b).ea % (p.boundReq tk k b).bytes = 0
  · rw [State.issueLoadReq_aligned hal]; exact hclaim _
  · rw [State.issueLoadReq_misaligned hal]; exact hclaim _

/-- An aligned address makes the request. -/
theorem reqs_bindingNext {b : Binding} (h : b.next % 2 ^ b.size = 0) :
    (s.bindingNext tk k b).reqs = SMap.put s.reqs s.nextId (s.boundReq tk k b) := by
  rw [State.bindingNext, State.issueLoadReq_aligned
    (show ((s.rebound tk k b).boundReq tk k b).ea % ((s.rebound tk k b).boundReq tk k b).bytes = 0 from h)]
  rfl

end

end Sys2Proof.Machine

namespace Sys2Proof
open Sys2Proof.Machine

/-- Settles O24: loads claim their entries, SBIND and SCNT act on the stream alone, and a binding's request is a load of one entry. -/
theorem streamLoads : Obligations.StreamLoads := by
  unfold Obligations.StreamLoads
  refine ⟨?_, ⟨fun sm k a s tk th ⟨_, _, _, hs, _⟩ hr => ?_, fun sm rd k => ?_, fun s tk k b ⟨_, _, _, hs, _⟩ hn hk hb hready => ?_⟩⟩
  · intro sm k ra r z n q o i unit m s tk th hi hr hroom hbind
    simp only [List.mem_cons, List.not_mem_nil, or_false, Prod.mk.injEq] at hi
    rcases hi with ⟨hi, hunit, hm⟩ | ⟨hi, hunit, hm⟩ <;> subst hi hunit hm
    · refine completes_load (size := z.toNat) Nat.one_pos hr hroom hbind rfl ?_
      rw [← globalEa_eq_ofInt, ← val_issueOf s tk th, show 2 ^ z.toNat = sizeBytes z from rfl]
      generalize s.afterPops _ tk = p
      rfl
    · refine completes_load (size := 3) (by decide) hr hroom hbind rfl ?_
      rw [← globalEa_eq_ofInt, ← val_issueOf s tk th]
      generalize s.afterPops _ tk = p
      rfl
  · exact bindingOf_eq _ _ ▸ completes_sbind hs hr
  · refine does_noCheck (fun _ => rfl) fun s tk th _ => ?_
    funext p
    exact congrArg (p.writeReg tk rd) (countWord_eq _)
  · obtain ⟨hbind, hlen⟩ := stream_bindingNext hs tk k b
    exact ⟨_, exec_bindingRequestIssue hn hk hb hready, fun h => ⟨s.boundReq tk k b, reqs_bindingNext h, rfl, rfl, rfl, hlen⟩, hbind⟩

end Sys2Proof
end

section
/-! The translation of a thread's global address (R101, R102, R128, R129, R317). -/

set_option Elab.async false

namespace Sys2Proof.Machine

/-! ### The class of an address (R101) -/

/-- The upper 16 bits of an address. -/
def topBits (ea : Nat) : Nat := ea / 2 ^ 48 % 2 ^ 16

theorem topBits_div (ea : Nat) : topBits ea / 2 ^ 8 = ea / 2 ^ 56 % 256 := by
  rw [topBits]
  omega

theorem addrClass_virtual {ea : Nat} (h : topBits ea = 0) : addrClass ea = .virtual := if_pos h

theorem addrClass_window {ea : Nat} (h : topBits ea / 2 ^ 8 = 0xE1) : addrClass ea = .window := by
  have h0 : topBits ea ≠ 0 := by omega
  rw [topBits_div] at h
  exact (if_neg h0).trans (if_pos h)

theorem addrClass_bad {ea : Nat} (h0 : topBits ea ≠ 0) (h : topBits ea / 2 ^ 8 ≠ 0xE1) : addrClass ea = .bad := by
  rw [topBits_div] at h
  exact (if_neg h0).trans (if_neg h)

/-! ### Windows (R102, R317) -/

section
variable {s : State} {tk node key ea : Nat} {write : Bool} {l : Launch}

/-- No launch's thread stands on the channel core of a supervisor. -/
def State.alone (s : State) (tk : Nat) : Prop :=
  isChannel (coreOf tk) = true ∧ slotOf tk = 0 ∧
    ∀ j u, (j, u) ∈ s.threads → coreOf j = coreOf tk → slotOf j ≠ 0 → u.launch = 0

theorem emptyPartition_iff (s : State) (tk : Nat) : s.emptyPartition tk = true ↔ s.alone tk := by
  simp only [State.emptyPartition, State.alone, Bool.and_eq_true, Bool.not_eq_true', List.any_eq_false, beq_iff_eq, bne_iff_ne, ne_eq,
    Prod.forall, and_assoc, not_and, not_not]

/-- The node of a window address is there. -/
def State.there (s : State) (die num : Nat) : Prop := if die < 4 then s.absent (nodeAt die num) = false else num < 48

theorem nodeExists_iff {die num : Nat} (hd : die < 8) (hn : num < 64) : s.nodeExists die num = true ↔ s.there die num := by
  unfold State.nodeExists State.there
  split <;> simp [hd, hn]

/-- The partition that a thread's window addresses are checked by (R317). -/
def State.window (s : State) (tk : Nat) (l : Launch) (ea : Nat) : Except Nat Target :=
  s.windowTarget (fun die num => !s.emptyPartition tk && l.inPartition die num) ea

theorem translateFor_window (hl : s.launch? key = some l) (hc : addrClass ea = .window) :
    s.translateFor tk node key ea write = .of (s.window tk l ea) := by
  rw [State.translateFor, State.window]
  by_cases he : s.emptyPartition tk = true
  · rw [if_pos ⟨hc, he⟩, he]
    rfl
  · rw [if_neg fun h => he h.2, State.translate, hl, Bool.not_eq_true] at *
    simp only [hc, he, Bool.not_false, Bool.true_and]

/-- An address that is no window address is translated by its launch alone. -/
theorem translateFor_eq_translate (hc : addrClass ea ≠ .window) : s.translateFor tk node key ea write = s.translate node key ea write :=
  if_neg fun h => hc h.1

theorem translateFor_bad (hl : s.launch? key = some l) (hc : addrClass ea = .bad) :
    s.translateFor tk node key ea write = .fault 3 := by
  rw [translateFor_eq_translate (by rw [hc]; exact nofun), State.translate, hl]
  simp only [hc]

theorem translateFor_miss (hl : s.launch? key = some l) (hc : addrClass ea = .virtual) (hp : s.tlbFind node key l ea = none) :
    s.translateFor tk node key ea write = .miss := by
  rw [translateFor_eq_translate (by rw [hc]; exact nofun), State.translate, hl]
  simp only [hc, hp]

theorem translateFor_page {e : TlbEntry} (hl : s.launch? key = some l) (hc : addrClass ea = .virtual)
    (hp : s.tlbFind node key l ea = some e) : s.translateFor tk node key ea write = .of (leafAccess e.leaf ea write) := by
  rw [translateFor_eq_translate (by rw [hc]; exact nofun), State.translate, hl]
  simp only [hc, hp]

/-- Permission by a leaf (R128). -/
theorem leafAccess_denied {w : Word} (h : bitAt w 2 = false ∨ write = true ∧ bitAt w 1 = false) : leafAccess w ea write = .error 5 := by
  rw [leafAccess, if_pos]
  rcases h with h | ⟨h, h'⟩
  · simp [h]
  · simp [h, h']

theorem leafAccess_granted {w : Word} (hr : bitAt w 2 = true) (hw : write = true → bitAt w 1 = true) :
    leafAccess w ea write = .ok (leafTarget w ea) := by
  rw [leafAccess, if_neg]
  cases write
  · simp [hr]
  · simp [hr, hw rfl]

/-! ### The checks of a window address in their order (R102) -/

/-- A window address inside the partition. -/
def State.inside (s : State) (tk : Nat) (l : Launch) (die num : Nat) : Prop :=
  ¬ s.alone tk ∧ l.wpdie.testBit die = true ∧ (l.wpnode.getD die 0).testBit num = true

theorem inside_iff {die num : Nat} : (!s.emptyPartition tk && l.inPartition die num) = true ↔ s.inside tk l die num := by
  rw [Launch.inPartition, State.inside, Bool.and_eq_true, Bool.and_eq_true, Bool.not_eq_true', ← emptyPartition_iff, Bool.not_eq_true]

theorem window_reserved (h : ea / 2 ^ 21 % 2 ^ 26 ≠ 0) : s.window tk l ea = .error 3 := if_pos h

/-- The check of the partition passes inside it alone. -/
theorem outside_iff {die num : Nat} : (!(!s.emptyPartition tk && l.inPartition die num)) = true ↔ ¬ s.inside tk l die num := by
  rw [Bool.not_eq_true', ← Bool.not_eq_true, inside_iff]

/-- The check of the node passes where it is there alone. -/
theorem missing_iff : (!s.nodeExists (ea / 2 ^ 53 % 8) (ea / 2 ^ 47 % 64)) = true ↔
    ¬ s.there (ea / 2 ^ 53 % 8) (ea / 2 ^ 47 % 2 ^ 6) := by
  rw [Bool.not_eq_true', ← Bool.not_eq_true, nodeExists_iff (Nat.mod_lt _ (by decide)) (Nat.mod_lt _ (by decide))]
  rfl

theorem window_outside (h : ea / 2 ^ 21 % 2 ^ 26 = 0) (hi : ¬ s.inside tk l (ea / 2 ^ 53 % 8) (ea / 2 ^ 47 % 2 ^ 6)) :
    s.window tk l ea = .error 6 :=
  (if_neg (not_not_intro h)).trans (if_pos (outside_iff.mpr hi))

theorem window_absent (h : ea / 2 ^ 21 % 2 ^ 26 = 0) (hi : s.inside tk l (ea / 2 ^ 53 % 8) (ea / 2 ^ 47 % 2 ^ 6))
    (ht : ¬ s.there (ea / 2 ^ 53 % 8) (ea / 2 ^ 47 % 2 ^ 6)) : s.window tk l ea = .error 7 :=
  (if_neg (not_not_intro h)).trans ((if_neg fun ho => outside_iff.mp ho hi).trans (if_pos (missing_iff.mpr ht)))

theorem window_reached (h : ea / 2 ^ 21 % 2 ^ 26 = 0) (hi : s.inside tk l (ea / 2 ^ 53 % 8) (ea / 2 ^ 47 % 2 ^ 6))
    (ht : s.there (ea / 2 ^ 53 % 8) (ea / 2 ^ 47 % 2 ^ 6)) :
    s.window tk l ea = .ok (.window (nodeAt (ea / 2 ^ 53 % 8) (ea / 2 ^ 47 % 2 ^ 6)) (ea % 2 ^ 21)) :=
  (if_neg (not_not_intro h)).trans ((if_neg fun ho => outside_iff.mp ho hi).trans (if_neg fun hm => missing_iff.mp hm ht))

/-- The source checks of an address, in their order (R101, R102, R128, R129). -/
theorem translateFor_checks (s : State) (tk node key ea : Nat) (write : Bool) (l : Launch) (hl : s.launch? key = some l) :
    let x := s.translateFor tk node key ea write
    let page := s.tlbFind node key l ea
    let die := ea / 2 ^ 53 % 8
    let num := ea / 2 ^ 47 % 2 ^ 6
    (topBits ea ≠ 0 → topBits ea / 2 ^ 8 ≠ 0xE1 → x = .fault 3) ∧
    (topBits ea = 0 → page = none → x = .miss) ∧
    (∀ e, topBits ea = 0 → page = some e →
      ((bitAt e.leaf 2 = false ∨ write = true ∧ bitAt e.leaf 1 = false) → x = .fault 5) ∧
      (bitAt e.leaf 2 = true → (write = true → bitAt e.leaf 1 = true) → x = .ok (leafTarget e.leaf ea))) ∧
    (topBits ea / 2 ^ 8 = 0xE1 → (ea / 2 ^ 21 % 2 ^ 26 ≠ 0 → x = .fault 3) ∧ (ea / 2 ^ 21 % 2 ^ 26 = 0 →
      (¬ s.inside tk l die num → x = .fault 6) ∧ (s.inside tk l die num → ¬ s.there die num → x = .fault 7) ∧
      (s.inside tk l die num → s.there die num → x = .ok (.window (nodeAt die num) (ea % 2 ^ 21))))) := by
  refine ⟨fun h0 h => translateFor_bad hl (addrClass_bad h0 h), fun h0 hp => translateFor_miss hl (addrClass_virtual h0) hp,
    fun e h0 hp => ⟨fun h => ?_, fun hr hw => ?_⟩, fun h => ?_⟩
  · exact (translateFor_page hl (addrClass_virtual h0) hp).trans (congrArg Xlat.of (leafAccess_denied h))
  · exact (translateFor_page hl (addrClass_virtual h0) hp).trans (congrArg Xlat.of (leafAccess_granted hr hw))
  · have hw : s.translateFor tk node key ea write = .of (s.window tk l ea) := translateFor_window hl (addrClass_window h)
    exact ⟨fun hz => hw.trans (congrArg Xlat.of (window_reserved hz)), fun hz =>
      ⟨fun hi => hw.trans (congrArg Xlat.of (window_outside hz hi)), fun hi ht => hw.trans (congrArg Xlat.of (window_absent hz hi ht)),
        fun hi ht => hw.trans (congrArg Xlat.of (window_reached hz hi ht))⟩⟩

end

end Sys2Proof.Machine
end

section
/-! The store buffer's head and the acknowledgement of a store (R110, R113, R132). -/

set_option Elab.async false

namespace Sys2Proof.Machine

/-! ### A request sent (R130, R132) -/

/-- Memory, cores and threads of a state in which a request has been sent; the request is marked as sent to its target. -/
structure SentReq (s u : State) (r : Req) (t : Target) : Prop where
  mem : u.mem = s.mem
  cores : u.cores = s.cores
  req : ∃ q, u.req? r.id = some q ∧ q.stage = .sent ∧ q.tgt = some t ∧ q.data = r.data ∧ q.ea = r.ea

theorem sentReq_sendReq (s : State) (r : Req) (t : Target) : SentReq s (s.sendReq r t) r t := by
  unfold State.sendReq
  extract_lets s1 dest
  split
  next o s2 hs2 =>
  split
  next due s3 hs3 =>
  obtain rfl : s1.fresh.2 = s2 := congrArg Prod.snd hs2
  obtain rfl : (s1.fresh.2.pathTime r.node dest 0).2 = s3 := congrArg Prod.snd hs3
  extract_lets gen q s4
  have hq : State.req? s4 r.id = some q := SMap.get?_put_same ..
  split <;> exact ⟨rfl, rfl, q, hq, rfl, rfl, rfl, rfl⟩

/-! ### The thread of a request -/

section
variable {s p : State} {r : Req} {th : Thread} {core cause : Nat}

theorem mine_of_thread? (h : s.thread? r.tk = some th) (hb : th.born < r.id) : s.mine r = true := by
  rw [State.mine, h]
  exact decide_eq_true hb

/-- A change of a request's thread, which is still there. -/
theorem modMine_eq (h : s.thread? r.tk = some th) (hb : th.born < r.id) (f : Thread → Thread) : s.modMine r f = s.modThread r.tk f :=
  if_pos (mine_of_thread? h hb)

theorem modMine_mem (s : State) (r : Req) (f : Thread → Thread) : (s.modMine r f).mem = s.mem := by
  unfold State.modMine
  split
  · exact State.modThread_mem ..
  · rfl

theorem modMine_cores (s : State) (r : Req) (f : Thread → Thread) : (s.modMine r f).cores = s.cores := by
  unfold State.modMine
  split
  · exact State.modThread_cores ..
  · rfl

/-- What the end of a store, with or without a fault, leaves: its thread changed, and the request gone. -/
structure Over (s u : State) (r : Req) (th : Thread) : Prop where
  thread : u.thread? r.tk = some th
  mem : u.mem = s.mem
  cores : u.cores = s.cores
  packets : u.packets = s.packets
  reqs : u.reqs = SMap.del s.reqs r.id

theorem over_acked (h : s.thread? r.tk = some th) (hb : th.born < r.id) : Over s (s.acked r) r { th with u := th.u - 1 } := by
  rw [State.acked, modMine_eq h hb]
  refine ⟨(State.thread?_modThread ..).trans (congrArg _ h), State.modThread_mem .., State.modThread_cores .., State.modThread_packets ..,
    ?_⟩
  rw [State.delReq_reqs, State.modThread_reqs]

/-- A logged fault keeps the first (R113). -/
theorem over_logFault_acked (h : s.thread? r.tk = some th) (hb : th.born < r.id) (cause : Nat) :
    Over s ((s.logFault r cause).acked r) r { th with u := th.u - 1, log := some (th.log.getD (cause, BitVec.ofNat 64 r.ea)) } := by
  have hl : s.logFault r cause = s.modThread r.tk fun th => { th with log := some (th.log.getD (cause, word r.ea)) } := modMine_eq h hb _
  have hth : (s.logFault r cause).thread? r.tk = some { th with log := some (th.log.getD (cause, word r.ea)) } := by
    rw [hl, State.thread?_modThread, h]; rfl
  obtain ⟨hthread, hmem, hcores, hpackets, hreqs⟩ := over_acked hth hb
  rw [hl] at hmem hcores hpackets hreqs
  refine ⟨hthread, ?_, ?_, ?_, ?_⟩
  · rw [hl, hmem, State.modThread_mem]
  · rw [hl, hcores, State.modThread_cores]
  · rw [hl, hpackets, State.modThread_packets]
  · rw [hl, hreqs, State.modThread_reqs]

/-! ### The head of the store buffer (R110) -/

/-- The head of a buffer taken off leaves the rest of the buffer; threads, memory, requests and packets stay. -/
theorem storeBuf_popBuffer (s : State) (core : Nat) : ((s.popBuffer core).core core).storeBuf = (s.core core).storeBuf.tail := by
  rw [State.popBuffer, State.core_modCore, if_pos rfl]

theorem storeBuf_congr {t u : State} (h : u.cores = t.cores) (core : Nat) : (u.core core).storeBuf = (t.core core).storeBuf := by
  rw [State.core, State.core, h]

/-- The head of a buffer that faults leaves it with its fault. -/
theorem exec_storeBufferLeave_fault {rest : List Nat} (hbuf : (s.core s.subj.n).storeBuf = r.id :: rest) (hr : s.req? r.id = some r)
    (hfree : s.leaveBlocked r = false)
    (hc : r.fault = cause ∧ cause ≠ 0 ∨ r.fault = 0 ∧ s.translateFor r.tk r.node r.launch r.ea true = .fault cause) :
    exec .storeBufferLeave s = .next ((s.popBuffer s.subj.n).leaveFault r cause) := by
  show execStoreBufferLeave s = _
  rcases hc with ⟨rfl, hc⟩ | ⟨h0, hx⟩
  · simp only [execStoreBufferLeave, hbuf, List.head?_cons, hr, hfree, Bool.false_eq_true, if_false, hc, ne_eq, not_false_eq_true, if_true]
  · simp only [execStoreBufferLeave, hbuf, List.head?_cons, hr, hfree, Bool.false_eq_true, if_false, h0, ne_eq, not_true_eq_false, hx]

/-- Marks its thread's stores to a host page (R153). -/
def State.markHost (s : State) (r : Req) (t : Target) : State :=
  match t with
  | .host _ => s.modMine r fun th => { th with hostStore := true }
  | _ => s

theorem markHost_same (s : State) (r : Req) (t : Target) : (s.markHost r t).mem = s.mem ∧ (s.markHost r t).cores = s.cores := by
  cases t with
  | host ha => exact ⟨modMine_mem .., modMine_cores ..⟩
  | _ => exact ⟨rfl, rfl⟩

/-- The head of a buffer that nothing holds is sent to its owner. -/
theorem exec_storeBufferLeave_sent {rest : List Nat} {t : Target} (hbuf : (s.core s.subj.n).storeBuf = r.id :: rest)
    (hr : s.req? r.id = some r) (hfree : s.leaveBlocked r = false) (h0 : r.fault = 0)
    (hx : s.translateFor r.tk r.node r.launch r.ea true = .ok t) (hmoved : s.moved r t = false) (hport : s.portFree r.node = true)
    (hbehind : s.portBehind r = false) :
    exec .storeBufferLeave s = .next (((s.popBuffer s.subj.n).markHost r t).sendReq r t) := by
  show execStoreBufferLeave s = _
  simp only [execStoreBufferLeave, hbuf, List.head?_cons, hr, hfree, Bool.false_eq_true, if_false, h0, ne_eq, not_true_eq_false, hx,
    hmoved, hport, hbehind, Bool.not_true, Bool.or_false]
  cases t <;> rfl

/-- It is marked as sent, and is in the buffer no more. -/
theorem storeBufferLeave_sends {rest : List Nat} {t : Target} (hbuf : (s.core s.subj.n).storeBuf = r.id :: rest)
    (hr : s.req? r.id = some r) (hfree : s.leaveBlocked r = false) (h0 : r.fault = 0)
    (hx : s.translateFor r.tk r.node r.launch r.ea true = .ok t) (hmoved : s.moved r t = false) (hport : s.portFree r.node = true)
    (hbehind : s.portBehind r = false) : Answers .storeBufferLeave s fun u =>
      (u.core s.subj.n).storeBuf = rest ∧ u.mem = s.mem ∧ ∃ q, u.req? r.id = some q ∧ q.stage = .sent ∧ q.tgt = some t ∧
        q.data = r.data ∧ q.ea = r.ea := by
  obtain ⟨hmem, hcores⟩ := markHost_same (s.popBuffer s.subj.n) r t
  obtain ⟨hmem', hcores', hreq⟩ := sentReq_sendReq ((s.popBuffer s.subj.n).markHost r t) r t
  refine ⟨_, exec_storeBufferLeave_sent hbuf hr hfree h0 hx hmoved hport hbehind, ?_, hmem'.trans hmem, hreq⟩
  rw [storeBuf_congr (hcores'.trans hcores), storeBuf_popBuffer, hbuf]
  rfl

/-- A store that faults leaves with its cause in an empty log and is acknowledged (R113). -/
theorem storeBufferLeave_faults {rest : List Nat} (hbuf : (s.core s.subj.n).storeBuf = r.id :: rest) (hr : s.req? r.id = some r)
    (hfree : s.leaveBlocked r = false)
    (hc : r.fault = cause ∧ cause ≠ 0 ∨ r.fault = 0 ∧ s.translateFor r.tk r.node r.launch r.ea true = .fault cause)
    (hamo : isAmo r.instr = false) (hth : s.thread? r.tk = some th) (hb : th.born < r.id) : Answers .storeBufferLeave s fun u =>
      (u.core s.subj.n).storeBuf = rest ∧ u.mem = s.mem ∧ u.reqs = SMap.del s.reqs r.id ∧ u.packets = s.packets ∧
        u.thread? r.tk = some { th with u := th.u - 1, log := some (th.log.getD (cause, BitVec.ofNat 64 r.ea)) } := by
  have ho := over_logFault_acked (s := s.popBuffer s.subj.n) hth hb cause
  have hx := exec_storeBufferLeave_fault hbuf hr hfree hc
  rw [State.leaveFault, hamo] at hx
  refine ⟨_, hx, ?_, ho.mem, ho.reqs, ho.packets, ho.thread⟩
  refine (storeBuf_congr ho.cores _).trans ?_
  rw [storeBuf_popBuffer, hbuf]
  rfl

/-! ### The acknowledgement (R110, R113) -/

theorem exec_storeAcknowledge (hp : Arrives s (.ack r.id cause)) (hr : s.req? r.id = some r) (hl : isLineOp r.instr = false) :
    exec .storeAcknowledge s = .next ((if cause = 0 then s.dropPacket s.subj.n
      else (s.dropPacket s.subj.n).logFault r cause).acked r) := by
  obtain ⟨q, hq, hid, hpay, hbeh⟩ := hp
  have hr' : (s.dropPacket s.subj.n).req? r.id = some r := hr
  show execStoreAcknowledge s = _
  simp only [execStoreAcknowledge, hq, hbeh, Bool.false_eq_true, if_false, hpay, hid, hr', hl, or_false]

/-- It takes 1 from U, and its fault enters an empty log. -/
theorem storeAcknowledge_acks (hp : Arrives s (.ack r.id cause)) (hr : s.req? r.id = some r) (hl : isLineOp r.instr = false)
    (hth : s.thread? r.tk = some th) (hb : th.born < r.id) : Answers .storeAcknowledge s fun u =>
      u.reqs = SMap.del s.reqs r.id ∧ u.mem = s.mem ∧ ∃ v, u.thread? r.tk = some { th with u := th.u - 1, log := v } ∧
        v = if cause = 0 then th.log else some (th.log.getD (cause, BitVec.ofNat 64 r.ea)) := by
  refine ⟨_, exec_storeAcknowledge hp hr hl, ?_⟩
  by_cases h0 : cause = 0
  · rw [if_pos h0, if_pos h0]
    have ho := over_acked (s := s.dropPacket s.subj.n) hth hb
    exact ⟨ho.reqs, ho.mem, _, ho.thread, rfl⟩
  · rw [if_neg h0, if_neg h0]
    have ho := over_logFault_acked (s := s.dropPacket s.subj.n) hth hb cause
    exact ⟨ho.reqs, ho.mem, _, ho.thread, rfl⟩

end

end Sys2Proof.Machine
end

section
/-! The response to a load and a load that faults at its port land in the entries claimed for them (R104, R109). -/

set_option Elab.async false

namespace Sys2Proof.Machine

/-! ### The entries of a request -/

section
variable {rid cause ea j : Nat} {vals : List Word} {l m es : List Elem}

/-- Entries of other requests stay. -/
theorem landIn_of_other (h : ∀ e ∈ l, e.serial ≠ rid) : landIn rid vals cause ea j (l ++ m) = l ++ landIn rid vals cause ea j m := by
  induction l with
  | nil => rfl
  | cons e l ih =>
    have he : ¬ (e.serial = rid ∧ e.landed = false) := fun hs => h e (List.mem_cons_self ..) hs.1
    rw [List.cons_append, landIn, if_neg he, ih fun d hd => h d (List.mem_cons_of_mem _ hd), List.cons_append]

/-- The waiting entries of the request land in their order. -/
theorem landIn_append (h : ∀ e ∈ es, e.serial = rid ∧ e.landed = false) :
    landIn rid vals cause ea j (es ++ m) = landIn rid vals cause ea j es ++ landIn rid vals cause ea (j + es.length) m := by
  induction es generalizing j with
  | nil => rfl
  | cons e es ih =>
    have he := h e (List.mem_cons_self ..)
    rw [List.cons_append, landIn, if_pos he, ih fun d hd => h d (List.mem_cons_of_mem _ hd), landIn, if_pos he, List.cons_append,
      List.length_cons, Nat.add_right_comm, Nat.add_assoc]

theorem length_landIn (j : Nat) (es : List Elem) : (landIn rid vals cause ea j es).length = es.length := by
  induction es generalizing j with
  | nil => rfl
  | cons e es ih =>
    rw [landIn]
    split <;> rw [List.length_cons, ih, List.length_cons]

theorem landed_landIn (h : ∀ e ∈ es, e.serial = rid ∧ e.landed = false) :
    ∀ e ∈ landIn rid vals cause ea j es, e.landed = true ∧ e.cause = cause := by
  induction es generalizing j with
  | nil => exact nofun
  | cons e es ih =>
    rw [landIn, if_pos (h e (List.mem_cons_self ..))]
    intro d hd
    obtain rfl | hd := List.mem_cons.mp hd
    · exact ⟨rfl, rfl⟩
    · exact ih (fun d hd => h d (List.mem_cons_of_mem _ hd)) d hd

/-- Without a fault the entries take the values in their order. -/
theorem value_landIn (h : ∀ e ∈ es, e.serial = rid ∧ e.landed = false) (hl : j + es.length = vals.length) :
    (landIn rid vals 0 ea j es).map (·.value) = vals.drop j := by
  induction es generalizing j with
  | nil => exact (List.drop_of_length_le (Nat.le_of_eq hl.symm)).symm
  | cons e es ih =>
    have hj : j < vals.length := by rw [List.length_cons] at hl; omega
    rw [landIn, if_pos (h e (List.mem_cons_self ..)), List.map_cons,
      ih (fun d hd => h d (List.mem_cons_of_mem _ hd)) (by rw [List.length_cons] at hl; omega), List.drop_eq_getElem_cons hj,
      List.getD_eq_getElem _ _ hj]
    rfl

end

/-! ### A load that lands -/

/-- What the landing of a result changes of a state: threads that it makes ready. -/
structure LandedOnly (s u : State) : Prop where
  mem : u.mem = s.mem
  rf : u.rf = s.rf
  reqs : u.reqs = s.reqs
  packets : u.packets = s.packets
  streams : u.streams = s.streams

theorem landedOnly_landed (s : State) (tk : Nat) : LandedOnly s (s.landed tk) := by
  have hm (f : Thread → Thread) : LandedOnly s (s.modThread tk f) :=
    ⟨State.modThread_mem .., State.modThread_rf .., State.modThread_reqs .., State.modThread_packets .., State.modThread_streams ..⟩
  unfold State.landed
  split
  · exact hm _
  · split
    · exact hm _
    · exact ⟨rfl, rfl, rfl, rfl, rfl⟩

section
variable {s : State} {r : Req} {vals : List Word} {cause : Nat} {es pre post : List Elem}

/-- A stream queue in which a request has landed: its entries have the cause and, without one, the values in order. -/
structure Landed (s u : State) (r : Req) (pre es post : List Elem) (vals : List Word) (cause : Nat) : Prop where
  mem : u.mem = s.mem
  rf : u.rf = s.rf
  reqs : u.reqs = SMap.del s.reqs r.id
  packets : u.packets = s.packets
  entries : ∃ fs, (u.stream r.tk r.streamOf).entries = pre ++ fs ++ post ∧ fs.length = es.length ∧
    (∀ e ∈ fs, e.landed = true ∧ e.cause = cause) ∧ (cause = 0 → es.length = vals.length → fs.map (·.value) = vals)

theorem landed_landLoad (h : (s.stream r.tk r.streamOf).entries = pre ++ es ++ post)
    (hown : ∀ e ∈ es, e.serial = r.id ∧ e.landed = false) (hother : ∀ e ∈ pre ++ post, e.serial ≠ r.id) (hne : es ≠ []) (vals : List Word)
    (cause : Nat) : Landed s (s.landLoad r vals cause) r pre es post vals cause := by
  have hpre : ∀ e ∈ pre, e.serial ≠ r.id := fun e he => hother e (List.mem_append_left _ he)
  have hpost : ∀ e ∈ post ++ [], e.serial ≠ r.id := fun e he => hother e (List.mem_append_right _ (List.append_nil post ▸ he))
  have hland : landIn r.id vals cause r.ea 0 (s.stream r.tk r.streamOf).entries =
      pre ++ landIn r.id vals cause r.ea 0 es ++ post := by
    have hp := landIn_of_other (vals := vals) (cause := cause) (ea := r.ea) (j := 0 + es.length) (m := []) (List.append_nil post ▸ hpost)
    rw [h, List.append_assoc, landIn_of_other hpre, landIn_append hown, ← List.append_nil post, hp, landIn, List.append_nil,
      List.append_assoc]
  rw [State.landLoad, hland]
  generalize hfs : landIn r.id vals cause r.ea 0 es = fs
  have hlen : fs.length = es.length := by rw [← hfs, length_landIn]
  have hx : ({ s.stream r.tk r.streamOf with entries := pre ++ fs ++ post } : Stream) ≠ {} := fun hx => by
    have := congrArg (fun q : Stream => q.entries.length) hx
    simp only [List.length_append, hlen, List.length_nil] at this
    exact hne (List.eq_nil_of_length_eq_zero (by omega))
  generalize hy : ({ s.stream r.tk r.streamOf with entries := pre ++ fs ++ post } : Stream) = y at hx
  obtain ⟨hmem, hrf, hreqs, hpackets, hstreams⟩ := landedOnly_landed ((s.setStream r.tk r.streamOf y).delReq r.id) r.tk
  refine ⟨hmem, hrf, hreqs, hpackets, fs, ?_, hlen, hfs ▸ landed_landIn hown, fun h0 hvals => ?_⟩
  · rw [stream_congr hstreams]
    refine (congrArg Stream.entries (State.stream_setStream_of_ne s r.tk r.streamOf hx)).trans ?_
    rw [← hy]
  · rw [← hfs, h0, value_landIn hown (by omega), List.drop_zero]

/-! ### A load that faults at its port (R109) -/

/-- A step that takes the next turn at a stream port. -/
theorem step_port {rid : Nat} {rest : List Move} (hc : s.cur = none) (ha : s.pkg.answers = true) (ht : s.todo = .port rid :: rest) :
    step s = .next (State.portStep { s with todo := rest } rid) := by
  simp only [step, State.oneStep, hc, State.hardwareStep, ha, ht, Bool.not_true, Bool.false_eq_true, if_false]
  rfl

theorem isLineOp_of_isLoad {i : Instr} (h : isLoad i = true) : isLineOp i = false := by
  unfold isLoad at h
  split at h
  · rfl
  · rfl
  · rfl
  · exact absurd h nofun

/-- A load with a fault of its own or of its translation lands as markers. -/
theorem portStep_fault (hr : s.req? r.id = some r) (hst : r.stage = .port) (hl : isLoad r.instr = true) (hb : s.portBlocked r = false)
    (hc : r.fault = cause ∧ cause ≠ 0 ∨ r.fault = 0 ∧ s.translateFor r.tk r.node r.launch r.ea false = .fault cause) :
    s.portStep r.id = s.landLoad r [] cause := by
  have hline := isLineOp_of_isLoad hl
  have hx : s.portXlat r = .fault cause := by
    rcases hc with ⟨rfl, hc⟩ | ⟨h0, hx⟩
    · exact if_pos hc
    · rw [State.portXlat, h0, hline, hl]
      exact hx
  simp only [State.portStep, hr, hst, hb, hx, ne_eq, not_true_eq_false, if_false, Bool.false_eq_true, and_false, State.sourceFault, hl,
    if_true]

/-! ### The response to a load (R104) -/

/-- What a fill of the L1 leaves as it was. -/
structure FillOnly (s u : State) : Prop where
  mem : u.mem = s.mem
  rf : u.rf = s.rf
  reqs : u.reqs = s.reqs
  streams : u.streams = s.streams

theorem FillOnly.trans {t u : State} (h : FillOnly s t) (k : FillOnly t u) : FillOnly s u :=
  ⟨k.mem.trans h.mem, k.rf.trans h.rf, k.reqs.trans h.reqs, k.streams.trans h.streams⟩

theorem fillOnly_l1Fill (s : State) (node line : Nat) : FillOnly s (s.l1Fill node line) := by
  have hports := s.askPorts_frame .fill (256 * line + node) (l1Banks node line)
  unfold State.l1Fill
  split
  · generalize s.askPorts .fill (256 * line + node) (l1Banks node line) = y at hports
    obtain ⟨served, u⟩ := y
    obtain ⟨used, last, asks, rfl⟩ := hports
    cases served <;> exact ⟨rfl, rfl, rfl, rfl⟩
  · exact ⟨rfl, rfl, rfl, rfl⟩

theorem fillOnly_l1Put (s : State) (node pa : Nat) (bytes : List Byte) (page : PageRef) : FillOnly s (s.l1Put node pa bytes page) := by
  unfold State.l1Put
  refine FillOnly.trans ?_ (fillOnly_l1Fill _ node (pa / 64))
  exact ⟨rfl, rfl, rfl, rfl⟩

/-- A state in which a response may have filled the L1. -/
def State.filled (s : State) (r : Req) (fill : Bool) (bytes : List Byte) : State :=
  match r.tgt with
  | some t => if fill && s.l1Serves r t then s.l1Put r.node (Target.key t) bytes (s.pageOf r.node r.launch r.ea) else s
  | none => s

theorem fillOnly_filled (s : State) (r : Req) (fill : Bool) (bytes : List Byte) : FillOnly s (s.filled r fill bytes) := by
  unfold State.filled
  split
  · split
    · exact fillOnly_l1Put ..
    · exact ⟨rfl, rfl, rfl, rfl⟩
  · exact ⟨rfl, rfl, rfl, rfl⟩

theorem exec_streamElementLand {fill : Bool} {bytes : List Byte} (hp : Arrives s (.land r.id vals cause fill bytes))
    (hr : s.req? r.id = some r) :
    exec .streamElementLand s = .next (((s.dropPacket s.subj.n).filled r fill bytes).landLoad r vals cause) := by
  obtain ⟨q, hq, hid, hpay, hbeh⟩ := hp
  have hr' : (s.dropPacket s.subj.n).req? r.id = some r := hr
  show execStreamElementLand s = _
  simp only [execStreamElementLand, hq, hbeh, Bool.false_eq_true, if_false, hpay, hid, hr']
  rfl

/-- The values of a response are those of the entries that were claimed for it, in request order. -/
theorem streamElementLand_lands {fill : Bool} {bytes : List Byte} (hp : Arrives s (.land r.id vals 0 fill bytes))
    (hr : s.req? r.id = some r) (h : (s.stream r.tk r.streamOf).entries = pre ++ es ++ post) (hlen : es.length = vals.length)
    (hown : ∀ e ∈ es, e.serial = r.id ∧ e.landed = false) (hother : ∀ e ∈ pre ++ post, e.serial ≠ r.id) (hne : es ≠ []) :
    Answers .streamElementLand s fun u => u.mem = s.mem ∧ u.rf = s.rf ∧ u.reqs = SMap.del s.reqs r.id ∧
      ∃ fs, (u.stream r.tk r.streamOf).entries = pre ++ fs ++ post ∧ fs.map (·.value) = vals ∧
        ∀ e ∈ fs, e.landed = true ∧ e.cause = 0 := by
  have hf := fillOnly_filled (s.dropPacket s.subj.n) r fill bytes
  refine ⟨_, exec_streamElementLand hp hr, ?_⟩
  generalize (s.dropPacket s.subj.n).filled r fill bytes = v at hf
  have hv : (v.stream r.tk r.streamOf).entries = pre ++ es ++ post := (congrArg Stream.entries (stream_congr hf.streams _ _)).trans h
  obtain ⟨hmem, hrf, hreqs, _, fs, hentries, _, hland, hvals⟩ := landed_landLoad hv hown hother hne vals 0
  exact ⟨hmem.trans hf.mem, hrf.trans hf.rf, hreqs.trans (congrArg (SMap.del · r.id) hf.reqs), fs, hentries, hvals rfl hlen, hland⟩

end

end Sys2Proof.Machine
end

section
/-! A request whose turn has come at its owner, and a store performed there (R102, R113, R116). -/

set_option Elab.async false

namespace Sys2Proof.Machine

/-! ### The turn of a request -/

/-- An ordinary line is the target. -/
def Req.isLine (r : Req) : Bool := match r.tgt with | some (.line _ _ _ _) => true | _ => false

section
variable {s u w : State} {r : Req}

/-- What holds a request at its owner. -/
def State.ownerHeld (s : State) (r : Req) : Bool :=
  if r.isLine then s.lineBusy r || (s.mustWait r && !s.isAhead r)
  else s.earlierSent r || s.meetsAhead r || (s.mustWait r && !s.mayGoAhead r)

theorem ownerHeld_of_turn (h : Turn s r) : s.ownerHeld r = false := by
  obtain ⟨_, _, _, _, _, _, hm, hlast⟩ := h
  unfold State.ownerHeld Req.isLine
  rcases ht : r.tgt with _ | (_ | _ | _ | _ | _) <;> simp only [ht] at hlast <;> simp [hm, hlast]

/-- Memory, requests, packets, waiters, numbers, teams and slices' records of errors as before: what the start of a request's service
leaves. -/
structure OwnerReady (s w : State) : Prop where
  mem : w.mem = s.mem
  fe : w.fe = s.fe
  nextId : w.nextId = s.nextId
  teams : w.teams = s.teams
  pkg : w.pkg = s.pkg

theorem OwnerReady.trans (h : OwnerReady s u) (k : OwnerReady u w) : OwnerReady s w :=
  ⟨k.mem.trans h.mem, k.fe.trans h.fe, k.nextId.trans h.nextId, k.teams.trans h.teams, k.pkg.trans h.pkg⟩

theorem ownerReady_goAhead (s : State) (r : Req) : OwnerReady s (s.goAhead r) := by
  obtain ⟨l, hl⟩ := s.goAhead_eq r
  rw [hl]
  exact ⟨rfl, rfl, rfl, rfl, rfl⟩

theorem ownerReady_leaveQueue (s : State) (r : Req) : OwnerReady s (s.leaveQueue r) := by
  unfold State.leaveQueue
  split <;> exact ⟨rfl, rfl, rfl, rfl, rfl⟩

/-- The owner's checks depend on the teams and the package. -/
theorem ownerCause_congr (h : OwnerReady s w) (r : Req) : w.ownerCause r = s.ownerCause r := by
  unfold State.ownerCause State.targetCause State.poisoned State.team
  rw [h.teams, h.pkg]

/-- An uncorrectable data error is logged. -/
def State.notePoison (s : State) (r : Req) (c : Nat) : State :=
  match c, r.tgt with | 9, some t => s.logPoison t | _, _ => s

/-- A request whose turn has come is served, or answered with the cause that its owner finds. -/
theorem atOwner_of_turn (hr : s.req? r.id = some r) (h : Turn s r) (mv : Move) (f : State → Req → State) : ∃ w, OwnerReady s w ∧
    s.atOwner mv r.id f = (if s.ownerCause r ≠ 0 then (w.notePoison r (s.ownerCause r)).ownerFault r (s.ownerCause r)
      else (f (w.notePoison r (s.ownerCause r)) r).touchLine r).settleAhead := by
  have hheld := ownerHeld_of_turn h
  obtain ⟨h1, h2, h3, hred, hfree, hasks, _, _⟩ := h
  have hports := State.askPorts_free (u := .fabric) (id := r.id) r.banks_nodup hfree hasks
  generalize hp : ({ s with banksUsed := _, portLast := _ } : State) = p at hports
  have hsp : OwnerReady s p := by rw [← hp]; exact ⟨rfl, rfl, rfl, rfl, rfl⟩
  have hw : OwnerReady s ((if r.isLine then p else p.goAhead r).leaveQueue r) := by
    refine hsp.trans (OwnerReady.trans ?_ (ownerReady_leaveQueue _ r))
    split
    · exact ⟨rfl, rfl, rfl, rfl, rfl⟩
    · exact ownerReady_goAhead p r
  refine ⟨_, hw, ?_⟩
  have hst : ¬ (r.stage = .performed ∨ r.stage = .port ∨ r.stage = .waiter) := by simp [h1, h2, h3]
  rw [← ownerCause_congr hw]
  unfold State.atOwner
  simp only [hr, hst, if_false]
  refine (if_neg fun hh => Bool.false_ne_true (hheld.symm.trans hh)).trans ?_
  simp only [hred, hports]
  rfl

/-! ### What service leaves -/

/-- The line that a performed request touches keeps all but slices and numbers, and what was ahead of its order keeps all else. -/
structure Finished (s u : State) : Prop where
  mem : u.mem = s.mem
  fe : u.fe = s.fe
  packets : u.packets = s.packets

theorem finished_l2Touch (s : State) (k : Nat) (t : Target) (hint : Nat) (write keep : Bool) : Finished s (s.l2Touch k t hint write keep) := by
  unfold State.l2Touch
  split
  · extract_lets sl old
    split <;> exact ⟨rfl, rfl, rfl⟩
  · exact ⟨rfl, rfl, rfl⟩

theorem finished_touchLine (s : State) (r : Req) : Finished s (s.touchLine r) := by
  unfold State.touchLine
  split
  · split
    · exact ⟨rfl, rfl, rfl⟩
    · exact ⟨rfl, rfl, rfl⟩
    · exact finished_l2Touch ..
  · exact ⟨rfl, rfl, rfl⟩

theorem finished_settleAhead (s : State) : Finished s s.settleAhead := by
  obtain ⟨p, hp⟩ := s.settleAhead_eq
  rw [hp]
  exact ⟨rfl, rfl, rfl⟩

theorem Finished.trans {t : State} (h : Finished s t) (k : Finished t u) : Finished s u :=
  ⟨k.mem.trans h.mem, k.fe.trans h.fe, k.packets.trans h.packets⟩

/-- An answer to the core of a request. -/
theorem sent_respond (s : State) (r : Req) (p : Payload) (ev : Instr) : Sent s (s.respond r p ev) r.node p :=
  ⟨s.nextId, _, SMap.get?_put_same .., le_rfl, rfl, rfl⟩

theorem sent_finished {n : Nat} {p : Payload} (h : Sent s u n p) (k : Finished u w) : Sent s w n p := by
  obtain ⟨pid, q, hq, hlo, hd, hp⟩ := h
  exact ⟨pid, q, by rw [k.packets]; exact hq, hlo, hd, hp⟩

theorem sent_of_later {n : Nat} {p : Payload} (h : Sent u w n p) (hlo : s.nextId ≤ u.nextId) : Sent s w n p := by
  obtain ⟨pid, q, hq, hn, hd, hp⟩ := h
  exact ⟨pid, q, hq, hlo.trans hn, hd, hp⟩

/-! ### A store at its owner (R113, R116) -/

/-- Waiters that a write wakes are answered: full/empty bits stay, and numbers rise. -/
structure Woken (s u : State) : Prop where
  fe : u.fe = s.fe
  nextId : s.nextId ≤ u.nextId

theorem Woken.trans {t : State} (h : Woken s t) (k : Woken t u) : Woken s u := ⟨k.fe.trans h.fe, h.nextId.trans k.nextId⟩

theorem woken_serve (s : State) (r : Req) (st : Nat) (v : Word) (writes : Bool) : Woken s (s.serve r st v writes) :=
  ⟨rfl, Nat.le_succ _⟩

theorem woken_foldl (l : List Req) (f : State → Req → State) (h : ∀ s r, Woken s (f s r)) (s : State) : Woken s (l.foldl f s) := by
  induction l generalizing s with
  | nil => exact ⟨rfl, le_rfl⟩
  | cons r l ih => exact (h s r).trans (ih _)

theorem woken_afterWrite (s : State) (key n : Nat) : Woken s (s.afterWrite key n) := by
  have hwake (t : State) : Woken t (t.wakeWords key n) := woken_foldl _ _ (fun s r => by
    dsimp only
    split
    · exact woken_serve ..
    · exact ⟨rfl, le_rfl⟩) t
  unfold State.afterWrite
  split
  · exact ⟨rfl, le_rfl⟩
  · exact (woken_foldl _ _ (fun s r => woken_serve ..) s).trans (hwake _)

theorem woken_setBytes (s : State) (key : Nat) (bs : List Byte) : Woken s (s.setBytes key bs) := by
  induction bs generalizing s key with
  | nil => exact ⟨rfl, le_rfl⟩
  | cons b bs ih => exact Woken.trans (t := s.setByte key b) ⟨rfl, le_rfl⟩ (ih _ _)

theorem woken_ownerWrite (s : State) (key : Nat) (bs : List Byte) : Woken s (s.ownerWrite key bs) :=
  (woken_setBytes s key bs).trans (woken_afterWrite _ _ _)

theorem byte_congr {s t : State} (h : t.mem = s.mem) (a : Nat) : t.byte a = s.byte a := by rw [State.byte, State.byte, h]

/-- A store writes its bytes and no other. -/
theorem byte_of_setBytes {key n data : Nat} (hs : Memory.wf s.mem = true) (hu : u.mem = (s.setBytes key (toBytes n data)).mem) :
    OnlyBytes s u key n ∧ Sys2Proof.bytesAt u key n = data % 2 ^ (8 * n) := by
  have hbyte (a : Nat) : u.byte a = if key ≤ a ∧ a < key + n then (toBytes n data).getD (a - key) 0 else s.byte a := by
    rw [byte_congr hu, State.byte_setBytes s key a _ hs, length_toBytes]
  refine ⟨fun a ha => by rw [hbyte, if_neg (by omega)], ?_⟩
  have hbytes : u.bytes key n = toBytes n data := by
    rw [State.bytes_eq_map]
    refine List.ext_getElem (by rw [List.length_map, List.length_range, length_toBytes]) fun i hi hi' => ?_
    rw [List.length_map, List.length_range] at hi
    rw [List.getElem_map, List.getElem_range, hbyte, if_pos (by omega), Nat.add_sub_cancel_left, List.getD_eq_getElem _ _ hi']
  rw [← State.load_eq_bytesAt, State.load, hbytes, ofBytes_toBytes, Nat.pow_mul]

/-- A store at its owner (R113, R116). -/
theorem ownerStore_stores (hwf : Memory.wf s.mem = true) (hr : s.req? r.id = some r) (hn : s.subj.n = r.id) (h : TurnOf s r) :
    Answers .ownerStore s fun u => OnlyBytes s u r.key r.bytes ∧ Sys2Proof.bytesAt u r.key r.bytes = r.data % 2 ^ (8 * r.bytes) ∧
      u.fe = s.fe ∧ Sent s u r.node (.ack r.id 0) := by
  obtain ⟨hturn, hc⟩ := h
  obtain ⟨w, hw, hx⟩ := atOwner_of_turn hr hturn (.ev .ownerStore s.subj) fun s r => s.performStore r
  rw [if_neg (not_not_intro hc), hc] at hx
  have hrow : exec .ownerStore s = .next (s.atOwner (.ev .ownerStore s.subj) s.subj.n fun s r => s.performStore r) := rfl
  rw [hn, hx] at hrow
  refine ⟨_, hrow, ?_⟩
  have hfin := (finished_touchLine (w.performStore r) r).trans (finished_settleAhead _)
  have hwrite := woken_ownerWrite w r.key (toBytes r.bytes r.data)
  have hmem : (w.performStore r).mem = (s.setBytes r.key (toBytes r.bytes r.data)).mem :=
    (State.afterWrite_mem ..).trans (State.mem_setBytes_congr hw.mem _ _)
  have hsent : Sent w (w.performStore r) r.node (.ack r.id 0) :=
    sent_of_later (sent_respond ((w.ownerWrite r.key (toBytes r.bytes r.data)).performed r) r _ _) hwrite.nextId
  obtain ⟨honly, hbytes⟩ := byte_of_setBytes hwf (hfin.mem.trans hmem)
  exact ⟨honly, hbytes, hfin.fe.trans (hwrite.fe.trans hw.fe), sent_finished (sent_of_later hsent hw.nextId.ge) hfin⟩

/-! ### A fault at the owner (R102, R113) -/

theorem kinds_of_isStore {i : Instr} (h : isStore i = true) :
    isPrefetch i = false ∧ isLoad i = false ∧ isAmo i = false ∧ isBuffered i = true := by
  unfold isStore at h
  split at h
  · exact ⟨rfl, rfl, rfl, rfl⟩
  · exact ⟨rfl, rfl, rfl, rfl⟩
  · exact absurd h nofun

theorem notePoison_ready (s : State) (r : Req) (c : Nat) : (s.notePoison r c).mem = s.mem ∧ (s.notePoison r c).nextId = s.nextId := by
  unfold State.notePoison
  split
  · unfold State.logPoison
    split <;> exact ⟨rfl, rfl⟩
  · exact ⟨rfl, rfl⟩

/-- A store that its owner finds at fault writes nothing and is acknowledged with the cause. -/
theorem ownerStore_faults (hr : s.req? r.id = some r) (hn : s.subj.n = r.id) (hturn : Turn s r) {c : Nat} (hc : s.ownerCause r = c)
    (h0 : c ≠ 0) (hst : isStore r.instr = true) :
    Answers .ownerStore s fun u => u.mem = s.mem ∧ Sent s u r.node (.ack r.id c) := by
  subst hc
  obtain ⟨w, hw, hx⟩ := atOwner_of_turn hr hturn (.ev .ownerStore s.subj) fun s r => s.performStore r
  rw [if_pos h0] at hx
  have hrow : exec .ownerStore s = .next (s.atOwner (.ev .ownerStore s.subj) s.subj.n fun s r => s.performStore r) := rfl
  rw [hn, hx] at hrow
  refine ⟨_, hrow, ?_⟩
  obtain ⟨hmem, hid⟩ := notePoison_ready w r (s.ownerCause r)
  generalize w.notePoison r (s.ownerCause r) = v at hmem hid
  obtain ⟨hpre, hload, hamo, hbuf⟩ := kinds_of_isStore hst
  have hv : v.ownerFault r (s.ownerCause r) = (v.performed r).respond r (.ack r.id (s.ownerCause r)) .storeAcknowledge := by
    simp only [State.ownerFault, hpre, hload, hamo, hbuf, Bool.false_eq_true, if_false, Bool.true_or, if_true]
  rw [hv]
  have hfin := finished_settleAhead ((v.performed r).respond r (.ack r.id (s.ownerCause r)) .storeAcknowledge)
  have hsent : Sent v _ r.node (.ack r.id (s.ownerCause r)) := sent_respond (v.performed r) r _ .storeAcknowledge
  exact ⟨hfin.mem.trans (hmem.trans hw.mem), sent_finished (sent_of_later hsent (hid.trans hw.nextId).ge) hfin⟩

/-- A window offset that ends past S (R102, check 4). -/
theorem ownerCause_window {node off : Nat} (ht : r.tgt = some (.window node off)) (h : (s.team node).s < off + r.bytes) :
    s.ownerCause r = 8 := by
  have hc : s.targetCause (.window node off) r.bytes = 8 := if_pos h
  simp only [State.ownerCause, ht, hc, ne_eq, OfNat.ofNat_ne_zero, not_false_eq_true, if_true]

end

end Sys2Proof.Machine
end

section
/-! A global access between its core and its owner (R101, R102, R104, R110, R113, R116, R128, R129). -/

set_option Elab.async false

namespace Sys2Proof
open Sys2Proof.Machine

/-- Settles O33: each clause is the row of its part of the way. -/
theorem accessesOnTheWay : Obligations.AccessesOnTheWay := by
  unfold Obligations.AccessesOnTheWay
  rintro s r ⟨hwf, _⟩ hr
  refine ⟨?_, fun hn hturn _ => ownerStore_stores hwf hr hn hturn,
    fun tk node key ea write l hl => translateFor_checks s tk node key ea write l hl, ?_, ?_, ?_, fun node off ht hlt => ownerCause_window ht hlt, ?_, ?_⟩
  · intro core rest t hn hbuf hfree h0 hx hmoved hport hbehind
    subst hn
    exact storeBufferLeave_sends hbuf hr hfree h0 hx hmoved hport hbehind
  · intro core rest c th hn hbuf hfree hc hamo hth hb
    subst hn
    exact storeBufferLeave_faults hbuf hr hfree hc hamo hth hb
  · intro c rest pre post es hcur hans _ htodo hst hl hb hc hentries hown hother hne
    have hland := landed_landLoad (s := { s with todo := rest }) hentries hown hother hne [] c
    refine ⟨_, step_port hcur hans htodo, ?_⟩
    rw [portStep_fault (s := { s with todo := rest }) hr hst hl hb hc]
    obtain ⟨fs, hfs, hlen, hall, _⟩ := hland.entries
    exact ⟨hland.mem, hland.reqs, hland.packets, fs, hfs, hlen, hall⟩
  · exact fun c hn hturn hc h0 hst => ownerStore_faults hr hn hturn hc h0 hst
  · exact fun cause th hp hth hb hline => storeAcknowledge_acks hp hr hline hth hb
  · exact fun vals fill bytes es pre post hp hentries hlen hown hother hne =>
      streamElementLand_lands hp hr hentries hlen hown hother hne

end Sys2Proof
end

section
/-! The L2 slices, their retirement, and the bucket maps (R121, R125 to R127). -/

set_option Elab.async false

namespace Sys2Proof.Machine

theorem State.slice_modSlice (s : State) (k j : Nat) (f : Slice → Slice) :
    (s.modSlice k f).slice j = if j = k then f (s.slice k) else s.slice j := by
  show SMap.getD (SMap.put s.slices k (f (s.slice k))) j {} = _
  split
  · subst j; exact SMap.getD_put_same ..
  · exact congrArg (fun o => Option.getD o _) (SMap.get?_put_other s.slices k j _ ‹_›)

theorem State.slice_modSlice_same (s : State) (k : Nat) (f : Slice → Slice) : (s.modSlice k f).slice k = f (s.slice k) :=
  (s.slice_modSlice k k f).trans (if_pos rfl)

theorem slice_congr {s t : State} (h : t.slices = s.slices) (k : Nat) : t.slice k = s.slice k := by rw [State.slice, State.slice, h]

section
variable {s : State} {r : Req} {k : Nat}

/-! ### A request accepted, or sent back (R125, R126) -/

/-- A state in which a slice has the request in its queue. -/
def State.acceptInto (s : State) (r : Req) (k : Nat) : State :=
  (s.putReq { r with stage := .queued }).modSlice k fun x => { x with queue := x.queue ++ [r.id], accepted := some s.cycle }

theorem exec_sliceAccept (hr : s.req? s.subj.n = some r) (hst : r.stage = .sent) (hk : k = sliceOf r.dest)
    (hsent : s.earlierSent r = false) (hret : (s.slice k).retired = false) (hun : s.unaccepted r = false) (hahead : s.meetsAhead r = false)
    (hdrain : (s.slice k).draining = false) (hlen : (s.slice k).queue.length < 16) (hacc : (s.slice k).accepted ≠ some s.cycle) :
    ∃ w l, w = { s with ahead := l } ∧ exec .sliceAccept s = .next (w.acceptInto r k) := by
  have hw : ∃ l, (if s.mayGoAhead r then s.goAhead r else s) = { s with ahead := l } := by
    split
    · exact s.goAhead_eq r
    · exact ⟨s.ahead, rfl⟩
  obtain ⟨l, hl⟩ := hw
  refine ⟨_, l, hl, ?_⟩
  have hacc' : ((s.slice k).accepted == some s.cycle) = false := beq_eq_false_iff_ne.mpr hacc
  have hlen' : decide (16 ≤ (s.slice k).queue.length) = false := decide_eq_false (Nat.not_le.mpr hlen)
  show execSliceAccept s = _
  simp only [execSliceAccept, hr, hst, ← hk, hsent, hret, hun, hahead, hdrain, hlen', hacc', ne_eq, not_true_eq_false, Bool.false_eq_true,
    if_false, Bool.false_and, Bool.or_self]
  rfl

/-- An accepted request is the last of its slice's queue. -/
theorem sliceAccept_accepts (hr : s.req? s.subj.n = some r) (hst : r.stage = .sent) (hk : k = sliceOf r.dest)
    (hsent : s.earlierSent r = false) (hret : (s.slice k).retired = false) (hun : s.unaccepted r = false) (hahead : s.meetsAhead r = false)
    (hdrain : (s.slice k).draining = false) (hlen : (s.slice k).queue.length < 16) (hacc : (s.slice k).accepted ≠ some s.cycle) :
    Answers .sliceAccept s fun t => (t.slice k).queue = (s.slice k).queue ++ [r.id] ∧ (t.slice k).accepted = some s.cycle ∧
      t.req? r.id = some { r with stage := .queued } ∧ t.mem = s.mem := by
  obtain ⟨w, l, rfl, hx⟩ := exec_sliceAccept hr hst hk hsent hret hun hahead hdrain hlen hacc
  refine ⟨_, hx, ?_, ?_, SMap.get?_put_same .., rfl⟩
  · exact congrArg Slice.queue (State.slice_modSlice_same _ k fun x => { x with queue := x.queue ++ [r.id], accepted := some s.cycle })
  · exact congrArg Slice.accepted (State.slice_modSlice_same _ k fun x => { x with queue := x.queue ++ [r.id], accepted := some s.cycle })

/-- A retired slice sends the request back with its die's map. -/
theorem sliceAccept_bounces (hr : s.req? s.subj.n = some r) (hst : r.stage = .sent) (hk : k = sliceOf r.dest)
    (hsent : s.earlierSent r = false) (hret : (s.slice k).retired = true) :
    Answers .sliceAccept s fun t => t.req? r.id = some { r with stage := .bounced } ∧
      Sent s t r.node (.map (k / 16) (s.pkg.bucketMaps.getD (k / 16) []) (s.pkg.mapGens.getD (k / 16) 0) (some r.id)) := by
  have hx : exec .sliceAccept s = .next (s.bounce r) := by
    show execSliceAccept s = _
    simp only [execSliceAccept, hr, hst, ← hk, hsent, hret, ne_eq, not_true_eq_false, Bool.false_eq_true, if_false, if_true]
  rw [State.bounce, ← hk] at hx
  exact ⟨_, hx, SMap.get?_put_same .., s.nextId, _, SMap.get?_put_same .., le_rfl, rfl, rfl⟩

/-! ### The lookup (R125) -/

/-- A state in which a slice looks a request up. -/
def State.lookInto (s : State) (r : Req) : State :=
  (s.putReq { r with stage := .filling }).modSlice s.subj.n fun x => { x with looked := some s.cycle }

theorem lines_lookInto (s : State) (r : Req) : ((s.lookInto r).slice s.subj.n).lines = (s.slice s.subj.n).lines := by
  rw [State.lookInto, State.slice_modSlice_same]
  rfl

theorem exec_sliceLookup (h : s.nextLookup s.subj.n = some r) : exec .sliceLookup s =
    .next (if (((s.lookInto r).slice s.subj.n).line? r.key).isSome then (s.lookInto r).addMove (s.cycle + 8) (performMove r)
      else (s.lookInto r).delay.2.addTimer (s.cycle + 1 + (s.lookInto r).delay.1) .dramFill { n := r.id }) := by
  show execSliceLookup s = _
  rw [apply_ite Host.Outcome.next]
  simp only [execSliceLookup, h]
  rfl

/-- A slice has a line exactly where one of its lines has the address. -/
theorem isSome_line? (x : Slice) (pa : Nat) : (x.line? pa).isSome = true ↔ ∃ l ∈ x.lines, l.pa = pa / 64 := by
  rw [Slice.line?, List.find?_isSome]
  simp only [beq_iff_eq]

/-- A hit is performed 8 cycles later, a miss waits for its fill. -/
theorem sliceLookup_looks (h : s.nextLookup s.subj.n = some r) : Answers .sliceLookup s fun t =>
    t.req? r.id = some { r with stage := .filling } ∧
      ((∃ l ∈ (s.slice s.subj.n).lines, l.pa = r.key / 64) → t.timers = s.timers ++ [{ due := s.cycle + 8, mv := performMove r }]) ∧
      ((∀ l ∈ (s.slice s.subj.n).lines, l.pa ≠ r.key / 64) → ∃ due, s.cycle < due ∧
        t.timers = s.timers ++ [{ due := due, mv := .ev .dramFill { n := r.id } }]) := by
  refine ⟨_, exec_sliceLookup h, ?_⟩
  have hline := isSome_line? ((s.lookInto r).slice s.subj.n) r.key
  rw [lines_lookInto] at hline
  split
  · exact ⟨SMap.get?_put_same .., fun _ => rfl, fun hno => by
      obtain ⟨l, hl, hpa⟩ := hline.mp ‹_›
      exact absurd hpa (hno l hl)⟩
  · exact ⟨SMap.get?_put_same .., fun hyes => absurd (hline.mpr hyes) ‹_›, fun _ => ⟨_, by omega, rfl⟩⟩

/-- The fill lets the request be performed next (R121). -/
theorem exec_dramFill (hr : s.req? s.subj.n = some r) : exec .dramFill s = .next { s with todo := performMove r :: s.todo } := by
  show execDramFill s = _
  simp only [execDramFill, hr]
  rfl

/-! ### Corrected errors (R126) -/

theorem correctedError_counts (hk : k < 64) : Answers (.correctedError k) s fun t =>
    (t.slice k).errors = (s.slice k).errors + 1 ∧ (t.slice k).lines = (s.slice k).lines ∧ t.mem = s.mem := by
  have hslice := State.slice_modSlice_same s k fun x => { x with errors := x.errors + 1 }
  have hx : ∃ t, exec (.correctedError k) s = .next t ∧ t.slices = (s.modSlice k fun x => { x with errors := x.errors + 1 }).slices ∧
      t.mem = s.mem := by
    show ∃ t, execCorrectedError k s = .next t ∧ _
    rw [execCorrectedError, if_neg (Nat.not_le.mpr hk)]
    dsimp only
    split <;> exact ⟨_, rfl, rfl, rfl⟩
  obtain ⟨t, ht, hs, hm⟩ := hx
  refine ⟨t, ht, ?_, ?_, hm⟩
  · rw [slice_congr hs, hslice]
  · rw [slice_congr hs, hslice]

/-! ### Retirement (R126) -/

/-- What packets of maps and remap responses leave as it was. -/
structure MapsSent (s u : State) : Prop where
  mem : u.mem = s.mem
  fe : u.fe = s.fe
  slices : u.slices = s.slices
  pkg : u.pkg = s.pkg

theorem MapsSent.trans {t u : State} (h : MapsSent s t) (k : MapsSent t u) : MapsSent s u :=
  ⟨k.mem.trans h.mem, k.fe.trans h.fe, k.slices.trans h.slices, k.pkg.trans h.pkg⟩

theorem mapsSent_foldl {α : Type} (l : List α) (f : State → α → State) (h : ∀ s a, MapsSent s (f s a)) (s : State) :
    MapsSent s (l.foldl f s) := by
  induction l generalizing s with
  | nil => exact ⟨rfl, rfl, rfl, rfl⟩
  | cons a l ih => exact (h s a).trans (ih _)

theorem mapsSent_remapWaiters (s : State) (k : Nat) : MapsSent s (s.remapWaiters k) := by
  unfold State.remapWaiters
  refine mapsSent_foldl _ _ (fun s r => ?_) s
  exact ⟨rfl, rfl, rfl, rfl⟩

theorem mapsSent_sendMap (s : State) (src die : Nat) : MapsSent s (s.sendMap src die) := by
  unfold State.sendMap
  refine mapsSent_foldl _ _ (fun s n => ?_) s
  split <;> exact ⟨rfl, rfl, rfl, rfl⟩

/-- The next live slice depends on the slices that the search meets. -/
theorem nextLive_congr {t : State} (die n j : Nat)
    (h : ∀ i, i < n → t.slice (16 * die + (j + 1 + i) % 16) = s.slice (16 * die + (j + 1 + i) % 16)) :
    t.nextLive die n j = s.nextLive die n j := by
  induction n generalizing j with
  | zero => rfl
  | succ n ih =>
    have h0 := h 0 (Nat.zero_lt_succ n)
    rw [Nat.add_zero] at h0
    have hrest := ih ((j + 1) % 16) fun i hi => by
      have hmod : ((j + 1) % 16 + 1 + i) % 16 = (j + 1 + (i + 1)) % 16 := by omega
      rw [hmod]
      exact h (i + 1) (Nat.succ_lt_succ hi)
    simp only [State.nextLive, h0, hrest]

/-- The retiring slice is none that the search for its successor meets. -/
theorem nextLive_modSlice (s : State) (k : Nat) (f : Slice → Slice) :
    (s.modSlice k f).nextLive (k / 16) 15 (k % 16) = s.nextLive (k / 16) 15 (k % 16) :=
  nextLive_congr _ _ _ fun i hi => by
    rw [State.slice_modSlice, if_neg]
    omega

/-- A slice marked as one that drains. -/
def State.drain (s : State) (k : Nat) : State := s.modSlice k fun x => { x with draining := true }

/-- The slice retired, and its buckets handed to slice j. -/
def State.retire (s : State) (k j : Nat) : State :=
  let t := (s.drain k).modSlice k fun x => { x with draining := false, retired := true, lines := [] }
  { t with pkg := { s.pkg with
      bucketMaps := s.pkg.bucketMaps.set (k / 16) ((s.pkg.bucketMaps.getD (k / 16) []).map fun b => if b = k % 16 then j else b)
      mapGens := s.pkg.mapGens.set (k / 16) ((s.pkg.mapGens.getD (k / 16) 0 + 1) % 65536) } }

theorem exec_sliceRetire (hk : k < 64) (hret : (s.slice k).retired = false) (hq : (s.slice k).queue = []) :
    exec (.sliceRetire k) s = .next ((((s.retire k (s.nextLive (k / 16) 15 (k % 16))).remapWaiters k).sendMap (sliceNode k) (k / 16)).logEntry
      2 (4 + k / 16) (k % 16) 0) := by
  have hlt : decide (64 ≤ k) = false := decide_eq_false (Nat.not_le.mpr hk)
  have hlive := nextLive_modSlice s k fun x => { x with draining := true }
  show execSliceRetire k s = _
  simp only [execSliceRetire, hret, hlt, hq, Bool.or_self, Bool.false_eq_true, if_false, List.isEmpty_nil, Bool.not_true, hlive]
  rfl

/-- A retired slice with an empty queue has no lines, and its buckets are those of the next live slice. -/
theorem sliceRetire_retires (hk : k < 64) (hret : (s.slice k).retired = false) (hq : (s.slice k).queue = []) :
    Answers (.sliceRetire k) s fun t => (t.slice k).retired = true ∧ (t.slice k).lines = [] ∧ t.mem = s.mem ∧ t.fe = s.fe ∧
      t.pkg.bucketMaps = s.pkg.bucketMaps.set (k / 16) ((s.pkg.bucketMaps.getD (k / 16) []).map fun b =>
        if b = k % 16 then s.nextLive (k / 16) 15 (k % 16) else b) := by
  refine ⟨_, exec_sliceRetire hk hret hq, ?_⟩
  generalize s.nextLive (k / 16) 15 (k % 16) = j
  generalize sliceNode k = n
  have hsent := (mapsSent_remapWaiters (s.retire k j) k).trans (mapsSent_sendMap _ n (k / 16))
  have hretired : (s.retire k j).slice k = { (s.drain k).slice k with draining := false, retired := true, lines := [] } :=
    State.slice_modSlice_same (s.drain k) k fun x => { x with draining := false, retired := true, lines := [] }
  generalize ((s.retire k j).remapWaiters k).sendMap n (k / 16) = t at hsent
  have hslice : (t.logEntry 2 (4 + k / 16) (k % 16) 0).slice k = _ := (slice_congr hsent.slices k).trans hretired
  exact ⟨congrArg Slice.retired hslice, congrArg Slice.lines hslice, hsent.mem, hsent.fe, congrArg Package.bucketMaps hsent.pkg⟩

/-! ### Maps (R127) -/

/-- A map installed at a stream port. -/
def State.installMap (s : State) (node die gen : Nat) (entries : List Nat) : State :=
  s.modTeam node fun t => { t with maps := t.maps.set die entries, mapGens := t.mapGens.set die gen }

/-- A bounced request goes back to its port. -/
def State.unbounceAny (s : State) (rid : Option Nat) : State := match rid with | some r => s.unbounce r | none => s

theorem teams_unbounceAny (s : State) (rid : Option Nat) : (s.unbounceAny rid).teams = s.teams := by
  cases rid with
  | none => rfl
  | some id =>
    rw [State.unbounceAny, State.unbounce]
    split
    · rfl
    · split <;> rfl

/-- A bounced request is at its port again. -/
theorem req?_unbounceAny {id : Nat} (hr : s.req? id = some r) (hid : r.id = id) (hst : r.stage = .bounced) :
    (s.unbounceAny (some id)).req? id = some { r with stage := .port } := by
  subst hid
  simp only [State.unbounceAny, State.unbounce, hr, hst, if_true]
  exact SMap.get?_put_same ..

theorem exec_mapInstall {q : Packet} {die gen : Nat} {entries : List Nat} {rid : Option Nat} (hq : SMap.get? s.packets s.subj.n = some q)
    (hp : q.payload = .map die entries gen rid) (hb : s.behind q = false) (hgen : (s.team q.dst).mapGens.getD die 0 ≠ gen) :
    exec .mapInstall s = .next (((s.dropPacket q.id).installMap q.dst die gen entries).unbounceAny rid) := by
  have hgen' : ¬ ((s.dropPacket q.id).team q.dst).mapGens.getD die 0 = gen := hgen
  show execMapInstall s = _
  simp only [execMapInstall, hq, hp, hb, Bool.false_eq_true, if_false, hgen']
  cases rid <;> rfl

/-- A map that arrives is the port's, and a bounced request is sent again. -/
theorem mapInstall_installs {q : Packet} {die gen : Nat} {entries : List Nat} {rid : Option Nat}
    (hq : SMap.get? s.packets s.subj.n = some q) (hp : q.payload = .map die entries gen rid) (hb : s.behind q = false)
    (hlen : (s.team q.dst).mapGens.length = 4) (hdie : die < 4) (hgen : (s.team q.dst).mapGens.getD die 0 ≠ gen) :
    Answers .mapInstall s fun t => (t.team q.dst).maps = (s.team q.dst).maps.set die entries ∧ (t.team q.dst).mapGens.getD die 0 = gen ∧
      ∀ id b, rid = some id → s.req? id = some b → b.id = id → b.stage = .bounced → t.req? id = some { b with stage := .port } := by
  have hteam := (team_congr (teams_unbounceAny ((s.dropPacket q.id).installMap q.dst die gen entries) rid) q.dst).trans
    ((State.team_modTeam (s.dropPacket q.id) q.dst q.dst fun t => { t with maps := t.maps.set die entries, mapGens := t.mapGens.set die gen }).trans
      (if_pos rfl))
  refine ⟨_, exec_mapInstall hq hp hb hgen, ?_, ?_, ?_⟩
  · rw [hteam]; rfl
  · rw [hteam]
    exact (List.getD_eq_getElem _ _ (by rw [List.length_set]; exact hlen.symm ▸ hdie)).trans (List.getElem_set_self ..)
  · rintro id b rfl hb' hid hst
    exact req?_unbounceAny (s := (s.dropPacket q.id).installMap q.dst die gen entries) hb' hid hst

end

end Sys2Proof.Machine

namespace Sys2Proof
open Sys2Proof.Machine

/-- Settles O34: each clause is one row of the slices' and the maps' hardware. -/
theorem slices : Obligations.Slices := by
  unfold Obligations.Slices
  intro s r
  refine ⟨fun k hr _ hst hk hsent => ⟨fun hret hun hahead hdrain hlen hacc => ?_, fun hret => ?_⟩, sliceLookup_looks, exec_dramFill,
    fun k hk => correctedError_counts hk, fun k hk hret hq => sliceRetire_retires hk hret hq, ?_⟩
  · exact sliceAccept_accepts hr hst hk hsent hret hun hahead hdrain hlen hacc
  · exact sliceAccept_bounces hr hst hk hsent hret
  · exact fun q die entries gen rid hq hp hb _ hlen hdie hgen => mapInstall_installs hq hp hb hlen hdie hgen

end Sys2Proof
end

section
/-! Waiters that are answered (R146, R148 to R151): what an answer to one of them leaves, and what answers to many leave. -/

set_option Elab.async false

namespace Sys2Proof.Machine

/-- A packet sent between two states under a number that has been given out. -/
def Posted (s t : State) (dst : Nat) (p : Payload) : Prop :=
  ∃ pid q, SMap.get? t.packets pid = some q ∧ s.nextId ≤ pid ∧ pid < t.nextId ∧ q.dst = dst ∧ q.payload = p

/-- Answers have been sent to some waiters of s, which have left the list; whatever else a step may do to a word has not been done. -/
structure Served (s t : State) : Prop where
  mem : t.mem = s.mem
  fe : t.fe = s.fe
  pkg : t.pkg = s.pkg
  cycle : t.cycle = s.cycle
  nextId : s.nextId ≤ t.nextId
  packets : ∀ pid, pid < s.nextId → SMap.get? t.packets pid = SMap.get? s.packets pid
  waiters : t.waiters.Sublist s.waiters
  waiting : t.waiting.Sublist s.waiting

section
variable {s t u : State} {r q : Req} {dst : Nat} {p : Payload}

theorem Posted.sent (h : Posted s t dst p) : Sent s t dst p := by
  obtain ⟨pid, q, hq, hlo, _, hdst, hp⟩ := h
  exact ⟨pid, q, hq, hlo, hdst, hp⟩

theorem Served.refl (s : State) : Served s s := ⟨rfl, rfl, rfl, rfl, le_rfl, fun _ _ => rfl, .refl _, .refl _⟩

theorem Served.trans (h : Served s t) (k : Served t u) : Served s u where
  mem := k.mem.trans h.mem
  fe := k.fe.trans h.fe
  pkg := k.pkg.trans h.pkg
  cycle := k.cycle.trans h.cycle
  nextId := h.nextId.trans k.nextId
  packets pid hp := (k.packets pid (hp.trans_le h.nextId)).trans (h.packets pid hp)
  waiters := k.waiters.trans h.waiters
  waiting := k.waiting.trans h.waiting

/-- A packet posted stays while waiters are answered. -/
theorem Posted.served (h : Posted s t dst p) (k : Served t u) : Posted s u dst p := by
  obtain ⟨pid, q, hq, hlo, hhi, hdst, hp⟩ := h
  exact ⟨pid, q, (k.packets pid hhi).trans hq, hlo, hhi.trans_le k.nextId, hdst, hp⟩

theorem Served.posted (h : Served s t) (k : Posted t u dst p) : Posted s u dst p := by
  obtain ⟨pid, q, hq, hlo, hhi, hdst, hp⟩ := k
  exact ⟨pid, q, hq, h.nextId.trans hlo, hhi, hdst, hp⟩

/-- An answer to a request is posted to its core. -/
theorem posted_answer (s : State) (r : Req) (st : Nat) (v : Word) (writes : Bool) :
    Posted s (s.answer r st v writes) r.node (.answer r.id st v writes) :=
  ⟨s.nextId, _, SMap.get?_put_same .., le_rfl, Nat.lt_succ_self _, rfl, rfl⟩

theorem posted_serve (s : State) (r : Req) (st : Nat) (v : Word) (writes : Bool) :
    Posted s (s.serve r st v writes) r.node (.answer r.id st v writes) := posted_answer (s.unwait r.id) r st v writes

/-- Answering one waiter leaves the others: their requests are as they were. -/
theorem waiting_serve (s : State) (r : Req) (st : Nat) (v : Word) (writes : Bool) :
    (s.serve r st v writes).waiting = (s.waiters.filter (· != r.id)).filterMap s.req? := by
  refine List.filterMap_congr fun rid hrid => ?_
  exact SMap.get?_put_other _ _ _ _ (by simpa using (List.mem_filter.mp hrid).2)

theorem served_serve (s : State) (r : Req) (st : Nat) (v : Word) (writes : Bool) : Served s (s.serve r st v writes) where
  mem := rfl
  fe := rfl
  pkg := rfl
  cycle := rfl
  nextId := Nat.le_succ _
  packets _ hp := SMap.get?_put_other _ _ _ _ hp.ne
  waiters := List.filter_sublist
  waiting := waiting_serve s r st v writes ▸ List.filter_sublist.filterMap _

theorem served_foldl {l : List Req} {f : State → Req → State} (h : ∀ s r, Served s (f s r)) (s : State) : Served s (l.foldl f s) := by
  induction l generalizing s with
  | nil => exact .refl s
  | cons r l ih => exact (h s r).trans (ih _)

/-- Every waiter of a list is answered. -/
def State.serveAll (s : State) (l : List Req) (st : Nat) (v : Req → Word) (writes : Bool) : State :=
  l.foldl (fun s r => s.serve r st (v r) writes) s

theorem served_serveAll (s : State) (l : List Req) (st : Nat) (v : Req → Word) (writes : Bool) : Served s (s.serveAll l st v writes) :=
  served_foldl (fun s r => served_serve s r st (v r) writes) s

theorem posted_serveAll {l : List Req} (hq : q ∈ l) (s : State) (st : Nat) (v : Req → Word) (writes : Bool) :
    Posted s (s.serveAll l st v writes) q.node (.answer q.id st (v q) writes) := by
  induction l generalizing s with
  | nil => exact absurd hq List.not_mem_nil
  | cons r l ih =>
    obtain rfl | hq := List.mem_cons.mp hq
    · exact (posted_serve s q st (v q) writes).served (served_serveAll _ l st v writes)
    · exact (served_serve s r st (v r) writes).posted (ih hq _)

/-- They have left the list. -/
theorem not_mem_waiters_serveAll {l : List Req} (hq : q ∈ l) (s : State) (st : Nat) (v : Req → Word) (writes : Bool) :
    q.id ∉ (s.serveAll l st v writes).waiters := by
  induction l generalizing s with
  | nil => exact absurd hq List.not_mem_nil
  | cons r l ih =>
    obtain rfl | hq := List.mem_cons.mp hq
    · intro hmem
      have hfirst := (served_serveAll (s.serve q st (v q) writes) l st v writes).waiters.subset hmem
      simpa using (List.mem_filter.mp hfirst).2
    · exact ih hq _

/-- Barrier waiters that are released are answered with their old word. -/
theorem releaseBarrier_eq_serveAll (s : State) (p : Req → Bool) (st : Nat) :
    s.releaseBarrier p st = s.serveAll (s.waiting.filter fun r => r.isBarrier && p r) st (fun r => word r.data) true := rfl

theorem served_releaseBarrier (s : State) (p : Req → Bool) (st : Nat) : Served s (s.releaseBarrier p st) := served_serveAll ..

theorem served_wakeWords (s : State) (key n : Nat) : Served s (s.wakeWords key n) :=
  served_foldl (fun s r => by
    dsimp only
    split
    · exact served_serve ..
    · exact .refl s) s

end

end Sys2Proof.Machine
end

section
/-! Reset, boot and links that go down (R144, R183, R320, R335, R337). -/

set_option Elab.async false

namespace Sys2Proof.Machine

/-! ### What a reset wipes (R144) -/

/-- A map without an entry of a key reads its default there. -/
theorem SMap.getD_of_absent {α : Type} {m : SMap α} {k : Nat} {d : α} (h : ∀ e ∈ m, e.1 ≠ k) : SMap.getD m k d = d := by
  rw [SMap.getD]
  cases hk : SMap.get? m k with
  | none => rfl
  | some v => exact absurd rfl (h _ (SMap.mem_of_get? hk))

/-- A map made of a function on the numbers below n. -/
theorem SMap.get?_map_range' {α : Type} {f : Nat → α} {n a k : Nat} (ha : a ≤ k) (hk : k < a + n) :
    SMap.get? ((List.range' a n).map fun j => (j, f j)) k = some (f k) := by
  induction n generalizing a with
  | zero => omega
  | succ n ih =>
    rw [List.range'_succ, List.map_cons, SMap.get?]
    split
    · subst a; rfl
    · rw [if_neg (by omega)]
      exact ih (by omega) (by omega)

section
variable {s t : State} {key link : Nat}

theorem ownKey_iff : ownKey key = true ↔ key < 2 ^ 40 ∨ 2 ^ 48 ≤ key ∧ key < 2 ^ 60 := by
  rw [ownKey, Bool.or_eq_true, Bool.and_eq_true, decide_eq_true_iff, decide_eq_true_iff, decide_eq_true_iff]

theorem not_ownKey (h : 2 ^ 60 ≤ key ∨ 2 ^ 40 ≤ key ∧ key < 2 ^ 48) : ownKey key = false := by
  rw [← Bool.not_eq_true, ownKey_iff]
  omega

/-- The word of a byte of the device is the device's. -/
theorem ownKey_word (h : ownKey key = true) : ownKey (8 * (key / 8)) = true := by
  rw [ownKey_iff] at h ⊢
  omega

/-- A state whose memories, register files and slots have been wiped since s. -/
structure Wiped (s t : State) : Prop where
  mem : t.mem = s.mem.filter fun c => !ownKey c.1
  fe : t.fe = s.fe.filter fun e => !ownKey (8 * e.1)
  rf : t.rf = []
  streams : t.streams = []
  threads : t.threads = []
  sregs : t.sregs = []
  teams : t.teams = []
  feretry : ∀ e ∈ t.cores, e.2.feretry = 0x0404

/-- The device's bytes are 0. -/
theorem Wiped.byte_own (h : Wiped s t) (hk : ownKey key = true) : t.byte key = 0 := by
  rw [State.byte, h.mem]
  refine SMap.getD_of_absent fun e he hek => ?_
  have hdrop := (List.mem_filter.mp he).2
  rw [hek, hk] at hdrop
  exact absurd hdrop (by decide)

/-- Its full/empty bits are full. -/
theorem Wiped.full_own (h : Wiped s t) (hk : ownKey key = true) : t.full key = true := by
  rw [State.full, h.fe]
  refine SMap.getD_of_absent fun e he hek => ?_
  have hdrop := (List.mem_filter.mp he).2
  rw [hek, ownKey_word hk] at hdrop
  exact absurd hdrop (by decide)

/-- The bytes of the host and of peer packages stay. -/
theorem Wiped.byte_other (h : Wiped s t) (hs : SMap.sortedFrom 0 s.mem = true) (hk : ownKey key = false) : t.byte key = s.byte key := by
  rw [State.byte, h.mem, SMap.getD, SMap.get?_filter (fun k => !ownKey k) key hs, hk]
  rfl

theorem Wiped.readS (h : Wiped s t) (k n : Nat) : t.readS k n = 0 := by
  rw [State.readS, h.sregs]
  rfl

theorem Wiped.core_feretry (h : Wiped s t) (k : Nat) : (t.core k).feretry = 0x0404 :=
  SMap.getD_of_forall (P := fun c : Core => c.feretry = 0x0404) h.feretry rfl k

theorem Wiped.mx (h : Wiped s t) (n : Nat) : (t.team n).mx = {} := by
  rw [State.team, h.teams, SMap.getD_nil, Team.fresh]
  split <;> rfl

/-! ### The boot checks (R335) -/

/-- Both signatures of an image verify, and its version is not below the fused minimum. -/
def Verified (img : List Byte) : Prop := Config.signatureCheck img = 0 ∧ Config.fusedMinimum ≤ Config.imageVersion img

theorem imageCheck_eq_zero_iff (img : List Byte) : imageCheck img = 0 ↔ Verified img := by
  unfold imageCheck Verified
  split
  next h0 =>
    rw [h0]
    split <;> simp <;> omega
  next h1 => simp [h1]
  next h2 => simp [h2]
  next h0 _ _ => exact ⟨nofun, fun h => absurd h.1 h0⟩

/-- A device that does not boot: the check that failed, and of which image. -/
def State.bootFailed (s : State) (image check : Nat) (p : Package) : State :=
  { s.afterReset with pkg := { p with bootFail := check, bootImage := image } }

theorem exec_reset_flashFails (h : imageCheck s.pkg.flash ≠ 0) :
    exec .reset s = .next (s.bootFailed 0 (imageCheck s.pkg.flash) s.afterReset.pkg) := if_pos h

theorem exec_reset_identityFails (hf : imageCheck s.pkg.flash = 0) (h : imageCheck s.pkg.idImage ≠ 0) :
    exec .reset s = .next (s.bootFailed 1 (imageCheck s.pkg.idImage)
      { s.afterReset.pkg with fwVersion := Config.imageVersion s.pkg.flash }) :=
  (if_neg (not_not_intro hf)).trans (if_pos h)

/-- A device that boots, with the package that the two images give. -/
def State.booted (s : State) (p : Package) : State := { s.afterReset with pkg := p, cores := (List.range 1216).map fun k => (k, bootCore k) }

theorem exec_reset_boots (hf : imageCheck s.pkg.flash = 0) (h : imageCheck s.pkg.idImage = 0) : ∃ p : Package,
    exec .reset s = .next (s.booted p) ∧ p.booted = true ∧ p.bootFail = 0 ∧ p.links = (s.pkg.links.map fun _ => 2) ∧
      p.fwVersion = Config.imageVersion s.pkg.flash :=
  ⟨_, (if_neg (not_not_intro hf)).trans (if_neg (not_not_intro h)), rfl, rfl, List.map_map, rfl⟩

theorem wiped_bootFailed (s : State) (image check : Nat) (p : Package) : Wiped s (s.bootFailed image check p) :=
  ⟨rfl, rfl, rfl, rfl, rfl, rfl, rfl, fun _ he => absurd he List.not_mem_nil⟩

theorem cores_booted (s : State) (p : Package) : (s.booted p).cores = (List.range 1216).map fun k => (k, bootCore k) := by
  simp only [State.booted]

theorem wiped_booted (s : State) (p : Package) : Wiped s (s.booted p) := by
  refine ⟨rfl, rfl, rfl, rfl, rfl, rfl, rfl, fun e he => ?_⟩
  rw [cores_booted] at he
  obtain ⟨k, -, rfl⟩ := List.mem_map.mp he
  rfl

/-- DEVSTAT (R332): whether the device has booted, and whether its boot has failed. -/
theorem bar0Read_devstat (s : State) : s.bar0Read 8 = word (bit s.pkg.booted + at' 1 (bit (s.pkg.bootFail != 0))) := rfl

/-- A device that has not booted is refused its identity, and DEVSTAT says that the boot has failed. -/
theorem bootFailed_registers (s : State) (image : Nat) {check : Nat} (hc : check ≠ 0) {p : Package} (hp : p.booted = false) :
    (s.bootFailed image check p).pkg.booted = false ∧ (s.bootFailed image check p).bar0Read 8 = 2 ∧
      (s.bootFailed image check p).bar0Read 0 = 0 ∧ (s.bootFailed image check p).pkg.bootImage = image := by
  have hb : (s.bootFailed image check p).pkg.booted = false := hp
  have hf : ((s.bootFailed image check p).pkg.bootFail != 0) = true := bne_iff_ne.mpr hc
  refine ⟨hb, ?_, ?_, rfl⟩
  · rw [bar0Read_devstat, hb, hf]
    rfl
  · simp [State.bar0Read, hb]

/-- Every core of a booted device is as firmware leaves it. -/
theorem core_booted (s : State) (p : Package) {k : Nat} (hk : k < 1216) : (s.booted p).core k = bootCore k := by
  have hget := SMap.get?_map_range' (f := bootCore) (Nat.zero_le k) (show k < 0 + 1216 by omega)
  rw [← List.range_eq_range'] at hget
  rw [State.core, cores_booted, SMap.getD, hget, Option.getD_some]

/-- Entry 15 of a core at boot (R320). -/
theorem entry_bootCore (k : Nat) : (bootCore k).entry 15 = bootEntry := rfl

theorem bootW_bounds : 8 ≤ bootW ∧ bootW ≤ 96 ∧ bootW % 8 = 0 := by
  unfold bootW
  omega

/-- What firmware has set of a core at boot (R320). -/
theorem core_atBoot (s : State) (p : Package) {k : Nat} (hk : k < 1216) :
    let x := ((s.booted p).core k).entry 15
    x.valid = true ∧ x.ports = 0x80000000 ∧ x.slot = 0 ∧ 8 ≤ x.w ∧ x.w ≤ 96 ∧ x.w % 8 = 0 ∧ x.prio = 3 ∧
      x.pc = Config.supervisorPc &&& ~~~3 ∧ x.pass = 0 ∧ ((s.booted p).core k).spillBase = Config.spillBase k ∧
      ((s.booted p).core k).paddockBase = Config.paddockBase k := by
  rw [core_booted s p hk, entry_bootCore]
  obtain ⟨hlo, hhi, hmod⟩ := bootW_bounds
  exact ⟨rfl, rfl, rfl, hlo, hhi, hmod, rfl, rfl, rfl, rfl, rfl⟩

/-- What the two boot checks lead to (R335). -/
def BootOutcome (s t : State) : Prop :=
  (Verified s.pkg.flash → Verified s.pkg.idImage → t.pkg.booted = true ∧ t.pkg.links = (s.pkg.links.map fun _ => 2) ∧ t.bar0Read 8 = 1 ∧
    t.pkg.fwVersion = Config.imageVersion s.pkg.flash ∧ ∀ k, k < 1216 →
      let x := (t.core k).entry 15
      x.valid = true ∧ x.ports = 0x80000000 ∧ x.slot = 0 ∧ 8 ≤ x.w ∧ x.w ≤ 96 ∧ x.w % 8 = 0 ∧ x.prio = 3 ∧
        x.pc = Config.supervisorPc &&& ~~~3 ∧ x.pass = 0 ∧ (t.core k).spillBase = Config.spillBase k ∧
        (t.core k).paddockBase = Config.paddockBase k) ∧
  (¬ Verified s.pkg.flash → t.pkg.booted = false ∧ t.bar0Read 8 = 2 ∧ t.bar0Read 0 = 0 ∧ t.pkg.bootImage = 0) ∧
  (Verified s.pkg.flash → ¬ Verified s.pkg.idImage → t.pkg.booted = false ∧ t.bar0Read 8 = 2 ∧ t.bar0Read 0 = 0 ∧ t.pkg.bootImage = 1)

/-- A reset wipes the device, and boots it when both images pass their checks. -/
theorem reset_wipes_and_boots (s : State) : ∃ t, exec .reset s = .next t ∧ Wiped s t ∧ BootOutcome s t := by
  by_cases hf : Verified s.pkg.flash
  · by_cases hg : Verified s.pkg.idImage
    · obtain ⟨p, hx, hbooted, hfail, hlinks, hversion⟩ :=
        exec_reset_boots ((imageCheck_eq_zero_iff _).mpr hf) ((imageCheck_eq_zero_iff _).mpr hg)
      refine ⟨_, hx, wiped_booted s p, fun _ _ => ⟨hbooted, hlinks, ?_, hversion, fun k hk => core_atBoot s p hk⟩,
        fun h => absurd hf h, fun _ h => absurd hg h⟩
      rw [bar0Read_devstat, show (s.booted p).pkg = p from rfl, hbooted, hfail]
      rfl
    · have hc := mt (imageCheck_eq_zero_iff _).mp hg
      exact ⟨_, exec_reset_identityFails ((imageCheck_eq_zero_iff _).mpr hf) hc, wiped_bootFailed .., fun _ h => absurd h hg,
        fun h => absurd hf h, fun _ _ => bootFailed_registers s 1 hc rfl⟩
  · have hc := mt (imageCheck_eq_zero_iff _).mp hf
    exact ⟨_, exec_reset_flashFails hc, wiped_bootFailed .., fun h => absurd h hf, fun _ => bootFailed_registers s 0 hc rfl,
      fun h => absurd h hf⟩

/-! ### Links that go down (R337) -/

/-- A map whose values are changed one by one. -/
theorem SMap.get?_map_values {α : Type} (m : SMap α) (f : α → α) (k : Nat) :
    SMap.get? (m.map fun e => (e.1, f e.2)) k = (SMap.get? m k).map f := by
  induction m with
  | nil => rfl
  | cons e m ih =>
    rw [List.map_cons, SMap.get?, SMap.get?]
    split
    · rfl
    · split
      · rfl
      · exact ih

theorem cutWaiters_eq_serveAll (s : State) (link : Nat) :
    s.cutWaiters link = s.serveAll (s.waiting.filter fun r => s.onLink link r.id) 23 (fun _ => 0) false := rfl

/-- A packet whose payload is an answer that a link has cut. -/
def State.cutPacket (s : State) (link : Nat) (q : Packet) : Packet := { q with payload := s.cutPayload link q.payload }

theorem exec_linkDown (s : State) (link : Nat) : exec (.linkDown link) s =
    .next (({ s.cutWaiters link with
      packets := (s.cutWaiters link).packets.map fun e => (e.1, s.cutPacket link e.2)
      pkg := { (s.cutWaiters link).pkg with links := (s.cutWaiters link).pkg.links.set link 0 } } : State).logEntry 4 0 link 0) := rfl

/-- The answers on a link become faults with cause 7, and no other. -/
theorem cutPayload_cuts (s : State) (link rid : Nat) (x : Payload) :
    (s.onLink link rid = true → (∀ bs c y z, x = .land rid bs c y z → ∃ z w, s.cutPayload link x = .land rid [] 7 z w) ∧
      (∀ c, x = .ack rid c → s.cutPayload link x = .ack rid 7) ∧ (∀ v c, x = .old rid v c → s.cutPayload link x = .old rid 0 7)) ∧
    (s.onLink link rid = false → (∀ bs c y z, x = .land rid bs c y z → s.cutPayload link x = x) ∧
      (∀ c, x = .ack rid c → s.cutPayload link x = x)) := by
  refine ⟨fun h => ⟨?_, ?_, ?_⟩, fun h => ⟨?_, ?_⟩⟩
  · rintro bs c y z rfl
    exact ⟨false, [], if_pos h⟩
  · rintro c rfl
    exact if_pos h
  · rintro v c rfl
    exact if_pos h
  · rintro bs c y z rfl
    exact if_neg (by rw [h]; decide)
  · rintro c rfl
    exact if_neg (by rw [h]; decide)

/-- A waiter beyond the link has left its list, and its answer is on its way. -/
theorem posted_linkDown {w : Req} (hw : w ∈ s.waiting) (hl : s.onLink link w.id = true) :
    w.id ∉ (s.cutWaiters link).waiters ∧ ∃ pid q, SMap.get? (s.cutWaiters link).packets pid = some q ∧ s.nextId ≤ pid ∧
      q.dst = w.node ∧ (s.cutPacket link q).payload = .answer w.id 23 0 false := by
  have hmem : w ∈ s.waiting.filter fun r => s.onLink link r.id := List.mem_filter.mpr ⟨hw, hl⟩
  rw [cutWaiters_eq_serveAll]
  obtain ⟨pid, q, hq, hlo, -, hdst, hp⟩ := posted_serveAll hmem s 23 (fun _ => 0) false
  refine ⟨not_mem_waiters_serveAll hmem s 23 _ false, pid, q, hq, hlo, hdst, ?_⟩
  rw [State.cutPacket, hp]
  exact if_pos hl

end

end Sys2Proof.Machine

namespace Sys2Proof
open Sys2Proof.Machine

/-- Settles O5: at reset every map is empty, and each list has its default length. -/
theorem resetHasTheInvariants : Obligations.ResetHasTheInvariants := by
  unfold Obligations.ResetHasTheInvariants
  have hnone {α : Type} {P : α → Prop} : ∀ e ∈ ([] : List α), P e := fun _ he => absurd he List.not_mem_nil
  exact ⟨⟨rfl, rfl, rfl, rfl, rfl, hnone⟩, hnone, hnone, hnone, rfl, rfl, rfl, rfl,
    fun _ _ hcur => absurd hcur.symm (Option.some_ne_none _)⟩

/-- Settles O60: a reset wipes the device whichever of its checks fails; a link that goes down answers the waiters beyond it and cuts
the answers on it. -/
theorem bootAndLinks : Obligations.BootAndLinks := by
  unfold Obligations.BootAndLinks
  refine ⟨fun s => ?_, fun s link hsz hlink => ?_⟩
  · obtain ⟨t, hx, h, hboot⟩ := reset_wipes_and_boots s
    exact ⟨t, hx, fun key hk => ⟨h.byte_own (ownKey_iff.mpr hk), h.full_own (ownKey_iff.mpr hk)⟩, h.rf, h.streams, h.threads, h.readS,
      h.core_feretry, h.mx, fun key hk hs => h.byte_other (Memory.sorted_of_wf hs.1) (not_ownKey hk), hboot⟩
  · obtain ⟨-, -, -, -, hlinks, -⟩ := hsz
    have hcut := served_serveAll s (s.waiting.filter fun r => s.onLink link r.id) 23 (fun _ => 0) false
    rw [← cutWaiters_eq_serveAll] at hcut
    refine ⟨_, exec_linkDown s link, ?_, fun k hk => ?_, hcut.mem, ?_, fun w hw hl => ?_, fun pid q hpid hq => ?_⟩
    · show ((s.cutWaiters link).pkg.links.set link 0)[link]? = some 0
      rw [hcut.pkg, List.getElem?_set_self (by omega)]
    · show ((s.cutWaiters link).pkg.links.set link 0)[k]? = _
      rw [hcut.pkg, List.getElem?_set_ne hk.symm]
    · show (s.cutWaiters link).pkg.logEntries ++ [{ cycle := (s.cutWaiters link).cycle, w1 := _ }] = _
      rw [hcut.pkg, hcut.cycle, at', at', at', Nat.zero_mul, Nat.zero_mul, Nat.add_zero, Nat.add_zero, Nat.mul_comm link]
      rfl
    · obtain ⟨hgone, pid, q, hq, hlo, hdst, hp⟩ := posted_linkDown hw hl
      exact ⟨hgone, pid, s.cutPacket link q, (SMap.get?_map_values _ (s.cutPacket link) pid).trans (congrArg _ hq), hlo, hdst, hp⟩
    · refine ⟨s.cutPacket link q, ?_, rfl, fun rid => cutPayload_cuts s link rid q.payload⟩
      exact (SMap.get?_map_values _ (s.cutPacket link) pid).trans (congrArg _ ((hcut.packets pid hpid).trans hq))

end Sys2Proof
end

section
/-! AMO, ACAS and RED at the owner, and the reply (R137, R140, R143). -/

set_option Elab.async false

namespace Sys2Proof.Machine

/-! ### A request served at its owner -/

/-- An owner has begun to serve a request in w: the ports of its banks are in use, it may go ahead of its die's order, and it has left
its slice's queue. -/
def State.Opened (s w : State) : Prop :=
  ∃ used last ahead slices, w = { s with banksUsed := used, portLast := last, ahead := ahead, slices := slices }

/-- The owner is done with a request in t: the line that it touched has its place in its slice, and nothing else has changed since u. -/
structure State.Closed (u t : State) : Prop where
  mem : t.mem = u.mem
  fe : t.fe = u.fe
  reqs : t.reqs = u.reqs
  waiters : t.waiters = u.waiters
  packets : t.packets = u.packets

section
variable {s : State} {r : Req}

theorem closed_touchLine (s : State) (r : Req) : ∃ slices next, s.touchLine r = { s with slices := slices, nextId := next } := by
  have htouch (k : Nat) (t : Target) (hint : Nat) (write keep : Bool) :
      ∃ slices next, s.l2Touch k t hint write keep = { s with slices := slices, nextId := next } := by
    unfold State.l2Touch
    split
    · extract_lets sl old
      split
      · exact ⟨s.slices, s.nextId, rfl⟩
      · exact ⟨_, _, rfl⟩
    · exact ⟨s.slices, s.nextId, rfl⟩
  unfold State.touchLine
  split
  · split
    · exact ⟨s.slices, s.nextId, rfl⟩
    · exact ⟨s.slices, s.nextId, rfl⟩
    · exact htouch ..
  · exact ⟨s.slices, s.nextId, rfl⟩

theorem closed_settleAhead (u : State) (r : Req) : u.Closed (u.touchLine r).settleAhead := by
  obtain ⟨slices, next, ht⟩ := closed_touchLine u r
  obtain ⟨p, hp⟩ := (u.touchLine r).settleAhead_eq
  rw [hp, ht]
  exact ⟨rfl, rfl, rfl, rfl, rfl⟩

section
variable {u t : State}

theorem State.Closed.byte (h : u.Closed t) (a : Nat) : t.byte a = u.byte a := byte_congr h.mem a

theorem State.Closed.full (h : u.Closed t) (a : Nat) : t.full a = u.full a := by rw [State.full, State.full, h.fe]

theorem State.Closed.stage (h : u.Closed t) (id : Nat) : (t.req? id).map (·.stage) = (u.req? id).map (·.stage) := by
  rw [State.req?, State.req?, h.reqs]

theorem State.Closed.onlyBytes {key n : Nat} (h : u.Closed t) (hu : OnlyBytes s u key n) : OnlyBytes s t key n :=
  fun a ha => (h.byte a).trans (hu a ha)

theorem State.Closed.bytesAt (h : u.Closed t) (key n : Nat) : Sys2Proof.bytesAt t key n = Sys2Proof.bytesAt u key n := by
  simp only [Sys2Proof.bytesAt, h.byte]

theorem State.Closed.sent {n : Nat} {p : Payload} (h : u.Closed t) (hu : Sent s u n p) : Sent s t n p := by
  obtain ⟨pid, q, hq, hlo, hdst, hp⟩ := hu
  exact ⟨pid, q, h.packets ▸ hq, hlo, hdst, hp⟩

end

theorem opened_leaveQueue (s : State) (r : Req) : s.Opened (s.leaveQueue r) := by
  unfold State.leaveQueue
  split <;> exact ⟨s.banksUsed, s.portLast, s.ahead, _, rfl⟩

theorem State.Opened.trans {s w v : State} (h : s.Opened w) (k : w.Opened v) : s.Opened v := by
  obtain ⟨_, _, _, _, rfl⟩ := h
  obtain ⟨used, last, ahead, slices, rfl⟩ := k
  exact ⟨used, last, ahead, slices, rfl⟩

/-- The owner's checks see nothing of what the start of a service changes. -/
theorem State.Opened.ownerCause {w : State} (h : s.Opened w) (r : Req) : w.ownerCause r = s.ownerCause r := by
  obtain ⟨_, _, _, _, rfl⟩ := h
  exact ownerCause_congr ⟨rfl, rfl, rfl, rfl, rfl⟩ r

/-- What an owner that has begun to serve a request ends with: the request is answered with a fault, or served. -/
def State.serviceOf (w : State) (r : Req) (f : State → Req → State) : State :=
  let c := w.ownerCause r
  (if c ≠ 0 then (w.notePoison r c).ownerFault r c else (f (w.notePoison r c) r).touchLine r).settleAhead

theorem serviceOf_of_noFault {w : State} (h : w.ownerCause r = 0) (f : State → Req → State) :
    w.serviceOf r f = ((f w r).touchLine r).settleAhead := by
  rw [State.serviceOf, h]
  rfl

/-- A request whose turn has come, and at which the owner finds no fault, is served. -/
theorem atOwner_serves (hr : s.req? r.id = some r) (h : TurnOf s r) (mv : Move) (f : State → Req → State) :
    ∃ w, s.Opened w ∧ (f w r).Closed (s.atOwner mv r.id f) := by
  obtain ⟨hturn, hcause⟩ := h
  have hheld := ownerHeld_of_turn hturn
  obtain ⟨h1, h2, h3, hred, hfree, hasks, _, _⟩ := hturn
  have hports := State.askPorts_free (u := .fabric) (id := r.id) r.banks_nodup hfree hasks
  generalize hp : ({ s with banksUsed := _, portLast := _ } : State) = p at hports
  have hsp : s.Opened p := ⟨_, _, s.ahead, s.slices, hp.symm⟩
  have hw : s.Opened ((if r.isLine then p else p.goAhead r).leaveQueue r) := by
    refine State.Opened.trans ?_ (opened_leaveQueue _ r)
    split
    · exact hsp
    · obtain ⟨l, hl⟩ := p.goAhead_eq r
      exact hsp.trans ⟨p.banksUsed, p.portLast, l, p.slices, hl⟩
  refine ⟨_, hw, ?_⟩
  have hst : ¬ (r.stage = .performed ∨ r.stage = .port ∨ r.stage = .waiter) := by simp [h1, h2, h3]
  have hat : s.atOwner mv r.id f = ((if r.isLine then p else p.goAhead r).leaveQueue r).serviceOf r f := by
    unfold State.atOwner
    simp only [hr, hst, if_false]
    refine (if_neg fun hh => Bool.false_ne_true (hheld.symm.trans hh)).trans ?_
    simp only [hred, hports]
    rfl
  rw [hat, serviceOf_of_noFault ((hw.ownerCause r).trans hcause)]
  exact closed_settleAhead ..

/-- So the row in which an owner performs a kind of request answers what the service leaves. -/
theorem answers_atOwner {i : Instr} {mv : Move} {f : State → Req → State} {P : State → Prop}
    (hx : exec i s = .next (s.atOwner mv s.subj.n f)) (hr : s.req? s.subj.n = some r) (hid : r.id = s.subj.n) (h : TurnOf s r)
    (hP : ∀ w t, s.Opened w → (f w r).Closed t → P t) : Answers i s P := by
  rw [← hid] at hx hr
  obtain ⟨w, hw, ht⟩ := atOwner_serves hr h mv f
  exact ⟨_, hx, hP w _ hw ht⟩

end

/-! ### The value that an atomic update leaves (R140) -/

section
variable {bits old b : Nat}

theorem signedOf_eq_toSigned {v : Nat} (hb : 0 < bits) (hv : v < 2 ^ bits) : signedOf bits v = toSigned bits v := by
  have hpow : 2 ^ bits = 2 * 2 ^ (bits - 1) := by rw [← Nat.pow_succ', Nat.succ_eq_add_one, Nat.sub_add_cancel hb]
  simp only [signedOf, toSigned, Nat.mod_eq_of_lt hv, if_neg hb.ne']
  by_cases h : v < 2 ^ (bits - 1)
  · rw [if_pos h, if_neg (by omega)]
  · rw [if_neg h, if_pos (by omega)]
    push_cast
    rfl

/-- Numbers of n bits with one value in two's complement are one number. -/
theorem toSigned_inj {v w : Nat} (hv : v < 2 ^ bits) (hw : w < 2 ^ bits) (h : toSigned bits v = toSigned bits w) : v = w := by
  unfold toSigned at h
  zify at hv hw
  by_cases h1 : 2 ^ bits ≤ 2 * v <;> by_cases h2 : 2 ^ bits ≤ 2 * w <;> simp only [h1, h2, if_true, if_false] at h <;> omega

/-- An update of `old` with the outcome v leaves the number res of `bits` bits. -/
def Leaves (bits old : Nat) (v : Option Nat) (res : Nat) : Prop := res < 2 ^ bits ∧ (v = some res ∨ v = none ∧ res = old)

theorem leaves_add : Leaves bits old (some ((old + b) % 2 ^ bits)) ((old + b) % 2 ^ bits) :=
  ⟨Nat.mod_lt _ (Nat.two_pow_pos bits), .inl rfl⟩
theorem leaves_and (hb : b < 2 ^ bits) : Leaves bits old (some (old &&& b)) (old &&& b) := ⟨Nat.and_lt_two_pow old hb, .inl rfl⟩
theorem leaves_swap (hb : b < 2 ^ bits) : Leaves bits old (some b) b := ⟨hb, .inl rfl⟩

variable (hold : old < 2 ^ bits) (hb : b < 2 ^ bits)
include hold hb

theorem leaves_or : Leaves bits old (some (old ||| b)) (old ||| b) := ⟨Nat.or_lt_two_pow hold hb, .inl rfl⟩
theorem leaves_xor : Leaves bits old (some (old ^^^ b)) (old ^^^ b) := ⟨Nat.xor_lt_two_pow hold hb, .inl rfl⟩

/-- One of the two numbers is left. -/
theorem leaves_choice (c : Prop) [Decidable c] {v : Nat} (h : v = if c then old else b) : Leaves bits old (some v) (if c then old else b) := by
  refine ⟨?_, .inl (congrArg some h)⟩
  split
  · exact hold
  · exact hb

/-- The signed minimum and maximum, where equal values are one number. -/
theorem leaves_signedMin (h0 : 0 < bits) : Leaves bits old (some (if signedOf bits old ≤ signedOf bits b then old else b))
    (if toSigned bits old < toSigned bits b then old else b) := by
  refine leaves_choice hold hb _ ?_
  rw [signedOf_eq_toSigned h0 hold, signedOf_eq_toSigned h0 hb]
  rcases lt_trichotomy (toSigned bits old) (toSigned bits b) with h | h | h
  · rw [if_pos h.le, if_pos h]
  · rw [if_pos h.le, if_neg h.not_lt]
    exact toSigned_inj hold hb h
  · rw [if_neg h.not_ge, if_neg h.not_gt]

theorem leaves_signedMax (h0 : 0 < bits) : Leaves bits old (some (if signedOf bits old ≤ signedOf bits b then b else old))
    (if toSigned bits b < toSigned bits old then old else b) := by
  refine leaves_choice hold hb _ ?_
  rw [signedOf_eq_toSigned h0 hold, signedOf_eq_toSigned h0 hb]
  by_cases h : toSigned bits b < toSigned bits old
  · rw [if_neg h.not_ge, if_pos h]
  · rw [if_pos (not_lt.mp h), if_neg h]

theorem leaves_min : Leaves bits old (some (min old b)) (if old < b then old else b) := by
  refine leaves_choice hold hb _ ?_
  split <;> omega

theorem leaves_max : Leaves bits old (some (max old b)) (if b < old then old else b) := by
  refine leaves_choice hold hb _ ?_
  split <;> omega

/-- ACAS leaves a value that it did not expect. -/
theorem leaves_swapIf (exp : Nat) : Leaves bits old (if old = exp then some b else none) (if old = exp then b else old) := by
  split
  · exact ⟨hb, .inl rfl⟩
  · exact ⟨hold, .inr ⟨rfl, rfl⟩⟩

end

/-- Every AMO, ACAS and RED leaves the value of R140. -/
theorem leaves_amoValue {i : Instr} {n old b exp : Nat} (hi : isAmo i = true ∨ isRed i = true) (hn : 0 < n) (hold : old < 2 ^ (8 * n))
    (hb : b < 2 ^ (8 * n)) : Leaves (8 * n) old (amoValue i n old b exp) (atomicResult i (8 * n) old b exp) := by
  have h0 : 0 < 8 * n := by omega
  rcases hi with hi | hi
  · unfold isAmo at hi
    split at hi
    · exact leaves_add
    · exact leaves_and hb
    · exact leaves_or hold hb
    · exact leaves_xor hold hb
    · exact leaves_signedMin hold hb h0
    · exact leaves_signedMax hold hb h0
    · exact leaves_min hold hb
    · exact leaves_max hold hb
    · exact leaves_swap hb
    · exact leaves_swapIf hold hb exp
    · exact absurd hi Bool.false_ne_true
  · unfold isRed at hi
    split at hi
    · exact leaves_add
    · exact leaves_and hb
    · exact leaves_or hold hb
    · exact leaves_xor hold hb
    · exact leaves_signedMin hold hb h0
    · exact leaves_signedMax hold hb h0
    · exact leaves_min hold hb
    · exact leaves_max hold hb
    · exact absurd hi Bool.false_ne_true

/-! ### The update at the owner (R137, R140, R143) -/

section
variable {s w u : State} {r : Req}

/-- The write of an atomic update, where it makes one. -/
def State.atomicWrite (w : State) (r : Req) : State :=
  match amoValue r.instr r.bytes (w.load r.key r.bytes) r.data r.exp with
  | some v => w.ownerWrite r.key (toBytes r.bytes v)
  | none => w

theorem load_lt (w : State) (key n : Nat) : w.load key n < 2 ^ (8 * n) := by
  have h : ∀ bs : List Byte, ofBytes bs < 2 ^ (8 * bs.length) := by
    intro bs
    induction bs with
    | nil => exact Nat.one_pos
    | cons b bs ih =>
      rw [ofBytes, List.length_cons, Nat.mul_succ, Nat.pow_add]
      omega
  have hlen : (w.bytes key n).length = n := by rw [State.bytes_eq_map, List.length_map, List.length_range]
  exact (h _).trans_eq (by rw [hlen])

theorem woken_atomicWrite (w : State) (r : Req) : Woken w (w.atomicWrite r) := by
  unfold State.atomicWrite
  split
  · exact woken_ownerWrite ..
  · exact ⟨rfl, le_rfl⟩

/-- The result stands in the bytes of the access, and no other byte changes. -/
theorem bytesAt_atomicWrite (hs : Memory.wf w.mem = true) (hi : isAmo r.instr = true ∨ isRed r.instr = true) (hn : 0 < r.bytes)
    (hd : r.data < 2 ^ (8 * r.bytes)) : OnlyBytes w (w.atomicWrite r) r.key r.bytes ∧
      Sys2Proof.bytesAt (w.atomicWrite r) r.key r.bytes =
        atomicResult r.instr (8 * r.bytes) (Sys2Proof.bytesAt w r.key r.bytes) r.data r.exp := by
  obtain ⟨hlt, hv⟩ := leaves_amoValue (exp := r.exp) hi hn (load_lt w r.key r.bytes) hd
  rw [← State.load_eq_bytesAt w]
  unfold State.atomicWrite
  rcases hv with hv | ⟨hv, hold⟩ <;> rw [hv]
  · obtain ⟨honly, hbytes⟩ := byte_of_setBytes (u := w.ownerWrite r.key (toBytes r.bytes _)) hs (State.afterWrite_mem ..)
    exact ⟨honly, hbytes.trans (Nat.mod_eq_of_lt hlt)⟩
  · exact ⟨fun _ _ => rfl, (State.load_eq_bytesAt ..).symm.trans hold.symm⟩

/-- What the owner answers to an atomic access: the old value, or an acknowledgement of a RED. -/
def atomicAnswer (r : Req) (old : Nat) : Payload :=
  if isAmo r.instr then .old r.id (u64 (signedOf (8 * r.bytes) old)) 0 else .ack r.id 0

theorem performAtomic_eq (w : State) (r : Req) : ∃ ev, w.performAtomic r =
    ((w.atomicWrite r).performed r).respond r (atomicAnswer r (w.load r.key r.bytes)) ev := by
  by_cases h : isAmo r.instr = true
  · exact ⟨.amoReply, (if_pos h).trans (by rw [atomicAnswer, if_pos h]; rfl)⟩
  · exact ⟨.storeAcknowledge, (if_neg h).trans (by rw [atomicAnswer, if_neg h]; rfl)⟩

/-- AMO, ACAS and RED in one step at their owner. -/
theorem performAtomic_leaves {t : State} (hs : Memory.wf w.mem = true) (hi : isAmo r.instr = true ∨ isRed r.instr = true) (hn : 0 < r.bytes)
    (hd : r.data < 2 ^ (8 * r.bytes)) (ht : (w.performAtomic r).Closed t) :
    Sys2Proof.bytesAt t r.key r.bytes = atomicResult r.instr (8 * r.bytes) (Sys2Proof.bytesAt w r.key r.bytes) r.data r.exp ∧
      OnlyBytes w t r.key r.bytes ∧ t.fe = w.fe ∧ (t.req? r.id).map (·.stage) = some .performed ∧
      Sent w t r.node (atomicAnswer r (Sys2Proof.bytesAt w r.key r.bytes)) := by
  obtain ⟨ev, heq⟩ := performAtomic_eq w r
  rw [heq] at ht
  obtain ⟨honly, hbytes⟩ := bytesAt_atomicWrite hs hi hn hd
  have hwoken := woken_atomicWrite w r
  have hsent := sent_of_later (sent_respond ((w.atomicWrite r).performed r) r (atomicAnswer r (w.load r.key r.bytes)) ev) hwoken.nextId
  rw [← State.load_eq_bytesAt w]
  exact ⟨(ht.bytesAt ..).trans (State.load_eq_bytesAt w .. ▸ hbytes), ht.onlyBytes honly, ht.fe.trans hwoken.fe,
    (ht.stage _).trans (congrArg (Option.map _) (SMap.get?_put_same ..)), ht.sent hsent⟩

theorem isAmo_of_isRed {i : Instr} (h : isRed i = true) : isAmo i = false := by
  unfold isRed at h
  split at h
  case h_9 => exact absurd h Bool.false_ne_true
  all_goals rfl

end

/-! ### The reply (R140) -/

section
variable {s : State} {r : Req} {th : Thread} {tk : Nat} {v : Word}

/-- A thread with the place, status and counts of another. -/
structure SameCounts (a b : Thread) : Prop where
  pc : b.pc = a.pc
  status : b.status = a.status
  base : b.base = a.base
  u : b.u = a.u
  amos : b.amos = a.amos

/-- A result that lands may make its thread ready, and does no more to it. -/
theorem thread?_landed (h : s.thread? tk = some th) : ∃ u, (s.landed tk).thread? tk = some u ∧ SameCounts th u := by
  unfold State.landed
  split
  · exact ⟨_, (State.thread?_modThread ..).trans (congrArg _ h), rfl, rfl, rfl, rfl, rfl⟩
  · split
    · exact ⟨_, (State.thread?_modThread ..).trans (congrArg _ h), rfl, rfl, rfl, rfl, rfl⟩
    · exact ⟨th, h, rfl, rfl, rfl, rfl, rfl⟩

theorem spend_landed (s : State) (tk : Nat) : (s.landed tk).spend = s.spend := by
  unfold State.landed
  split
  · exact State.modThread_spend ..
  · split
    · exact State.modThread_spend ..
    · rfl

/-- A late result changes registers alone. -/
theorem writeGSOf_threads (s : State) (tk : Nat) (x : Reg) (v : Word) (stamp : Nat) : (s.writeGSOf tk x v stamp).threads = s.threads := by
  cases x with
  | s k => exact State.putSWrite_threads ..
  | _ => rfl
theorem writeGSOf_mem (s : State) (tk : Nat) (x : Reg) (v : Word) (stamp : Nat) : (s.writeGSOf tk x v stamp).mem = s.mem := by
  cases x with
  | s k => exact State.putSWrite_mem ..
  | _ => rfl
theorem writeGSOf_reqs (s : State) (tk : Nat) (x : Reg) (v : Word) (stamp : Nat) : (s.writeGSOf tk x v stamp).reqs = s.reqs := by
  cases x with
  | s k =>
    obtain ⟨l, hl⟩ := s.putSWrite_eq { key := 16 * coreOf tk + k.val, value := v, cycle := s.cycle, slot := slotOf tk, stamp := stamp }
    exact (congrArg State.reqs hl :)
  | _ => rfl

/-- What the landing of an old value leaves of a state w in which its register has been written. -/
def State.replied (w : State) (r : Req) : State := ((w.acked r).modThread r.tk fun th => { th with amos := th.amos - 1 }).landed r.tk

theorem landOld_eq_replied (h : s.thread? r.tk = some th) (hb : th.born < r.id) (v : Word) :
    s.landOld r v 0 = (s.writeGSOf r.tk (amoRd r.instr) v r.stamp).replied r := if_pos (mine_of_thread? h hb)

/-- Counts, memory and registers after a reply. -/
structure Replied (w t : State) (r : Req) (th : Thread) : Prop where
  reqs : t.reqs = SMap.del w.reqs r.id
  thread : ∃ u, t.thread? r.tk = some u ∧ u.u = th.u - 1 ∧ u.amos = th.amos - 1 ∧ u.status = th.status ∧ u.pc = th.pc ∧ u.base = th.base
  mem : t.mem = w.mem
  rf : t.rf = w.rf
  spend : t.spend = w.spend

theorem replied_replied (h : s.thread? r.tk = some th) (hb : th.born < r.id) : Replied s (s.replied r) r th := by
  have hover := over_acked h hb
  have hland := landedOnly_landed ((s.acked r).modThread r.tk fun th => { th with amos := th.amos - 1 }) r.tk
  have hth := (State.thread?_modThread (s.acked r) r.tk fun th => { th with amos := th.amos - 1 }).trans (congrArg _ hover.thread)
  obtain ⟨u, hu, hpc, hstatus, hbase, hcount, hamos⟩ := thread?_landed hth
  have hrf : (s.acked r).rf = s.rf := by rw [State.acked, modMine_eq h hb, State.delReq_rf, State.modThread_rf]
  have hspend : (s.acked r).spend = s.spend := by rw [State.acked, modMine_eq h hb, State.delReq_spend, State.modThread_spend]
  exact ⟨hland.reqs.trans ((State.modThread_reqs ..).trans hover.reqs), ⟨u, hu, hcount, hamos, hstatus, hpc, hbase⟩,
    hland.mem.trans ((State.modThread_mem ..).trans hover.mem), hland.rf.trans ((State.modThread_rf ..).trans hrf),
    (spend_landed ..).trans ((State.modThread_spend ..).trans hspend)⟩

theorem exec_amoReply (hp : Arrives s (.old r.id v 0)) (hr : s.req? r.id = some r) :
    exec .amoReply s = .next ((s.dropPacket s.subj.n).landOld r v 0) := by
  obtain ⟨q, hq, hid, hpay, hbeh⟩ := hp
  have hr' : (s.dropPacket s.subj.n).req? r.id = some r := hr
  show execAmoReply s = _
  simp only [execAmoReply, hq, hbeh, Bool.false_eq_true, if_false, hpay, hid, hr']

/-- The old value lands in rd, and the reply counts as the acknowledgement. -/
theorem amoReply_lands (hrf : SMap.sortedFrom 0 s.rf = true) (hp : Arrives s (.old r.id v 0)) (hr : s.req? r.id = some r)
    (h : s.thread? r.tk = some th) (hb : th.born < r.id) : Answers .amoReply s fun t =>
      t.reqs = SMap.del s.reqs r.id ∧ (∃ u, t.thread? r.tk = some u ∧ u.u = th.u - 1 ∧ u.amos = th.amos - 1 ∧
        u.status = th.status ∧ u.pc = th.pc) ∧ t.mem = s.mem ∧
      (∀ k, amoRd r.instr = .g k → t.readG r.tk k.val = v) ∧
      (∀ k, amoRd r.instr = .s k →
        t.spend = (s.writeSAt (coreOf r.tk) k.val v (slotOf r.tk) s.cycle r.stamp).spend) := by
  have hx := exec_amoReply hp hr
  rw [landOld_eq_replied (s := s.dropPacket s.subj.n) h hb] at hx
  refine ⟨_, hx, ?_⟩
  have hth : ((s.dropPacket s.subj.n).writeGSOf r.tk (amoRd r.instr) v r.stamp).thread? r.tk = some th := by
    rw [State.thread?, writeGSOf_threads]
    exact h
  obtain ⟨hreqs, ⟨u, hu, hcount, hamos, hstatus, hpc, hbase⟩, hmem, hrf', hspend⟩ := replied_replied hth hb
  refine ⟨hreqs.trans (by rw [writeGSOf_reqs]; rfl), ⟨u, hu, hcount, hamos, hstatus, hpc⟩, hmem.trans (writeGSOf_mem ..), ?_, ?_⟩
  · intro k hk
    rw [hk] at hrf' hu ⊢
    rw [State.readG, State.rfKey, State.thread_of_thread? hu, hbase, hrf', ← State.thread_of_thread? h]
    exact s.readG_writeG r.tk k.val v hrf
  · intro k hk
    rw [hk] at hspend ⊢
    exact hspend.trans (State.spend_putSWrite_congr (s := s) (p := s.dropPacket s.subj.n) rfl _)

end

end Sys2Proof.Machine

namespace Sys2Proof
open Sys2Proof.Machine

/-- Settles O28: the service of the request is one update of its bytes, and its reply writes the register. -/
theorem atomicsAtOwner : Obligations.AtomicsAtOwner := by
  unfold Obligations.AtomicsAtOwner
  refine ⟨fun s r hs hr hid hturn hn hd hi => ?_, fun s r v th hs hp hr h hb => amoReply_lands hs.2.1 hp hr h hb⟩
  have hpos : 0 < r.bytes := by omega
  refine answers_atOwner (mv := .ev .atomicAtOwner s.subj) (f := fun s r => s.performAtomic r) rfl hr hid hturn ?_
  rintro w t ⟨used, last, ahead, slices, rfl⟩ ht
  obtain ⟨hbytes, honly, hfe, hstage, hsent⟩ := performAtomic_leaves (by exact hs.1) hi hpos hd ht
  refine ⟨hbytes, honly, hfe, hstage, fun h => ?_, fun h => ?_⟩
  · rw [atomicAnswer, if_pos h, signedOf_eq_toSigned (by omega) (State.load_eq_bytesAt .. ▸ load_lt ..)] at hsent
    exact hsent
  · rw [atomicAnswer, if_neg (by rw [isAmo_of_isRed h]; decide)] at hsent
    exact hsent

end Sys2Proof
end

section
/-! Instructions that wait for an owner, at issue (R145, R146, R150). -/

set_option Elab.async false

namespace Sys2Proof.Machine

/-! ### The request of a wait (R146) -/

theorem isFe_eq_isFeInstr (r : Req) : r.isFe = isFeInstr r.instr := rfl

/-- The request that a wait makes of its owner, without an arrival that has been counted. -/
def State.ownerReq (p : State) (tk : Nat) (w : Wait) (ea ret data exp : Nat) : Req :=
  { (p.mkReq w.instr { tk := tk, pc := 0, vals := [], fmt := 0, aux := 4 * ret, ord := 0, pre := 0 } ea 8).1 with
    data := data, exp := exp, rel := isReleaseWait w.instr
    waiting := !isFeInstr w.instr || (p.core (coreOf tk)).feretry.toNat % 256 == 0 ||
      decide ((p.core (coreOf tk)).feretry.toNat % 256 < w.count) }

theorem waiting_ownerReq (p : State) (tk : Nat) (w : Wait) (ea ret data exp : Nat) : (p.ownerReq tk w ea ret data exp).waiting =
    (!isFeInstr w.instr || (p.core (coreOf tk)).feretry.toNat % 256 == 0 ||
      decide ((p.core (coreOf tk)).feretry.toNat % 256 < w.count)) := rfl

section
variable {i : Instr} {s p : State} {tk av : Nat} {th : Thread} {w v : Wait} {d : Option Nat} {ea ret data exp : Nat}

theorem askOwner_eq (hw : w.stage = 0) : p.askOwner tk w ea ret data exp =
    (p.fresh.2.putReq (p.ownerReq tk w ea ret data exp)).modWait tk fun w => { w with req := p.nextId } := by
  have halone : (w.stage == 1) = false := by rw [hw]; rfl
  simp only [State.askOwner, halone, Bool.false_eq_true, if_false, Bool.not_false, Bool.and_true]
  rfl

/-! ### A wait that has begun -/

/-- The wait that an instruction has begun, with no request made and nothing counted. -/
structure Begun (i : Instr) (s : State) (tk : Nat) (d : Option Nat) (w : Wait) : Prop where
  instr : w.instr = i
  deadline : w.deadline = d
  stage : w.stage = 0
  count : w.count = 0
  vals : ∀ n, n < i.fields.length → w.vals[n]? = some (s.operand tk i n)

/-- The thread of an instruction that has begun to wait. -/
def Thread.parked (th : Thread) (w : Wait) : Thread := { th.stepped with pc := th.pc, run := .wait w }

/-- A state p inside the effect of an instruction of s whose wait w has begun. -/
structure Waiting (i : Instr) (s p : State) (tk : Nat) (th : Thread) (d : Option Nat) (w : Wait) : Prop where
  amid : Amid s p tk (th.parked w)
  fe : p.fe = s.fe
  feretry : (p.core (coreOf tk)).feretry = (s.core (coreOf tk)).feretry
  begun : Begun i s tk d w

/-- Popping an instruction's sources leaves the retry word of the core. -/
theorem feretry_afterPops (s : State) (i : Instr) (tk core : Nat) : ((s.afterPops i tk).core core).feretry = (s.core core).feretry := by
  have hpop (u : State) (r : Reg) : ((u.popReg tk r).core core).feretry = (u.core core).feretry := by
    cases r with
    | q k =>
      refine (congrArg Core.feretry (u.core_modCore (coreOf tk) core _)).trans ?_
      split
      · subst core; rfl
      · rfl
    | _ => rfl
  exact (congrArg Core.feretry (State.core_modThread ..)).trans
    (foldl_keeps (fun u : State => (u.core core).feretry) _ hpop (popList i) s)

theorem waiting_beginWait (hth : s.thread? tk = some th) (hc : th.carry = none) (i : Instr) (d : Option Nat) :
    Waiting i s ((s.afterPops i tk).beginWait i (s.issueOf tk th i) d 0) tk th d
      (newWait i (s.issueOf tk th i) (s.afterPops i tk).nextId 0 d) := by
  have ha := amid_afterPops i hth
  have hfe := (s.untouched_afterPops i tk).fe
  have hretry := feretry_afterPops s i tk (coreOf tk)
  generalize s.afterPops i tk = p at ha hfe hretry
  rw [State.beginWait_eq (x := s.issueOf tk th i) hc]
  exact ⟨ha.fresh.modThread _, (State.modThread_fe ..).trans hfe, (congrArg Core.feretry (State.core_modThread ..)).trans hretry, rfl, rfl, rfl, rfl, fun n hn => by simp [newWait, State.issueOf, hn]⟩

theorem Waiting.wait? (h : Waiting i s p tk th d w) : (p.thread tk).wait? = some w := by
  rw [State.thread_of_thread? h.amid.thread]
  rfl

/-- The wait may be noted anew, as long as it has begun. -/
theorem Waiting.modWait (h : Waiting i s p tk th d w) (hv : Begun i s tk d v) : Waiting i s (p.modWait tk fun _ => v) tk th d v := by
  rw [State.modWait_eq _ h.amid.thread rfl]
  exact ⟨h.amid.modThread _, (State.modThread_fe ..).trans h.fe,
    (congrArg Core.feretry (State.core_modThread ..)).trans h.feretry, hv⟩

/-- An instruction that waits leaves memory and registers, and has made one request of its owner. -/
def ParksAsking (i : Instr) (s : State) (tk : Nat) (th : Thread) (d : Option Nat) (ea data exp : Nat) : Prop :=
  Completes i s tk fun t u => t.mem = s.mem ∧ t.fe = s.fe ∧ t.rf = s.rf ∧
    Waits s tk th u i d fun w =>
      OneRequest i s t tk fun r => r.id = w.req ∧ r.ea = ea ∧ r.bytes = 8 ∧ r.stage = .port ∧ r.data = data ∧ r.exp = exp ∧
        (r.isFe = true → r.waiting = decide ((s.core (coreOf tk)).feretry.toNat % 256 = 0)) ∧ (r.isFe = false → r.waiting = true)

/-- An instruction whose effect ends with the request of its wait. -/
theorem Waiting.parksAsking {eff : State → State} (h : Waiting i s p tk th d w) (hth : s.thread? tk = some th)
    (hx : exec i s = .next (issued i s tk eff)) (hv : eff (s.afterPops i tk) = p.askOwner tk w ea ret data exp) :
    ParksAsking i s tk th d ea data exp := by
  obtain ⟨ha, hfe, hretry, hinstr, hdead, hstage, hcount, hvals⟩ := h
  have hthread : (p.fresh.2.putReq (p.ownerReq tk w ea ret data exp)).thread? tk = some (th.parked w) := ha.thread
  rw [askOwner_eq hstage, State.modWait_eq _ hthread rfl] at hv
  have hm : Made i s tk (p.ownerReq tk w ea ret data exp) :=
    ⟨rfl, rfl, hinstr, ha.launch.trans (by rw [State.thread_of_thread? hth]; rfl)⟩
  refine completes_ends hx hv ((State.thread?_modThread ..).trans (congrArg _ hthread)) fun t r he hr => ?_
  refine ⟨he.untouched.mem.trans ((State.modThread_mem ..).trans ha.mem), he.untouched.fe.trans ((State.modThread_fe ..).trans hfe),
    he.rf.trans ((State.modThread_rf ..).trans ha.rf), { w with req := p.nextId }, hr nofun, rfl, hinstr, hdead, hvals, ?_⟩
  refine hm.oneRequest (he.untouched.reqs.trans ((State.modThread_reqs ..).trans (congrArg (SMap.put · p.nextId _) ha.reqs))) ha.nextId
    ((Nat.lt_succ_self _).trans_eq (he.nextId.trans (State.modThread_nextId ..)).symm)
    ⟨rfl, rfl, rfl, rfl, rfl, rfl, fun hf => ?_, fun hf => ?_⟩
  · have hfi : isFeInstr w.instr = true := hf
    rw [waiting_ownerReq, hfi, hcount, hretry, Bool.not_true, Bool.false_or, decide_eq_false (Nat.not_lt_zero _), Bool.or_false]
    rfl
  · have hfi : isFeInstr w.instr = false := hf
    rw [waiting_ownerReq, hfi, Bool.not_false, Bool.true_or, Bool.true_or]

/-! ### The instructions -/

theorem alignCheck_go (h : (s.operand tk i av).toNat % 8 = 0) : alignCheck av (s.issueOf tk th i) s = .go := by
  rw [alignCheck, val_issueOf, if_neg (not_not_intro h)]

theorem alignCheck_trap (h : (s.operand tk i av).toNat % 8 ≠ 0) :
    alignCheck av (s.issueOf tk th i) s = .trap 3 2 (s.operand tk i av) := by
  rw [alignCheck, val_issueOf, if_pos h]

/-- The bound of an instruction's timeout field, in the state in which it begins to wait. -/
theorem bound_afterPops (s : State) (i : Instr) (tk : Nat) (e : Option (BitVec 4)) :
    (e.map BitVec.toNat).bind (s.afterPops i tk).bound = e.bind fun e => boundOf s e := by
  cases e with
  | none => rfl
  | some e => exact State.bound_eq (s.afterPops_cycle i tk) e

/-- An instruction that waits for its owner, with an aligned address (R145, R150). -/
theorem parksAsking_issueOwnerWait {e : Option (BitVec 4)} {data exp : Issue → Nat} (hr : Ready i s tk th) (hc : th.carry = none)
    (ha : (s.operand tk i av).toNat % 8 = 0) (hx : exec i s = issueOwnerWait i av (e.map BitVec.toNat) data exp s) :
    ParksAsking i s tk th (e.bind fun e => boundOf s e) (s.operand tk i av).toNat (data (s.issueOf tk th i)) (exp (s.issueOf tk th i)) := by
  have hth := hr.issuing.2
  have hcx : (s.issueOf tk th i).carry = none := hc
  rw [issueOwnerWait, issue_ready hr (alignCheck_go ha)] at hx
  have hp := waiting_beginWait hth hc i (e.bind fun e => boundOf s e)
  have hwait := hp.wait?
  refine Waiting.parksAsking (ret := (s.issueOf tk th i).ret)
    (hp.modWait (v := { newWait i (s.issueOf tk th i) (s.afterPops i tk).nextId 0 (e.bind fun e => boundOf s e) with
      stamp := (s.issueOf tk th i).ret }) ⟨rfl, rfl, rfl, rfl, hp.begun.vals⟩) hth hx ?_
  have htk : (s.issueOf tk th i).tk = tk := rfl
  simp only [hcx, bound_afterPops, show bit false = 0 from rfl, htk, hwait, Bool.false_eq_true, if_false, val_issueOf]

/-- BARI is refused for an operand out of range (R150). -/
theorem bariBad_iff (b : Word) : bariBad b = true ↔ b.toNat / 2 ^ 16 ≠ 0 ∨ b.toNat % 2 ^ 16 = 0 := by
  have hb := b.isLt
  rw [bariBad, Bool.or_eq_true, bne_iff_ne, beq_iff_eq, fld, fld, Nat.mod_eq_of_lt (by omega), Nat.pow_zero, Nat.div_one]

section
variable {sm : Bool} {rd ra : Reg}

/-- BARI with an operand in range waits for its owner. -/
theorem parksAsking_bari (hr : Ready (.bari sm rd ra) s tk th) (hc : th.carry = none)
    (ha : (s.operand tk (.bari sm rd ra) 1).toNat % 8 = 0) (hb : bariBad (s.operand tk (.bari sm rd ra) 0) = false) :
    ParksAsking (.bari sm rd ra) s tk th none (s.operand tk (.bari sm rd ra) 1).toNat (s.operand tk (.bari sm rd ra) 0).toNat 0 := by
  have hth := hr.issuing.2
  have hp := waiting_beginWait hth hc (.bari sm rd ra) none
  have hwait := hp.wait?
  refine hp.parksAsking (ret := (s.issueOf tk th (.bari sm rd ra)).ret) hth (issue_ready hr (alignCheck_go ha)) ?_
  have htk : (s.issueOf tk th (.bari sm rd ra)).tk = tk := rfl
  simp only [val_issueOf, hb, Bool.false_eq_true, if_false, htk, hwait]

/-- BARI with an operand out of range writes REFUSED. -/
theorem completes_bari_refused (hr : Ready (.bari sm rd ra) s tk th) (ha : (s.operand tk (.bari sm rd ra) 1).toNat % 8 = 0)
    (hb : bariBad (s.operand tk (.bari sm rd ra) 0) = true) : Completes (.bari sm rd ra) s tk fun t u =>
      u.pc = th.pc + 4 ∧ u.status.extractLsb' 0 3 = 4 ∧ t.reqs = s.reqs ∧ t.mem = s.mem := by
  have hamid := (amid_afterPops (.bari sm rd ra) hr.issuing.2).modThread fun th => { th with status := setStatusField th.status 4 }
  refine completes_ends (v := (s.afterPops (.bari sm rd ra) tk).setStatus tk 4) (issue_ready hr (alignCheck_go ha)) ?_ hamid.thread
    fun t r he _ => ⟨rfl, code_setStatusField _ (by decide), he.untouched.reqs.trans hamid.reqs, he.untouched.mem.trans hamid.mem⟩
  simp only [val_issueOf, hb, if_true]
  rfl

end
end

end Sys2Proof.Machine

namespace Sys2Proof
open Sys2Proof.Machine

/-- Settles O29: all but BARI are `issueOwnerWait` with their address field, and BARI alone is refused. -/
theorem ownerWaitsIssue : Obligations.OwnerWaitsIssue := by
  unfold Obligations.OwnerWaitsIssue
  intro sm rd ra e m v s tk th i av bound data exp hi hr hc ea refused
  have hrow : (i = .bari sm rd ra ∧ av = 1 ∧ bound = none ∧ data = (s.operand tk i 0).toNat ∧ exp = 0) ∨
      (∀ sm rd ra, i ≠ .bari sm rd ra) ∧ ∃ f g, exec i s = issueOwnerWait i av (bound.map BitVec.toNat) f g s ∧
        f (s.issueOf tk th i) = data ∧ g (s.issueOf tk th i) = exp := by
    have hval {i : Instr} : ((s.issueOf tk th i).val 0).toNat = (s.operand tk i 0).toNat := congrArg _ (val_issueOf ..)
    simp only [List.mem_cons, List.not_mem_nil, or_false, Prod.mk.injEq] at hi
    rcases hi with ⟨rfl, rfl, rfl, rfl, rfl⟩ | ⟨rfl, rfl, rfl, rfl, rfl⟩ | ⟨rfl, rfl, rfl, rfl, rfl⟩ | ⟨rfl, rfl, rfl, rfl, rfl⟩ |
      ⟨rfl, rfl, rfl, rfl, rfl⟩ | ⟨rfl, rfl, rfl, rfl, rfl⟩ | ⟨rfl, rfl, rfl, rfl, rfl⟩ | ⟨rfl, rfl, rfl, rfl, rfl⟩ |
      ⟨rfl, rfl, rfl, rfl, rfl⟩ | ⟨rfl, rfl, rfl, rfl, rfl⟩
    · exact .inr ⟨nofun, _, _, rfl, rfl, rfl⟩
    · exact .inr ⟨nofun, _, _, rfl, rfl, rfl⟩
    · exact .inr ⟨nofun, _, _, rfl, hval, rfl⟩
    · exact .inr ⟨nofun, _, _, rfl, hval, rfl⟩
    · exact .inr ⟨nofun, _, _, rfl, rfl, rfl⟩
    · exact .inr ⟨nofun, _, _, rfl, rfl, rfl⟩
    · exact .inr ⟨nofun, _, _, rfl, rfl, rfl⟩
    · exact .inr ⟨nofun, _, _, rfl, rfl, rfl⟩
    · exact .inr ⟨nofun, _, _, rfl, rfl, hval⟩
    · exact .inl ⟨rfl, rfl, rfl, rfl, rfl⟩
  rcases hrow with ⟨rfl, rfl, rfl, rfl, rfl⟩ | ⟨hbari, f, g, hx, rfl, rfl⟩
  · have hbad := bariBad_iff (s.operand tk (.bari sm rd ra) 0)
    refine ⟨fun ha hn => parksAsking_bari hr hc ha (Bool.eq_false_iff.mpr fun hb => hn ⟨⟨_, _, _, rfl⟩, hbad.mp hb⟩),
      fun ha hf => completes_bari_refused hr ha (hbad.mpr hf.2), fun ha => issue_trap hr (alignCheck_trap ha)⟩
  · refine ⟨fun ha _ => parksAsking_issueOwnerWait hr hc ha hx, fun _ hf => ?_, fun ha => ?_⟩
    · obtain ⟨⟨_, _, _, hi⟩, _⟩ := hf
      exact absurd hi (hbari _ _ _)
    · exact hx.trans (issue_trap hr (alignCheck_trap ha))

end Sys2Proof
end

section
/-! The bound of a wait that a pre-emption has withdrawn (R148, R152, R236): a state in which the pre-emption has been undone since. -/

set_option Elab.async false

namespace Sys2Proof.Machine

/-- A wait that the general pre-emption withdrew ends at once, to be issued again, when the pre-emption has been undone: its thread
stays at the word. -/
theorem pc_endWithdrawn_reissue {s : State} {tk : Nat} {th : Thread} {w : Wait} (h : s.thread? tk = some th) (hs : th.stopReq = none)
    (hw : w.reissue = true) (alone : Bool) : ((s.endWithdrawn tk w alone).thread? tk).map (·.pc) = some th.pc := by
  have hstop : (s.thread tk).stopReq = none := by rw [State.thread_of_thread? h, hs]
  simp only [State.endWithdrawn, hw, or_true, if_true, hstop, State.haltWait, State.thread?_modThread, h, Option.map_some]

/-- An LDFE whose request is not on its way, withdrawn by a pre-emption. -/
def undone : Wait := { id := 2, instr := .ldfe false (.g 3) (.g 4) 2, vals := [0, 64], deadline := some 0, reissue := true }

/-- Its thread, which the pre-emption no longer asks to stop. -/
def undoneThread : Thread := { run := .wait undone }

/-- The bound of that wait has come. -/
def undoneState : State := { subj := { n := 1, m := 2 }, threads := [(1, undoneThread)] }

theorem canonical_undoneState : Canonical undoneState := ⟨rfl, rfl, rfl, rfl, rfl, fun _ he => absurd he List.not_mem_nil⟩

/-- The row of the bound does not move the thread past the word. -/
theorem pc_ownerWaitTimeout_undone (t : State) (h : exec .ownerWaitTimeout undoneState = .next t) :
    (t.thread? 1).map (·.pc) = some undoneThread.pc := by
  have hx : exec .ownerWaitTimeout undoneState = .next (undoneState.endWithdrawn 1 undone false) := rfl
  obtain rfl := Host.Outcome.next.inj (hx.symm.trans h)
  exact pc_endWithdrawn_reissue rfl rfl rfl false

end Sys2Proof.Machine

namespace Sys2Proof
open Sys2Proof.Machine

/-- Refutes O31: its clause on the bound of a wait asks that the thread is not to stop, and not that the wait is none of those that a
pre-emption withdrew and that are to be issued again. Such a wait does not end with TIMEOUT: its thread stays at the word (R148,
R236). -/
theorem not_ownerAnswersAndBounds : ¬ Obligations.OwnerAnswersAndBounds := by
  intro h
  obtain ⟨-, hbound⟩ := h
  obtain ⟨-, hexpire⟩ := hbound undoneState 1 undoneThread undone canonical_undoneState rfl rfl rfl rfl rfl
  obtain ⟨t, hx, ⟨u, hu, hpc, -⟩, -⟩ := hexpire rfl
  have hstays := pc_ownerWaitTimeout_undone t hx
  rw [hu, Option.map_some, hpc] at hstays
  exact absurd (Option.some.inj hstays) (by decide)

end Sys2Proof
end

section
/-! Full/empty operations at their owner (Table AT-6, R146). -/

set_option Elab.async false

namespace Sys2Proof.Machine

/-! ### A service that is an answer, or a waiter -/

section
variable {i : Instr} {s w t u : State} {r : Req} {P Q : State → Prop} {mv : Move} {f : State → Req → State} {st : Nat} {v : Word} {writes : Bool}

theorem answers_mono (h : Answers i s P) (hPQ : ∀ t, P t → Q t) : Answers i s Q := by
  obtain ⟨t, hx, hP⟩ := h
  exact ⟨t, hx, hPQ t hP⟩

/-- A packet posted stays while later numbers are given out. -/
theorem Posted.kept {n : Nat} {p : Payload} (h : Posted s t n p) (hnext : t.nextId ≤ u.nextId)
    (hp : ∀ pid, pid < t.nextId → SMap.get? u.packets pid = SMap.get? t.packets pid) : Posted s u n p := by
  obtain ⟨pid, q, hq, hlo, hhi, hdst, hpay⟩ := h
  exact ⟨pid, q, (hp pid hhi).trans hq, hlo, hhi.trans_le hnext, hdst, hpay⟩

/-- What a load finds depends on memory alone. -/
theorem load_congr (h : t.mem = s.mem) (key n : Nat) : t.load key n = s.load key n := by
  simp only [State.load_eq_bytesAt, Sys2Proof.bytesAt, byte_congr h]

/-- A service that only answers leaves memory, full/empty bits and waiters. -/
theorem answers_answered (hx : exec i s = .next (s.atOwner mv s.subj.n f)) (hr : s.req? s.subj.n = some r) (hid : r.id = s.subj.n)
    (h : TurnOf s r) (hf : ∀ w, s.Opened w → f w r = w.answer r st v writes) : Answers i s fun t =>
      (t.mem = s.mem ∧ t.fe = s.fe) ∧ t.waiters = s.waiters ∧ Sent s t r.node (.answer r.id st v writes) := by
  refine answers_atOwner hx hr hid h fun w t hw ht => ?_
  rw [hf w hw] at ht
  obtain ⟨used, last, ahead, slices, rfl⟩ := hw
  exact ⟨⟨ht.mem, ht.fe⟩, ht.waiters, ht.sent (posted_answer _ r st v writes).sent⟩

/-- A service that takes a waiter leaves memory and full/empty bits. -/
theorem answers_entered (hx : exec i s = .next (s.atOwner mv s.subj.n f)) (hr : s.req? s.subj.n = some r) (hid : r.id = s.subj.n)
    (h : TurnOf s r) (hf : ∀ w, s.Opened w → f w r = w.enterWaiter r) : Answers i s fun t =>
      (t.mem = s.mem ∧ t.fe = s.fe) ∧ t.waiters = s.waiters ++ [r.id] ∧ (t.req? r.id).map (·.stage) = some .waiter := by
  refine answers_atOwner hx hr hid h fun w t hw ht => ?_
  rw [hf w hw] at ht
  obtain ⟨used, last, ahead, slices, rfl⟩ := hw
  exact ⟨⟨ht.mem, ht.fe⟩, ht.waiters, (ht.stage _).trans (congrArg (Option.map _) (SMap.get?_put_same ..))⟩

theorem State.Opened.mem (h : s.Opened w) : w.mem = s.mem := by
  obtain ⟨_, _, _, _, rfl⟩ := h
  rfl

theorem State.Opened.fe (h : s.Opened w) : w.fe = s.fe := by
  obtain ⟨_, _, _, _, rfl⟩ := h
  rfl

theorem State.Opened.waiters (h : s.Opened w) : w.waiters = s.waiters := by
  obtain ⟨_, _, _, _, rfl⟩ := h
  rfl

theorem State.Opened.full (h : s.Opened w) (a : Nat) : w.full a = s.full a := by
  obtain ⟨_, _, _, _, rfl⟩ := h
  rfl

theorem State.Opened.waiterFree (h : s.Opened w) (r : Req) : w.waiterFree r = s.waiterFree r := by
  obtain ⟨_, _, _, _, rfl⟩ := h
  rfl

/-! ### Which of its ways a full/empty request takes -/

/-- No host page is the target. -/
def Req.OnDevice (r : Req) : Prop := ∀ ha, r.tgt ≠ some (.host ha)

theorem performFe_host {ha : Nat} (h : r.tgt = some (.host ha)) (w : State) : w.performFe r = w.answer r 4 0 false := by
  simp only [State.performFe, h]

theorem performFe_onDevice (h : r.OnDevice) (w : State) : w.performFe r =
    if r.feReady (w.full r.key) then w.feServe r
    else if r.waiting && w.waiterFree r then w.enterWaiter r
    else w.answer r 8 0 false := by
  unfold State.performFe
  split
  next ha hha => exact absurd hha (h ha)
  next => rfl

/-! ### An operation without a waiter of its word -/

/-- The word and the bit that an operation leaves (Table AT-6). -/
def State.feWritten (w : State) (r : Req) : State :=
  match r.instr with
  | .ldfe _ _ _ _ => w.setFull r.key false
  | .stfe _ _ _ _ => (w.store r.key 8 r.data).setFull r.key true
  | .stff _ _ _ _ => w.store r.key 8 r.data
  | .feset _ _ v => w.setFull r.key (v == 1)
  | _ => w

/-- The value that it answers. -/
def State.feValue (w : State) (r : Req) : Word :=
  match r.instr with
  | .ldfe _ _ _ _ | .ldff _ _ _ _ => word (w.load r.key 8)
  | .feq _ _ _ => if w.full r.key then 1 else 0
  | _ => 0

/-- Whether it writes rd. -/
def feWrites : Instr → Bool
  | .ldfe _ _ _ _ | .ldff _ _ _ _ | .feq _ _ _ => true
  | _ => false

theorem afterWrite_of_no_waiters (h : s.waiters = []) (key n : Nat) : s.afterWrite key n = s := if_pos (by rw [h]; rfl)

theorem fePass_of_no_waiters (h : s.waiters = []) (key : Nat) : s.fePass key = s := by
  rw [State.fePass, State.waiting, h]
  rfl

/-- Bytes written change memory alone. -/
theorem setBytes_eq (s : State) (key : Nat) (bs : List Byte) : s.setBytes key bs = { s with mem := (s.setBytes key bs).mem } := by
  induction bs generalizing s key with
  | nil => rfl
  | cons b bs ih =>
    rw [State.setBytes, ih]
    rfl

theorem waiters_setBytes (s : State) (key : Nat) (bs : List Byte) : (s.setBytes key bs).waiters = s.waiters := by rw [setBytes_eq]

theorem waiters_feWritten (w : State) (r : Req) : (w.feWritten r).waiters = w.waiters := by
  unfold State.feWritten
  split
  · rfl
  · exact waiters_setBytes ..
  · exact waiters_setBytes ..
  · rfl
  · rfl

theorem nextId_feWritten (w : State) (r : Req) : (w.feWritten r).nextId = w.nextId := by
  have hstore : (w.store r.key 8 r.data).nextId = w.nextId := by rw [State.store, setBytes_eq]
  unfold State.feWritten
  split
  · rfl
  · exact hstore
  · exact hstore
  · rfl
  · rfl

theorem feEffect_of_no_waiters (h : w.waiters = []) (hfe : r.isFe = true) :
    w.feEffect r = (w.feWritten r).serve r 0 (w.feValue r) (feWrites r.instr) := by
  have hnone := waiters_feWritten w r
  rw [h] at hnone
  unfold Req.isFe at hfe
  split at hfe
  next hi => simp only [State.feEffect, State.feWritten, State.feValue, feWrites, hi]
  next hi => simp only [State.feEffect, State.feWritten, State.feValue, feWrites, hi]
  next hi =>
    simp only [State.feWritten, hi] at hnone
    simp only [State.feEffect, State.feWritten, State.feValue, feWrites, hi, afterWrite_of_no_waiters hnone]
  next hi =>
    simp only [State.feWritten, hi] at hnone
    simp only [State.feEffect, State.feWritten, State.feValue, feWrites, hi, afterWrite_of_no_waiters hnone]
  next hi => simp only [State.feEffect, State.feWritten, State.feValue, feWrites, hi]
  next hi =>
    simp only [State.feWritten, hi] at hnone
    simp only [State.feEffect, State.feWritten, State.feValue, feWrites, hi, afterWrite_of_no_waiters hnone]
  next => exact absurd hfe Bool.false_ne_true

theorem feServe_of_no_waiters (h : w.waiters = []) (hfe : r.isFe = true) :
    w.feServe r = (w.feWritten r).serve r 0 (w.feValue r) (feWrites r.instr) := by
  have hnone : ((w.feWritten r).serve r 0 (w.feValue r) (feWrites r.instr)).waiters = [] := by
    show (w.feWritten r).waiters.filter _ = []
    rw [waiters_feWritten, h]
    rfl
  unfold State.feServe
  rw [feEffect_of_no_waiters h hfe]
  dsimp only
  split
  · rfl
  · exact fePass_of_no_waiters hnone _

/-- The word and the bits of a performed operation: no other bit and no other byte changes. -/
theorem feWritten_frame (hmem : Memory.wf w.mem = true) (hfe : SMap.sortedFrom 0 w.fe = true) (r : Req) :
    (∀ a, a / 8 ≠ r.key / 8 → (w.feWritten r).full a = w.full a) ∧ OnlyBytes w (w.feWritten r) r.key 8 := by
  have hstore : (w.store r.key 8 r.data).fe = w.fe := by rw [State.store, setBytes_eq]
  have hbytes (u : State) (hu : u.mem = (w.store r.key 8 r.data).mem) : OnlyBytes w u r.key 8 := (byte_of_setBytes hmem hu).1
  have hfull (u : State) (hu : u.fe = w.fe) (b : Bool) (a : Nat) (ha : a / 8 ≠ r.key / 8) : (u.setFull r.key b).full a = w.full a := by
    rw [State.full_setFull _ _ _ _ (hu ▸ hfe), if_neg ha, State.full, State.full, hu]
  unfold State.feWritten
  split
  · exact ⟨hfull w rfl false, fun _ _ => rfl⟩
  · exact ⟨hfull _ hstore true, hbytes _ rfl⟩
  · exact ⟨fun a _ => by rw [State.full, State.full, hstore], hbytes _ rfl⟩
  · exact ⟨hfull w rfl _, fun _ _ => rfl⟩
  · exact ⟨fun _ _ => rfl, fun _ _ => rfl⟩

theorem full_setFull_same (h : SMap.sortedFrom 0 w.fe = true) (k : Nat) (b : Bool) : (w.setFull k b).full k = b := by
  rw [State.full_setFull w k k b h, if_pos rfl]

theorem full_of_feReady {b : Bool} (hi : r.feReady b = true) :
    (∀ m rd ra e, r.instr = .ldfe m rd ra e → b = true) ∧ (∀ m rd ra e, r.instr = .ldff m rd ra e → b = true) ∧
      (∀ m rd ra e, r.instr = .stfe m rd ra e → b = false) ∧ (∀ m rd ra e, r.instr = .stff m rd ra e → b = true) := by
  refine ⟨fun m rd ra e h => ?_, fun m rd ra e h => ?_, fun m rd ra e h => ?_, fun m rd ra e h => ?_⟩ <;>
    simpa [Req.feReady, h] using hi

/-- What a full/empty operation has done to its word and bit, and what it has answered (Table AT-6). -/
def FeDone (s t : State) (r : Req) : Prop :=
  match r.instr with
  | .ldfe _ _ _ _ => s.full r.key = true ∧ t.full r.key = false ∧ t.mem = s.mem ∧
      Sent s t r.node (.answer r.id 0 (BitVec.ofNat 64 (Sys2Proof.bytesAt s r.key 8)) true)
  | .ldff _ _ _ _ => s.full r.key = true ∧ (t.mem = s.mem ∧ t.fe = s.fe) ∧
      Sent s t r.node (.answer r.id 0 (BitVec.ofNat 64 (Sys2Proof.bytesAt s r.key 8)) true)
  | .stfe _ _ _ _ => s.full r.key = false ∧ t.full r.key = true ∧ Sys2Proof.bytesAt t r.key 8 = r.data % 2 ^ 64 ∧
      Sent s t r.node (.answer r.id 0 0 false)
  | .stff _ _ _ _ => s.full r.key = true ∧ t.full r.key = true ∧ Sys2Proof.bytesAt t r.key 8 = r.data % 2 ^ 64 ∧
      Sent s t r.node (.answer r.id 0 0 false)
  | .feq _ _ _ => (t.mem = s.mem ∧ t.fe = s.fe) ∧ Sent s t r.node (.answer r.id 0 (if s.full r.key then 1 else 0) true)
  | .feset _ _ v => t.full r.key = (v == 1) ∧ t.mem = s.mem ∧ Sent s t r.node (.answer r.id 0 0 false)
  | _ => True

theorem stored_bytes (hmem : Memory.wf w.mem = true) {key data : Nat} (ht : t.mem = (w.store key 8 data).mem) :
    OnlyBytes w t key 8 ∧ Sys2Proof.bytesAt t key 8 = data % 2 ^ 64 := by
  rw [State.store] at ht
  exact byte_of_setBytes (n := 8) hmem ht

/-- An operation whose condition holds has its effect; the state t has memory, bits and packets of what its service leaves. -/
theorem feDone_serve (hmem : Memory.wf w.mem = true) (hfe : SMap.sortedFrom 0 w.fe = true) (hready : r.feReady (w.full r.key) = true)
    (ht : ((w.feWritten r).serve r 0 (w.feValue r) (feWrites r.instr)).Closed t) : FeDone w t r := by
  obtain ⟨hldfe, hldff, hstfe, hstff⟩ := full_of_feReady hready
  have hserve := served_serve (w.feWritten r) r 0 (w.feValue r) (feWrites r.instr)
  have hm := ht.mem.trans hserve.mem
  have hf := ht.fe.trans hserve.fe
  have hfull (a : Nat) : t.full a = (w.feWritten r).full a := by rw [State.full, State.full, hf]
  have hstore : (w.store r.key 8 r.data).fe = w.fe := by rw [State.store, setBytes_eq]
  have hsorted : SMap.sortedFrom 0 (w.store r.key 8 r.data).fe = true := by rw [hstore]; exact hfe
  have hsent : Sent w t r.node (.answer r.id 0 (w.feValue r) (feWrites r.instr)) :=
    ht.sent (sent_of_later (posted_serve (w.feWritten r) r 0 _ _).sent (nextId_feWritten w r).ge)
  unfold FeDone
  split
  next hi =>
    simp only [State.feWritten, State.feValue, feWrites, hi, State.load_eq_bytesAt] at hm hfull hsent
    exact ⟨hldfe _ _ _ _ hi, (hfull _).trans (full_setFull_same hfe _ _), hm, hsent⟩
  next hi =>
    simp only [State.feWritten, State.feValue, feWrites, hi, State.load_eq_bytesAt] at hm hf hsent
    exact ⟨hldff _ _ _ _ hi, ⟨hm, hf⟩, hsent⟩
  next hi =>
    simp only [State.feWritten, State.feValue, feWrites, hi, State.setFull_mem] at hm hfull hsent
    exact ⟨hstfe _ _ _ _ hi, (hfull _).trans (full_setFull_same hsorted _ _), (stored_bytes hmem hm).2, hsent⟩
  next hi =>
    have hb := hstff _ _ _ _ hi
    simp only [State.feWritten, State.feValue, feWrites, hi] at hm hf hsent
    exact ⟨hb, by rw [State.full, hf, hstore]; exact hb, (stored_bytes hmem hm).2, hsent⟩
  next hi =>
    simp only [State.feWritten, State.feValue, feWrites, hi] at hm hf hsent
    exact ⟨⟨hm, hf⟩, hsent⟩
  next hi =>
    simp only [State.feWritten, State.feValue, feWrites, hi] at hm hfull hsent
    exact ⟨(hfull _).trans (full_setFull_same hfe _ _), hm, hsent⟩
  next => trivial

/-- A full/empty request at an owner without waiters. -/
theorem feRequest_alone (hs : Canonical s) (hr : s.req? s.subj.n = some r) (hid : r.id = s.subj.n) (h : TurnOf s r)
    (hnone : s.waiters = []) (hi : r.isFe = true) (hhere : r.OnDevice) (hready : r.feReady (s.full r.key) = true) :
    Answers .feRequestAtOwner s fun t => (∀ a, a / 8 ≠ r.key / 8 → t.full a = s.full a) ∧ OnlyBytes s t r.key 8 ∧
      (t.req? r.id).map (·.stage) = some .performed ∧ FeDone s t r := by
  obtain ⟨hmem, _, _, _, hfe, _⟩ := hs
  refine answers_atOwner (mv := .ev .feRequestAtOwner s.subj) (f := fun s r => s.performFe r) rfl hr hid h fun w t hw ht => ?_
  have hready' : r.feReady (w.full r.key) = true := (hw.full r.key).symm ▸ hready
  have hnone' : w.waiters = [] := hw.waiters.trans hnone
  have hmem' : Memory.wf w.mem = true := hw.mem.symm ▸ hmem
  have hfe' : SMap.sortedFrom 0 w.fe = true := hw.fe.symm ▸ hfe
  rw [performFe_onDevice hhere, if_pos hready', feServe_of_no_waiters hnone' hi] at ht
  have hserve := served_serve (w.feWritten r) r 0 (w.feValue r) (feWrites r.instr)
  have hdone := feDone_serve hmem' hfe' hready' ht
  obtain ⟨hfull, hbytes⟩ := feWritten_frame hmem' hfe' r
  have hstage : (t.req? r.id).map (·.stage) = some .performed :=
    (ht.stage _).trans (congrArg (Option.map _) (SMap.get?_put_same ..))
  have hfullt (a : Nat) : t.full a = (w.feWritten r).full a := by rw [State.full, State.full, ht.fe, hserve.fe]
  have hbytet (a : Nat) : t.byte a = (w.feWritten r).byte a := byte_congr (ht.mem.trans hserve.mem) a
  obtain ⟨used, last, ahead, slices, rfl⟩ := hw
  exact ⟨fun a ha => (hfullt a).trans (hfull a ha), fun a ha => (hbytet a).trans (hbytes a ha), hstage, hdone⟩

/-! ### An operation that is not performed -/

/-- A request whose condition does not hold waits, or is answered not-ready (R146). -/
theorem feRequest_notReady (hr : s.req? s.subj.n = some r) (hid : r.id = s.subj.n) (h : TurnOf s r) (hhere : r.OnDevice)
    (hready : r.feReady (s.full r.key) = false) : Answers .feRequestAtOwner s fun t => (t.mem = s.mem ∧ t.fe = s.fe) ∧
      (r.waiting = true ∧ s.waiterFree r = true → t.waiters = s.waiters ++ [r.id] ∧
        (t.req? r.id).map (·.stage) = some .waiter) ∧
      (r.waiting = false ∨ s.waiterFree r = false → t.waiters = s.waiters ∧ Sent s t r.node (.answer r.id 8 0 false)) := by
  have hnot (w : State) (hw : s.Opened w) : ¬ r.feReady (w.full r.key) = true := by rw [hw.full, hready]; decide
  by_cases hfree : r.waiting = true ∧ s.waiterFree r = true
  · refine answers_mono (answers_entered (mv := .ev .feRequestAtOwner s.subj) (f := fun s r => s.performFe r) rfl hr hid h fun w hw => ?_)
      fun t ⟨hq, hwaiters, hstage⟩ => ⟨hq, fun _ => ⟨hwaiters, hstage⟩, fun hn => ?_⟩
    · rw [performFe_onDevice hhere, if_neg (hnot w hw), if_pos (by rw [hw.waiterFree, hfree.1, hfree.2]; rfl)]
    · rw [hfree.1, hfree.2] at hn
      exact absurd hn (by decide)
  · refine answers_mono (answers_answered (mv := .ev .feRequestAtOwner s.subj) (f := fun s r => s.performFe r) rfl hr hid h fun w hw => ?_)
      fun t ⟨hq, hwaiters, hsent⟩ => ⟨hq, fun hf => absurd hf hfree, fun _ => ⟨hwaiters, hsent⟩⟩
    rw [performFe_onDevice hhere, if_neg (hnot w hw), if_neg (by rw [hw.waiterFree, Bool.and_eq_true]; exact hfree)]

/-- A host page refuses a full/empty operation (Table AT-2). -/
theorem feRequest_host {ha : Nat} (hr : s.req? s.subj.n = some r) (hid : r.id = s.subj.n) (h : TurnOf s r)
    (ht : r.tgt = some (.host ha)) : Answers .feRequestAtOwner s fun t => (t.mem = s.mem ∧ t.fe = s.fe) ∧
      Sent s t r.node (.answer r.id 4 0 false) :=
  answers_mono (answers_answered (mv := .ev .feRequestAtOwner s.subj) (f := fun s r => s.performFe r) rfl hr hid h
    fun w _ => performFe_host ht w) fun _ ⟨hq, _, hsent⟩ => ⟨hq, hsent⟩

/-! ### The pass over the waiters of a word (R146) -/

/-- A write that no waiter watches, and that no barrier waiter waits at, leaves the waiters. -/
theorem afterWrite_of_quiet (h : ∀ q ∈ s.waiting, q.isBarrier = false ∧ q.isWaitw = false) (key n : Nat) : s.afterWrite key n = s := by
  have hnone (p : Req → Bool) (hp : ∀ q ∈ s.waiting, p q = false) : s.waiting.filter p = [] :=
    List.filter_eq_nil_iff.mpr fun q hq => by rw [hp q hq]; decide
  have hrel : ∀ p, s.releaseBarrier p 3 = s := fun p => by
    rw [State.releaseBarrier, hnone _ fun q hq => by rw [(h q hq).1, Bool.false_and]]
    rfl
  have hwake : s.wakeWords key n = s := by
    rw [State.wakeWords, hnone _ fun q hq => by rw [(h q hq).2, Bool.false_and, Bool.false_and]]
    rfl
  rw [State.afterWrite, hrel, hwake, ite_self]

/-- One waiter's part of a pass: it is served when its condition holds. -/
def State.feStep (key : Nat) (s : State) (x : Req) : State := if x.feReady (s.full key) then s.feEffect x else s

theorem fePass_eq_foldl (s : State) (key : Nat) :
    s.fePass key = (s.waiting.filter fun r => r.isFe && r.key == key).foldl (State.feStep key) s := rfl

section
variable {x : Req} {key : Nat} {m : Bool} {rd a : Reg} {e : BitVec 4}

theorem feStep_ldfe (hi : x.instr = .ldfe m rd a e) (hk : x.key = key) (hf : s.full key = true) :
    s.feStep key x = (s.setFull key false).serve x 0 (word (s.load key 8)) true := by
  have hready : x.feReady (s.full key) = true := by rw [hf, Req.feReady, hi]
  rw [State.feStep, if_pos hready]
  simp only [State.feEffect, hi, hk]

theorem feStep_ldff (hi : x.instr = .ldff m rd a e) (hk : x.key = key) (hf : s.full key = true) :
    s.feStep key x = s.serve x 0 (word (s.load key 8)) true := by
  have hready : x.feReady (s.full key) = true := by rw [hf, Req.feReady, hi]
  rw [State.feStep, if_pos hready]
  simp only [State.feEffect, hi, hk]

/-- A waiter whose condition does not hold keeps its place. -/
theorem feStep_ldfe_empty (hi : x.instr = .ldfe m rd a e) (hf : s.full key = false) : s.feStep key x = s := by
  have hready : x.feReady (s.full key) = false := by rw [hf, Req.feReady, hi]
  rw [State.feStep, hready]
  rfl

end

section
variable {p q : Req}

/-- An STFE that fills a word at which two requests of its kind wait. -/
structure FillsForTwo (w : State) (r p q : Req) : Prop where
  instr : ∃ d x m e, r.instr = .stfe d x m e
  empty : w.full r.key = false
  waiters : w.waiters = [p.id, q.id]
  nodup : [r.id, p.id, q.id].Nodup
  first : w.req? p.id = some p
  second : w.req? q.id = some q
  firstKey : p.key = r.key
  secondKey : q.key = r.key
  firstFe : p.isFe = true ∧ p.isBarrier = false ∧ p.isWaitw = false
  secondFe : q.isFe = true ∧ q.isBarrier = false ∧ q.isWaitw = false

/-- The state in which such an STFE has been answered, and its word's waiters are to be served. -/
def State.filledWord (w : State) (r : Req) : State := ((w.store r.key 8 r.data).setFull r.key true).serve r 0 0 false

theorem FillsForTwo.opened (h : FillsForTwo s r p q) (hw : s.Opened w) : FillsForTwo w r p q := by
  obtain ⟨_, _, _, _, rfl⟩ := hw
  exact ⟨h.instr, h.empty, h.waiters, h.nodup, h.first, h.second, h.firstKey, h.secondKey, h.firstFe, h.secondFe⟩

/-- Bytes written leave requests and waiters. -/
theorem waiting_store (w : State) (key n v : Nat) : (w.store key n v).waiters = w.waiters ∧ (w.store key n v).reqs = w.reqs := by
  rw [State.store, setBytes_eq]
  exact ⟨rfl, rfl⟩

/-- The state in which the STFE has been answered. -/
theorem filledWord_facts (hmem : Memory.wf w.mem = true) (hfe : SMap.sortedFrom 0 w.fe = true) (r : Req) :
    word ((w.filledWord r).load r.key 8) = word r.data ∧ SMap.sortedFrom 0 (w.filledWord r).fe = true ∧
      w.nextId ≤ (w.filledWord r).nextId := by
  have hserve := served_serve ((w.store r.key 8 r.data).setFull r.key true) r 0 0 false
  have hkeep : (w.store r.key 8 r.data).fe = w.fe ∧ (w.store r.key 8 r.data).nextId = w.nextId := by
    rw [State.store, setBytes_eq]
    exact ⟨rfl, rfl⟩
  have hnext : ((w.store r.key 8 r.data).setFull r.key true).nextId = w.nextId := (State.setFull_nextId ..).trans hkeep.2
  refine ⟨?_, ?_, hnext.ge.trans hserve.nextId⟩
  · have hkept : (w.filledWord r).mem = (w.store r.key 8 r.data).mem := by rw [State.filledWord, hserve.mem, State.setFull_mem]
    have hbytes := (stored_bytes hmem hkept).2
    rw [State.load_eq_bytesAt, hbytes]
    exact BitVec.eq_of_toNat_eq (by simp [word])
  · have hsorted : SMap.sortedFrom 0 (w.store r.key 8 r.data).fe = true := by rw [hkeep.1]; exact hfe
    rw [State.filledWord, hserve.fe]
    exact State.sorted_setFull _ _ _ hsorted

/-- The word is full once the STFE is answered. -/
theorem full_filledWord (r : Req) (hfe : SMap.sortedFrom 0 w.fe = true) : (w.filledWord r).full r.key = true := by
  have hsorted : SMap.sortedFrom 0 (w.store r.key 8 r.data).fe = true := by rw [State.store, setBytes_eq]; exact hfe
  have hfull : (w.filledWord r).full r.key = ((w.store r.key 8 r.data).setFull r.key true).full r.key := by
    rw [State.full, State.full, State.filledWord, (served_serve ..).fe]
  rw [hfull, full_setFull_same hsorted]

section
variable (h : FillsForTwo w r p q)
include h

/-- In a state with the same waiters and their requests, both wait. -/
theorem FillsForTwo.waiting {y : State} (hw : y.waiters = w.waiters) (hq : y.reqs = w.reqs) : y.waiting = [p, q] := by
  have hreq (id : Nat) : y.req? id = w.req? id := by rw [State.req?, State.req?, hq]
  rw [State.waiting, hw, h.waiters]
  simp only [List.filterMap_cons, List.filterMap_nil, hreq, h.first, h.second]

/-- The STFE's own answer leaves them waiting. -/
theorem FillsForTwo.waiting_filledWord : (w.filledWord r).waiters = [p.id, q.id] ∧ (w.filledWord r).waiting = [p, q] := by
  obtain ⟨hw, hq⟩ := waiting_store w r.key 8 r.data
  have hkeep : (w.store r.key 8 r.data).waiters.filter (· != r.id) = [p.id, q.id] := by
    have hn := h.nodup
    simp only [List.nodup_cons, List.mem_cons, List.not_mem_nil, or_false, not_or] at hn
    rw [hw, h.waiters]
    simp [Ne.symm hn.1.1, Ne.symm hn.1.2]
  refine ⟨hkeep, (waiting_serve ..).trans ?_⟩
  have hall := h.waiting (y := (w.store r.key 8 r.data).setFull r.key true) hw hq
  rw [State.waiting, State.setFull_waiters, hw, h.waiters] at hall
  rw [State.setFull_waiters, hkeep]
  exact hall

/-- The pass after the STFE reaches both waiters in their order. -/
theorem FillsForTwo.feServe_eq (hfe : SMap.sortedFrom 0 w.fe = true) :
    w.feServe r = ((w.filledWord r).feStep r.key p).feStep r.key q := by
  obtain ⟨d, x, m, e, hi⟩ := h.instr
  obtain ⟨hw, hq⟩ := waiting_store w r.key 8 r.data
  have hquiet : ∀ z ∈ ((w.store r.key 8 r.data).setFull r.key true).waiting, z.isBarrier = false ∧ z.isWaitw = false := by
    rw [h.waiting (y := (w.store r.key 8 r.data).setFull r.key true) hw hq]
    simp [h.firstFe.2, h.secondFe.2]
  have heffect : w.feEffect r = w.filledWord r := by
    simp only [State.feEffect, hi, afterWrite_of_quiet hquiet]
    rfl
  have hpass : ((w.filledWord r).waiting.filter fun z => z.isFe && z.key == r.key) = [p, q] := by
    rw [h.waiting_filledWord.2]
    simp [h.firstFe.1, h.secondFe.1, h.firstKey, h.secondKey]
  rw [State.feServe, heffect, full_filledWord r hfe, h.empty, fePass_eq_foldl, hpass]
  rfl


/-- An LDFE that waits first takes the word, and the LDFE behind it keeps its place. -/
theorem FillsForTwo.ldfe_first {m : Bool} {rd a : Reg} {e : BitVec 4} {n : Bool} {rd' a' : Reg} {e' : BitVec 4} (hmem : Memory.wf w.mem = true)
    (hfe : SMap.sortedFrom 0 w.fe = true) (hp : p.instr = .ldfe m rd a e) (hq : q.instr = .ldfe n rd' a' e') (ht : (w.feServe r).Closed t) :
    t.full r.key = false ∧ t.waiters = [q.id] ∧ Sent w t p.node (.answer p.id 0 (word r.data) true) := by
  obtain ⟨hload, hsorted, hnext⟩ := filledWord_facts hmem hfe r
  have hn := h.nodup
  rw [h.feServe_eq hfe, feStep_ldfe hp h.firstKey (full_filledWord r hfe), hload] at ht
  obtain ⟨hwaiters, _⟩ := h.waiting_filledWord
  generalize w.filledWord r = z at *
  have hserve := served_serve (z.setFull r.key false) p 0 (word r.data) true
  have hsent := posted_serve (z.setFull r.key false) p 0 (word r.data) true
  have hfilter : ((z.setFull r.key false).serve p 0 (word r.data) true).waiters = [q.id] := by
    show z.waiters.filter _ = _
    rw [hwaiters]
    simp only [List.nodup_cons, List.mem_cons, List.not_mem_nil, or_false, not_or] at hn
    simp [Ne.symm hn.2.1]
  have hempty : ((z.setFull r.key false).serve p 0 (word r.data) true).full r.key = false := by
    rw [State.full, hserve.fe]
    exact full_setFull_same hsorted _ _
  rw [feStep_ldfe_empty hq hempty] at ht
  exact ⟨(ht.full _).trans hempty, ht.waiters.trans hfilter, ht.sent (sent_of_later hsent.sent hnext)⟩

/-- An LDFF that waits first leaves the word full for the LDFE behind it. -/
theorem FillsForTwo.ldff_first {m : Bool} {rd a : Reg} {e : BitVec 4} {n : Bool} {rd' a' : Reg} {e' : BitVec 4} (hmem : Memory.wf w.mem = true)
    (hfe : SMap.sortedFrom 0 w.fe = true) (hp : p.instr = .ldff m rd a e) (hq : q.instr = .ldfe n rd' a' e') (ht : (w.feServe r).Closed t) :
    t.full r.key = false ∧ t.waiters = [] ∧ Sent w t p.node (.answer p.id 0 (word r.data) true) ∧
      Sent w t q.node (.answer q.id 0 (word r.data) true) := by
  obtain ⟨hload, hsorted, hnext⟩ := filledWord_facts hmem hfe r
  have hfull := full_filledWord r hfe
  obtain ⟨hwaiters, _⟩ := h.waiting_filledWord
  rw [h.feServe_eq hfe, feStep_ldff hp h.firstKey hfull, hload] at ht
  generalize w.filledWord r = z at *
  have hfirst := served_serve z p 0 (word r.data) true
  have hsent := posted_serve z p 0 (word r.data) true
  have hkeep : (z.serve p 0 (word r.data) true).waiters = z.waiters.filter (· != p.id) := rfl
  have hload' : (z.serve p 0 (word r.data) true).load r.key 8 = z.load r.key 8 := load_congr hfirst.mem ..
  generalize z.serve p 0 (word r.data) true = y at *
  have hfully : y.full r.key = true := by
    rw [State.full, hfirst.fe]
    exact hfull
  rw [feStep_ldfe hq h.secondKey hfully, hload', hload] at ht
  have hsortedy : SMap.sortedFrom 0 y.fe = true := hfirst.fe ▸ hsorted
  have hsecond := served_serve (y.setFull r.key false) q 0 (word r.data) true
  have hsecondSent := posted_serve (y.setFull r.key false) q 0 (word r.data) true
  have hnone : ((y.setFull r.key false).serve q 0 (word r.data) true).waiters = [] := by
    show y.waiters.filter _ = _
    rw [hkeep, hwaiters]
    simp
  have hstays : Posted z ((y.setFull r.key false).serve q 0 (word r.data) true) p.node (.answer p.id 0 (word r.data) true) :=
    hsent.kept hsecond.nextId hsecond.packets
  have hempty : ((y.setFull r.key false).serve q 0 (word r.data) true).full r.key = false := by
    rw [State.full, hsecond.fe]
    exact full_setFull_same hsortedy _ _
  exact ⟨(ht.full _).trans hempty, ht.waiters.trans hnone, ht.sent (sent_of_later hstays.sent hnext),
    ht.sent (sent_of_later hsecondSent.sent (hnext.trans hfirst.nextId))⟩

end

/-- The STFE is performed at once, and its owner then serves the two that wait (R146). -/
theorem FillsForTwo.answers (hf : FillsForTwo s r p q) (hr : s.req? s.subj.n = some r) (hid : r.id = s.subj.n) (h : TurnOf s r)
    (hhere : r.OnDevice) (hP : ∀ w t, s.Opened w → (w.feServe r).Closed t → P t) : Answers .feRequestAtOwner s P := by
  obtain ⟨d, x, m, e, hi⟩ := hf.instr
  refine answers_atOwner (mv := .ev .feRequestAtOwner s.subj) (f := fun s r => s.performFe r) rfl hr hid h fun w t hw ht => hP w t hw ?_
  have hready : r.feReady (w.full r.key) = true := by rw [hw.full, hf.empty, Req.feReady, hi]; rfl
  rw [performFe_onDevice hhere, if_pos hready] at ht
  exact ht

section
variable {rd a : Reg} {e e' : BitVec 4} (hs : Canonical s) (hf : FillsForTwo s r p q) (hr : s.req? s.subj.n = some r) (hid : r.id = s.subj.n)
  (h : TurnOf s r) (hhere : r.OnDevice) (hq : q.instr = .ldfe false rd a e)
include hs hf hr hid h hhere hq

theorem feRequest_ldfe_first (hp : p.instr = .ldfe false rd a e) : Answers .feRequestAtOwner s fun t =>
    t.full r.key = false ∧ t.waiters = [q.id] ∧ Sent s t p.node (.answer p.id 0 (BitVec.ofNat 64 r.data) true) := by
  obtain ⟨hmem, _, _, _, hfe, _⟩ := hs
  refine hf.answers hr hid h hhere fun w t hw ht => ?_
  have hdone := (hf.opened hw).ldfe_first (hw.mem ▸ hmem) (hw.fe ▸ hfe) hp hq ht
  obtain ⟨used, last, ahead, slices, rfl⟩ := hw
  exact hdone

theorem feRequest_ldff_first (hp : p.instr = .ldff false rd a e) : Answers .feRequestAtOwner s fun t =>
    t.full r.key = false ∧ t.waiters = [] ∧ Sent s t p.node (.answer p.id 0 (BitVec.ofNat 64 r.data) true) ∧
      Sent s t q.node (.answer q.id 0 (BitVec.ofNat 64 r.data) true) := by
  obtain ⟨hmem, _, _, _, hfe, _⟩ := hs
  refine hf.answers hr hid h hhere fun w t hw ht => ?_
  have hdone := (hf.opened hw).ldff_first (hw.mem ▸ hmem) (hw.fe ▸ hfe) hp hq ht
  obtain ⟨used, last, ahead, slices, rfl⟩ := hw
  exact hdone

end

end

end

end Sys2Proof.Machine
end

section
/-! Barrier words and watched words at their owner (R149, R150, R290; Tables AT-2 and AT-10), and the obligation on owners that wait. -/

set_option Elab.async false

namespace Sys2Proof.Machine

/-! ### Fields of a barrier word (Table AT-10) -/

section
variable {n : Nat}

theorem toNat_word (h : n < 2 ^ 64) : (word n).toNat = n := Nat.mod_eq_of_lt h

theorem barPhase_word (h : n < 2 ^ 64) : barPhase (word n) = n / 2 ^ 48 := by
  rw [barPhase, fld, toNat_word h]
  omega
theorem barExpected_word (h : n < 2 ^ 64) : barExpected (word n) = n / 2 ^ 32 % 2 ^ 16 := by rw [barExpected, fld, toNat_word h]
theorem barCount_word (h : n < 2 ^ 64) : barCount (word n) = n % 2 ^ 32 := by rw [barCount, fld, toNat_word h, pow_zero, Nat.div_one]

theorem toNat_barWord (phase : Nat) {expected count : Nat} (he : expected < 2 ^ 16) (hc : count < 2 ^ 32) :
    (barWord phase expected count).toNat = phase % 2 ^ 16 * 2 ^ 48 + expected * 2 ^ 32 + count := by
  rw [barWord, toNat_word] <;> simp only [at'] <;> omega

/-- The word after an arrival. -/
theorem toNat_arriveWord (h : n < 2 ^ 64) : (arriveWord (word n)).toNat =
    if n / 2 ^ 32 % 2 ^ 16 ≤ n % 2 ^ 32 + 1 then (n / 2 ^ 48 + 1) % 2 ^ 16 * 2 ^ 48 + n / 2 ^ 32 % 2 ^ 16 * 2 ^ 32
    else n / 2 ^ 48 * 2 ^ 48 + n / 2 ^ 32 % 2 ^ 16 * 2 ^ 32 + (n % 2 ^ 32 + 1) := by
  have he : n / 2 ^ 32 % 2 ^ 16 < 2 ^ 16 := Nat.mod_lt _ (Nat.two_pow_pos 16)
  rw [arriveWord, barPhase_word h, barExpected_word h, barCount_word h]
  split
  · rw [toNat_barWord _ he (Nat.two_pow_pos 32), Nat.add_zero]
  next hlt => rw [toNat_barWord _ he (by omega), Nat.mod_eq_of_lt (by omega : n / 2 ^ 48 < 2 ^ 16)]

end

/-! ### A barrier word that is written -/

section
variable {s w t u z : State} {r q : Req} {x : Target} {key v st : Nat} {p : Req → Bool} {b : Bool}

/-- A barrier word is written; where it turns, the barrier waiters that p names are released; waiters of the word are tested. -/
def State.writeBarrier (w : State) (key v : Nat) (b : Bool) (p : Req → Bool) (st : Nat) : State :=
  (if b then (w.store key 8 v).releaseBarrier p st else w.store key 8 v).wakeWords key 8

theorem served_writeBarrier (w : State) (key v : Nat) (b : Bool) (p : Req → Bool) (st : Nat) :
    Served (w.store key 8 v) (w.writeBarrier key v b p st) := by
  unfold State.writeBarrier
  split
  · exact (served_releaseBarrier ..).trans (served_wakeWords ..)
  · exact served_wakeWords ..

theorem store_keeps (w : State) (key v : Nat) : (w.store key 8 v).fe = w.fe ∧ (w.store key 8 v).nextId = w.nextId ∧
    (w.store key 8 v).waiting = w.waiting := by
  obtain ⟨hwaiters, hreqs⟩ := waiting_store w key 8 v
  refine ⟨?_, ?_, ?_⟩
  · rw [State.store, setBytes_eq]
  · rw [State.store, setBytes_eq]
  · have hreq : (w.store key 8 v).req? = w.req? := funext fun id => by rw [State.req?, State.req?, hreqs]
    rw [State.waiting, State.waiting, hwaiters]
    exact congrArg (w.waiters.filterMap ·) hreq

/-- What is done after the write of a barrier word touches neither memory nor the packets sent before. -/
structure Ended (z u : State) : Prop where
  mem : u.mem = z.mem
  fe : u.fe = z.fe
  nextId : z.nextId ≤ u.nextId
  packets : ∀ pid, pid < z.nextId → SMap.get? u.packets pid = SMap.get? z.packets pid

theorem ended_answer (z : State) (r : Req) (st : Nat) (v : Word) (writes : Bool) : Ended z (z.answer r st v writes) :=
  ⟨rfl, rfl, Nat.le_succ _, fun _ hp => SMap.get?_put_other _ _ _ _ hp.ne⟩

theorem ended_enterWaiter (z : State) (r : Req) : Ended z (z.enterWaiter r) := ⟨rfl, rfl, le_rfl, fun _ _ => rfl⟩

/-- The word stands in its bytes, and nothing else of memory or of the bits has changed. -/
theorem writeBarrier_bytes (hmem : Memory.wf w.mem = true) (hu : Ended (w.writeBarrier key v b p st) u) (ht : u.Closed t) :
    OnlyBytes w t key 8 ∧ t.fe = w.fe ∧ Sys2Proof.bytesAt t key 8 = v % 2 ^ 64 := by
  have hserved := served_writeBarrier w key v b p st
  obtain ⟨honly, hbytes⟩ := stored_bytes hmem (ht.mem.trans (hu.mem.trans hserved.mem))
  exact ⟨honly, ht.fe.trans (hu.fe.trans (hserved.fe.trans (store_keeps ..).1)), hbytes⟩

/-- What is sent after it. -/
theorem sent_ended {dst : Nat} {pl : Payload} (hu : Sent (w.writeBarrier key v b p st) u dst pl) (ht : u.Closed t) : Sent w t dst pl :=
  ht.sent (sent_of_later hu ((store_keeps ..).2.1.ge.trans (served_writeBarrier ..).nextId))

/-- Every barrier waiter that p names is answered with its old word. -/
theorem writeBarrier_releases (hq : q ∈ w.waiting) (hbar : q.isBarrier = true) (hp : p q = true)
    (hu : Ended (w.writeBarrier key v true p st) u) (ht : u.Closed t) : Sent w t q.node (.answer q.id st (word q.data) true) := by
  obtain ⟨_, hnext, hwaiting⟩ := store_keeps w key v
  have hmem : q ∈ (w.store key 8 v).waiting.filter fun r => r.isBarrier && p r := by
    rw [hwaiting, List.mem_filter, hbar, hp]
    exact ⟨hq, rfl⟩
  have hposted := ((posted_serveAll hmem (w.store key 8 v) st (fun r => word r.data) true).served (served_wakeWords _ key 8)).kept
    hu.nextId hu.packets
  exact ht.sent (sent_of_later hposted.sent hnext.ge)

/-- A waiter that was free stays free: waiters only leave. -/
theorem waiterFree_writeBarrier (h : w.waiterFree r = true) : (w.writeBarrier key v b p st).waiterFree r = true := by
  have hsub := (served_writeBarrier w key v b p st).waiting
  rw [(store_keeps ..).2.2] at hsub
  have hle : (w.writeBarrier key v b p st).waitersAt r ≤ w.waitersAt r := (hsub.filter _).length_le
  unfold State.waiterFree at h ⊢
  split
  next tg htg =>
    simp only [htg, decide_eq_true_eq] at h ⊢
    exact hle.trans_lt h
  next htg =>
    simp only [htg] at h
    exact h

/-! ### Which way a request takes (Table AT-2, R149, R150) -/

/-- A line of this package or of a peer. -/
def Target.Ordinary (x : Target) : Prop := (∃ pa die comp ret, x = .line pa die comp ret) ∨ ∃ pa ret, x = .peer pa ret
/-- A window of a network interface. -/
def Target.Window (x : Target) : Prop := ∃ node off, x = .window node off

/-- A request that is an arrival counted carries the old word and its phase. -/
def Req.counted (r : Req) (w : Word) : Req := { r with data := w.toNat, exp := barPhase w, waitOnly := r.isBarrier }

/-- The phase turns with this arrival. -/
def turns (w : Word) : Bool := decide (barExpected w ≤ barCount w + 1)

/-- An arrival counted: the word written, and the waiters of its phase released where it turns. -/
def State.countArrival (w : State) (r : Req) : State :=
  let old := word (w.load r.key 8)
  w.writeBarrier r.key (arriveWord old).toNat (turns old) (fun q => q.key == r.key && q.exp == barPhase old) 0

/-- How a counted arrival ends: a BARW that did not complete the phase waits, and every other is answered with the old word. -/
def State.concludeArrival (z : State) (r : Req) (old : Word) : State :=
  if !r.isBarrier || turns old then z.answer r 0 old true
  else if z.waiterFree r then z.enterWaiter r
  else z.answer r 8 old true

theorem concludeArrival_answered {old : Word} (h : turns old = true ∨ r.isBarrier = false) (z : State) :
    z.concludeArrival r old = z.answer r 0 old true := by
  have hc : (!r.isBarrier || turns old) = true := by rcases h with h | h <;> simp [h]
  exact if_pos hc

theorem concludeArrival_waits {old : Word} (h : turns old = false) (hbar : r.isBarrier = true) (hfree : z.waiterFree r = true) :
    z.concludeArrival r old = z.enterWaiter r := by
  have hc : ¬ (!r.isBarrier || turns old) = true := by simp [h, hbar]
  exact (if_neg hc).trans (if_pos hfree)

theorem performArrival_refused (ht : r.tgt = some x) (hx : ¬ x.Ordinary) (w : State) : w.performArrival r = w.answer r 4 0 false := by
  cases x with
  | line pa die comp ret => exact absurd (.inl ⟨pa, die, comp, ret, rfl⟩) hx
  | peer pa ret => exact absurd (.inr ⟨pa, ret, rfl⟩) hx
  | _ => simp only [State.performArrival, ht]

section
variable (ht : r.tgt = some x) (hx : x.Ordinary)
include ht hx

theorem performArrival_again (hwait : r.waitOnly = true) (w : State) : w.performArrival r =
    if barPhase (word (w.load r.key 8)) ≠ r.exp then w.answer r 0 (word r.data) true
    else if w.waiterFree r then w.enterWaiter r else w.answer r 8 (word r.data) true := by
  obtain ⟨_, _, _, _, rfl⟩ | ⟨_, _, rfl⟩ := hx
  · simp only [State.performArrival, ht, hwait, if_true]
  · simp only [State.performArrival, ht, hwait, if_true]

theorem performArrival_unset (hwait : r.waitOnly = false) (h : barExpected (word (w.load r.key 8)) = 0) :
    w.performArrival r = w.answer r 4 0 false := by
  obtain ⟨_, _, _, _, rfl⟩ | ⟨_, _, rfl⟩ := hx
  · simp only [State.performArrival, ht, hwait, Bool.false_eq_true, if_false, h, if_true]
  · simp only [State.performArrival, ht, hwait, Bool.false_eq_true, if_false, h, if_true]

theorem performArrival_counts (hwait : r.waitOnly = false) (h : barExpected (word (w.load r.key 8)) ≠ 0) :
    w.performArrival r = (w.countArrival r).concludeArrival (r.counted (word (w.load r.key 8))) (word (w.load r.key 8)) := by
  obtain ⟨_, _, _, _, rfl⟩ | ⟨_, _, rfl⟩ := hx
  · simp only [State.performArrival, ht, hwait, Bool.false_eq_true, if_false, h, State.concludeArrival, State.countArrival,
      State.writeBarrier, turns, Req.counted]
    rfl
  · simp only [State.performArrival, ht, hwait, Bool.false_eq_true, if_false, h, State.concludeArrival, State.countArrival,
      State.writeBarrier, turns, Req.counted]
    rfl

end

/-! ### An arrival (R149) -/

theorem ended_concludeArrival (z : State) (r : Req) (old : Word) : Ended z (z.concludeArrival r old) := by
  unfold State.concludeArrival
  split
  · exact ended_answer ..
  · split
    · exact ended_enterWaiter ..
    · exact ended_answer ..

theorem turns_word {n : Nat} (h : n < 2 ^ 64) : turns (word n) = decide (n / 2 ^ 32 % 2 ^ 16 ≤ n % 2 ^ 32 + 1) := by
  rw [turns, barExpected_word h, barCount_word h]

/-- A request waits for its word. -/
def WaitsAt (t : State) (r : Req) : Prop := r.id ∈ t.waiters ∧ (t.req? r.id).map (·.stage) = some .waiter

theorem waitsAt_enterWaiter (ht : (z.enterWaiter r).Closed t) : WaitsAt t r := by
  refine ⟨?_, (ht.stage _).trans (congrArg (Option.map _) (SMap.get?_put_same ..))⟩
  rw [ht.waiters]
  exact List.mem_append_right _ (List.mem_singleton_self _)

/-- A counted arrival leaves the word that n, the word before it, and R149 give. -/
structure Arrived (w t : State) (r : Req) (n : Nat) : Prop where
  only : OnlyBytes w t r.key 8
  fe : t.fe = w.fe
  bytes : Sys2Proof.bytesAt t r.key 8 =
    if n / 2 ^ 32 % 2 ^ 16 ≤ n % 2 ^ 32 + 1 then (n / 2 ^ 48 + 1) % 2 ^ 16 * 2 ^ 48 + n / 2 ^ 32 % 2 ^ 16 * 2 ^ 32
    else n / 2 ^ 48 * 2 ^ 48 + n / 2 ^ 32 % 2 ^ 16 * 2 ^ 32 + (n % 2 ^ 32 + 1)
  answered : n / 2 ^ 32 % 2 ^ 16 ≤ n % 2 ^ 32 + 1 ∨ r.isBarrier = false →
    Sent w t r.node (.answer r.id 0 (BitVec.ofNat 64 n) true)
  waits : n % 2 ^ 32 + 1 < n / 2 ^ 32 % 2 ^ 16 → r.isBarrier = true → w.waiterFree r = true → WaitsAt t r
  released : n / 2 ^ 32 % 2 ^ 16 ≤ n % 2 ^ 32 + 1 → ∀ q ∈ w.waiting, q.isBarrier = true → q.key = r.key → q.exp = n / 2 ^ 48 →
    Sent w t q.node (.answer q.id 0 (BitVec.ofNat 64 q.data) true)

theorem arrived_conclude {n : Nat} (hmem : Memory.wf w.mem = true) (hn : w.load r.key 8 = n)
    (ht : ((w.countArrival r).concludeArrival (r.counted (word n)) (word n)).Closed t) : Arrived w t r n := by
  have hlt : n < 2 ^ 64 := hn ▸ load_lt w r.key 8
  have hcount : w.countArrival r = w.writeBarrier r.key (arriveWord (word n)).toNat (turns (word n))
      (fun q => q.key == r.key && q.exp == barPhase (word n)) 0 := by rw [State.countArrival, hn]
  rw [hcount] at ht
  have hended := ended_concludeArrival (w.writeBarrier r.key (arriveWord (word n)).toNat (turns (word n))
      (fun q => q.key == r.key && q.exp == barPhase (word n)) 0) (r.counted (word n)) (word n)
  obtain ⟨honly, hfe, hbytes⟩ := writeBarrier_bytes hmem hended ht
  refine ⟨honly, hfe, ?_, fun h => ?_, fun h hbar hfree => ?_, fun h q hq hbar hkey hexp => ?_⟩
  · rw [hbytes, Nat.mod_eq_of_lt (BitVec.isLt _), toNat_arriveWord hlt]
  · have hends : turns (word n) = true ∨ (r.counted (word n)).isBarrier = false :=
      h.imp_left fun h => by rw [turns_word hlt, decide_eq_true h]
    rw [concludeArrival_answered hends] at ht
    exact sent_ended (posted_answer _ (r.counted (word n)) 0 (word n) true).sent ht
  · have hturn : turns (word n) = false := by rw [turns_word hlt, decide_eq_false h.not_ge]
    rw [concludeArrival_waits (r := r.counted (word n)) hturn hbar (waiterFree_writeBarrier (r := r.counted (word n)) hfree)] at ht
    exact waitsAt_enterWaiter (r := r.counted (word n)) ht
  · have hturn : turns (word n) = true := by rw [turns_word hlt, decide_eq_true h]
    rw [hturn] at ht hended
    exact writeBarrier_releases hq hbar (by rw [hkey, hexp, barPhase_word hlt]; simp) hended ht

/-! ### BARI, WAITW and GWAIT (R150, R290) -/

/-- A request that watches its word. -/
def Req.Watches (r : Req) : Prop := (∃ sm rd ra e m, r.instr = .waitw sm rd ra e m) ∨ ∃ sm rd ra e, r.instr = .gwait sm rd ra e

section
variable {sm : Bool} {rd ra : Reg}

theorem performBari_refused (hi : r.instr = .bari sm rd ra) (ht : r.tgt = some x) (hx : ¬ x.Ordinary) (w : State) :
    w.performBarrierWord r = w.answer r 4 0 false := by
  cases x with
  | line pa die comp ret => exact absurd (.inl ⟨pa, die, comp, ret, rfl⟩) hx
  | peer pa ret => exact absurd (.inr ⟨pa, ret, rfl⟩) hx
  | _ => simp only [State.performBarrierWord, hi, ht]

theorem performBari_ordinary (hi : r.instr = .bari sm rd ra) (ht : r.tgt = some x) (hx : x.Ordinary) (w : State) :
    w.performBarrierWord r = (w.writeBarrier r.key (barWord (barPhase (word (w.load r.key 8)) + 1) (r.data % 65536) 0).toNat true
      (fun q => q.key == r.key) 3).answer r 0 0 false := by
  obtain ⟨_, _, _, _, rfl⟩ | ⟨_, _, rfl⟩ := hx
  · simp only [State.performBarrierWord, hi, ht, State.writeBarrier, if_true]
  · simp only [State.performBarrierWord, hi, ht, State.writeBarrier, if_true]

end

theorem performWatch_refused (hi : r.Watches) (ht : r.tgt = some x) (hx : ¬ (x.Ordinary ∨ x.Window)) (w : State) :
    w.performBarrierWord r = w.answer r 4 0 false := by
  cases x with
  | line pa die comp ret => exact absurd (.inl (.inl ⟨pa, die, comp, ret, rfl⟩)) hx
  | peer pa ret => exact absurd (.inl (.inr ⟨pa, ret, rfl⟩)) hx
  | window node off => exact absurd (.inr ⟨node, off, rfl⟩) hx
  | _ => obtain ⟨_, _, _, _, _, hi⟩ | ⟨_, _, _, _, hi⟩ := hi <;> simp only [State.performBarrierWord, hi, ht]

theorem performWatch_here (hi : r.Watches) (ht : r.tgt = some x) (hx : x.Ordinary ∨ x.Window) (w : State) :
    w.performBarrierWord r = if r.differs (word (w.load r.key 8)) then w.answer r 0 (word (w.load r.key 8)) true
      else if w.waiterFree r then w.enterWaiter r else w.answer r 8 0 false := by
  obtain (⟨_, _, _, _, rfl⟩ | ⟨_, _, rfl⟩) | ⟨_, _, rfl⟩ := hx <;> obtain ⟨_, _, _, _, _, hi⟩ | ⟨_, _, _, _, hi⟩ := hi <;>
    simp only [State.performBarrierWord, hi, ht]

/-! ### The rows in which an owner performs them -/

/-- A service that answers under a condition, and else waits where a waiter is free. -/
theorem answers_waitUnless {i : Instr} {mv : Move} {f : State → Req → State} {c : Prop} [Decidable c] {v v' : Word} {writes : Bool}
    (hx : exec i s = .next (s.atOwner mv s.subj.n f)) (hr : s.req? s.subj.n = some r) (hid : r.id = s.subj.n) (h : TurnOf s r)
    (hf : ∀ w, s.Opened w → f w r =
      if c then w.answer r 0 v true else if w.waiterFree r then w.enterWaiter r else w.answer r 8 v' writes) :
    Answers i s fun t => (t.mem = s.mem ∧ t.fe = s.fe) ∧ (c → Sent s t r.node (.answer r.id 0 v true)) ∧
      (¬ c → s.waiterFree r = true → WaitsAt t r) := by
  by_cases hc : c
  · refine answers_mono (answers_answered hx hr hid h fun w hw => (hf w hw).trans (if_pos hc)) fun t ht => ?_
    obtain ⟨hquiet, _, hsent⟩ := ht
    exact ⟨hquiet, fun _ => hsent, fun hn => absurd hc hn⟩
  by_cases hfree : s.waiterFree r = true
  · refine answers_mono (answers_entered hx hr hid h fun w hw => ?_) fun t ht => ?_
    · rw [hf w hw, if_neg hc, hw.waiterFree, if_pos hfree]
    · obtain ⟨hquiet, hwaiters, hstage⟩ := ht
      refine ⟨hquiet, fun h => absurd h hc, fun _ _ => ⟨?_, hstage⟩⟩
      rw [hwaiters]
      exact List.mem_append_right _ (List.mem_singleton_self _)
  · refine answers_mono (answers_answered (st := 8) (v := v') (writes := writes) hx hr hid h fun w hw => ?_) fun t ht =>
      ⟨ht.1, fun h => absurd h hc, fun _ h => absurd h hfree⟩
    rw [hf w hw, if_neg hc, hw.waiterFree, if_neg hfree]

/-- What an owner finds in the word. -/
theorem State.Opened.word (h : s.Opened w) (key : Nat) : word (w.load key 8) = Machine.word (Sys2Proof.bytesAt s key 8) := by
  rw [load_congr h.mem, State.load_eq_bytesAt]

theorem bytesAt_lt (s : State) (key n : Nat) : Sys2Proof.bytesAt s key n < 2 ^ (8 * n) := State.load_eq_bytesAt s key n ▸ load_lt s key n

section
variable (hr : s.req? s.subj.n = some r) (hid : r.id = s.subj.n) (h : TurnOf s r) (htgt : r.tgt = some x)
include hr hid h htgt

/-- Table AT-2: an arrival at any other address is refused. -/
theorem arrival_refused (hx : ¬ x.Ordinary) : Answers .barrierArrival s fun t =>
    (t.mem = s.mem ∧ t.fe = s.fe) ∧ t.waiters = s.waiters ∧ Sent s t r.node (.answer r.id 4 0 false) :=
  answers_answered (mv := .ev .barrierArrival s.subj) (f := fun s r => s.performArrival r) rfl hr hid h
    fun w _ => performArrival_refused htgt hx w

/-- A word with expected = 0 is no barrier yet. -/
theorem arrival_unset (hx : x.Ordinary) (hwait : r.waitOnly = false) (he : Sys2Proof.bytesAt s r.key 8 / 2 ^ 32 % 2 ^ 16 = 0) :
    Answers .barrierArrival s fun t =>
      (t.mem = s.mem ∧ t.fe = s.fe) ∧ t.waiters = s.waiters ∧ Sent s t r.node (.answer r.id 4 0 false) :=
  answers_answered (mv := .ev .barrierArrival s.subj) (f := fun s r => s.performArrival r) rfl hr hid h
    fun w hw => performArrival_unset htgt hx hwait (by rw [hw.word, barExpected_word (bytesAt_lt ..), he])

theorem arrival_counted (hmem : Memory.wf s.mem = true) (hx : x.Ordinary) (hwait : r.waitOnly = false)
    (he : Sys2Proof.bytesAt s r.key 8 / 2 ^ 32 % 2 ^ 16 ≠ 0) :
    Answers .barrierArrival s fun t => Arrived s t r (Sys2Proof.bytesAt s r.key 8) := by
  refine answers_atOwner (mv := .ev .barrierArrival s.subj) (f := fun s r => s.performArrival r) rfl hr hid h fun w t hw ht => ?_
  have hold := hw.word r.key
  rw [performArrival_counts htgt hx hwait (by rw [hold, barExpected_word (bytesAt_lt ..)]; exact he), hold] at ht
  have harrived := arrived_conclude (hw.mem ▸ hmem) ((load_congr hw.mem ..).trans (State.load_eq_bytesAt ..)) ht
  obtain ⟨used, last, ahead, slices, rfl⟩ := hw
  obtain ⟨honly, hfe, hbytes, hanswered, hwaits, hreleased⟩ := harrived
  exact ⟨honly, hfe, hbytes, hanswered, hwaits, hreleased⟩

/-- A BARW that only waits has its phase to wait for. -/
theorem arrival_again (hx : x.Ordinary) (hwait : r.waitOnly = true) : Answers .barrierArrival s fun t =>
    (t.mem = s.mem ∧ t.fe = s.fe) ∧
      (Sys2Proof.bytesAt s r.key 8 / 2 ^ 48 ≠ r.exp → Sent s t r.node (.answer r.id 0 (BitVec.ofNat 64 r.data) true)) ∧
      (¬ Sys2Proof.bytesAt s r.key 8 / 2 ^ 48 ≠ r.exp → s.waiterFree r = true → WaitsAt t r) := by
  refine answers_waitUnless (mv := .ev .barrierArrival s.subj) (f := fun s r => s.performArrival r) (v' := word r.data) (writes := true)
    rfl hr hid h fun w hw => ?_
  rw [performArrival_again htgt hx hwait, hw.word, barPhase_word (bytesAt_lt ..)]
  rfl

/-- BARI turns the phase, and breaks the waiters of its word. -/
theorem bari_here {sm : Bool} {rd ra : Reg} (hi : r.instr = .bari sm rd ra) (hmem : Memory.wf s.mem = true) (hx : x.Ordinary) :
    Answers .barrierWordRequest s fun t => OnlyBytes s t r.key 8 ∧ t.fe = s.fe ∧
      Sys2Proof.bytesAt t r.key 8 = (Sys2Proof.bytesAt s r.key 8 / 2 ^ 48 + 1) % 2 ^ 16 * 2 ^ 48 + r.data % 2 ^ 16 * 2 ^ 32 ∧
      Sent s t r.node (.answer r.id 0 0 false) ∧
      ∀ q ∈ s.waiting, q.isBarrier = true → q.key = r.key → Sent s t q.node (.answer q.id 3 (BitVec.ofNat 64 q.data) true) := by
  refine answers_atOwner (mv := .ev .barrierWordRequest s.subj) (f := fun s r => s.performBarrierWord r) rfl hr hid h fun w t hw ht => ?_
  rw [performBari_ordinary hi htgt hx, hw.word, barPhase_word (bytesAt_lt ..)] at ht
  have hended := ended_answer (w.writeBarrier r.key (barWord (Sys2Proof.bytesAt s r.key 8 / 2 ^ 48 + 1) (r.data % 65536) 0).toNat true
    (fun q => q.key == r.key) 3) r 0 0 false
  obtain ⟨honly, hfe, hbytes⟩ := writeBarrier_bytes (hw.mem ▸ hmem) hended ht
  have hsent := sent_ended (posted_answer _ r 0 0 false).sent ht
  have hbroken (q : Req) (hq : q ∈ w.waiting) (hbar : q.isBarrier = true) (hkey : q.key = r.key) :=
    writeBarrier_releases (p := fun q => q.key == r.key) hq hbar (beq_iff_eq.mpr hkey) hended ht
  rw [Nat.mod_eq_of_lt (BitVec.isLt _), toNat_barWord (expected := r.data % 65536) _ (Nat.mod_lt _ (by decide)) (Nat.two_pow_pos 32), Nat.add_zero] at hbytes
  obtain ⟨used, last, ahead, slices, rfl⟩ := hw
  exact ⟨honly, hfe, hbytes, hsent, hbroken⟩

theorem bari_refused {sm : Bool} {rd ra : Reg} (hi : r.instr = .bari sm rd ra) (hx : ¬ x.Ordinary) :
    Answers .barrierWordRequest s fun t =>
      (t.mem = s.mem ∧ t.fe = s.fe) ∧ t.waiters = s.waiters ∧ Sent s t r.node (.answer r.id 4 0 false) :=
  answers_answered (mv := .ev .barrierWordRequest s.subj) (f := fun s r => s.performBarrierWord r) rfl hr hid h
    fun w _ => performBari_refused hi htgt hx w

theorem watch_refused (hi : r.Watches) (hx : ¬ (x.Ordinary ∨ x.Window)) : Answers .barrierWordRequest s fun t =>
    (t.mem = s.mem ∧ t.fe = s.fe) ∧ t.waiters = s.waiters ∧ Sent s t r.node (.answer r.id 4 0 false) :=
  answers_answered (mv := .ev .barrierWordRequest s.subj) (f := fun s r => s.performBarrierWord r) rfl hr hid h
    fun w _ => performWatch_refused hi htgt hx w

theorem watch_here (hi : r.Watches) (hx : x.Ordinary ∨ x.Window) :
    let w := BitVec.ofNat 64 (Sys2Proof.bytesAt s r.key 8)
    Answers .barrierWordRequest s fun t => (t.mem = s.mem ∧ t.fe = s.fe) ∧
      (r.differs w = true → Sent s t r.node (.answer r.id 0 w true)) ∧ (¬ r.differs w = true → s.waiterFree r = true → WaitsAt t r) := by
  refine answers_waitUnless (mv := .ev .barrierWordRequest s.subj) (f := fun s r => s.performBarrierWord r) (v' := 0) (writes := false)
    rfl hr hid h fun w hw => ?_
  rw [performWatch_here hi htgt hx, hw.word]
  rfl

end

end

end Sys2Proof.Machine

namespace Sys2Proof
open Sys2Proof.Machine

/-- Settles O30: each way through the owner's services, and the passes that they start. -/
theorem fullEmptyAndBarriersAtOwner : Obligations.FullEmptyAndBarriersAtOwner := by
  unfold Obligations.FullEmptyAndBarriersAtOwner
  refine ⟨fun s r hs hr hid h => ⟨fun hnone hfe hhere hready => ?_, fun _ hhere hready => ?_, fun _ hhost => ?_, ?_⟩,
    fun s r x hs hr hid h htgt => ⟨fun _ hwait hx he => ?_, fun _ hx => ?_, fun _ hwait hx he => ?_, fun _ hwait hx => ?_,
      fun sm rd ra hi => ⟨fun hx => ?_, fun hx => ?_⟩, fun hi => ⟨fun hx => ?_, fun hx => ?_⟩⟩⟩
  · exact feRequest_alone hs hr hid h hnone hfe hhere hready
  · exact feRequest_notReady hr hid h hhere hready
  · obtain ⟨ha, hha⟩ := not_forall_not.mp hhost
    exact feRequest_host hr hid h hha
  · intro p q a rd e hi hempty hhere hwaiters hnodup hp hq hpk hqk hqi
    obtain ⟨d, x, m, hi⟩ := hi
    have htwo (hpe : p.isFe = true ∧ p.isBarrier = false ∧ p.isWaitw = false) : FillsForTwo s r p q :=
      ⟨⟨d, x, m, e, hi⟩, hempty, hwaiters, hnodup, hp, hq, hpk, hqk, hpe, by
        rw [Req.isFe, Req.isBarrier, Req.isWaitw, hqi]; exact ⟨rfl, rfl, rfl⟩⟩
    refine ⟨fun hpi => ?_, fun hpi => ?_⟩
    · exact feRequest_ldfe_first hs (htwo (by rw [Req.isFe, Req.isBarrier, Req.isWaitw, hpi]; exact ⟨rfl, rfl, rfl⟩)) hr hid h hhere hqi hpi
    · exact feRequest_ldff_first hs (htwo (by rw [Req.isFe, Req.isBarrier, Req.isWaitw, hpi]; exact ⟨rfl, rfl, rfl⟩)) hr hid h hhere hqi hpi
  · exact arrival_unset hr hid h htgt hx hwait he
  · exact arrival_refused hr hid h htgt hx
  · obtain ⟨t, ht, honly, hfe, hbytes, hanswered, hwaits, hreleased⟩ := arrival_counted hr hid h htgt hs.1 hx hwait he
    exact ⟨t, ht, honly, hfe, hbytes, hanswered, hwaits, hreleased⟩
  · exact answers_mono (arrival_again hr hid h htgt hx hwait) fun t ⟨hquiet, hanswered, hwaits⟩ =>
      ⟨hquiet, hanswered, fun he => hwaits (not_not.mpr he)⟩
  · exact bari_refused hr hid h htgt hi hx
  · exact bari_here hr hid h htgt hi hs.1 hx
  · exact watch_refused hr hid h htgt hi hx
  · refine answers_mono (watch_here hr hid h htgt hi hx) fun t ⟨hquiet, hanswered, hwaits⟩ => ⟨hquiet, fun hd => ?_, fun he => ?_⟩
    · exact hanswered (bne_iff_ne.mpr hd)
    · exact hwaits fun hd => bne_iff_ne.mp hd he

end Sys2Proof
end

section
/-! The history of a cell (R192): a state in which that of one cell is listed, and empty. -/

set_option Elab.async false

namespace Sys2Proof.Machine

/-- MZERO of tile 0, in the cell of its first row and column. -/
def zeroesOne : MOp :=
  { e := { id := 0, tcw := [0x1000000000000000, 0x1000100000000, 0, 0], core := 0, slot := 0, gen := 0, seq := 0, fence := false, pc := 0,
           stamp := 0, tk := 0, cycle := 0 }
    startAt := 0, doneAt := 0 }

/-- That operation is due in unchecked mode, and of the cell no event is listed, not even what it held before. -/
def forgetsCell : State := { teams := [(0, { mx := { active := [zeroesOne], hist := [(0, [])] } })] }

theorem canonical_forgetsCell : Canonical forgetsCell := by
  refine ⟨rfl, rfl, rfl, rfl, rfl, fun e he => ?_⟩
  obtain rfl := List.mem_singleton.mp he
  exact ⟨rfl, rfl⟩

theorem sized_forgetsCell : Sized forgetsCell := by
  refine ⟨nofun, fun e he => ?_, nofun, rfl, rfl, rfl, rfl, fun _ _ hc => absurd hc.symm (Option.some_ne_none _)⟩
  obtain rfl := List.mem_singleton.mp he
  decide

theorem history_forgetsCell : (forgetsCell.team 0).mx.history 0 = [] := rfl

end Sys2Proof.Machine

namespace Sys2Proof
open Sys2Proof.Machine

/-- Refutes O39: nothing in it says that the history of a cell begins with what the cell held (R192). Where the history is listed and
empty, a completing operation reads none of its values. -/
theorem not_matrixEngine : ¬ Obligations.MatrixEngine := by
  intro h
  obtain ⟨-, -, -, -, -, -, hcomplete, -⟩ := (h.1 forgetsCell canonical_forgetsCell sized_forgetsCell)
  obtain ⟨t, -, -, -, hcells, -⟩ := hcomplete zeroesOne rfl rfl rfl nofun rfl (by decide) rfl
  obtain ⟨-, e, he, -⟩ := (hcells rfl 0).2 (by decide)
  exact absurd he (history_forgetsCell ▸ List.not_mem_nil)

end Sys2Proof
end

section
/-! The copy engines at a team that has been saved (R302, R313, R331): a state in which a completion goes into the save area. -/

set_option Elab.async false

namespace Sys2Proof.Machine

/-- A team that the general pre-emption has saved, before which commands with numbers below 2 were pushed. -/
def savedZero : Kept := { team := 0, mark := 2 }

/-- A finished copy of core 0 that notifies port 0 of core 0. -/
def notifies : Active :=
  { cmd := { id := 1, words := [0, 0, 0, 0x20000000], tk := 0, pc := 0, seq := 0, gen := 0, launch := 1, stamp := 0 }, finished := true }

/-- That copy is complete. Its team is saved, with its area at virtual address 0x2000 under the page table at 0, which maps the first
GiB to itself (R318). -/
def savedTarget : State :=
  { mem := [(0, 0x31), (1, 0x10), (0x1000, 0x21)]
    subj := { m := 1 }
    engines := [(0, { active := [notifies] })]
    disp := { launches := [(1, { handle := 0, root := 0, wpdie := 0, wpnode := [], saved := [savedZero], savedAt := 0x2000 })] } }

theorem canonical_savedTarget : Canonical savedTarget :=
  ⟨by decide, rfl, rfl, rfl, rfl, nofun⟩

theorem sized_savedTarget : Sized savedTarget := by
  refine ⟨nofun, nofun, fun e he => ?_, rfl, rfl, rfl, rfl, fun _ _ hc => absurd hc.symm (Option.some_ne_none _)⟩
  obtain rfl := List.mem_singleton.mp he
  intro k hk
  obtain rfl := List.mem_singleton.mp hk
  exact ⟨rfl, nofun⟩

/-- The area is laid out again with the completion, its header first. -/
theorem byte_copyComplete_savedTarget : ∀ t, exec .copyComplete savedTarget = .next t → t.byte 0x2000 = 0x53 := by
  intro t ht
  obtain rfl := Host.Outcome.next.inj ht
  decide

end Sys2Proof.Machine

namespace Sys2Proof
open Sys2Proof.Machine

/-- Refutes O53: its clause on the end of a copy says that memory is as it was, whatever team the completion message goes to. Where that
team has been saved since the command was pushed, the message goes into the completion words of its record (R313), which is memory. -/
theorem not_engines : ¬ Obligations.Engines := by
  intro h
  obtain ⟨-, -, -, -, -, -, hcomplete, -⟩ := h savedTarget canonical_savedTarget sized_savedTarget
  obtain ⟨t, hx, -, hmem, -⟩ := hcomplete notifies rfl rfl
  have hbyte := byte_copyComplete_savedTarget t hx
  rw [State.byte, hmem] at hbyte
  exact absurd hbyte (by decide)

end Sys2Proof
end

section
/-! The vector unit (R171 to R173, Table VE-7): issue, grant and return. -/

set_option Elab.async false

namespace Sys2Proof.Machine

/-! ### Issue (R172) -/

/-- The words of opcodes 0x2C to 0x30 are those of the vector instructions. -/
theorem exec_of_vectorOp {i : Instr} (hw : i.isWord = true) (hlo : 0x2C ≤ wordOp (encode i)) (hhi : wordOp (encode i) ≤ 0x30)
    (s : State) : exec i s = issueVector i s := by
  cases i
  case vadd | vsub | vmul | vfma | vmin | vmax | vabs | vneg | vrcp | vrsq | vexp2 | vand | vor | vxor | vshl | vshr | vsar | vcmpeq
      | vcmplt | vcmple | vsel | vcvt | vred | vdot | vqnt | vshuf | vbcast | vext | vins | vmov => rfl
  all_goals simp [Instr.isWord, encode, wordOp_packR, wordOp_packI, wordOp_packL, wordOp_packB, wordOp_packJ, wordOp_packM,
    wordOp_packW, wordOp_packC, wordOp_packP] at hw hlo hhi

section
variable {i : Instr} {s : State} {tk : Nat} {th : Thread}

/-- The job of an instruction that a thread hands over, with the number that it gets and the cycle. -/
def State.jobOf (s : State) (tk : Nat) (th : Thread) (i : Instr) (id cycle : Nat) : VJob :=
  { id := id, tk := tk, instr := i, fmt := preFmt (prefixOf th), aux := preAux (prefixOf th)
    scal := (List.range i.fields.length).map fun n => match (i.fields.getD n (.dst, .g 0)).2 with
      | .s _ => some ((s.issueOf tk th i).val n)
      | _ => none
    issued := cycle }

/-- A job enters its core's dispatch queue, and its thread is handed over. -/
def State.handOver (p : State) (j : VJob) : State :=
  (p.modTeam (nodeOf (coreOf j.tk)) fun t =>
    { t with vq := t.vq.set (coreInTeam (coreOf j.tk)) (t.vq.getD (coreInTeam (coreOf j.tk)) [] ++ [j]) }).modThread j.tk fun th =>
      { th with run := .handed }

theorem State.thread?_handOver {p : State} (j : VJob) (h : p.thread? j.tk = some th) :
    (p.handOver j).thread? j.tk = some { th with run := .handed } :=
  (State.thread?_modThread ..).trans (congrArg (Option.map _) h)

theorem coreInTeam_lt (core : Nat) : coreInTeam core < 4 := by
  unfold coreInTeam
  split
  · exact Nat.mod_lt _ (by decide)
  · decide

theorem getD_set_same {α : Type} {l : List α} {n : Nat} (h : n < l.length) (a d : α) : (l.set n a).getD n d = a := by
  rw [List.getD_eq_getElem?_getD, List.getElem?_set_self h, Option.getD_some]

/-- The job is the last of its core's dispatch queue. -/
theorem State.vqueue_handOver {p : State} (j : VJob) (hlen : (p.team (nodeOf (coreOf j.tk))).vq.length = 4) :
    (p.handOver j).vqueue (coreOf j.tk) = p.vqueue (coreOf j.tk) ++ [j] := by
  have hlt : coreInTeam (coreOf j.tk) < (p.team (nodeOf (coreOf j.tk))).vq.length := hlen ▸ coreInTeam_lt _
  rw [State.vqueue, State.handOver, team_congr (State.modThread_teams ..), State.team_modTeam, if_pos rfl]
  exact getD_set_same hlt ..

theorem State.vqueue_congr {s t : State} (h : t.teams = s.teams) (core : Nat) : t.vqueue core = s.vqueue core := by
  rw [State.vqueue, State.vqueue, team_congr h]

/-- With a free entry, a ready vector instruction is handed over. -/
theorem issueVector_room (h : Ready i s tk th) (hroom : (s.vqueue (coreOf tk)).length < 2) :
    issueVector i s = .next (issued i s tk fun p => p.fresh.2.handOver (s.jobOf tk th i p.nextId p.cycle)) := by
  rw [issueVector, issue_ready h (if_pos hroom)]
  rfl

/-- A vector instruction waits in its dispatch queue for its grant. -/
theorem completes_issueVector (hx : exec i s = issueVector i s) (h : Ready i s tk th) (hroom : (s.vqueue (coreOf tk)).length < 2)
    (hlen : (s.team (nodeOf (coreOf tk))).vq.length = 4) :
    Completes i s tk fun t u => u.run = .handed ∧ u.pc = th.pc + 4 ∧ t.mem = s.mem ∧ t.rf = s.rf ∧
      ∃ j : VJob, t.vqueue (coreOf tk) = s.vqueue (coreOf tk) ++ [j] ∧ j.tk = tk ∧ j.instr = i ∧ j.issued = s.cycle ∧
        j.fmt = preFmt (prefixOf th) ∧ j.aux = preAux (prefixOf th) := by
  have hp := amid_afterPops i h.issuing.2
  have hteams := (s.untouched_afterPops i tk).teams
  have hcycle := s.afterPops_cycle i tk
  generalize hpops : s.afterPops i tk = p at hp hteams hcycle
  have hq := State.vqueue_handOver (p := p.fresh.2) (s.jobOf tk th i p.nextId p.cycle) ((congrArg (·.vq.length)
    (team_congr hteams _)).trans hlen)
  refine completes_ends (v := p.fresh.2.handOver (s.jobOf tk th i p.nextId p.cycle)) (hx.trans (issueVector_room h hroom))
    (by rw [hpops]) (State.thread?_handOver (s.jobOf tk th i p.nextId p.cycle) hp.thread) fun t r he hr => ?_
  refine ⟨hr nofun, rfl, he.untouched.mem.trans ((State.modThread_mem ..).trans hp.mem),
    he.rf.trans ((State.modThread_rf ..).trans hp.rf), s.jobOf tk th i p.nextId p.cycle, ?_, rfl, rfl, hcycle, rfl, rfl⟩
  rw [State.vqueue_congr he.untouched.teams, ← State.vqueue_congr hteams (coreOf tk)]
  exact hq

end

/-! ### Grant (R173) -/

/-- The number of a group's doublewords, lowest first. -/
def groupOf (ws : List Word) : Nat := (ws.zipIdx.map fun v => v.1.toNat * 2 ^ (64 * v.2)).sum

theorem groupOf_eq_groupNat (ws : List Word) : groupOf ws = groupNat ws := by
  have h := ofBytes_bytesOfDwords ws 0
  rw [Nat.mul_zero, Nat.pow_zero, Nat.mul_one] at h
  exact h.symm

section
variable {s : State} {node c d : Nat}

/-- The k-th core that the round robin of a node's unit looks at. -/
def State.coreAfter (s : State) (node k : Nat) : Nat := ((s.team node).vlast + 1 + k) % 4

/-- The dispatch queue of a core has no head that was issued in an earlier cycle. -/
def State.headWaits (s : State) (node c : Nat) : Prop := ∀ v vs, (s.team node).vq.getD c [] = v :: vs → s.cycle ≤ v.issued

/-- The dispatch queue of a core has a head that was issued in an earlier cycle. -/
def State.headReady (s : State) (node c : Nat) : Bool :=
  match ((s.team node).vq.getD c []).head? with
  | some j => decide (j.issued < s.cycle)
  | none => false

theorem State.vectorNext_eq (s : State) (node : Nat) :
    s.vectorNext node = ((List.range 4).find? (s.headReady node ∘ s.coreAfter node)).map (s.coreAfter node) :=
  List.find?_map ..

theorem State.headReady_of_waits (h : s.headWaits node c) : s.headReady node c = false := by
  unfold State.headReady
  cases hq : (s.team node).vq.getD c [] with
  | nil => rfl
  | cons v vs => exact decide_eq_false (Nat.not_lt.mpr (h v vs hq))

theorem State.headReady_of_cons {j : VJob} {rest : List VJob} (hq : (s.team node).vq.getD c [] = j :: rest) (hj : j.issued < s.cycle) :
    s.headReady node c = true := by
  rw [State.headReady, hq]
  exact decide_eq_true hj

/-- With no head to grant there is no next core. -/
theorem State.vectorNext_none (h : ∀ k, k < 4 → s.headWaits node (s.coreAfter node k)) : s.vectorNext node = none := by
  have hnone : (List.range 4).find? (s.headReady node ∘ s.coreAfter node) = none := List.find?_eq_none.mpr fun k hk => by
    rw [Function.comp_apply, State.headReady_of_waits (h k (List.mem_range.mp hk))]
    exact Bool.false_ne_true
  rw [State.vectorNext_eq, hnone, Option.map_none]

/-- The next core is the first in the round robin whose head was issued in an earlier cycle. -/
theorem State.vectorNext_some {j : VJob} {rest : List VJob} (hd : d < 4) (h : ∀ k, k < d → s.headWaits node (s.coreAfter node k))
    (hq : (s.team node).vq.getD (s.coreAfter node d) [] = j :: rest) (hj : j.issued < s.cycle) :
    s.vectorNext node = some (s.coreAfter node d) := by
  have hfirst : (List.range 4).find? (s.headReady node ∘ s.coreAfter node) = some d :=
    List.find?_range_eq_some.mpr ⟨State.headReady_of_cons hq hj, List.mem_range.mpr hd, fun k hk => by
      rw [Function.comp_apply, State.headReady_of_waits (h k hk)]
      rfl⟩
  rw [State.vectorNext_eq, hfirst, Option.map_some]

/-- A scalar of a job: that of an s register read at issue, or a window register as it is now. -/
def State.scalarOfJob (s : State) (j : VJob) (n : Nat) : Word :=
  match j.scal.getD n none with
  | some v => v
  | none => s.readG j.tk (Reg.gnum (j.instr.fields.getD n (.dst, .g 0)).2)

theorem State.scalarOfJob_eq (s : State) (j : VJob) : s.scalarOfJob j = fun n =>
    (j.scal.getD n none).getD (s.readG j.tk (Reg.gnum (j.instr.fields.getD n (.dst, .g 0)).2)) := by
  funext n
  unfold State.scalarOfJob
  cases j.scal.getD n none <;> rfl

/-- A job with the result that the unit computes from its groups and scalars. -/
def State.granted (s : State) (j : VJob) : VJob :=
  let grp := fun n => groupNat (s.readGroup j.tk (j.instr.fields.getD n (.dst, .g 0)).2)
  { j with
    due := s.cycle + vectorLatency j.instr
    result := vectorResult j.instr j.fmt j.aux (grp 0) (grp 1) (grp 2) (s.scalarOfJob j) }

theorem State.granted_result (s : State) (j : VJob) : (s.granted j).result =
    let grp := fun n => groupOf (s.readGroup j.tk (j.instr.fields.getD n (.dst, .g 0)).2)
    vectorResult j.instr j.fmt j.aux (grp 0) (grp 1) (grp 2) fun n =>
      (j.scal.getD n none).getD (s.readG j.tk (Reg.gnum (j.instr.fields.getD n (.dst, .g 0)).2)) := by
  simp only [State.granted, groupOf_eq_groupNat, State.scalarOfJob_eq]

theorem exec_vectorGrant {j : VJob} {rest : List VJob} (hn : s.vectorNext s.subj.n = some c)
    (hq : (s.team s.subj.n).vq.getD c [] = j :: rest) : exec .vectorGrant s =
    .next ((s.modTeam s.subj.n fun t => { t with
      vlast := c, vq := t.vq.set c (t.vq.getD c []).tail, vfly := t.vfly ++ [s.granted j] }).addTimer (s.cycle + vectorLatency j.instr)
        .vectorReturn { n := s.subj.n, m := j.id }) := by
  show execVectorGrant s = _
  simp only [execVectorGrant, hn, hq, List.head?_cons]
  rfl

/-- The unit grants the first core after the last served whose head was issued in an earlier cycle. -/
theorem answers_vectorGrant {j : VJob} {rest : List VJob} (hn : s.vectorNext s.subj.n = some c) (hc : c < 4)
    (hlen : (s.team s.subj.n).vq.length = 4) (hq : (s.team s.subj.n).vq.getD c [] = j :: rest) :
    Answers .vectorGrant s fun t => t.mem = s.mem ∧ t.rf = s.rf ∧ (t.team s.subj.n).vq.getD c [] = rest ∧
      (t.team s.subj.n).vlast = c ∧
      t.timers = s.timers ++ [{ due := s.cycle + vectorLatency j.instr, mv := .ev .vectorReturn { n := s.subj.n, m := j.id } }] ∧
      ∃ k ∈ (t.team s.subj.n).vfly, k.id = j.id ∧ k.tk = j.tk ∧ k.instr = j.instr ∧ k.result = (s.granted j).result := by
  refine ⟨_, exec_vectorGrant hn hq, rfl, rfl, ?_⟩
  rw [team_congr (State.addTimer_teams ..), State.team_modTeam, if_pos rfl]
  refine ⟨?_, rfl, rfl, s.granted j, List.mem_append_right _ List.mem_cons_self, rfl, rfl, rfl, rfl⟩
  refine (getD_set_same (hlen ▸ hc) ..).trans ?_
  rw [hq, List.tail_cons]

end

/-! ### Return (R172) -/

section
variable {s : State} {j : VJob} {th : Thread}

/-- The register or group that a job's result goes to. -/
def VJob.dest (j : VJob) : Reg := (j.instr.fields.getD 0 (.dst, .g 0)).2

/-- A result written: one word to rd, eight to a group. -/
def State.putResult (s : State) (j : VJob) : State :=
  match j.result with
  | [v] => s.writeGS j.tk j.dest v
  | vs => s.writeGroup j.tk j.dest vs

/-- A job that has left the unit. -/
def State.landJob (s : State) (j : VJob) : State :=
  s.modTeam s.subj.n fun t => { t with vfly := t.vfly.filter fun k => k.id != j.id }

theorem exec_vectorReturn (hj : (s.team s.subj.n).vfly.find? (fun k => k.id == s.subj.m) = some j) (h : s.thread? j.tk = some th)
    (hr : th.run = .handed) : exec .vectorReturn s = .next ((((s.landJob j).putResult j).modThread j.tk fun th =>
      { th with run := .ready, notBefore := ((s.landJob j).putResult j).cycle + 1 }).settleSwitch j.instr j.tk) := by
  have hrun : ((s.landJob j).thread j.tk).run = .handed := (congrArg Thread.run (State.thread_of_thread? h)).trans hr
  show execVectorReturn s = _
  simp only [execVectorReturn, hj]
  refine (if_neg (not_not.mpr hrun)).trans ?_
  rfl

theorem State.writeGroup_cycle (s : State) (tk : Nat) (r : Reg) (vs : List Word) : (s.writeGroup tk r vs).cycle = s.cycle :=
  foldl_keeps State.cycle (fun u k => u.writeG tk (Reg.gnum r + k) (vs.getD k 0)) (fun _ _ => rfl) _ s

theorem State.writeGroup_threads (s : State) (tk : Nat) (r : Reg) (vs : List Word) : (s.writeGroup tk r vs).threads = s.threads :=
  foldl_keeps State.threads (fun u k => u.writeG tk (Reg.gnum r + k) (vs.getD k 0)) (fun _ _ => rfl) _ s

theorem writeGSOf_cycle (s : State) (tk : Nat) (x : Reg) (v : Word) (stamp : Nat) : (s.writeGSOf tk x v stamp).cycle = s.cycle := by
  cases x with
  | s k => exact State.putSWrite_cycle ..
  | _ => rfl

/-- A result changes registers alone. -/
theorem State.putResult_frame (s : State) (j : VJob) :
    (s.putResult j).mem = s.mem ∧ (s.putResult j).cycle = s.cycle ∧ (s.putResult j).threads = s.threads := by
  unfold State.putResult
  split
  · exact ⟨writeGSOf_mem .., writeGSOf_cycle .., writeGSOf_threads ..⟩
  · exact ⟨State.writeGroup_mem .., State.writeGroup_cycle .., State.writeGroup_threads ..⟩

/-- A ready thread stays ready past its word, or is parked by the switch marker. -/
theorem State.thread?_settleSwitch_ready {u : Thread} {tk : Nat} (i : Instr) (h : s.thread? tk = some u) (hr : u.run = .ready) :
    ∃ r, (s.settleSwitch i tk).thread? tk = some { u with run := r } ∧ (r = .ready ∨ r = .switch) := by
  unfold State.settleSwitch
  split
  · exact ⟨.switch, (State.thread?_modThread ..).trans (congrArg _ h), .inr rfl⟩
  · exact ⟨.ready, h.trans (congrArg some (by rw [← hr])), .inl rfl⟩

/-- Where a thread has the window that it had, it reads what its file holds. -/
theorem readG_of_window {w t : State} {tk : Nat} {a b : Thread} (ha : w.thread? tk = some a) (hb : t.thread? tk = some b)
    (hbase : b.base = a.base) (hrf : t.rf = w.rf) (k : Nat) : t.readG tk k = w.readG tk k := by
  rw [State.readG, State.readG, State.rfKey, State.rfKey, State.thread_of_thread? ha, State.thread_of_thread? hb, hbase, hrf]

/-- The result is written, and the thread is ready from the next cycle. -/
theorem answers_vectorReturn (hrf : SMap.sortedFrom 0 s.rf = true)
    (hj : (s.team s.subj.n).vfly.find? (fun k => k.id == s.subj.m) = some j) (h : s.thread? j.tk = some th) (hr : th.run = .handed) :
    Answers .vectorReturn s fun t => t.mem = s.mem ∧
      (∃ u, t.thread? j.tk = some u ∧ (u.run = .ready ∨ u.run = .switch) ∧ u.notBefore = s.cycle + 1 ∧ u.pc = th.pc) ∧
      (∀ v, j.result = [v] → Puts s t j.tk j.dest v) ∧
      (∀ k n, j.result.length = 8 → j.dest = .g k → n < 8 → t.readG j.tk (k.val + n) = j.result.getD n 0) := by
  obtain ⟨hmem, hcycle, hthreads⟩ := (s.landJob j).putResult_frame j
  have hland : ((s.landJob j).putResult j).thread? j.tk = some th := (congrArg (SMap.get? · j.tk) hthreads).trans h
  obtain ⟨r, hu, hrun⟩ := State.thread?_settleSwitch_ready j.instr ((State.thread?_modThread ..).trans (congrArg
    (Option.map fun th => { th with run := .ready, notBefore := ((s.landJob j).putResult j).cycle + 1 }) hland)) rfl
  refine ⟨_, exec_vectorReturn hj h hr, ?_, ⟨_, hu, hrun, congrArg (· + 1) hcycle, rfl⟩, fun v hv => ⟨fun k hk => ?_, fun k hk => ?_⟩,
    fun k n hlen hk hn => ?_⟩
  · rw [State.settleSwitch_mem, State.modThread_mem]
    exact hmem
  · rw [readG_of_window hland hu rfl (by rw [State.settleSwitch_rf, State.modThread_rf])]
    simp only [State.putResult, hv, hk]
    exact State.readG_writeG _ j.tk k.val v hrf
  · refine ⟨s.nextId, le_rfl, ?_⟩
    rw [State.settleSwitch_spend, State.modThread_spend]
    simp only [State.putResult, hv, hk]
    exact State.spend_putSWrite_congr (s := s) (p := s.landJob j) rfl _
  · rw [readG_of_window hland hu rfl (by rw [State.settleSwitch_rf, State.modThread_rf])]
    have hgroup : (s.landJob j).putResult j = (s.landJob j).writeGroup j.tk j.dest j.result := by
      unfold State.putResult
      split
      · rename_i hone
        rw [hone] at hlen
        simp at hlen
      · rfl
    rw [hgroup, hk]
    exact State.readG_writeGroup (s := s.landJob j) j.tk (.g k) j.result hrf hn

end

end Sys2Proof.Machine
end

section
/-! Lanes (R171, Table VE-6): a group as a number, and what packing and combining lanes leave in each. -/

set_option Elab.async false

namespace Sys2Proof.Machine

/-! ### Lanes of a number -/

theorem laneOf_lt (w v j : Nat) : laneOf w v j < 2 ^ w := Nat.mod_lt _ (Nat.two_pow_pos w)

theorem laneOf_zero (w v : Nat) : laneOf w v 0 = v % 2 ^ w := by rw [laneOf, Nat.mul_zero, Nat.pow_zero, Nat.div_one]

theorem laneOf_succ (w v j : Nat) : laneOf w v (j + 1) = laneOf w (v / 2 ^ w) j := by
  rw [laneOf, laneOf, Nat.mul_succ, Nat.add_comm, Nat.pow_add, Nat.div_div_eq_div_mul]

theorem lanes_eq_map (w n v : Nat) : lanes w n v = (List.range n).map (laneOf w v) := by
  induction n generalizing v with
  | zero => rfl
  | succ n ih =>
    rw [List.range_succ_eq_map, List.map_cons, List.map_map, laneOf_zero]
    exact congrArg _ ((ih _).trans (List.map_congr_left fun k _ => (laneOf_succ w v k).symm))

/-- Each lane of packed lanes is the one that was packed there. -/
theorem laneOf_packLanes (w : Nat) (l : List Nat) (j : Nat) : laneOf w (packLanes w l) j = l.getD j 0 % 2 ^ w := by
  have hpos := Nat.two_pow_pos w
  induction l generalizing j with
  | nil => simp [packLanes, laneOf]
  | cons x l ih =>
    cases j with
    | zero => rw [laneOf_zero, packLanes, Nat.add_mul_mod_self_left, Nat.mod_mod, List.getD_cons_zero]
    | succ j =>
      rw [laneOf_succ, packLanes, Nat.add_mul_div_left _ _ hpos, Nat.div_eq_of_lt (Nat.mod_lt _ hpos), Nat.zero_add, ih,
        List.getD_cons_succ]

/-- Lanes computed one by one and packed. -/
theorem laneOf_packLanes_map (w n : Nat) (f : Nat → Nat) (j : Nat) :
    laneOf w (packLanes w ((List.range n).map f)) j = if j < n then f j % 2 ^ w else 0 := by
  rw [laneOf_packLanes]
  by_cases hj : j < n
  · rw [if_pos hj, List.getD_eq_getElem _ _ (by simpa using hj), List.getElem_map, List.getElem_range]
  · rw [if_neg hj, List.getD_eq_default _ _ (by simpa using hj), Nat.zero_mod]

/-- Lanes of whole lanes of a number are lanes of the number. -/
theorem laneOf_laneOf {w m : Nat} (v j : Nat) {i : Nat} (hi : i < m) : laneOf w (laneOf (w * m) v j) i = laneOf w v (m * j + i) := by
  obtain ⟨d, rfl⟩ := Nat.exists_eq_add_of_lt hi
  have hsplit : 2 ^ (w * (i + d + 1)) = 2 ^ (w * i) * 2 ^ (w * (d + 1)) := by rw [← Nat.pow_add, ← Nat.mul_add, Nat.add_assoc]
  have hdvd : 2 ^ w ∣ 2 ^ (w * (d + 1)) := Nat.pow_dvd_pow 2 (Nat.le_mul_of_pos_right w (Nat.succ_pos d))
  rw [laneOf, laneOf, laneOf, hsplit, Nat.mod_mul_right_div_self, Nat.mod_mod_of_dvd _ hdvd, Nat.div_div_eq_div_mul, ← Nat.pow_add,
    Nat.mul_assoc w, ← Nat.mul_add]

/-! ### Groups -/

theorem groupOf_dwordsOf (v n : Nat) : groupOf (dwordsOf v n) = v % 2 ^ (64 * n) := by
  rw [groupOf_eq_groupNat]
  induction n generalizing v with
  | zero => rw [Nat.mul_zero, Nat.pow_zero, Nat.mod_one]; rfl
  | succ n ih =>
    have hw : ofBytes (toBytes 8 (word v).toNat) = v % 2 ^ 64 := by
      rw [ofBytes_toBytes, word, BitVec.toNat_ofNat]
      exact Nat.mod_mod ..
    rw [Nat.mul_succ, Nat.add_comm (64 * n), Nat.pow_add, Nat.mod_mul, ← ih, ← hw]
    exact (ofBytes_append ..).trans (by rw [length_toBytes]; rfl)

theorem groupOf_dwordsOf_of_lt {v : Nat} (h : v < 2 ^ 512) : groupOf (dwordsOf v 8) = v := by
  rw [groupOf_dwordsOf, Nat.mod_eq_of_lt h]

theorem widthOf_mem (code : Nat) : widthOf code ∈ [8, 16, 32, 64] := by
  unfold widthOf
  split <;> decide

theorem widthOf_pos (code : Nat) : 0 < widthOf code := by
  have h := widthOf_mem code
  simp only [List.mem_cons, List.not_mem_nil, or_false] at h
  omega

/-- A group is a whole number of lanes (Table VE-6). -/
theorem mul_laneCount (code : Nat) : widthOf code * laneCount code = 512 := by
  have h := widthOf_mem code
  unfold laneCount
  simp only [List.mem_cons, List.not_mem_nil, or_false] at h
  rcases h with h | h | h | h <;> rw [h]

/-- Lane j lies in the group when its first bit does. -/
theorem lt_laneCount {code j : Nat} (h : j * widthOf code < 512) : j < laneCount code := by
  rw [← mul_laneCount code, Nat.mul_comm] at h
  exact Nat.lt_of_mul_lt_mul_left h

/-- A lane of the group that holds a number is a lane of the number. -/
theorem laneOf_group {code j : Nat} (v : Nat) (h : j < laneCount code) :
    laneOf (widthOf code) (groupOf (dwordsOf v 8)) j = laneOf (widthOf code) v j := by
  have hv : groupOf (dwordsOf v 8) = laneOf (widthOf code * laneCount code) v 0 := by
    rw [groupOf_dwordsOf, mul_laneCount, laneOf_zero]
  rw [hv, laneOf_laneOf v 0 h, Nat.mul_zero, Nat.zero_add]

/-- Lanes computed one by one, in a group. -/
theorem laneOf_group_map {code j : Nat} (n : Nat) (f : Nat → Nat) (h : j < laneCount code) :
    laneOf (widthOf code) (groupOf (dwordsOf (packLanes (widthOf code) ((List.range n).map f)) 8)) j =
      if j < n then f j % 2 ^ widthOf code else 0 :=
  (laneOf_group _ h).trans (laneOf_packLanes_map ..)

/-- Two lists of lanes combined one by one. -/
theorem zipWith_map_range (f : Nat → Nat → Nat) (g h : Nat → Nat) (n : Nat) :
    List.zipWith f ((List.range n).map g) ((List.range n).map h) = (List.range n).map fun k => f (g k) (h k) := by
  simp

section
variable {code j : Nat} (a b : Nat)

theorem laneOf_zipLanes (f : Nat → Nat → Nat) (h : j < laneCount code) :
    laneOf (widthOf code) (groupOf (dwordsOf (zipLanes code f a b) 8)) j =
      f (laneOf (widthOf code) a j) (laneOf (widthOf code) b j) % 2 ^ widthOf code := by
  rw [zipLanes, lanes_eq_map, lanes_eq_map, zipWith_map_range, laneOf_group_map _ _ h, if_pos h]

theorem laneOf_mapLanes (f : Nat → Nat) (h : j < laneCount code) :
    laneOf (widthOf code) (groupOf (dwordsOf (mapLanes code f a) 8)) j = f (laneOf (widthOf code) a j) % 2 ^ widthOf code := by
  rw [mapLanes, lanes_eq_map, List.map_map, laneOf_group_map _ _ h, if_pos h]
  rfl

end

end Sys2Proof.Machine
end

section
/-! What the vector instructions compute lane by lane (R176 to R179, R182). -/

set_option Elab.async false

namespace Sys2Proof.Machine

/-! ### The operations of a lane -/

section
variable {code x y : Nat}

theorem natOf_mod (w : Nat) (z : Int) : natOf w z % 2 ^ w = (z % (2 ^ w : Nat)).toNat := by
  have hpos : (0 : Int) < (2 ^ w : Nat) := by exact_mod_cast Nat.two_pow_pos w
  refine Nat.mod_eq_of_lt ((Int.toNat_lt (Int.emod_nonneg _ hpos.ne')).mpr ?_)
  exact Int.emod_lt_of_pos z hpos

/-- An arithmetic result is rounded in a floating-point format, and wraps in an integer format (R176). -/
theorem laneArith_mod (f : Val → Val → Val) (g : Int → Int → Int) (x y : Nat) : laneArith code f g x y % 2 ^ widthOf code =
    match floatOf code with
    | some m => m.round (f (m.value x) (m.value y)) % 2 ^ widthOf code
    | none => (g x y % (2 ^ widthOf code : Nat)).toNat := by
  unfold laneArith
  cases floatOf code with
  | some m => rfl
  | none => exact natOf_mod _ _

/-- An integer format other than UINT8 holds two's complement. -/
theorem intValue_of_ne (h : code ≠ 6) (hx : x < 2 ^ widthOf code) : intValue code x = toSigned (widthOf code) x := by
  rw [intValue, if_neg h, signedOf_eq_toSigned (widthOf_pos code) hx]

theorem laneAbs_float {m : Fmt} (h : floatOf code = some m) : laneAbs code x % 2 ^ widthOf code = x % 2 ^ (widthOf code - 1) := by
  simp only [laneAbs, h]
  exact Nat.mod_eq_of_lt (lt_of_lt_of_le (Nat.mod_lt _ (Nat.two_pow_pos _)) (Nat.pow_le_pow_right (by decide) (Nat.sub_le ..)))

theorem laneNeg_float {m : Fmt} (h : floatOf code = some m) (hx : x < 2 ^ widthOf code) :
    laneNeg code x % 2 ^ widthOf code = (x + 2 ^ (widthOf code - 1)) % 2 ^ widthOf code := by
  have hw : widthOf code - 1 + 1 = widthOf code := Nat.sub_add_cancel (widthOf_pos code)
  simp only [laneNeg, h]
  rw [xor_two_pow (hw.symm ▸ hx), hw, Nat.mod_mod]

theorem laneFun_float {m : Fmt} (h : floatOf code = some m) (f : Val → Val) : laneFun code f x = m.round (f (m.value x)) := by
  simp only [laneFun, h]

theorem laneNeg_int (h : floatOf code = none) (hx : x < 2 ^ widthOf code) :
    laneNeg code x % 2 ^ widthOf code = (2 ^ widthOf code - x) % 2 ^ widthOf code := by
  have hsub : ((2 ^ widthOf code - x : Nat) : Int) = -(x : Int) + (2 ^ widthOf code : Nat) := by omega
  simp only [laneNeg, h]
  rw [natOf_mod, ← Int.add_emod_right, ← hsub, ← Int.natCast_mod, Int.toNat_natCast]

theorem laneAbs_int (h : floatOf code = none) (hx : x < 2 ^ widthOf code) : laneAbs code x % 2 ^ widthOf code =
    if code = 6 then x else (toSigned (widthOf code) x).natAbs % 2 ^ widthOf code := by
  simp only [laneAbs, h]
  rw [natOf_mod, ← Int.natCast_mod, Int.toNat_natCast]
  split
  · subst code
    have hbyte : x % 256 = x := Nat.mod_eq_of_lt hx
    rw [intValue, if_pos rfl, Int.natAbs_natCast, hbyte, Nat.mod_eq_of_lt hx]
  · rename_i hne
    rw [intValue_of_ne hne hx]

theorem laneShr_mod (hx : x < 2 ^ widthOf code) : laneShift code 1 x y % 2 ^ widthOf code = x / 2 ^ (y % widthOf code) :=
  Nat.mod_eq_of_lt ((Nat.div_le_self ..).trans_lt hx)

theorem laneSar_mod (hx : x < 2 ^ widthOf code) : laneShift code 2 x y % 2 ^ widthOf code =
    ((toSigned (widthOf code) x / (2 ^ (y % widthOf code) : Nat)) % (2 ^ widthOf code : Nat)).toNat := by
  rw [← signedOf_eq_toSigned (widthOf_pos code) hx]
  exact natOf_mod _ _

/-- A compare's lane is all ones or zero (R179). -/
theorem laneMask_mod (f : Val → Val → Bool) : laneMask code f x y % 2 ^ widthOf code =
    if f (valueOf code x) (valueOf code y) then 2 ^ widthOf code - 1 else 0 := by
  unfold laneMask
  split
  · exact Nat.mod_eq_of_lt (Nat.sub_lt (Nat.two_pow_pos _) Nat.one_pos)
  · exact Nat.zero_mod _

end

/-! ### Results in groups -/

section
variable {code j : Nat} (o a b : Nat) (v k : Word)

/-- The multiply-add rounds each lane once (R176). -/
theorem vfma_lanes {m : Fmt} (h : floatOf code = some m) (sm : Bool) (rd ra rb : Reg) (aux : Nat) (sc : Nat → Word)
    (hj : j < laneCount code) : laneOf (widthOf code) (groupOf (vectorResult (.vfma sm rd ra rb) code aux o a b sc)) j =
      m.round (((m.value (laneOf (widthOf code) a j)).mul (m.value (laneOf (widthOf code) b j))).add
        (m.value (laneOf (widthOf code) o j))) % 2 ^ widthOf code := by
  simp only [vectorResult, h, Option.getD_some, lanes_eq_map, List.zipWith_map, List.zipWith_self]
  rw [laneOf_group_map _ _ hj, if_pos hj]

theorem laneOf_vbcastOf (h : j < laneCount code) :
    laneOf (widthOf code) (groupOf (dwordsOf (vbcastOf code v) 8)) j = v.toNat % 2 ^ widthOf code := by
  have hrep : List.replicate (laneCount code) v.toNat = (List.range (laneCount code)).map fun _ => v.toNat := by simp
  rw [vbcastOf, hrep, laneOf_group_map _ _ h, if_pos h]

theorem laneOf_vinsOf (h : j < laneCount code) : laneOf (widthOf code) (groupOf (dwordsOf (vinsOf code o v k) 8)) j =
    if j = k.toNat % laneCount code then v.toNat % 2 ^ widthOf code else laneOf (widthOf code) o j := by
  have hlen : (lanes (widthOf code) (laneCount code) o).length = laneCount code := by rw [lanes_eq_map]; simp
  have hget : (lanes (widthOf code) (laneCount code) o).getD j 0 = laneOf (widthOf code) o j := by
    rw [lanes_eq_map]
    simp [h]
  rw [vinsOf, laneOf_group _ h, laneOf_packLanes]
  by_cases hk : j = k.toNat % laneCount code
  · rw [if_pos hk, ← hk, getD_set_same (hlen.symm ▸ h)]
  · rw [if_neg hk, List.getD_eq_getElem?_getD, List.getElem?_set_ne (Ne.symm hk), ← List.getD_eq_getElem?_getD, hget]
    exact Nat.mod_eq_of_lt (laneOf_lt ..)

/-- VSHUF picks bytes (R182). -/
theorem laneOf_vshufOf {n : Nat} (hn : n < 64) : laneOf 8 (groupOf (dwordsOf (vshufOf a b) 8)) n =
    if 128 ≤ laneOf 8 b n then 0 else laneOf 8 a (laneOf 8 b n % 64) := by
  rw [vshufOf, lanes_eq_map, List.map_map]
  refine (laneOf_group_map (code := 4) 64 _ hn).trans ?_
  rw [if_pos hn, Function.comp_apply]
  refine Nat.mod_eq_of_lt ?_
  split
  · decide
  · exact laneOf_lt 8 a _

end

/-- VSEL takes each bit of A or of B, as the old bit says (R179). -/
theorem testBit_vselOf (o a b : Nat) {n : Nat} (hn : n < 512) :
    (vselOf o a b).testBit n = if o.testBit n then a.testBit n else b.testBit n := by
  rw [vselOf, Nat.testBit_or, Nat.testBit_and, Nat.testBit_and, Nat.testBit_xor, Nat.testBit_two_pow_sub_one, decide_eq_true hn]
  cases o.testBit n <;> simp

theorem testBit_groupOf (v : Nat) {n : Nat} (hn : n < 512) : (groupOf (dwordsOf v 8)).testBit n = v.testBit n := by
  rw [groupOf_dwordsOf, Nat.testBit_mod_two_pow, decide_eq_true hn, Bool.true_and]

/-- VRED adds the lanes, or picks the least or largest of them (R181). -/
theorem vredOf_eq (code a : Nat) (op : BitVec 7) : [vredOf code op.toNat a] =
    (let xs := (List.range (512 / widthOf code)).map (laneOf (widthOf code) a)
     if op = 0 then (match floatOf code with
       | some m => [BitVec.ofNat 64 (m.round (sumVals (xs.map m.value)))]
       | none => [BitVec.ofInt 64 ((xs.map (intValue code)).sum)])
     else [scalarOf code (xs.tail.foldl (pickOf code (op == 2)) (xs.headD 0))]) := by
  have hop (n : BitVec 7) : op.toNat = n.toNat ↔ op = n := BitVec.toNat_inj
  have hzero : op.toNat = 0 ↔ op = 0 := hop 0
  have htwo : (op.toNat == 2) = (op == 2) := Bool.eq_iff_iff.mpr (by rw [beq_iff_eq, beq_iff_eq]; exact hop 2)
  simp only [vredOf, lanes_eq_map, laneCount, hzero, htwo]
  split
  · cases floatOf code with
    | some m => rfl
    | none => rw [List.sum_eq_foldl]; rfl
  · rfl

end Sys2Proof.Machine
end

section
/-! Conversions and dot products (R158, R180, R181). -/

set_option Elab.async false

namespace Sys2Proof.Machine

/-! ### Values far outside every integer format -/

/-- m × 2^e rounded to a natural number, ties to even. -/
def nearestNat (m : Nat) (e : Int) : Nat := if 0 ≤ e then m * 2 ^ e.toNat else shiftEven m (-e).toNat

theorem toInt_fin (s : Bool) (m : Nat) (e : Int) :
    Val.toInt (.fin s m e) = if s then -(nearestNat m e : Int) else (nearestNat m e : Int) := by
  rw [nearestNat, apply_ite Nat.cast]
  rfl

theorem two_pow_le_nearestNat {m k : Nat} {e : Int} (hm : m ≠ 0) (h : (k : Int) ≤ m.log2 + e) : 2 ^ k ≤ nearestNat m e := by
  have hlog : 2 ^ m.log2 ≤ m := Nat.log2_self_le hm
  unfold nearestNat
  split
  · calc 2 ^ k ≤ 2 ^ (m.log2 + e.toNat) := Nat.pow_le_pow_right (by decide) (by omega)
      _ = 2 ^ m.log2 * 2 ^ e.toNat := Nat.pow_add ..
      _ ≤ m * 2 ^ e.toNat := Nat.mul_le_mul_right _ hlog
  · have hq : 2 ^ k ≤ m / 2 ^ (-e).toNat := by
      rw [Nat.le_div_iff_mul_le (Nat.two_pow_pos _), ← Nat.pow_add]
      exact (Nat.pow_le_pow_right (by decide) (by omega)).trans hlog
    simp only [shiftEven]
    rw [if_neg (by omega)]
    split
    · exact hq.trans (Nat.le_succ _)
    · exact hq

/-! ### VQNT -/

/-- The rounded product with the zero point added, clamped to a range (R180). -/
def quantiseTo (lo hi z : Int) : Val → Int
  | .nan => max lo (min hi z)
  | .inf true => max lo (min hi (-2 ^ 64))
  | .inf false => max lo (min hi (2 ^ 64))
  | v => max lo (min hi (v.toInt + z))

theorem clampInt_eq {lo hi : Int} (h : lo ≤ hi) (v : Int) : clampInt lo hi v = max lo (min hi v) := by
  unfold clampInt
  split <;> omega

/-- A product of 2^81 or more gives a limit, whatever the zero point. -/
theorem clampInt_huge {lo hi z e : Int} {m : Nat} (s : Bool) (hlo : -2 ^ 15 ≤ lo) (hhi : hi < 2 ^ 15) (hle : lo ≤ hi)
    (hz : -2 ^ 15 ≤ z) (hz' : z < 2 ^ 15) (hm : m ≠ 0) (hbig : 80 < (m.log2 : Int) + e) :
    (if s then lo else hi) = clampInt lo hi (Val.toInt (.fin s m e) + z) := by
  have hnat := two_pow_le_nearestNat (k := 80) (e := e) hm (by omega)
  rw [toInt_fin]
  unfold clampInt
  cases s with
  | false =>
    rw [if_neg Bool.false_ne_true, if_neg Bool.false_ne_true, if_neg (by omega), if_pos (by omega)]
  | true =>
    rw [if_pos rfl, if_pos rfl, if_pos (by omega)]

/-- The formats up to 4 are the floating-point formats (Table FM-5). -/
theorem floatOf_some {code : Nat} (h : code < 5) : ∃ m, floatOf code = some m := by
  interval_cases code
  · exact ⟨fp32, rfl⟩
  · exact ⟨fp32, rfl⟩
  · exact ⟨fp16, rfl⟩
  · exact ⟨bf16, rfl⟩
  · exact ⟨zf8, rfl⟩

section
variable {dst : Nat} (src : Nat) (b : Word) (x : Nat)

/-- VQNT's lane in a floating-point format. -/
theorem vqntLane_float {m : Fmt} (h : floatOf dst = some m) :
    vqntLane dst src b x = m.round ((valueOf src x).mul (fp32.value (b.toNat % 2 ^ 32))) := by
  have hscale : fld b 0 32 = b.toNat % 2 ^ 32 := by rw [fld, Nat.pow_zero, Nat.div_one]
  simp only [vqntLane, h, hscale]

/-- VQNT's lane in an integer format: the zero point is the signed B[47:32] (R180). -/
theorem vqntLane_int (h5 : 5 ≤ dst) (h7 : dst ≤ 7) : vqntLane dst src b x % 2 ^ widthOf dst =
    (quantiseTo (intRange dst).1 (intRange dst).2 (toSigned 16 (b.toNat / 2 ^ 32 % 2 ^ 16))
      ((valueOf src x).mul (fp32.value (b.toNat % 2 ^ 32))) % (2 ^ widthOf dst : Nat)).toNat := by
  have hscale : fld b 0 32 = b.toNat % 2 ^ 32 := by rw [fld, Nat.pow_zero, Nat.div_one]
  have hlt : b.toNat / 2 ^ 32 % 2 ^ 16 < 2 ^ 16 := Nat.mod_lt _ (by decide)
  have hzero : signedOf 16 (fld b 32 16) = toSigned 16 (b.toNat / 2 ^ 32 % 2 ^ 16) := signedOf_eq_toSigned (by decide) hlt
  have hz : -2 ^ 15 ≤ toSigned 16 (b.toNat / 2 ^ 32 % 2 ^ 16) ∧ toSigned 16 (b.toNat / 2 ^ 32 % 2 ^ 16) < 2 ^ 15 := by
    unfold toSigned
    split <;> omega
  have hnone : floatOf dst = none := by interval_cases dst <;> rfl
  have hrange : -2 ^ 15 ≤ (intRange dst).1 ∧ (intRange dst).1 ≤ 0 ∧ 0 ≤ (intRange dst).2 ∧ (intRange dst).2 < 2 ^ 15 := by
    interval_cases dst <;> decide
  obtain ⟨hlo, hneg, hpos, hhi⟩ := hrange
  have hle := hneg.trans hpos
  simp only [vqntLane, hnone, hscale, hzero]
  rw [natOf_mod]
  refine congrArg (fun v : Int => (v % (2 ^ widthOf dst : Nat)).toNat) ?_
  cases (valueOf src x).mul (fp32.value (b.toNat % 2 ^ 32)) with
  | nan => exact clampInt_eq hle _
  | inf s =>
    cases s with
    | false =>
      show (intRange dst).2 = max (intRange dst).1 (min (intRange dst).2 (2 ^ 64))
      omega
    | true =>
      show (intRange dst).1 = max (intRange dst).1 (min (intRange dst).2 (-2 ^ 64))
      omega
  | fin s m e =>
    refine Eq.trans ?_ (clampInt_eq hle (Val.toInt (.fin s m e) + toSigned 16 (b.toNat / 2 ^ 32 % 2 ^ 16)))
    dsimp only
    split
    · rename_i hbig
      rw [Bool.and_eq_true, bne_iff_ne, decide_eq_true_eq] at hbig
      exact clampInt_huge s hlo hhi hle hz.1 hz.2 hbig.1 hbig.2
    · rfl

end

/-! ### Rounding to FP32 -/

/-- A value rounded to a format other than ZF8 fits in its bits. -/
theorem Fmt.round_lt {f : Fmt} (hzf : f.zf = false) (hfb : 0 < f.fb) (v : Val) : f.round v < 2 ^ (f.eb + f.fb + 1) := by
  have hsplit : 2 ^ (f.eb + f.fb) = (2 ^ f.eb - 1) * 2 ^ f.fb + 2 ^ f.fb := by
    rw [Nat.pow_add, ← Nat.succ_mul, Nat.succ_eq_add_one, Nat.sub_add_cancel (Nat.one_le_two_pow)]
  have hfrac := Nat.two_pow_pos f.fb
  have hbit (s : Bool) : bit s * 2 ^ (f.eb + f.fb) ≤ 2 ^ (f.eb + f.fb) := by cases s <;> simp [bit]
  have hsign (s : Bool) {c : Nat} (hc : c < 2 ^ (f.eb + f.fb)) : bit s * 2 ^ (f.eb + f.fb) + c < 2 ^ (f.eb + f.fb + 1) := by
    have := hbit s
    rw [Nat.pow_succ]
    omega
  have hover (s : Bool) : f.over s < 2 ^ (f.eb + f.fb + 1) := by
    simp only [Fmt.over, hzf, Bool.false_eq_true, if_false]
    exact hsign s (by omega)
  cases v with
  | nan =>
    have hhalf : 2 ^ (f.fb - 1) < 2 ^ f.fb := Nat.pow_lt_pow_right (by decide) (by omega)
    simp only [Fmt.round, Fmt.canonical, hzf, Bool.false_eq_true, if_false]
    rw [Nat.pow_succ]
    omega
  | inf s => exact hover s
  | fin s m e =>
    simp only [Fmt.round, hzf, Bool.false_eq_true, if_false]
    refine iteInduction (motive := (· < 2 ^ (f.eb + f.fb + 1))) (fun _ => hsign s (Nat.two_pow_pos _)) fun _ => ?_
    refine iteInduction (motive := (· < 2 ^ (f.eb + f.fb + 1))) (fun _ => hover s) fun _ => ?_
    refine iteInduction (motive := (· < 2 ^ (f.eb + f.fb + 1))) (fun _ => hover s) fun hcode => ?_
    exact hsign s (by omega)

theorem fp32_round_lt (v : Val) : fp32.round v < 2 ^ 32 := Fmt.round_lt rfl (by decide) v

/-! ### The groups -/

section
variable {code aux j : Nat} (o a b : Nat)

theorem laneOf_vcvtOf (h : j < laneCount code) : laneOf (widthOf code) (groupOf (dwordsOf (vcvtOf code aux a) 8)) j =
    if j < cvtCount code aux then convert (valueOf aux (laneOf (widthOf aux) a j)) code % 2 ^ widthOf code else 0 := by
  rw [vcvtOf, lanes_eq_map, List.map_map, laneOf_group_map _ _ h]
  rfl

theorem laneOf_vqntOf (v : Word) (h : j < laneCount code) : laneOf (widthOf code) (groupOf (dwordsOf (vqntOf code aux a v) 8)) j =
    if j < cvtCount code aux then vqntLane code aux v (laneOf (widthOf aux) a j) % 2 ^ widthOf code else 0 := by
  rw [vqntOf, lanes_eq_map, List.map_map, laneOf_group_map _ _ h]
  rfl

/-- VDOT works on the lanes of a format that lie in each 32-bit lane (R181). -/
theorem laneOf_vdotOf (hw : widthOf code * (32 / widthOf code) = 32) (h : j < 16) :
    laneOf 32 (groupOf (dwordsOf (vdotOf code o a b) 8)) j = vdotLane code (laneOf 32 o j)
      ((List.range (32 / widthOf code)).map fun i => laneOf (widthOf code) a (32 / widthOf code * j + i))
      ((List.range (32 / widthOf code)).map fun i => laneOf (widthOf code) b (32 / widthOf code * j + i)) % 2 ^ 32 := by
  have hsub (v : Nat) : lanes (widthOf code) (32 / widthOf code) (v / 2 ^ (32 * j) % 2 ^ 32) =
      (List.range (32 / widthOf code)).map fun i => laneOf (widthOf code) v (32 / widthOf code * j + i) := by
    rw [lanes_eq_map]
    refine List.map_congr_left fun i hi => ?_
    rw [← laneOf_laneOf v j (List.mem_range.mp hi), hw]
    rfl
  have hcount : j < laneCount 0 := h
  rw [vdotOf]
  refine (laneOf_group_map 16 _ hcount).trans ?_
  rw [if_pos h, hsub, hsub]
  rfl

end

section
variable {code : Nat} (x n : Nat) (f g : Nat → Nat)

/-- A floating-point lane of VDOT: one exact sum, rounded once. -/
theorem vdotLane_float {m : Fmt} (h : floatOf code = some m) :
    vdotLane code x ((List.range n).map f) ((List.range n).map g) % 2 ^ 32 =
      fp32.round (sumVals (fp32.value x :: (List.range n).map fun i => (m.value (f i)).mul (m.value (g i)))) := by
  simp only [vdotLane, h, List.zipWith_map, List.zipWith_self]
  exact Nat.mod_eq_of_lt (fp32_round_lt _)

/-- An integer lane of VDOT, modulo 2^32. -/
theorem vdotLane_int (h : floatOf code = none) : vdotLane code x ((List.range n).map f) ((List.range n).map g) % 2 ^ 32 =
    (((x : Int) + ((List.range n).map fun i => intValue code (f i) * intValue code (g i)).sum) % (2 ^ 32 : Nat)).toNat := by
  simp only [vdotLane, h, List.zipWith_map, List.zipWith_self]
  rw [natOf_mod, ← List.sum_eq_foldl]

end

end Sys2Proof.Machine
end

section
/-! The vector unit and what vector instructions compute (O37). -/

set_option Elab.async false

namespace Sys2Proof
open Sys2Proof.Machine
/-- Settles O37: the unit's queue, grant and return by what each event does; the lanes by what packing and combining lanes leave in
each. -/
theorem vectorUnitAndLanes : Obligations.VectorUnitAndLanes := by
  unfold Obligations.VectorUnitAndLanes
  refine ⟨⟨fun i s tk th hop hr hroom hlen => ?_,
      fun s d j rest => ⟨fun hwaits => ?_, fun hd hwaits hlen hq hj => ?_⟩, fun s j th hs hj hth hrun => ?_⟩,
    fun sm rd ra rb code aux o a b j sc hcode ho ha hb =>
      ⟨fun hlane => ?_, rfl, ?_, ?_, ?_, ?_, fun n hn => ?_, fun n hn => ?_, fun op => ?_⟩,
    fun sm rd ra rb code aux o a b j sc hcode haux ho ha hb =>
      ⟨fun hlane => ?_, fun h2 h7 hsrc hlane => ?_, fun hdot hlane => ?_⟩,
    fun sm rd ra rb op => ?_⟩
  · obtain ⟨hw, _, rfl, hlo, hhi⟩ := hop
    exact completes_issueVector (exec_of_vectorOp hw hlo hhi s) hr hroom hlen
  · have hn : s.vectorNext s.subj.n = none := State.vectorNext_none hwaits
    show execVectorGrant s = _
    simp only [execVectorGrant, hn]
  · have hn := State.vectorNext_some hd hwaits hq hj
    obtain ⟨t, hx, hmem, hrf, hrest, hlast, htimers, k, hk, hid, htk, hi, hresult⟩ :=
      answers_vectorGrant hn (Nat.mod_lt _ (by decide)) hlen hq
    exact ⟨t, hx, hmem, hrf, hrest, hlast, htimers, k, hk, hid, htk, hi, hresult.trans (s.granted_result j)⟩
  · exact answers_vectorReturn hs.2.1 hj hth hrun
  · have hj := lt_laneCount hlane
    have hx := laneOf_lt (widthOf code) a j
    refine ⟨?_, ?_, ?_, fun m hm => ?_, ?_, ?_, fun m hm => ⟨?_, ?_, ?_, ?_, ?_⟩, fun hm => ⟨?_, ?_⟩,
      ?_, ?_, ?_, ?_, ?_, ?_, ?_, ?_⟩
    · exact (laneOf_zipLanes a b _ hj).trans (laneArith_mod ..)
    · exact (laneOf_zipLanes a b _ hj).trans (laneArith_mod ..)
    · exact (laneOf_zipLanes a b _ hj).trans (laneArith_mod ..)
    · exact vfma_lanes o a b hm sm rd ra rb aux sc hj
    · exact laneOf_zipLanes a b _ hj
    · exact laneOf_zipLanes a b _ hj
    · exact (laneOf_mapLanes a _ hj).trans (laneAbs_float hm)
    · exact (laneOf_mapLanes a _ hj).trans (laneNeg_float hm hx)
    · exact (laneOf_mapLanes a _ hj).trans (congrArg (· % _) (laneFun_float hm recip))
    · exact (laneOf_mapLanes a _ hj).trans (congrArg (· % _) (laneFun_float hm rsqrt))
    · exact (laneOf_mapLanes a _ hj).trans (congrArg (· % _) (laneFun_float hm exp2))
    · exact (laneOf_mapLanes a _ hj).trans (laneNeg_int hm hx)
    · exact (laneOf_mapLanes a _ hj).trans (laneAbs_int hm hx)
    · exact laneOf_zipLanes a b _ hj
    · exact (laneOf_zipLanes a b _ hj).trans (laneShr_mod hx)
    · exact (laneOf_zipLanes a b _ hj).trans (laneSar_mod hx)
    · exact (laneOf_zipLanes a b _ hj).trans (laneMask_mod _)
    · exact (laneOf_zipLanes a b _ hj).trans (laneMask_mod _)
    · exact (laneOf_zipLanes a b _ hj).trans (laneMask_mod _)
    · exact laneOf_vbcastOf (sc 1) hj
    · exact laneOf_vinsOf o (sc 1) (sc 2) hj
  · exact groupOf_dwordsOf_of_lt (Nat.and_le_right.trans_lt hb)
  · exact groupOf_dwordsOf_of_lt (Nat.or_lt_two_pow ha hb)
  · exact groupOf_dwordsOf_of_lt (Nat.xor_lt_two_pow ha hb)
  · exact groupOf_dwordsOf_of_lt ha
  · exact (testBit_groupOf (vselOf o a b) hn).trans (testBit_vselOf o a b hn)
  · exact laneOf_vshufOf a b hn
  · exact vredOf_eq code a op
  · exact laneOf_vcvtOf a (lt_laneCount hlane)
  · refine (laneOf_vqntOf a (sc 2) (lt_laneCount hlane)).trans (congrArg (fun v => if j < cvtCount code aux then v else 0) ?_)
    obtain hfloat | hint := Nat.lt_or_ge code 5
    · obtain ⟨m, hm⟩ := floatOf_some hfloat
      simp only [hm]
      exact congrArg (· % 2 ^ widthOf code) (vqntLane_float aux (sc 2) _ hm)
    · refine (vqntLane_int aux (sc 2) _ hint h7).trans ?_
      interval_cases code <;> rfl
  · have hw : widthOf code * (32 / widthOf code) = 32 := by
      obtain hlow | ⟨hlow, hhigh⟩ := hdot <;> interval_cases code <;> rfl
    refine (laneOf_vdotOf o a b hw hlane).trans ?_
    cases hm : floatOf code with
    | some m =>
      simp only [List.map_map]
      exact vdotLane_float _ _ _ _ hm
    | none =>
      simp only [List.map_map]
      exact vdotLane_int _ _ _ _ hm
  · refine ⟨?_, ?_, rfl, rfl, ?_⟩ <;> simp [vectorLatency]
end Sys2Proof
end
